-- ==== Sys2Proof/Word.lean ====
section
/-! DEFINITION. The word types of the DX-2618 (00_scope R3, R4, R8) and the plainest arithmetic on them. -/

namespace Sys2Proof

/-- One byte. -/
abbrev Byte := BitVec 8

/-- One BAR0 register, BAR4 word, descriptor word (00_scope R4). -/
abbrev Word := BitVec 32

end Sys2Proof
end

