-- ==== Sys2Proof/Syntax.lean ====
section
/-! DEFINITION. The commands of the DX-2618 as a block: register and table accesses, bus and protocol events, pin events,
and the completions of the part's own engines. One constructor per row of the table of operations and events. The table
gives the rows no operands: each constructor carries what the rule of its row takes from outside the device. -/

namespace Sys2Proof

/-- What an encoder input sees: new levels of A and B (digital, 02 R46), or one sample of SIN and COS in ADC codes (analog, 02
R47). -/
inductive EncEdge where
  | quad (a b : Bool)
  | analog (sin cos : Int)
  deriving DecidableEq, Repr

/-- How an encoder check is reported: a failure that is over at once, one that lasts, or the end of one that lasted
(02 R66 asks whether a cause persists). -/
inductive CheckPhase where
  | momentary | begins | ends
  deriving DecidableEq, Repr

/-- A frame as the lane layer hands it up: the eight payload bytes of its start block, its body bytes, and whether a block
was marked errored or the frame was cut short by a new start block (09 R254–R257). -/
structure HFrame where
  start : List Byte
  body : List Byte
  startErr : Bool
  bodyErr : Bool
  cut : Bool
  deriving DecidableEq, Repr


/-- What an ADC calibration measures at one converter (18 R476, R478): averages at 0 V, +0.5 V and −0.5 V in 1/8 code with the
old trims, at 0 V and +0.5 V with the new ones, and the largest difference in codes at the handover compare and at the
return compare. -/
structure AdcMeas where
  adc : Nat
  m0 : Int
  mp : Int
  mn : Int
  r0 : Int
  rp : Int
  out : Nat
  back : Nat
  deriving DecidableEq, Repr

/-- How the training of one DRAM channel ends (10 R301, R302), as in TRAIN_DONE: the delays that pass, RFM support. -/
structure TrainRes where
  ch : Nat
  eyes : List (Nat × Nat)
  rfm : Bool
  deriving DecidableEq, Repr

/-- A failing boot-time test (18 R484): test code, memory or unit, words failed, first word. -/
structure BistRes where
  test : Nat
  target : Nat
  failed : Nat
  first : Nat
  deriving DecidableEq, Repr

/-- Where an activation is cut, by power loss or a flash error (19 R496): at the journal's erase of step 1; in step 2 once so many sectors
are recorded; in step 3 before VERIFIED is appended; in step 4 and after, the fuses blown up to a count, DONE not appended. -/
inductive ActCut where
  | journal
  | sector (n : Nat)
  | verified
  | fuses (n : Nat)
  deriving DecidableEq, Repr

/-- What the start-up sequence meets outside the registers (17 Table 17.6): ms from release to IDLE, the size in bytes that the boot flash
reports (19 R487), where an activation is cut and whether by a flash error, else by power loss (R496), the check of Table 19.4
that the active region fails because the flash lost content (R497), that a part's hash differs when step 4 compares it again (R497), failing
boot-time tests, the boot training of the channels, the die temperature in 1/16 °C, the calibration of the converters. -/
structure BootEnv where
  ms : Nat
  flash : Nat
  cut : Option ActCut
  flashErr : Bool
  activeBad : Option Nat
  partBad : Bool
  bist : List BistRes
  train : List TrainRes
  temp : Int
  adc : List AdcMeas
  deriving DecidableEq, Repr

/-- The commands of the block, one constructor per row of the table, in its order. -/
inductive Instr where
  /-- REGISTER_WRITE (R6): A host write to a BAR0 register field that has no row of its own takes effect according to its access code, with range checks under R425. -/
  | registerWrite (addr : Nat) (val : Word)
  /-- BAR0_UNALIGNED_ACCESS (R4): A BAR0 access that is not an aligned 32-bit access completes without effect, and a read returns 0. -/
  | bar0UnalignedAccess (write : Bool) (addr : Nat)
  /-- LOWER_WORD_READ (R5): A read of the lower word of a 64-bit register latches the upper word for the next read. -/
  | lowerWordRead (addr : Nat)
  /-- UPPER_WORD_WRITE (R5): A write to the upper word of a 64-bit register takes up the held lower word and the whole value, and tests ranges such as K. -/
  | upperWordWrite (addr : Nat) (val : Word)
  /-- ROC_READ (R6): A read of an ROC field returns its value and restarts the field at its restart value. -/
  | rocRead (addr : Nat)
  /-- BAR2_WRITE (R94): A host write through the BAR2 job window lands in the selected LOADING well, or is discarded and counted. -/
  | bar2Write (ofs : Nat) (data : List Byte)
  /-- BAR4_WRITE (R451): A host write of whole words to a BAR4 table lands in the Shadow view, or is discarded and counted for Active views, locked cells or slots, and clears the table's validity flag. -/
  | bar4Write (ofs : Nat) (words : List Word)
  /-- INTERVAL_1MS (R518): A 1 ms interval of the datapath clock ends, and each rate-limited event with at least one occurrence in it is raised with its count. -/
  | interval1ms
  /-- POSITION_UPDATE (R52): An encoder count changes C, and the device recomputes position, raises the weir and runs the release and fetch loop of R21 to R24. -/
  | positionUpdate (enc : Nat) (edge : EncEdge)
  /-- ENCODER_CHECK_FAIL (R50): An encoder check of Table 2.1 fails, setting its ENC_STATUS bit and, for the source or check encoder, invalidating position. -/
  | encoderCheckFail (enc cause : Nat) (phase : CheckPhase)
  /-- Z_RISING_EDGE (R54): A rising edge of Z compares the count difference with ENC_CPR when ZCHK is non-zero. -/
  | zRisingEdge (enc : Nat)
  /-- POS_SRC_CHANGE (R55): A write of POS_CTRL.SRC outside RUN re-latches position so that it carries on without a step. -/
  | posSrcChange (src : Nat)
  /-- LOAD (R56): POS_CMD.LOAD in IDLE sets position and the weir level from POS_LD. -/
  | load
  /-- RESTORE_KEEP (R66): POS_CMD.RESTORE_KEEP makes position valid again, counting on from the current count. -/
  | restoreKeep
  /-- RESTORE_LOAD (R66): POS_CMD.RESTORE_LOAD makes position valid again from POS_LD, and steps passed by a weir rise are withheld. -/
  | restoreLoad
  /-- PREDICTION_WINDOW_END (R63): A full velocity window passes after a reversal clears, and velocity follows R58 again with prediction on. -/
  | predictionWindowEnd
  /-- TRIGGER_EDGE (R67): An active edge on an enabled TRG input starts the glitch filter. -/
  | triggerEdge (input : Nat) (level : Bool)
  /-- TRIGGER_ACCEPT (R68): A trigger holds its level for the filter time, is checked against the hold-off, is stamped and creates an item. -/
  | triggerAccept (input : Nat)
  /-- TRIG_ISSUE (R79): A row's issue clock arrives, the window, order and firing conditions are tested, and the TRIG for the step is issued or the step withheld. -/
  | trigIssue (row : Nat)
  /-- INHIBIT_ASSERTED (R81): The filtered FIRE_INHIBIT_N level falls, or is low on entry to IDLE, and firing is withheld. -/
  | inhibitAsserted
  /-- INHIBIT_RELEASED (R81): The filtered FIRE_INHIBIT_N level rises and triggers resume. -/
  | inhibitReleased
  /-- WELL_DEFINE (R89): The command defines a FREE well with base, size and placement, or refuses it. -/
  | wellDefine (well place base size : Nat)
  /-- WELL_OPEN (R90): The command opens a well for intake unless a job slot references it. -/
  | wellOpen (well : Nat)
  /-- WELL_SEAL (R91): The command starts the structure check of a LOADING well. -/
  | wellSeal (well : Nat)
  /-- SEAL_COMPLETE (R519): The seal check ends and the well becomes SEALED with J_w recorded, or returns to CLOSED. -/
  | sealComplete
  /-- WELL_RELEASE (R90): The command frees a well unless a job slot references it. -/
  | wellRelease (well : Nat)
  /-- ENQUEUE (R97): The command places a job of a SEALED well in the lowest EMPTY slot with its start mode. -/
  | enqueue (well mode input gap line band : Nat)
  /-- ABORT (R102): The command aborts a queued, head or active job. -/
  | abort (slot : Nat)
  /-- SWAP (R107): The command schedules a profile swap at a line, item or job boundary, or refuses it. -/
  | swap (form : Nat) (fabric : Bool) (arg line : Nat)
  /-- SWAP_CANCEL (R109): The command removes a scheduled swap before its commit point. -/
  | swapCancel
  /-- RESUME (R112): The command discards the cisterns, withholds steps k0 to N − 1 and starts re-expansion from the seek band. -/
  | resume (line : Nat)
  /-- RESUME_READY (R115): Every line up to the frontier has reached the headraces or been placed, and the resume ends. -/
  | resumeReady
  /-- BAND_WALK_DONE (R127): The band walk has read and rechecked a band's segment headers. -/
  | bandWalkDone (slot band : Nat)
  /-- ENGINE_STAGING_FREED (R128): Dose mapping takes a beat from a full staging and the waiting engine resumes. -/
  | engineStagingFreed (engine : Nat)
  /-- SLICE_LINE_DONE (R125): An engine completes a slice-line in staging, or ends its segment with an error code, and reports band-slice results. -/
  | sliceLineDone (engine : Nat) (readErr : Option Nat)
  /-- CMPR_START (R139): CMPR_CMD.START checks the task fields and starts a compression task. -/
  | cmprStart (c : Nat)
  /-- CMPR_ABORT (R147): CMPR_CMD.ABORT ends the task ABORTED before its commit point. -/
  | cmprAbort (c : Nat)
  /-- COMPRESSOR_INPUT (R142): Input bytes arrive at a compressor, the first of a task writing the zero header. -/
  | compressorInput (c well ofs : Nat) (data : List Byte)
  /-- COMPRESSOR_BLOCK_DONE (R143): A compressor closes and verifies a block, writes it and at the end commits the segment header. -/
  | compressorBlockDone (c : Nat) (verify : Option Nat)
  /-- CMP_VALIDATE (R151): CMP_CMD.VALIDATE starts checking the Shadow template store. -/
  | cmpValidate
  /-- CMP_VALIDATE_DONE (R151): Template validation ends, setting TPL_VALID or recording the first failure. -/
  | cmpValidateDone
  /-- FLUSH (R155): CMP_CMD.FLUSH discards every unbound NEXT record. -/
  | flush
  /-- GLYPH_COMMIT (R162): The command checks the font in the selected slot and sets its VALID bit. -/
  | glyphCommit
  /-- CNT_LOAD (R157): The command loads the selected counter from its Shadow start. -/
  | cntLoad
  /-- REC_PUSH (R153): An item data record is pushed whole and queued and bound, or refused. -/
  | recPush (len : Nat)
  /-- RENDER_START (R170): A resolved, bound item with room in the image store starts rendering in both renderers. -/
  | renderStart
  /-- RENDER_COMPARE_DONE (R172): The comparator finishes comparing both renderings of an item field by field. -/
  | renderCompareDone (memErr : List (Nat × Nat)) (differ : List (Nat × Nat))
  /-- DOSE_LINE_START (R193): Dose mapping starts a raster line once the previous line has left staging and headrace admission holds. -/
  | doseLineStart
  /-- DOSE_BEAT (R194): Dose mapping takes a complete beat, computes it on both rails, compares and writes it to the headraces. -/
  | doseBeat (railErr : Bool) (memErr : List Nat)
  /-- SPILL_WRITE_DONE (R215): A headrace record's write to its DRAM middle completes and the headrace slot is freed. -/
  | spillWriteDone (cls : Nat) (poison : List Nat)
  /-- REFILL_DONE (R219): A refill read of a middle record completes into the tailrace, or is discarded if late. -/
  | refillDone (cls line : Nat) (busErr : Bool)
  /-- DOS_VALIDATE (R189): DOS_CMD.VALIDATE starts checking the Shadow screen descriptors and cells. -/
  | dosValidate
  /-- DOS_VALIDATE_DONE (R189): Screen validation ends, setting SCR_VALID or recording the first failure. -/
  | dosValidateDone
  /-- INJECT (R199): DOS_TEST.INJECT inverts a bit of rail B in the next beat leaving staging. -/
  | inject
  /-- CORRECTION_COPY_DONE (R184): The copy of the new Active correction half into the retired half ends and CORR_VALID reads 1. -/
  | correctionCopyDone
  /-- LAS_VALIDATE (R206): LAS_CMD.VALIDATE starts checking the Shadow remap half against the row table and layouts. -/
  | lasValidate
  /-- LAS_VALIDATE_DONE (R206): Remap validation ends, setting REMAP_VALID with its scatter map or recording the first failure. -/
  | lasValidateDone
  /-- PLAN (R214): LAS_CMD.PLAN in IDLE makes the cistern plan. -/
  | plan
  /-- FILL_IDENTITY (R204): LAS_CMD.FILL_IDENTITY writes DIRECT j into every Shadow entry of a nozzle that has a class. -/
  | fillIdentity
  /-- REMAP_COPY_DONE (R208): The copy of the new Active remap half into the other half ends and REMAP_VALID reads 1. -/
  | remapCopyDone
  /-- LAS_HOLD_CLR (R223): LAS_HOLD.CLR drives LINE_HOLD_REQ low. -/
  | lasHoldClr
  /-- TRAIN (R241): HPL_CMD.TRAIN starts bring-up of a head link in SEARCH. -/
  | train (port : Nat)
  /-- EI_ENTER (R246): HPL_CMD.EI_ENTER on a port that is not live sends EI_ENTER blocks and enters electrical idle. -/
  | eiEnter (port : Nat)
  /-- EI_EXIT (R248): HPL_CMD.EI_EXIT sends a training burst and enters BURST. -/
  | eiExit (port : Nat)
  /-- LOOP_START (R249): HPL_CMD.LOOP_START starts a loopback test. -/
  | loopStart (port : Nat)
  /-- LOOP_STOP (R249): HPL_CMD.LOOP_STOP ends a loopback test. -/
  | loopStop (port : Nat)
  /-- LOOP_TIME_EXPIRY (R249): HPL_LOOP_TIME passes and the loopback ends in DOWN. -/
  | loopTimeExpiry (port : Nat)
  /-- BLOCK_RECEIVED (R234): A lane block arrives, is checked, descrambled and passed through the elastic buffer. -/
  | blockReceived (lane bits act : Nat)
  /-- AM_RECEIVED (R240): An alignment marker arrives, deciding polarity and lane order, giving AM lock and reseeding the descrambler. -/
  | amReceived (lane : Nat) (payload : List Byte) (inverted : Bool)
  /-- TRAIN_BLOCK_RECEIVED (R242): A TRAIN block from the head carries RX_READY, rates, RATE_GO or loopback flags and advances bring-up. -/
  | trainBlockReceived (lane : Nat) (payload : List Byte)
  /-- PLL_LOCKED (R242): The SerDes PLL locks at the target rate and the port leaves RATE for a training burst. -/
  | pllLocked (port : Nat)
  /-- TRAIN_TIMEOUT (R243): A link does not reach UP within HPL_TRAIN_TMO and enters FAILED. -/
  | trainTimeout (port : Nat)
  /-- LANE_LOSS (R245): A loss detector fires on an UP link and the link goes DOWN, ending its frame traffic. -/
  | laneLoss (lane cause : Nat)
  /-- EI_ENTER_RECEIVED (R247): EI_ENTER blocks from the head put a non-live port into EI, or are a loss on a live port. -/
  | eiEnterReceived (port : Nat)
  /-- SIGNAL_DETECTED (R248): Signal from the head is detected in EI and the device sends a training burst. -/
  | signalDetected (lane : Nat)
  /-- LINE_FRAME_SEND (R263): A staged port line is sent as a LINE frame once the port's credit is at least 1. -/
  | lineFrameSend (port : Nat)
  /-- CREDIT (R263): A CREDIT from the head updates FREED and the port's credit, or is discarded if it would exceed H_p. -/
  | credit (port : Nat) (block : List Byte) (errored : Bool)
  /-- STATUS (R275): A STATUS frame from the head updates its flags, parameters and temperature. -/
  | status (port : Nat) (frame : HFrame)
  /-- STATUS_TIMEOUT (R275): No STATUS arrives within HPF_STATUS_TMO. -/
  | statusTimeout (port : Nat)
  /-- ECHO (R272): An ECHO from the head is compared with the line check value and the TRIG mask of its step. -/
  | echo (port : Nat) (frame : HFrame)
  /-- CMD_RSP (R278): A CMD_RSP from the head completes the outstanding command and stores its data. -/
  | cmdRsp (port tPing : Nat) (frame : HFrame)
  /-- CMD_TIMEOUT (R278): A head command is not answered within HPF_CMD_TMO and ends with TIMEOUT. -/
  | cmdTimeout (port : Nat)
  /-- PING (R259): The head command PING measures the round trip. -/
  | ping (port : Nat)
  /-- STATUS_REQ (R259): The head command STATUS_REQ asks the head for STATUS. -/
  | statusReq (port : Nat)
  /-- ELEM_CHECK (R279): The head command ELEM_CHECK is sent at once or held pending until an idle gap. -/
  | elemCheck (port : Nat)
  /-- SET_PARAM (R278): The head command SET_PARAM passes a parameter to the head. -/
  | setParam (port : Nat)
  /-- GET_PARAM (R278): The head command GET_PARAM reads a parameter from the head. -/
  | getParam (port : Nat)
  /-- CLEAR_FAULT (R278): The head command CLEAR_FAULT is sent to the head. -/
  | clearFault (port : Nat)
  /-- ELEM_CANCEL (R280): ELEM_CANCEL removes a pending element check, or returns CANCEL_LATE. -/
  | elemCancel (port : Nat)
  /-- RETRAIN (R304): DRC_CMD.RETRAIN starts level 0 or level 1 training of a channel. -/
  | retrain (ch level : Nat)
  /-- TRAIN_DONE (R303): Training of a channel ends, putting it in service or into self-refresh and TRAIN_FAIL. -/
  | trainDone (ch : Nat) (rd wr : List Nat) (rfm : Bool)
  /-- FREQ (R305): DRC_CMD.FREQ starts a frequency change to a stored point. -/
  | freq (ch point : Nat)
  /-- FREQ_DONE (R306): The frequency change completes and the channel returns to service at the new rate. -/
  | freqDone (ch : Nat) (eyes : List (Nat × Nat))
  /-- DRAM_REQUEST (R290): A requester port submits a request that is split into bursts and queued. -/
  | dramRequest (port place addr : Nat) (write : Bool) (len : Nat) (data : List Byte)
  /-- DRAM_BURST_COMPLETE (R291): A burst's data returns or its write is accepted, with ECC and tag checks on reads. -/
  | dramBurstComplete (ch id : Nat)
  /-- BURST_LATE (R291): A burst's age reaches its latency target and it becomes late. -/
  | burstLate (ch id : Nat)
  /-- REFRESH_INTERVAL (R296): tREFI passes and the refresh debt of each bank index rises, forcing a refresh at debt 4. -/
  | refreshInterval (ch sub rank : Nat)
  /-- MR4_POLL (R298): Every 1 ms the controller reads MR4 of each rank and adjusts tREFI. -/
  | mr4Poll (ch rank : Nat) (doubled : Bool)
  /-- PAGE_IDLE_EXPIRY (R295): No burst for a bank for DRC_PAGE_IDLE ns and the bank is precharged. -/
  | pageIdleExpiry (ch bank : Nat)
  /-- POWER_DOWN_TIMER (R310): A COLD rank idle for DRC_PD_TIMER ns enters power-down. -/
  | powerDownTimer (ch rank : Nat)
  /-- SCRUB (R324): ECC_CMD SCRUB starts reading and repairing a range of words. -/
  | scrub
  /-- FILL (R325): ECC_CMD FILL starts writing zero data with valid check bits over a range. -/
  | fill
  /-- ECC_ABORT (R327): ECC_CMD ABORT ends a scrub or fill after the word in progress. -/
  | eccAbort
  /-- SCRUB_DONE (R327): A scrub or fill ends with its result. -/
  | scrubDone (handled : Nat)
  /-- TEST_WRITE (R328): Test mode stores raw data, check bits and tag in one word. -/
  | testWrite
  /-- TEST_READ (R328): Test mode returns one word raw with its syndrome and status. -/
  | testRead
  /-- TEST_GEN (R328): Test mode returns the correct check bits and tag for ECC_TD. -/
  | testGen
  /-- DMA_START (R337): DMA START loads FIRST and runs a channel's chain. -/
  | dmaStart (n : Nat) (descErr : Bool)
  /-- DMA_PAUSE (R337): DMA PAUSE sets PAUSE_HOST and drains the channel. -/
  | dmaPause (n : Nat)
  /-- DMA_RESUME (R337): DMA RESUME clears PAUSE_HOST and continues the stream exactly. -/
  | dmaResume (n : Nat)
  /-- DMA_STOP (R338): DMA STOP drains the channel and ends it STOPPED. -/
  | dmaStop (n : Nat)
  /-- DMA_BURST_ISSUE (R335): A channel with a burst ready, and a held request when paced, issues it by priority and rotation. -/
  | dmaBurstIssue
  /-- DMA_BURST_DONE (R334): A DMA burst completes, ending its descriptor or chain at the end of data or on error. -/
  | dmaBurstDone (n : Nat) (host : Option (List Byte)) (descErr : Bool)
  /-- DRAIN_TIMEOUT (R342): Channels have not drained within 2 ms of a power-down request, and the power-down is refused. -/
  | drainTimeout (domain : Nat)
  /-- CRC_LOAD (R344): CRC_CMD.LOAD sets the running value to CRC_INIT. -/
  | crcLoad (u : Nat)
  /-- CRC_DATA (R344): A CRC_DATA write feeds four bytes into the unit. -/
  | crcData (u : Nat) (val : Word)
  /-- CRC_DATA8 (R344): A CRC_DATA8 write feeds one byte into the unit. -/
  | crcData8 (u : Nat) (val : Byte)
  /-- ITEM_DECIDED (R355): The last check concerning an item reports, its verdict is decided and written to the ring, item record and retention, or sent to the origin. -/
  | itemDecided (item : Nat)
  /-- PULSE_END (R359): VRD_WIDTH passes and a verdict pulse ends. -/
  | pulseEnd (output : Nat)
  /-- EVENT_LOG_WRITE (R365): One event entry is written to the log per clock from the raised and queued events, with retention copy and interrupt. -/
  | eventLogWrite
  /-- CLEAR (R368): EVT_LEVEL_CMD.CLEAR leaves BASIC when no position, quorum or total-DRAM cause persists. -/
  | clear
  /-- RESTORE (R368): EVT_LEVEL_CMD.RESTORE returns from REDUCED to FULL when no DRAM cause is active. -/
  | restore
  /-- FP_TRAIN (R373): FP_CMD TRAIN brings up a DOWN fabric port. -/
  | fpTrain (port : Nat)
  /-- FP_LOOP_START (R372): FP_CMD LOOP_START starts a loopback on a fabric port. -/
  | fpLoopStart (port : Nat)
  /-- FP_LOOP_STOP (R372): FP_CMD LOOP_STOP ends a fabric port loopback. -/
  | fpLoopStop (port : Nat)
  /-- FAB_CMD_MERGE (R399): FAB_CMD MERGE sends MERGE on an adjacent port to join two components. -/
  | fabCmdMerge (port : Nat) (far : List (Nat × Nat))
  /-- FAB_CMD_ANCHOR (R392): FAB_CMD ANCHOR on the root moves the anchor while every member is IDLE. -/
  | fabCmdAnchor (addr : Nat)
  /-- HELLO_PERIOD (R377): Every 1 ms a device sends HELLO on every UP fabric port. -/
  | helloPeriod
  /-- HELLO (R377): A HELLO arrives, making the port adjacent and updating the link delay. -/
  | hello (port : Nat) (frame : HFrame)
  /-- HELLO_TIMEOUT (R377): Three 1 ms periods pass without a valid HELLO and the port goes DOWN. -/
  | helloTimeout (port : Nat)
  /-- LSA (R379): An LSA updates the database, component, ditch map and quorum, and a root may form or admit. -/
  | lsa (port : Nat) (frame : HFrame)
  /-- FORM_TIMEOUT (R383): FAB_FORM_TMO passes and a root holding quorum floods the first ASSIGN. -/
  | formTimeout
  /-- ASSIGN (R384): An ASSIGN gives the device its address and starts time locking and reports. -/
  | assign (port : Nat) (frame : HFrame)
  /-- REPORT (R384): A member's REPORT reaches the root, which floods READY when all agree. -/
  | report (port : Nat) (frame : HFrame)
  /-- READY (R384): A READY message puts the device into fabric state READY. -/
  | ready (port : Nat) (frame : HFrame)
  /-- POS_PERIOD (R389): The anchor floods POS every FAB_POS_PER ns. -/
  | posPeriod
  /-- POS (R389): A POS message gives a device with SRC = 4 the anchor's position, weir, velocity and reversal. -/
  | pos (port : Nat) (frame : HFrame)
  /-- POS_TIMEOUT (R391): No valid POS for FAB_POS_TMO and fabric position is lost with cause 7. -/
  | posTimeout
  /-- TIME_PERIOD (R390): The anchor floods TIME every 125 µs. -/
  | timePeriod
  /-- TIME (R390): A TIME message drives the fabric time servo and is forwarded with corrections. -/
  | time (port : Nat) (frame : HFrame)
  /-- ITEM (R393): An ITEM message creates the distributed item as input 8 + n. -/
  | item (port : Nat) (frame : HFrame)
  /-- VERDICT (R394): A member's VERDICT reaches the origin and is merged into its cause mask. -/
  | verdict (port : Nat) (frame : HFrame)
  /-- SWAP_REQ (R396): The root receives a fabric swap request and floods SWAP_PREP or refuses. -/
  | swapReq (port : Nat) (frame : HFrame)
  /-- SWAP_PREP (R396): A member checks the fabric swap, schedules it tentatively and votes. -/
  | swapPrep (port : Nat) (frame : HFrame)
  /-- SWAP_VOTE (R396): The root collects a vote and floods SWAP_DECIDE on all accepts or the first refusal. -/
  | swapVote (port : Nat) (frame : HFrame)
  /-- SWAP_DECIDE (R397): The first decision commits or drops the swap on a device, and a contradicting one isolates it. -/
  | swapDecide (port : Nat) (frame : HFrame)
  /-- MERGE (R399): A MERGE message makes both ports MEMBER and joins the rosters, or is refused with ROSTER. -/
  | merge (port : Nat) (frame : HFrame) (far : List (Nat × Nat))
  /-- ANCHOR (R392): An ANCHOR message moves the anchor to a new address. -/
  | anchor (port : Nat) (frame : HFrame)
  /-- SET (R405): TIM_CMD.SET loads device time and sets VALID. -/
  | set (servo : Bool) (sec ns : Nat)
  /-- STEP (R406): TIM_CMD.STEP adds a signed offset to device time, or is refused. -/
  | step (servo : Bool) (ofs : Int)
  /-- TIM_ADJ_WRITE (R404): A write to TIM_ADJ from the owner sets the rate, clamped to ±500 ppm, or is discarded. -/
  | timAdjWrite (servo : Bool) (val : Word)
  /-- TIM_NOW_READ (R402): A read of TIM_NOW_NS latches the seconds for the next reads. -/
  | timNowRead
  /-- KEEPER_WRITE (R409): Once per second while VALID the device writes device time into the keeper counters. -/
  | keeperWrite
  /-- ANNOUNCE (R412): A PTP Announce is checked and used for best master selection. -/
  | announce (dom src : Nat) (timescale : Bool) (gm prio1 quality prio2 steps : Nat) (utc : Int) (leap : Nat)
  /-- ANNOUNCE_RECEIPT_TIMEOUT (R415): The announce receipt timeout expires and the servo enters HOLDOVER. -/
  | announceReceiptTimeout
  /-- SYNC (R415): A Sync is stamped and gives the servo an offset from master. -/
  | sync (dom src seq : Nat) (twoStep : Bool) (origin : Nat) (corr : Int)
  /-- FOLLOW_UP (R415): A Follow_Up carries the precise origin time of a two-step Sync. -/
  | followUp (dom src seq origin : Nat) (corr : Int)
  /-- DELAY_REQ (R413): A Delay_Req is stamped on receipt. -/
  | delayReq (dom src seq : Nat)
  /-- DELAY_RESP (R415): A Delay_Resp completes the path delay measurement. -/
  | delayResp (dom src seq recv : Nat) (corr : Int) (req : Nat)
  /-- PDELAY_REQ (R414): A Pdelay_Req is stamped and answered, one-step with residence time added. -/
  | pdelayReq (dom src seq : Nat)
  /-- PDELAY_RESP (R413): A Pdelay_Resp is stamped for the peer delay measurement. -/
  | pdelayResp (dom src seq : Nat) (twoStep : Bool) (recv : Nat) (corr : Int) (req : Nat)
  /-- PDELAY_RESP_FOLLOW_UP (R413): A Pdelay_Resp_Follow_Up completes a two-step peer delay measurement. -/
  | pdelayRespFollowUp (dom src seq resp : Nat) (corr : Int) (req : Nat)
  /-- STEP_RETRY (R416): Once per second in REFUSED the servo repeats its STEP with the offset then measured. -/
  | stepRetry
  /-- TS_TX_POP (R414): A read of TS_TX_POP returns the oldest transmit stamp and advances the queue. -/
  | tsTxPop
  /-- PHY_POLL (R418): Every 100 ms the device polls the PHY registers and takes link and speed. -/
  | phyPoll (r0 r1 r5 r10 : Nat)
  /-- NET_MDIO_ACCESS (R418): A write of NET_MDIO performs a raw clause 22 access. -/
  | netMdioAccess (val : Word) (phy : Nat)
  /-- ARP (R421): An ARP frame is answered for the own address or refreshes the cache. -/
  | arp (op sha spa tpa : Nat)
  /-- ARP_EXPIRY (R421): An ARP cache entry is removed after 300 s. -/
  | arpExpiry (ip : Nat)
  /-- ICMP_ECHO (R421): An ICMP echo request is answered with the same payload. -/
  | icmpEcho (src dst : Nat) (data : List Byte)
  /-- SESSION_OPEN (R430): An IOP SESSION_OPEN opens a Basic session with a nonce, or replays or is refused FULL. -/
  | sessionOpen (ip port seq : Nat)
  /-- SESSION_CLOSE (R429): An IOP SESSION_CLOSE ends a session and closes its segmented writes. -/
  | sessionClose (ip port session seq : Nat)
  /-- SESSION_TIMEOUT (R429): A session receives no valid request for the idle timeout and ends. -/
  | sessionTimeout (session : Nat)
  /-- ELEVATE (R431): An IOP ELEVATE proof makes the session Expert or is refused. -/
  | elevate (ip port session seq : Nat) (proof : List Byte)
  /-- KEEPALIVE (R435): An IOP KEEPALIVE returns the device state and level. -/
  | keepalive (ip port session seq : Nat)
  /-- READ (R436): An IOP READ returns the values of its items. -/
  | read (ip port session seq count : Nat) (body : List Byte) (memErr : Option Nat)
  /-- WRITE (R436): An IOP WRITE checks and applies its items, atomically if ATOMIC is set. -/
  | write (ip port session seq count : Nat) (atomic : Bool) (body : List Byte) (memErr : Option Nat)
  /-- INFO (R433): An IOP INFO returns the type, access, level and default of its items. -/
  | info (ip port session seq count : Nat) (body : List Byte)
  /-- DEV_MBX_DOORBELL (R442): A doorbell write has the device handle the mailbox message as an IOP request and post the response. -/
  | devMbxDoorbell (len : Nat)
  /-- REVERT (R445): PROFILE REVERT copies the Active profile into the Shadow profile. -/
  | revert
  /-- SAVE (R447): The store command SAVE starts writing the settings to the older slot. -/
  | save
  /-- STORE_SAVED (R447): A SAVE ends after write and read-back. -/
  | storeSaved (flashErr : Bool)
  /-- STORE_LOAD (R449): The store command LOAD in IDLE writes the newest slot into device settings and the Shadow profile. -/
  | storeLoad
  /-- ERASE (R449): The store command ERASE in IDLE invalidates both slots. -/
  | erase (flashErr : Bool)
  /-- BAR0_VALUE_ACCESS (R452): A read or write of object 0x6000.02 performs a host access of BAR0 at 0x6000.01. -/
  | bar0ValueAccess (write : Bool) (val : Word)
  /-- BAR4_VALUE_ACCESS (R452): A read or write of object 0x6000.04 performs a host access of BAR4 at 0x6000.03. -/
  | bar4ValueAccess (write : Bool) (val : Word)
  /-- PWR_DOM_ON (R458): PWR_DOM_CMD ON powers a domain and releases its reset. -/
  | pwrDomOn (domain : Nat)
  /-- DOMAIN_ON (R458): A domain is powered with its blocks at reset values. -/
  | domainOn (domain : Nat)
  /-- PWR_DOM_OFF (R457): PWR_DOM_CMD OFF is checked and starts the drain of the domain. -/
  | pwrDomOff (domain : Nat)
  /-- DOMAIN_OFF (R457): After the drain the domain's blocks quiesce and it is isolated and switched off. -/
  | domainOff (domain : Nat)
  /-- VDDQ_FAULT (R455): A VDDQ rail leaves its range and PD_DRAMc is switched off at once. -/
  | vddqFault (ch : Nat)
  /-- SUPPLY_FAULT (R454): A main rail leaves its range for more than 2 µs and the device is reset. -/
  | supplyFault (rail : Nat)
  /-- PORST_ASSERT (R454): PORST_N goes low and resets everything except the keeper. -/
  | porstAssert
  /-- PORST_RELEASE (R466): PORST_N rises and the device runs the boot sequence to IDLE. -/
  | porstRelease (env : BootEnv)
  /-- CLOCK_FAILURE (R465): SYSCLK_IN stops or the core PLL loses lock and the device resets. -/
  | clockFailure
  /-- MAIN_POWER_LOSS (R460): Main supplies are lost while the keeper runs on VKEEP and the device enters KEEP. -/
  | mainPowerLoss
  /-- KEEPER_SUPPLY_LOW (R460): The keeper supply falls below 1.8 V and the power-fail flag is set. -/
  | keeperSupplyLow
  /-- PERST_ASSERT (R463): PERST_N low resets the PCIe endpoint while the print path continues. -/
  | perstAssert
  /-- SYSTEM (R462): PWR_RST_CMD SYSTEM with the key resets the device except the PCIe endpoint. -/
  | system (force : Bool) (env : BootEnv)
  /-- MGMT (R462): PWR_RST_CMD MGMT with the key resets the management processors. -/
  | mgmt
  /-- PWR_WDT_KICK (R464): A kick restarts the management watchdog. -/
  | pwrWdtKick
  /-- WATCHDOG_EXPIRY (R464): PWR_WDT passes without a kick and the management processors are reset. -/
  | watchdogExpiry
  /-- ARM (R471): DEV_STATE_CMD ARM checks the state, level, fabric, domain, plan, offsets and swaps, and enters ARMED priming the head job. -/
  | arm
  /-- RUN (R471): DEV_STATE_CMD RUN moves ARMED to RUN. -/
  | run
  /-- DISARM (R471): DEV_STATE_CMD DISARM returns ARMED to IDLE. -/
  | disarm
  /-- STOP (R472): DEV_STATE_CMD STOP moves RUN to IDLE when no job is ACTIVE. -/
  | stop
  /-- TRST (R511): TRST_N low holds the TAP in Test-Logic-Reset. -/
  | trst (low : Bool)
  /-- CAL_ADC (R477): CAL_CMD ADC starts calibrating the converters in the mask, behind the spare for those in use. -/
  | calAdc
  /-- CAL_DONE (R476): An ADC calibration command ends and the new trims are applied or the old ones kept. -/
  | calDone (meas : List AdcMeas)
  /-- BIST (R485): CAL_CMD BIST starts the selected test on its target, or refuses it. -/
  | bist
  /-- CAL_ABORT (R486): CAL_CMD ABORT ends a running test after the word or burst in progress. -/
  | calAbort
  /-- BIST_DONE (R486): A test run ends with its result, contents unchanged. -/
  | bistDone (handled failed first : Nat)
  /-- BANDGAP_CHECK (R474): Every 1 ms the band-gap is compared with the second reference cell. -/
  | bandgapCheck (diff : Int)
  /-- DIE_TEMP_CHANGE (R503): The measured die temperature crosses a threshold. -/
  | dieTempChange (temp : Int)
  /-- UPD_BEGIN (R492): UPD_CMD BEGIN takes the bundle length and starts erasing the staging region. -/
  | updBegin
  /-- UPD_ERASE_DONE (R492): The staging erase ends and staging becomes LOADING. -/
  | updEraseDone (ok : Bool)
  /-- UPD_BLOCK (R493): UPD_CMD BLOCK programs, reads back and compares one block at UPD_NEXT. -/
  | updBlock (flashErr : Bool)
  /-- UPD_VERIFY (R494): UPD_CMD VERIFY starts the bundle checks over staging. -/
  | updVerify
  /-- UPD_VERIFIED (R494): Verification ends and staging becomes VERIFIED or INVALID. -/
  | updVerified
  /-- UPD_ACTIVATE (R495): UPD_CMD ACTIVATE writes a PENDING journal record and staging becomes PENDING. -/
  | updActivate (flashErr : Bool)
  /-- UPD_CANCEL (R495): UPD_CMD CANCEL erases the journal or staging state. -/
  | updCancel (flashErr : Bool)
  /-- EXTEST (R513): The TAP instruction EXTEST drives pins from boundary scan only while PORST_N is low. -/
  | extest (pins load : List Bool)
  /-- IDCODE (R512): The TAP instruction IDCODE selects the 0x1261_823B identification register. -/
  | idcode
  /-- SAMPLE_PRELOAD (R514): The TAP instruction SAMPLE/PRELOAD samples and loads the boundary-scan register. -/
  | samplePreload (pins load : List Bool)
  /-- CLAMP (R513): The TAP instruction CLAMP holds the pins while PORST_N is low, otherwise acting as BYPASS. -/
  | clamp
  /-- HIGHZ (R513): The TAP instruction HIGHZ floats the pins while PORST_N is low, otherwise acting as BYPASS. -/
  | highz
  /-- BYPASS (R511): The TAP instruction BYPASS, and every unlisted code, selects the bypass register. -/
  | bypass
  /-- RAILS_BACK_IN_RANGE (R454): After a supply reset, the main rails return to their monitor windows and the device leaves reset and boots. -/
  | railsBackInRange (env : BootEnv)
  /-- SYSCLK_IN_RESTORED (R465): SYSCLK_IN returns after a clock failure, the reset is released and the device boots. -/
  | sysclkInRestored (env : BootEnv)
  /-- PERST_RELEASE (R463): PERST_N rises, the PCIe endpoint trains again and answers configuration requests within 100 ms, and host intake resumes. -/
  | perstRelease
  /-- KEEPER_POWER_UP (R460): The keeper supply returns after falling below 1.8 V, and the keeper clears its counters and zeroes the retention with the power-fail flag set. -/
  | keeperPowerUp
  /-- NET_FRAME_RECEIVED (R419): A frame arrives at the management MAC and is filtered, queued or discarded and counted, including overflow, non-matching IP or UDP, PTP Management and Signaling, and IOP messages that are discarded or answered VERSION, FORMAT or OPCODE. -/
  | netFrameReceived (frame : List Byte) (taken : Bool)
  /-- PTP_MESSAGE_INTERVAL (R414): A PTP send interval (logSyncInterval, logMinDelayReqInterval, logAnnounceInterval) expires and the device sends Sync, Delay_Req, Pdelay_Req or Announce with egress stamping. -/
  | ptpMessageInterval (kind : Nat)
  deriving DecidableEq, Repr

end Sys2Proof
end

