-- ==== Sys2Proof/Config.lean ====
section
/-! DEFINITION. What one device fixes (fuses, firmware) and every value the spec leaves open: constants without a body,
so that a statement holds whatever they are. -/

namespace Sys2Proof

/-- 64-bit device ID from the fuses (00_scope R17). [DESIGN CHOICE, safe, log 12] -/
opaque Config.deviceId : BitVec 64

/-- Silicon stepping of the marking (00_scope R16). [DESIGN CHOICE, safe, log 12] -/
opaque Config.stepping : BitVec 8

/-- What a counter field (register address, width, value it would pass) holds after it passes its largest value:
the spec states no wrap and no saturation for most counters. [DESIGN CHOICE, safe, log 11; DESIGN CHOICE, safe, log 28] -/
opaque Config.counterOver : Nat → Nat → Nat

/-- Check-bit column of data bit j of a code word with `w` data bits: the spec names the codes' sizes, not their matrices
(11 Table 11.1, R312). [DESIGN CHOICE, safe, log 79] -/
opaque Config.eccCol : (w j : Nat) → Nat

/-- What the match search of a compressor proposes as the bits of a block's Huffman form at effort 1–3: the spec bounds the search and
does not fix its result (04 R140, R141, Table 4.4). Arguments: effort, DIST_LIM, input before the block, the block's input, last block. [DESIGN CHOICE, safe, log 47] -/
opaque Config.blockBits : (effort distLim : Nat) → (before block : List (BitVec 8)) → (final : Bool) → List Bool

/-- The DotCode image of content on a w × h field, or none where it does not fit: the spec names the AIM DotCode
specification and does not hold its tables (05 R165). Rows top to bottom, bit 0 leftmost; `none` in the content is FNC1. [PRESUMED, safe, log 57] -/
opaque Config.dotcode : (w h : Nat) → (data : List (Option (BitVec 8))) → Option (List Nat)

/-- Dots above a font that is shorter than its box: the spec aligns text across the box only (05 R163). [DESIGN CHOICE, safe, log 55] -/
opaque Config.textTop : (boxHeight fontHeight : Nat) → Nat

/-- clockIdentity of the own PTP clock: the spec does not say how it is formed (15 R412). [PRESUMED, unsafe, log 84] -/
opaque Config.clockIdentity : Nat

/-- clockQuality of the own PTP clock (class, accuracy, variance as one 32-bit number): not given (15 R412). [PRESUMED, unsafe, log 84] -/
opaque Config.clockQuality : Nat

/-- SHA-256 of the signer's public key as fused into the device, big-endian (19 R489). [DESIGN CHOICE, safe, log 12] -/
opaque Config.keyHash : BitVec 256

/-- Bundle version of the bundle the part ships with (19 Table 19.2: "from manifest"). [DESIGN CHOICE, unsafe, log 7; DESIGN CHOICE, safe, log 12] -/
opaque Config.shippedVersion : BitVec 32

/-- Security version of that bundle (19 R490). [DESIGN CHOICE, unsafe, log 7] -/
opaque Config.shippedSvn : BitVec 7

/-- Schema version of that bundle (19 R498). [DESIGN CHOICE, unsafe, log 7] -/
opaque Config.shippedSchema : BitVec 32

/-- The bytes of that bundle (19 R496: an activation copies over them sector by sector). [DESIGN CHOICE, unsafe, log 7] -/
opaque Config.shippedImage : List (BitVec 8)

/-- What a read-only register (address) shows where the spec states no value for it; the second argument is what it depends on. [DESIGN CHOICE, safe, log 13] -/
opaque Config.unstated : Nat → Nat → Nat

/-- The roster (address, ID) of a far component at a MERGE that a register write starts; the argument is the counter the step advances (14 R399). [DESIGN CHOICE, unsafe, log 71] -/
opaque Config.farRoster : Nat → List (Nat × Nat)

/-- A fresh free value: argument, the counter the step reads and advances. [DESIGN CHOICE, safe, log 10; DESIGN CHOICE, safe, log 73] -/
opaque Config.freeValue : Nat → Nat → Nat

end Sys2Proof
end

