-- ==== Sys2Proof/Machine/Events.lean ====
section
/-! DEFINITION. The event codes of the spec's event tables (00_scope R13): class, block and code in 0xSBCC; each comment is
the table's description of the 64-bit detail. -/

namespace Sys2Proof.Machine

/-- [31:0] backward travel in counts -/
def Ev.REVERSAL : Nat := 0x4101
/-- [47:0] weir level, whole lines -/
def Ev.REVERSAL_CLEARED : Nat := 0x0102
/-- [7:0] cause per Table 2.1, R55, R57; [15:8] encoder -/
def Ev.POS_INVALID : Nat := 0x8103
/-- [0] 1 = loaded -/
def Ev.POS_RESTORED : Nat := 0x0104
/-- [31:0] counts measured; [39:32] encoder -/
def Ev.ENC_Z_MISMATCH : Nat := 0x4105
/-- [47:0] trigger position, whole lines; [55:48] input -/
def Ev.ITEM_OVERFLOW : Nat := 0xC106
/-- [7:0] input -/
def Ev.ITEM_OFFSET_SHORT : Nat := 0x8107
/-- [8:0] row; [63:16] step -/
def Ev.FIRE_WINDOW : Nat := 0x8108
/-- [8:0] row; [31:16] lateness in 2^−16 line -/
def Ev.FIRE_LATE : Nat := 0x4109
/-- — -/
def Ev.INHIBIT_ASSERTED : Nat := 0x010A
/-- — -/
def Ev.INHIBIT_RELEASED : Nat := 0x010B
/-- [31:0] item number offered; [39:32] input; trigger position in the position field -/
def Ev.ITEM_CLASH : Nat := 0xC10C
/-- [3:0] slot; [63:16] S -/
def Ev.JOB_STARTED : Nat := 0x0201
/-- [3:0] slot; [5:4] outcome; [63:32] lines released -/
def Ev.JOB_ENDED : Nat := 0x0202
/-- [3:0] slot -/
def Ev.ABORT_LATE : Nat := 0x4203
/-- [3:0] slot; [63:16] S -/
def Ev.JOB_MISSED : Nat := 0x8204
/-- [3:0] well; [15:8] check; [63:16] offset -/
def Ev.SEAL_FAIL : Nat := 0x8205
/-- [31:0] discards in the interval -/
def Ev.INTAKE_DISCARD : Nat := 0x4206
/-- [3:0] well -/
def Ev.WELL_UNREADABLE : Nat := 0x8207
/-- [63:16] N, or 0 until converted -/
def Ev.SWAP_SCHEDULED : Nat := 0x0208
/-- [31:0] profile generation -/
def Ev.SWAP_DONE : Nat := 0x0209
/-- [7:0] result code -/
def Ev.SWAP_REFUSED : Nat := 0x820A
/-- — -/
def Ev.SWAP_CANCEL_LATE : Nat := 0x420B
/-- [63:16] N -/
def Ev.RESUME_STARTED : Nat := 0x020C
/-- [63:16] N -/
def Ev.RESUME_READY : Nat := 0x020D
/-- [63:16] N -/
def Ev.RESUME_LATE : Nat := 0x820E
/-- [4:0] slice; [7:5] plane; [15:8] code per Table 4.1; [47:16] band -/
def Ev.SEG_ERROR : Nat := 0x8301
/-- [4:0] slice; [7:5] plane; [47:16] band -/
def Ev.SEG_CRC : Nat := 0x8302
/-- [4:0] slice; [15:8] segments per band -/
def Ev.SLICE_SEGMENTS : Nat := 0x8303
/-- [0] compressor; [63:16] input offset -/
def Ev.CMPR_VERIFY : Nat := 0x8310
/-- [0] compressor; [63:32] payload length -/
def Ev.CMPR_NO_GAIN : Nat := 0x4311
/-- [0] compressor; [63:32] excess bytes -/
def Ev.CMPR_INPUT : Nat := 0x4312
/-- [0] compressor; [7:4] well -/
def Ev.CMPR_WELL_LOST : Nat := 0x8313
/-- [7:0] fields blanked -/
def Ev.DATA_LATE : Nat := 0x4401
/-- [31:0] profile generation -/
def Ev.RENDER_LATE : Nat := 0x4402
/-- [4:0] field; [15:8] A result; [23:16] B result; [24] A_SIDE -/
def Ev.TWIN_MISMATCH : Nat := 0x8403
/-- [4:0] field; [15:8] result per Table 5.13; [31:16] content byte -/
def Ev.FIELD_ERROR : Nat := 0x4404
/-- [4:0] field -/
def Ev.FIELD_MEMORY : Nat := 0x8405
/-- [3:0] counter; [8] 1 = counter not loaded (R158) -/
def Ev.COUNTER_END : Nat := 0x4406
/-- [3:0] set; [11:8] index -/
def Ev.ITEM_NO_TEMPLATE : Nat := 0x4407
/-- [15:0] records discarded -/
def Ev.REC_FLUSHED : Nat := 0x0408
/-- [7:0] check; [63:32] offset -/
def Ev.VALIDATE_FAIL : Nat := 0x4409
/-- [4:0] slice; [11:5] beat; [63:16] raster line -/
def Ev.DOSE_MISMATCH : Nat := 0x8501
/-- [4:0] slice; [7:5] source: 1 correction, 2 threshold, 3 field image, 4 expander staging; [63:16] raster line -/
def Ev.DOSE_MEMORY : Nat := 0x8502
/-- [4:0] field; [7:5] field plane; [10:8] column plane; item number in the log entry -/
def Ev.FIELD_PLANE : Nat := 0x4503
/-- [7:0] check; [31:16] DOS_CHECK_INFO -/
def Ev.SCREEN_INVALID : Nat := 0x4504
/-- [31:0] dry port mask; [35:32] causes: bit 0 PLACEHOLDER, 1 TAILRACE, 2 MEMORY, 3 CHANNEL; step k in the position field -/
def Ev.DRY_LINE : Nat := 0x8601
/-- [31:0] port mask; step k in the position field -/
def Ev.SLUICE_SHUT : Nat := 0x8602
/-- [3:0] slot; [11:8] job depth; [15:12] D_s -/
def Ev.DEPTH_EXCEEDED : Nat := 0x8603
/-- [7:0] check; [49:32] LAS_CHECK_INFO -/
def Ev.REMAP_INVALID : Nat := 0x4604
/-- [31:0] LAS_SIZE_RATE -/
def Ev.CISTERN_SIZE : Nat := 0x4605
/-- [1:0] 0 SRAM pool, 1 size, 2 overlap, 3 channel; [8] fallback -/
def Ev.CISTERN_REGION : Nat := 0x8606
/-- [3:0] cause bits -/
def Ev.HOLD_ASSERTED : Nat := 0x0607
/-- [0] 1 = by RESUME -/
def Ev.HOLD_RELEASED : Nat := 0x0608
/-- [0] fallback channel -/
def Ev.CISTERN_RELOCATED : Nat := 0x8609
/-- [4:0] port; [6:5] rate code; [7] bonded; [31:16] bring-up time, µs -/
def Ev.LANE_UP : Nat := 0x0701
/-- [4:0] port; [15:8] cause per Table 8.6 -/
def Ev.LANE_TRAIN_FAIL : Nat := 0x8702
/-- [4:0] port; [15:8] cause per Table 8.6 -/
def Ev.LANE_DOWN : Nat := 0x8703
/-- [4:0] port; [31:16] invalid blocks in the 1 ms interval -/
def Ev.LANE_CODE_ERR : Nat := 0x4704
/-- [4:0] port; [8] 1 = entered at the head's request -/
def Ev.LANE_EI : Nat := 0x0705
/-- [4:0] port; [9:8] mode; [15:10] cause, 0 = completed; [63:32] bit errors, saturating -/
def Ev.LOOP_DONE : Nat := 0x0706
/-- [4:0] port; [15:8] H_p; [31:16] D_p, ns -/
def Ev.PORT_READY : Nat := 0x0710
/-- [4:0] port; [11:8] cause -/
def Ev.PORT_UNFIT : Nat := 0x8711
/-- [4:0] port; [31:16] discards in the interval -/
def Ev.FRAME_ERROR : Nat := 0x4712
/-- [4:0] port; [20:5] rows; [27:24] cause; step in the position field -/
def Ev.ECHO_NOT_FIRED : Nat := 0x8713
/-- [4:0] port; [20:5] fired mask; step in the position field -/
def Ev.ECHO_UNEXPECTED : Nat := 0x8714
/-- [4:0] port; [63:32] readback; step in the position field -/
def Ev.ECHO_CHECK : Nat := 0x8715
/-- [4:0] port; [8] 1 = LINK; step in the position field -/
def Ev.ECHO_MISSING : Nat := 0x8716
/-- [4:0] port; first step in the position field -/
def Ev.STEPS_LOST : Nat := 0x8717
/-- [4:0] port; [63:32] HPF_SLUICE_RATE -/
def Ev.SLUICE_RATE : Nat := 0x4718
/-- [4:0] port; [31:16] temperature -/
def Ev.HEAD_TEMP_LIMIT : Nat := 0x8719
/-- [4:0] port; [31:16] temperature -/
def Ev.HEAD_TEMP_CLEAR : Nat := 0x071A
/-- [4:0] port; [31:16] temperature -/
def Ev.HEAD_TEMP_WARN : Nat := 0x471B
/-- [4:0] port; [31:16] head fault code -/
def Ev.HEAD_FAULT : Nat := 0x871C
/-- [4:0] port -/
def Ev.STATUS_TIMEOUT : Nat := 0x471D
/-- [4:0] port; [15:8] candidates; [23:16] result -/
def Ev.ELEM_DONE : Nat := 0x071E
/-- [0] channel; [1] level; [14:8] smallest eye width, 1/64 UI -/
def Ev.TRAIN_DONE : Nat := 0x0801
/-- [0] channel; [1] level; [2] subchannel; [3] rank; [6:4] lane; [7] 0 read, 1 write; [14:8] width found -/
def Ev.TRAIN_FAIL : Nat := 0xC802
/-- [0] channel; [12:8] lane steps completed -/
def Ev.SWEEP_ABORTED_FREQ : Nat := 0x4803
/-- [0] channel; [2:1] point; [31:16] MT/s -/
def Ev.FREQ_DONE : Nat := 0x0804
/-- [0] channel; [15:8] port mask; [47:16] late bursts in the interval -/
def Ev.LATENCY_LATE : Nat := 0x4805
/-- [0] channel; [1] subchannel; [2] rank; [4:3] bank index -/
def Ev.REFRESH_FORCED : Nat := 0x4806
/-- [0] channel -/
def Ev.RFM_UNSUPPORTED : Nat := 0x4807
/-- [0] channel; [1] rank; [2] 1 = doubled -/
def Ev.REFRESH_RATE : Nat := 0x0808
/-- [0] channel -/
def Ev.CHANNEL_IN_SERVICE : Nat := 0x0809
/-- [0] channel; [3:1] state -/
def Ev.CHANNEL_OUT : Nat := 0x880A
/-- [4:0] memory; [31:16] corrections in the interval, saturating -/
def Ev.ECC_CORRECTED : Nat := 0x0901
/-- [4:0] memory; [7:5] kind 1 SYNDROME, 2 TAG; [15:8] requester; [63:16] word -/
def Ev.ECC_UNCORRECTABLE : Nat := 0x8902
/-- [4:0] memory; [15:8] requester; [63:16] word -/
def Ev.ECC_WRITE_REFUSED : Nat := 0x8903
/-- [4:0] memory; [7:5] result; [31:16] words fixed; [47:32] uncorrectable, both saturating -/
def Ev.SCRUB_DONE : Nat := 0x0904
/-- [63:16] word -/
def Ev.MGMT_MEMORY : Nat := 0xC905
/-- [5:0] channel; [11:8] end code 4–9; [25:16] descriptor; [63:32] DMA_REMAIN -/
def Ev.DMA_HALT : Nat := 0x8A01
/-- [5:0] channel; [8] compressor; [63:32] bytes of the late burst -/
def Ev.WITHDRAWN_LATE : Nat := 0x4A02
/-- [3:0] domain; [15:8] channels not drained -/
def Ev.DOMAIN_DRAIN_REFUSED : Nat := 0x4A03
/-- [5:0] channel; [25:16] descriptor; [63:32] computed result -/
def Ev.CRC_STRIP_FAIL : Nat := 0x8A04
/-- [5:0] unit; [31:16] discards in the 1 ms interval -/
def Ev.CRC_WRITE_DISCARDED : Nat := 0x4A05
/-- [3:0] active causes; [7:4] channel out -/
def Ev.LEVEL_REDUCED : Nat := 0x8001
/-- [3:0] active causes; [5:4] previous level -/
def Ev.LEVEL_BASIC : Nat := 0xC002
/-- [1:0] new level; [3:2] previous level; [11:8] latched causes -/
def Ev.LEVEL_RESTORED : Nat := 0x0003
/-- [31:0] new 0x3410.03, Hz; [63:32] previous, Hz -/
def Ev.RATE_FELL : Nat := 0x4004
/-- [1:0] output; item number in the entry -/
def Ev.VERDICT_LATE : Nat := 0x4005
/-- [5:0] device address; item number in the entry -/
def Ev.REMOTE_VERDICT_MISSING : Nat := 0x8006
/-- [31:0] ring entries lost in the interval -/
def Ev.VERDICT_LOST : Nat := 0x4007
/-- — -/
def Ev.RESUME_REQUIRED : Nat := 0x0008
/-- [5:0] address; [13:8] members; [63:32] formation -/
def Ev.FAB_READY : Nat := 0x0B01
/-- [2:0] port; [15:8] cause per Table 8.6, 11 HELLO, 12 UNDECIDED -/
def Ev.FAB_PORT_DOWN : Nat := 0x8B02
/-- [5:0] root address; [13:8] members; [63:32] formation -/
def Ev.FAB_REFORMED : Nat := 0x0B03
/-- [6:0] m; [14:8] N_cfg; [16] anchor present -/
def Ev.QUORUM_LOST : Nat := 0xCB04
/-- [6:0] m -/
def Ev.QUORUM_HELD : Nat := 0x0B05
/-- [3:0] cause 1–5 per R382 -/
def Ev.FORM_REFUSED : Nat := 0x8B06
/-- [5:0] address; [63:16] low 48 bits of ID -/
def Ev.DEVICE_ADMITTED : Nat := 0x0B07
/-- [63:16] low 48 bits of ID -/
def Ev.DEVICE_NOT_ADMITTED : Nat := 0x4B08
/-- [2:0] fabric state -/
def Ev.ARM_REFUSED_FABRIC : Nat := 0x8B09
/-- [31:0] offset, signed ns -/
def Ev.TIME_OFFSET : Nat := 0x4B0A
/-- [5:0] origin address; item number in the entry -/
def Ev.ITEM_NUMBER_CLASH : Nat := 0x4B0B
/-- [31:0] discards in the 1 ms interval -/
def Ev.ROUTE_DISCARD : Nat := 0x4B0C
/-- [15:0] swap ID -/
def Ev.SWAP_UNDECIDED : Nat := 0x8B0D
/-- [2:0] port; [13:8] members -/
def Ev.MERGE_DONE : Nat := 0x0B0E
/-- [63:0] new seconds -/
def Ev.TIME_SET : Nat := 0x0C01
/-- [63:0] offset, signed ns -/
def Ev.TIME_STEPPED : Nat := 0x0C02
/-- [7:0] result; [63:16] offset, signed ns, saturating -/
def Ev.TIME_STEP_REFUSED : Nat := 0x4C03
/-- — -/
def Ev.TIME_INVALID : Nat := 0x8C04
/-- [31:0] TIM_ADJ -/
def Ev.PTP_LOCKED : Nat := 0x0C05
/-- [31:0] TIM_ADJ held -/
def Ev.PTP_HOLDOVER : Nat := 0x4C06
/-- [63:0] clockIdentity of the new parent -/
def Ev.PTP_PARENT : Nat := 0x0C07
/-- [7:0] domainNumber; [8] ptpTimescale -/
def Ev.PTP_FOREIGN : Nat := 0x4C08
/-- [0] up; [2:1] speed 0 10, 1 100, 2 1,000 -/
def Ev.NET_LINK : Nat := 0x0C09
/-- [47:0] other MAC address -/
def Ev.IP_CONFLICT : Nat := 0x4C0A
/-- [31:0] frames lost in the interval -/
def Ev.NET_RX_OVF : Nat := 0x4C0B
/-- [1:0] slot; [63:32] save sequence -/
def Ev.STORE_SAVED : Nat := 0x0010
/-- [7:0] result -/
def Ev.STORE_FAILED : Nat := 0x8011
/-- [1:0] slot; [63:32] save sequence -/
def Ev.STORE_LOADED : Nat := 0x0012
/-- — -/
def Ev.STORE_DEFAULTS : Nat := 0x4013
/-- [31:0] source IPv4 address, big-endian; [39:32] code -/
def Ev.ELEVATE_REFUSED : Nat := 0x4014
/-- [15:0] session ID -/
def Ev.SESSION_EXPERT : Nat := 0x0015
/-- [31:0] messages discarded in the 1 ms interval -/
def Ev.IOP_DISCARD : Nat := 0x4016
/-- [15:0] ms to IDLE; [23:16] PWR_RST_CAUSE -/
def Ev.BOOT_DONE : Nat := 0x0D01
/-- [7:0] step; [15:8] code -/
def Ev.BOOT_HALT : Nat := 0xCD02
/-- [3:0] domain -/
def Ev.DOMAIN_ON : Nat := 0x0D03
/-- [3:0] domain; [4] 1 = forced by VDDQ -/
def Ev.DOMAIN_OFF : Nat := 0x0D04
/-- [6:0] rail bits as PWR_SUPPLY_STATUS -/
def Ev.SUPPLY_FAULT : Nat := 0xCD05
/-- [0] channel -/
def Ev.VDDQ_FAULT : Nat := 0x8D06
/-- — -/
def Ev.PCIE_RESET : Nat := 0x4D07
/-- [0] 1 = watchdog -/
def Ev.MGMT_RESET : Nat := 0x8D08
/-- [2:0] new state; [6:4] old state, coded as Table 13.5 -/
def Ev.STATE_CHANGE : Nat := 0x0D09
/-- — -/
def Ev.KEEPER_LOST : Nat := 0x8D0A
/-- [8:0] converters calibrated; [15:8] result -/
def Ev.CAL_DONE : Nat := 0x0E01
/-- [3:0] ADC; [4] 1 = return; [31:16] largest difference, codes -/
def Ev.CAL_HANDOVER_FAIL : Nat := 0x4E02
/-- [3:0] ADC; [31:16] m0′; [47:32] gain residual -/
def Ev.CAL_RESIDUAL : Nat := 0x8E03
/-- [3:0] ADC; [31:16] temperature change, 1/16 °C -/
def Ev.CAL_DUE : Nat := 0x4E04
/-- [15:0] difference, ppm -/
def Ev.BANDGAP_DRIFT : Nat := 0xCE05
/-- [3:0] test; [15:8] result; [47:16] words failed -/
def Ev.BIST_DONE : Nat := 0x0E06
/-- [3:0] test; [8:4] memory or unit; [63:16] first word -/
def Ev.BIST_FAIL : Nat := 0x8E07
/-- [31:0] bundle version; [39:32] security version -/
def Ev.UPD_VERIFIED : Nat := 0x0F01
/-- [7:0] check; [15:8] part entry -/
def Ev.UPD_VERIFY_FAIL : Nat := 0x8F02
/-- [31:0] bundle version; [39:32] C after commit -/
def Ev.UPD_ACTIVATED : Nat := 0x0F03
/-- [7:0] first sector copied -/
def Ev.UPD_COPY_RESUMED : Nat := 0x4F04
/-- [7:0] check -/
def Ev.UPD_ACTIVATION_FAILED : Nat := 0x8F05
/-- [31:0] bundle version -/
def Ev.UPD_RECOVERED : Nat := 0xCF06
/-- [31:0] store schema; [63:32] running schema -/
def Ev.SCHEMA_RESET : Nat := 0x4F07
/-- [31:0] flash offset -/
def Ev.UPD_FLASH : Nat := 0x8F08
/-- [15:0] CAL_TEMP, signed, 1/16 °C -/
def Ev.DIE_TEMP_HIGH : Nat := 0x4D0B
/-- [15:0] CAL_TEMP, signed, 1/16 °C -/
def Ev.DIE_TEMP_NORMAL : Nat := 0x0D0C

end Sys2Proof.Machine
end

