-- ==== Sys2Proof/Machine/RegMap.lean ====
section
/-! DEFINITION. The BAR0 register map: one descriptor per register field of the spec's register tables
(offset, bits, access code of Table 0.4, reset value, range under R425, profile setting or not), the lookup of
an address (R450), and one named constant per field. Addresses are byte offsets in BAR0 (Table 16.11). -/

namespace Sys2Proof.Machine

/-- Access codes of Table 0.4 (00_scope R6). -/
inductive Acc where
  | rw | ro | wo | w1c | w1s | roc | rwl
  deriving DecidableEq, Repr

/-- One field of a BAR0 register: byte address of its word, lowest bit, width. -/
structure Fld where
  addr : Nat
  lo : Nat
  w : Nat
  deriving DecidableEq, Repr

/-- One row of a register table. `rng` lists the admitted intervals (R425); empty = every value.
`prof` marks a profile setting (16 R443, Table 16.9); `half` is 1 for the lower and 2 for the upper word of a 64-bit value (00_scope R5). -/
structure FieldRow where
  off : Nat
  lo : Nat
  w : Nat
  acc : Acc
  rst : Nat
  rng : List (Nat × Nat) := []
  prof : Bool := false
  half : Nat := 0
  deriving DecidableEq, Repr

/-- A replicated group of rows: instance (i, j) lies at base + s1*i + s2*j (16 Table 16.11 and the captions). -/
structure RegGroup where
  base : Nat
  s1 : Nat
  n1 : Nat
  s2 : Nat
  n2 : Nat
  rows : List FieldRow
  deriving DecidableEq, Repr

/-- The offset inside one instance of the group that byte address `a` has, if it lies in the group. -/
def RegGroup.offsetOf (g : RegGroup) (a : Nat) : Option Nat :=
  if a < g.base then none
  else
    let r := a - g.base
    if r / g.s1 < g.n1 then
      let q := r % g.s1
      if q / g.s2 < g.n2 then some (q % g.s2) else none
    else none

/-- The rows of the word at byte address `a` in the group. -/
def RegGroup.rowsAt (g : RegGroup) (a : Nat) : List FieldRow :=
  match g.offsetOf a with
  | none => []
  | some o => g.rows.filter (fun f => f.off == o)

/-- Register groups of block POS. -/
def groupsPos : List RegGroup := [
  ⟨0x30000, 0x1000000, 1, 0x1000000, 1,
    [⟨0x0, 0, 3, .rwl, 0, [(0, 4)], false, 0⟩,
     ⟨0x0, 4, 3, .rwl, 1, [(0, 3)], false, 0⟩,
     ⟨0x0, 7, 1, .rwl, 0, [], false, 0⟩,
     ⟨0x4, 0, 1, .ro, 0, [], false, 0⟩,
     ⟨0x4, 1, 1, .ro, 0, [], false, 0⟩,
     ⟨0x4, 2, 1, .ro, 0, [], false, 0⟩,
     ⟨0x4, 3, 1, .ro, 0, [], false, 0⟩,
     ⟨0x4, 8, 4, .ro, 0, [], false, 0⟩,
     ⟨0x8, 0, 1, .wo, 0, [], false, 0⟩,
     ⟨0x8, 1, 1, .wo, 0, [], false, 0⟩,
     ⟨0x8, 2, 1, .wo, 0, [], false, 0⟩,
     ⟨0x10, 0, 32, .ro, 0, [], false, 1⟩,
     ⟨0x14, 0, 32, .ro, 0, [], false, 2⟩,
     ⟨0x18, 0, 32, .ro, 0, [], false, 1⟩,
     ⟨0x1C, 0, 32, .ro, 0, [], false, 2⟩,
     ⟨0x20, 0, 32, .rw, 0, [], false, 1⟩,
     ⟨0x24, 0, 32, .rw, 0, [], false, 2⟩,
     ⟨0x28, 0, 32, .ro, 0, [], false, 0⟩,
     ⟨0x2C, 0, 16, .rw, 4, [], false, 0⟩,
     ⟨0x30, 0, 5, .rwl, 0xE, [(10, 20)], false, 0⟩,
     ⟨0x34, 0, 32, .roc, 0, [], false, 0⟩,
     ⟨0x38, 0, 32, .roc, 0, [], false, 0⟩,
     ⟨0x3C, 0, 16, .rw, 0x100, [], false, 0⟩]⟩,
  ⟨0x30100, 0x40, 4, 0x40, 1,
    [⟨0x0, 0, 1, .rwl, 0, [], false, 0⟩,
     ⟨0x0, 1, 1, .rwl, 0, [], false, 0⟩,
     ⟨0x0, 2, 2, .rwl, 0, [(0, 2)], false, 0⟩,
     ⟨0x0, 4, 1, .rwl, 0, [], false, 0⟩,
     ⟨0x0, 5, 2, .rwl, 0, [(0, 2)], false, 0⟩,
     ⟨0x4, 0, 6, .w1c, 0, [], false, 0⟩,
     ⟨0x8, 0, 32, .rwl, 0, [], false, 1⟩,
     ⟨0xC, 0, 32, .rwl, 1, [], false, 2⟩,
     ⟨0x10, 0, 32, .ro, 0, [], false, 1⟩,
     ⟨0x14, 0, 32, .ro, 0, [], false, 2⟩,
     ⟨0x18, 0, 32, .rw, 0, [], false, 0⟩,
     ⟨0x1C, 0, 16, .rw, 0, [], false, 0⟩,
     ⟨0x20, 0, 14, .ro, 0, [], false, 0⟩]⟩]

/-- Register groups of block ITM. [DESIGN CHOICE, unsafe, log 113] -/
def groupsItm : List RegGroup := [
  ⟨0x40000, 0x1000000, 1, 0x1000000, 1,
    [⟨0x0, 0, 13, .ro, 0, [], false, 0⟩,
     ⟨0x0, 16, 1, .w1c, 0, [], false, 0⟩,
     ⟨0x4, 0, 13, .roc, 0, [], false, 0⟩,
     ⟨0x8, 0, 32, .rwl, 0, [], false, 0⟩,
     ⟨0xC, 0, 32, .rw, 0, [], false, 0⟩,
     ⟨0x10, 0, 1, .ro, 0, [], false, 0⟩]⟩,
  ⟨0x40040, 0x30, 1, 0x4, 12,
    [⟨0x0, 0, 32, .ro, 0, [], false, 0⟩]⟩,
  ⟨0x40100, 0x20, 8, 0x20, 1,
    [⟨0x0, 0, 1, .rwl, 0, [], false, 0⟩,
     ⟨0x0, 1, 1, .rwl, 0, [], false, 0⟩,
     ⟨0x0, 2, 1, .rwl, 0, [], false, 0⟩,
     ⟨0x4, 0, 20, .rwl, 0x1388, [(0, 1000000)], false, 0⟩,
     ⟨0x8, 0, 32, .rw, 0x100000, [], false, 0⟩,
     ⟨0xC, 0, 32, .rw, 0, [], true, 1⟩,
     ⟨0x10, 0, 32, .rw, 0, [], true, 2⟩,
     ⟨0x14, 0, 32, .roc, 0, [], false, 0⟩,
     ⟨0x18, 0, 32, .ro, 0, [], false, 0⟩]⟩]

/-- Register groups of block FIR. -/
def groupsFir : List RegGroup := [
  ⟨0x50000, 0x1000000, 1, 0x1000000, 1,
    [⟨0x0, 0, 1, .ro, 0, [], false, 0⟩,
     ⟨0x0, 1, 1, .ro, 0, [], false, 0⟩,
     ⟨0x8, 0, 32, .rw, 0x3E8, [], false, 0⟩,
     ⟨0xC, 0, 16, .rw, 0x1000, [], false, 0⟩,
     ⟨0x10, 0, 10, .rwl, 0x28, [(0, 1000)], false, 0⟩,
     ⟨0x14, 0, 32, .ro, 0, [], false, 0⟩,
     ⟨0x18, 0, 32, .ro, 0, [], false, 0⟩,
     ⟨0x20, 0, 32, .roc, 0, [], false, 0⟩,
     ⟨0x24, 0, 32, .roc, 0, [], false, 0⟩,
     ⟨0x28, 0, 32, .roc, 0, [], false, 0⟩]⟩,
  ⟨0x51000, 0x10, 512, 0x10, 1,
    [⟨0x0, 0, 1, .rw, 0, [], true, 0⟩,
     ⟨0x0, 1, 5, .rw, 0, [], true, 0⟩,
     ⟨0x0, 6, 4, .rw, 0, [], true, 0⟩,
     ⟨0x4, 0, 24, .rw, 0, [], true, 0⟩,
     ⟨0x8, 0, 32, .rw, 0, [(0, 1000000), (4293967296, 4294967295)], true, 0⟩]⟩]

/-- Register groups of block JOB. -/
def groupsJob : List RegGroup := [
  ⟨0x80000, 0x1000000, 1, 0x1000000, 1,
    [⟨0x0, 0, 4, .wo, 0, [(1, 9)], false, 0⟩,
     ⟨0x4, 0, 8, .ro, 0, [], false, 0⟩,
     ⟨0x4, 8, 1, .ro, 0, [], false, 0⟩,
     ⟨0x4, 9, 1, .w1c, 0, [], false, 0⟩,
     ⟨0x4, 16, 16, .ro, 0, [], false, 0⟩,
     ⟨0x40, 0, 4, .ro, 0, [], false, 0⟩,
     ⟨0x40, 4, 5, .ro, 0, [], false, 0⟩,
     ⟨0x40, 12, 1, .ro, 0, [], false, 0⟩,
     ⟨0x40, 13, 1, .ro, 0, [], false, 0⟩,
     ⟨0x44, 0, 1, .ro, 0, [], false, 0⟩,
     ⟨0x44, 1, 1, .ro, 0, [], false, 0⟩,
     ⟨0x44, 2, 2, .ro, 0, [], false, 0⟩,
     ⟨0x48, 0, 32, .ro, 0, [], false, 1⟩,
     ⟨0x4C, 0, 32, .ro, 0, [], false, 2⟩,
     ⟨0x50, 0, 32, .ro, 0, [], false, 0⟩,
     ⟨0x60, 0, 4, .rw, 0, [], false, 0⟩,
     ⟨0x60, 16, 16, .rw, 0, [], false, 0⟩,
     ⟨0x64, 0, 32, .roc, 0, [], false, 0⟩,
     ⟨0x70, 0, 32, .ro, 0, [], false, 1⟩,
     ⟨0x74, 0, 32, .ro, 0, [], false, 2⟩,
     ⟨0x80, 0, 4, .rw, 0, [], false, 0⟩,
     ⟨0xA4, 0, 4, .ro, 0, [], false, 0⟩,
     ⟨0xA8, 0, 32, .ro, 0, [], false, 1⟩,
     ⟨0xAC, 0, 32, .ro, 0, [], false, 2⟩]⟩,
  ⟨0x80010, 0x18, 1, 0x4, 6,
    [⟨0x0, 0, 32, .rw, 0, [], false, 0⟩]⟩,
  ⟨0x80084, 0x20, 1, 0x4, 8,
    [⟨0x0, 0, 32, .ro, 0, [], false, 0⟩]⟩,
  ⟨0x80100, 0x20, 16, 0x20, 1,
    [⟨0x0, 0, 3, .ro, 0, [], false, 0⟩,
     ⟨0x0, 4, 2, .ro, 0, [], false, 0⟩,
     ⟨0x0, 8, 1, .ro, 0, [], false, 0⟩,
     ⟨0x4, 0, 32, .ro, 0, [], false, 1⟩,
     ⟨0x8, 0, 32, .ro, 0, [], false, 2⟩,
     ⟨0xC, 0, 32, .ro, 0, [], false, 1⟩,
     ⟨0x10, 0, 32, .ro, 0, [], false, 2⟩,
     ⟨0x14, 0, 32, .ro, 0, [], false, 0⟩,
     ⟨0x18, 0, 8, .ro, 0, [], false, 0⟩,
     ⟨0x1C, 0, 32, .ro, 0, [], false, 0⟩]⟩,
  ⟨0x80400, 0x40, 16, 0x40, 1,
    [⟨0x0, 0, 3, .ro, 0, [], false, 0⟩,
     ⟨0x0, 4, 2, .ro, 0, [], false, 0⟩,
     ⟨0x0, 8, 1, .ro, 0, [], false, 0⟩,
     ⟨0x0, 12, 4, .ro, 0, [], false, 0⟩,
     ⟨0x0, 16, 2, .ro, 0, [], false, 0⟩,
     ⟨0x4, 0, 32, .ro, 0, [], false, 1⟩,
     ⟨0x8, 0, 32, .ro, 0, [], false, 2⟩,
     ⟨0xC, 0, 32, .ro, 0, [], false, 0⟩,
     ⟨0x10, 0, 32, .ro, 0, [], false, 0⟩,
     ⟨0x14, 0, 32, .ro, 0, [], false, 1⟩,
     ⟨0x18, 0, 32, .ro, 0, [], false, 2⟩,
     ⟨0x1C, 0, 32, .ro, 0, [], false, 0⟩]⟩]

/-- Register groups of block EXP. -/
def groupsExp : List RegGroup := [
  ⟨0x90000, 0x1000000, 1, 0x1000000, 1,
    [⟨0x0, 0, 32, .w1c, 0, [], false, 0⟩,
     ⟨0x4, 0, 32, .roc, 0, [], false, 0⟩,
     ⟨0x8, 0, 32, .roc, 0, [], false, 0⟩,
     ⟨0xC, 0, 32, .roc, 0, [], false, 0⟩]⟩,
  ⟨0x91000, 0x400, 32, 0x400, 1,
    [⟨0x0, 0, 3, .ro, 0, [], false, 0⟩,
     ⟨0x0, 4, 4, .ro, 0, [], false, 0⟩,
     ⟨0x0, 8, 8, .ro, 0, [], false, 0⟩,
     ⟨0x4, 0, 16, .ro, 0, [], false, 0⟩,
     ⟨0x8, 0, 32, .ro, 0, [], false, 0⟩,
     ⟨0xC, 0, 32, .ro, 0, [], false, 0⟩,
     ⟨0x10, 0, 32, .ro, 0, [], false, 1⟩,
     ⟨0x14, 0, 32, .ro, 0, [], false, 2⟩,
     ⟨0x18, 0, 32, .ro, 0, [], false, 0⟩,
     ⟨0x1C, 0, 3, .ro, 0, [], false, 0⟩,
     ⟨0x20, 0, 32, .ro, 0, [], false, 1⟩,
     ⟨0x24, 0, 32, .ro, 0, [], false, 2⟩,
     ⟨0x28, 0, 32, .roc, 0xFFFFFFFF, [], false, 0⟩,
     ⟨0x2C, 0, 32, .roc, 0, [], false, 0⟩,
     ⟨0x30, 0, 32, .roc, 0, [], false, 0⟩]⟩,
  ⟨0x99000, 0x400, 2, 0x400, 1,
    [⟨0x0, 0, 1, .wo, 0, [], false, 0⟩,
     ⟨0x0, 1, 1, .wo, 0, [], false, 0⟩,
     ⟨0x4, 0, 2, .rw, 1, [], false, 0⟩,
     ⟨0x4, 4, 3, .rw, 7, [], false, 0⟩,
     ⟨0x4, 8, 2, .rw, 1, [(1, 2)], false, 0⟩,
     ⟨0x4, 12, 3, .rw, 4, [(1, 2), (4, 4)], false, 0⟩,
     ⟨0x8, 0, 32, .rw, 0, [], false, 0⟩,
     ⟨0xC, 0, 8, .rw, 0, [], false, 0⟩,
     ⟨0xC, 8, 8, .rw, 0, [], false, 0⟩,
     ⟨0xC, 16, 16, .rw, 0, [], false, 0⟩,
     ⟨0x10, 0, 16, .rw, 0, [], false, 0⟩,
     ⟨0x10, 16, 16, .rw, 0, [], false, 0⟩,
     ⟨0x14, 0, 1, .ro, 0, [], false, 0⟩,
     ⟨0x14, 1, 1, .w1c, 0, [], false, 0⟩,
     ⟨0x14, 2, 1, .w1c, 0, [], false, 0⟩,
     ⟨0x14, 8, 8, .ro, 0, [], false, 0⟩,
     ⟨0x18, 0, 32, .ro, 0, [], false, 0⟩,
     ⟨0x1C, 0, 32, .ro, 0, [], false, 0⟩,
     ⟨0x20, 0, 32, .ro, 0, [], false, 0⟩,
     ⟨0x24, 0, 32, .ro, 0, [], false, 0⟩,
     ⟨0x28, 0, 32, .ro, 0, [], false, 0⟩,
     ⟨0x2C, 0, 1, .ro, 0, [], false, 0⟩,
     ⟨0x30, 0, 32, .ro, 0, [], false, 1⟩,
     ⟨0x34, 0, 32, .ro, 0, [], false, 2⟩,
     ⟨0x38, 0, 32, .roc, 0, [], false, 0⟩,
     ⟨0x3C, 0, 32, .roc, 0, [], false, 0⟩]⟩]

/-- Register groups of block CMP. -/
def groupsCmp : List RegGroup := [
  ⟨0xA0000, 0x1000000, 1, 0x1000000, 1,
    [⟨0x0, 0, 1, .wo, 0, [], false, 0⟩,
     ⟨0x0, 1, 1, .wo, 0, [], false, 0⟩,
     ⟨0x0, 2, 1, .wo, 0, [], false, 0⟩,
     ⟨0x0, 3, 1, .wo, 0, [], false, 0⟩,
     ⟨0x4, 0, 1, .ro, 0, [], false, 0⟩,
     ⟨0x4, 1, 1, .ro, 0, [], false, 0⟩,
     ⟨0x4, 8, 8, .ro, 0, [], false, 0⟩,
     ⟨0x4, 16, 8, .ro, 0, [], false, 0⟩,
     ⟨0x8, 0, 32, .ro, 0, [], false, 0⟩,
     ⟨0xC, 0, 5, .rw, 0, [], false, 0⟩,
     ⟨0x10, 0, 32, .ro, 0, [], false, 0⟩,
     ⟨0x14, 0, 32, .ro, 0, [], false, 0⟩,
     ⟨0x18, 0, 32, .roc, 0, [], false, 0⟩,
     ⟨0x20, 0, 11, .wo, 0, [], false, 0⟩,
     ⟨0x24, 0, 8, .ro, 0, [], false, 0⟩,
     ⟨0x24, 16, 16, .ro, 0, [], false, 0⟩,
     ⟨0x28, 0, 11, .ro, 0, [], false, 0⟩,
     ⟨0x28, 16, 11, .ro, 0, [], false, 0⟩,
     ⟨0x2C, 0, 20, .ro, 0, [], false, 0⟩,
     ⟨0x30, 0, 32, .ro, 0, [], false, 0⟩,
     ⟨0x34, 0, 32, .ro, 0, [], false, 0⟩,
     ⟨0x40, 0, 11, .rwl, 8, [(1, 1024)], false, 0⟩,
     ⟨0x44, 0, 13, .rwl, 0x100, [(2, 4096)], false, 0⟩,
     ⟨0x48, 0, 32, .ro, 0, [], false, 0⟩,
     ⟨0x4C, 0, 32, .ro, 0, [], false, 0⟩,
     ⟨0x50, 0, 21, .roc, 0, [], false, 0⟩,
     ⟨0x54, 0, 1, .rw, 0, [], true, 0⟩,
     ⟨0x60, 0, 32, .roc, 0, [], false, 0⟩,
     ⟨0x64, 0, 32, .roc, 0, [], false, 0⟩,
     ⟨0x68, 0, 32, .roc, 0, [], false, 0⟩] ++
    [⟨0x6C, 0, 32, .roc, 0, [], false, 0⟩,
     ⟨0x70, 0, 32, .roc, 0, [], false, 0⟩,
     ⟨0x80, 0, 4, .rw, 0, [], false, 0⟩,
     ⟨0x84, 0, 32, .ro, 0, [], false, 1⟩,
     ⟨0x88, 0, 32, .ro, 0, [], false, 2⟩,
     ⟨0x8C, 0, 16, .ro, 0, [], false, 0⟩]⟩,
  ⟨0xA1000, 0x400, 1, 0x4, 256,
    [⟨0x0, 0, 32, .wo, 0, [], false, 0⟩]⟩,
  ⟨0xA0100, 0x4, 8, 0x4, 1,
    [⟨0x0, 0, 4, .rw, 0, [], true, 0⟩,
     ⟨0x0, 4, 1, .rw, 0, [], true, 0⟩]⟩,
  ⟨0xA0200, 0x20, 16, 0x20, 1,
    [⟨0x0, 0, 32, .rw, 0, [], true, 1⟩,
     ⟨0x4, 0, 32, .rw, 0, [], true, 2⟩,
     ⟨0x8, 0, 32, .rw, 0xFFFFFFFF, [], true, 1⟩,
     ⟨0xC, 0, 32, .rw, 0xFFFFFFFF, [], true, 2⟩,
     ⟨0x10, 0, 16, .rw, 1, [(1, 65535)], true, 0⟩,
     ⟨0x14, 0, 1, .rw, 0, [], true, 0⟩,
     ⟨0x14, 1, 1, .rw, 0, [], true, 0⟩]⟩]

/-- Register groups of block DOS. -/
def groupsDos : List RegGroup := [
  ⟨0xB0000, 0x1000000, 1, 0x1000000, 1,
    [⟨0x0, 0, 1, .wo, 0, [], false, 0⟩,
     ⟨0x4, 0, 1, .ro, 0, [], false, 0⟩,
     ⟨0x4, 1, 1, .ro, 1, [], false, 0⟩,
     ⟨0x4, 2, 1, .ro, 0, [], false, 0⟩,
     ⟨0x4, 3, 1, .ro, 0, [], false, 0⟩,
     ⟨0x4, 4, 1, .ro, 0, [], false, 0⟩,
     ⟨0x4, 8, 8, .ro, 0, [], false, 0⟩,
     ⟨0x8, 0, 16, .ro, 0, [], false, 0⟩,
     ⟨0x10, 0, 32, .ro, 0, [], false, 1⟩,
     ⟨0x14, 0, 32, .ro, 0, [], false, 2⟩,
     ⟨0x18, 0, 32, .roc, 0, [], false, 0⟩,
     ⟨0x1C, 0, 32, .roc, 0, [], false, 0⟩,
     ⟨0x20, 0, 32, .roc, 0, [], false, 0⟩,
     ⟨0x24, 0, 32, .roc, 0, [], false, 0⟩,
     ⟨0x28, 0, 1, .wo, 0, [], false, 0⟩]⟩,
  ⟨0xB0100, 0x10, 8, 0x10, 1,
    [⟨0x0, 0, 16, .rw, 0, [], true, 0⟩,
     ⟨0x0, 16, 8, .rw, 0, [], true, 0⟩,
     ⟨0x0, 24, 8, .rw, 0, [], true, 0⟩,
     ⟨0x4, 0, 8, .rw, 0, [], true, 0⟩,
     ⟨0x4, 8, 8, .rw, 0, [], true, 0⟩,
     ⟨0x4, 16, 1, .rw, 0, [], true, 0⟩]⟩]

/-- Register groups of block LAS. -/
def groupsLas : List RegGroup := [
  ⟨0xC0000, 0x1000000, 1, 0x1000000, 1,
    [⟨0x0, 0, 1, .wo, 0, [], false, 0⟩,
     ⟨0x0, 1, 1, .wo, 0, [], false, 0⟩,
     ⟨0x0, 2, 1, .wo, 0, [], false, 0⟩,
     ⟨0x4, 0, 1, .ro, 0, [], false, 0⟩,
     ⟨0x4, 1, 1, .ro, 0, [], false, 0⟩,
     ⟨0x4, 2, 1, .ro, 0, [], false, 0⟩,
     ⟨0x4, 3, 1, .ro, 0, [], false, 0⟩,
     ⟨0x4, 4, 1, .ro, 0, [], false, 0⟩,
     ⟨0x4, 8, 8, .ro, 0, [], false, 0⟩,
     ⟨0x4, 16, 1, .ro, 0, [], false, 0⟩,
     ⟨0x4, 17, 1, .ro, 0, [], false, 0⟩,
     ⟨0x8, 0, 18, .ro, 0, [], false, 0⟩,
     ⟨0xC, 0, 3, .rwl, 4, [(1, 2), (4, 4)], false, 0⟩,
     ⟨0xC, 8, 5, .rwl, 4, [(2, 16)], false, 0⟩,
     ⟨0xC, 16, 5, .rwl, 4, [(2, 16)], false, 0⟩,
     ⟨0x10, 0, 1, .rw, 0, [], false, 0⟩,
     ⟨0x10, 1, 4, .rw, 0xF, [], false, 0⟩,
     ⟨0x10, 8, 1, .wo, 0, [], false, 0⟩,
     ⟨0x14, 0, 32, .rwl, 0, [], false, 1⟩,
     ⟨0x18, 0, 32, .rwl, 0, [], false, 2⟩,
     ⟨0x1C, 0, 32, .rwl, 0, [], false, 1⟩,
     ⟨0x20, 0, 32, .rwl, 0, [], false, 2⟩,
     ⟨0x24, 0, 2, .rwl, 0, [(0, 2)], false, 0⟩,
     ⟨0x50, 0, 32, .ro, 0, [], false, 1⟩,
     ⟨0x54, 0, 32, .ro, 0, [], false, 2⟩,
     ⟨0x58, 0, 32, .ro, 0, [], false, 0⟩,
     ⟨0x5C, 0, 32, .ro, 0, [], false, 0⟩,
     ⟨0x60, 0, 32, .ro, 0x1D4C0, [], false, 0⟩,
     ⟨0x64, 0, 32, .roc, 0, [], false, 0⟩,
     ⟨0x68, 0, 32, .roc, 0, [], false, 0⟩] ++
    [⟨0x6C, 0, 32, .roc, 0, [], false, 0⟩,
     ⟨0x70, 0, 32, .roc, 0, [], false, 0⟩,
     ⟨0x74, 0, 32, .roc, 0, [], false, 0⟩,
     ⟨0x78, 0, 19, .ro, 0, [], false, 0⟩,
     ⟨0x80, 0, 32, .ro, 0, [], false, 1⟩,
     ⟨0x84, 0, 32, .ro, 0, [], false, 2⟩]⟩,
  ⟨0xC0030, 0x10, 2, 0x10, 1,
    [⟨0x0, 0, 32, .rwl, 0, [], false, 1⟩,
     ⟨0x4, 0, 32, .rwl, 0, [], false, 2⟩,
     ⟨0x8, 0, 32, .rwl, 0, [], false, 1⟩,
     ⟨0xC, 0, 32, .rwl, 0, [], false, 2⟩]⟩,
  ⟨0xC0100, 0x4, 32, 0x4, 1,
    [⟨0x0, 0, 3, .rw, 0, [(0, 4)], true, 0⟩,
     ⟨0x0, 4, 1, .rw, 0, [], true, 0⟩]⟩,
  ⟨0xC0400, 0x4, 256, 0x4, 1,
    [⟨0x0, 0, 16, .rw, 0, [], true, 0⟩]⟩,
  ⟨0xC1000, 0x4, 512, 0x4, 1,
    [⟨0x0, 0, 8, .rw, 0, [], true, 0⟩]⟩,
  ⟨0xC2000, 0x10, 256, 0x10, 1,
    [⟨0x0, 0, 1, .ro, 0, [], false, 0⟩,
     ⟨0x0, 1, 1, .ro, 0, [], false, 0⟩,
     ⟨0x4, 0, 32, .ro, 0, [], false, 0⟩,
     ⟨0x8, 0, 32, .ro, 0, [], false, 0⟩,
     ⟨0xC, 0, 32, .ro, 0, [], false, 0⟩]⟩]

/-- Register groups of block HP. -/
def groupsHp : List RegGroup := [
  ⟨0x100000, 0x1000, 32, 0x1000, 1,
    [⟨0x0, 0, 1, .rwl, 0, [], false, 0⟩,
     ⟨0x0, 1, 2, .rwl, 3, [(1, 3)], false, 0⟩,
     ⟨0x0, 3, 1, .rwl, 0, [], false, 0⟩,
     ⟨0x4, 0, 1, .wo, 0, [], false, 0⟩,
     ⟨0x4, 1, 1, .wo, 0, [], false, 0⟩,
     ⟨0x4, 2, 1, .wo, 0, [], false, 0⟩,
     ⟨0x4, 3, 1, .wo, 0, [], false, 0⟩,
     ⟨0x4, 4, 1, .wo, 0, [], false, 0⟩,
     ⟨0x8, 0, 8, .ro, 0, [], false, 0⟩,
     ⟨0x8, 16, 16, .ro, 0, [], false, 0⟩,
     ⟨0xC, 0, 4, .ro, 0, [], false, 0⟩,
     ⟨0xC, 4, 1, .ro, 1, [], false, 0⟩,
     ⟨0xC, 5, 1, .ro, 0, [], false, 0⟩,
     ⟨0xC, 6, 1, .ro, 0, [], false, 0⟩,
     ⟨0xC, 7, 1, .ro, 0, [], false, 0⟩,
     ⟨0xC, 8, 1, .ro, 0, [], false, 0⟩,
     ⟨0xC, 9, 1, .ro, 0, [], false, 0⟩,
     ⟨0xC, 10, 1, .ro, 0, [], false, 0⟩,
     ⟨0xC, 11, 1, .ro, 0, [], false, 0⟩,
     ⟨0xC, 12, 2, .ro, 0, [], false, 0⟩,
     ⟨0xC, 14, 1, .ro, 0, [], false, 0⟩,
     ⟨0x10, 0, 8, .ro, 0, [], false, 0⟩,
     ⟨0x14, 0, 16, .rw, 0x2710, [(100, 65535)], false, 0⟩,
     ⟨0x18, 0, 10, .rw, 0x64, [(20, 1000)], false, 0⟩,
     ⟨0x1C, 0, 2, .rw, 0, [], false, 0⟩,
     ⟨0x20, 0, 32, .rw, 0, [], false, 0⟩,
     ⟨0x24, 0, 32, .roc, 0, [], false, 0⟩,
     ⟨0x28, 0, 32, .roc, 0, [], false, 0⟩,
     ⟨0x2C, 0, 16, .roc, 0, [], false, 0⟩,
     ⟨0x2C, 16, 16, .roc, 0, [], false, 0⟩] ++
    [⟨0x30, 0, 16, .ro, 0, [], false, 0⟩,
     ⟨0x34, 0, 5, .ro, 0, [], false, 0⟩,
     ⟨0x38, 0, 32, .ro, 0, [], false, 1⟩,
     ⟨0x3C, 0, 32, .ro, 0, [], false, 2⟩,
     ⟨0x40, 0, 32, .ro, 0, [], false, 0⟩,
     ⟨0x44, 0, 32, .roc, 0, [], false, 0⟩,
     ⟨0x48, 0, 16, .ro, 0, [], false, 0⟩,
     ⟨0x4C, 0, 3, .ro, 0, [], false, 0⟩,
     ⟨0x100, 0, 3, .ro, 0, [], false, 0⟩,
     ⟨0x100, 4, 4, .ro, 0, [], false, 0⟩,
     ⟨0x100, 8, 1, .ro, 0, [], false, 0⟩,
     ⟨0x100, 9, 1, .ro, 0, [], false, 0⟩,
     ⟨0x100, 10, 1, .ro, 0, [], false, 0⟩,
     ⟨0x100, 11, 1, .ro, 0, [], false, 0⟩,
     ⟨0x100, 12, 1, .ro, 0, [], false, 0⟩,
     ⟨0x104, 0, 8, .ro, 0, [], false, 0⟩,
     ⟨0x104, 16, 8, .ro, 0, [], false, 0⟩,
     ⟨0x108, 0, 16, .ro, 0, [], false, 0⟩,
     ⟨0x10C, 0, 16, .rwl, 0, [], false, 0⟩,
     ⟨0x10C, 16, 1, .rwl, 0, [], false, 0⟩,
     ⟨0x110, 0, 32, .ro, 0, [], false, 0⟩,
     ⟨0x114, 0, 16, .ro, 0, [], false, 0⟩,
     ⟨0x114, 16, 16, .ro, 0, [], false, 0⟩,
     ⟨0x118, 0, 32, .ro, 0, [], false, 0⟩,
     ⟨0x11C, 0, 32, .ro, 0, [], false, 0⟩,
     ⟨0x120, 0, 13, .rw, 0x40, [(4, 4096)], false, 0⟩,
     ⟨0x124, 0, 16, .rw, 0x7D0, [(100, 65535)], false, 0⟩,
     ⟨0x128, 0, 16, .ro, 0, [], false, 0⟩,
     ⟨0x12C, 0, 16, .ro, 0, [], false, 0⟩,
     ⟨0x130, 0, 32, .ro, 0, [], false, 1⟩] ++
    [⟨0x134, 0, 32, .ro, 0, [], false, 2⟩,
     ⟨0x138, 0, 16, .rw, 0x1000, [(1, 65535)], false, 0⟩,
     ⟨0x13C, 0, 16, .ro, 0, [], false, 0⟩,
     ⟨0x140, 0, 3, .wo, 0, [(1, 7)], false, 0⟩,
     ⟨0x144, 0, 8, .ro, 0, [], false, 0⟩,
     ⟨0x144, 8, 1, .ro, 0, [], false, 0⟩,
     ⟨0x144, 16, 8, .ro, 0, [], false, 0⟩,
     ⟨0x148, 0, 11, .rw, 0, [(0, 1024)], false, 0⟩,
     ⟨0x14C, 0, 11, .ro, 0, [], false, 0⟩,
     ⟨0x150, 0, 32, .rw, 0x2710, [], false, 0⟩,
     ⟨0x160, 0, 32, .roc, 0, [], false, 0⟩,
     ⟨0x164, 0, 32, .roc, 0, [], false, 0⟩,
     ⟨0x168, 0, 32, .roc, 0, [], false, 0⟩,
     ⟨0x16C, 0, 32, .roc, 0, [], false, 0⟩,
     ⟨0x170, 0, 32, .roc, 0, [], false, 0⟩,
     ⟨0x174, 0, 32, .roc, 0, [], false, 0⟩,
     ⟨0x178, 0, 32, .ro, 0, [], false, 0⟩,
     ⟨0x17C, 0, 32, .ro, 0, [], false, 0⟩,
     ⟨0x180, 0, 16, .ro, 0, [], false, 0⟩]⟩,
  ⟨0x100400, 0x1000, 32, 0x4, 256,
    [⟨0x0, 0, 32, .rw, 0, [], false, 0⟩]⟩,
  ⟨0x100800, 0x1000, 32, 0x4, 256,
    [⟨0x0, 0, 32, .ro, 0, [], false, 0⟩]⟩]

/-- Register groups of block DRC. -/
def groupsDrc : List RegGroup := [
  ⟨0x160000, 0x10000, 2, 0x10000, 1,
    [⟨0x0, 0, 1, .rwl, 0, [], false, 0⟩,
     ⟨0x0, 1, 1, .rwl, 1, [], false, 0⟩,
     ⟨0x0, 2, 1, .rwl, 0, [], false, 0⟩,
     ⟨0x0, 3, 1, .rwl, 0, [], false, 0⟩,
     ⟨0x0, 4, 2, .rwl, 3, [], false, 0⟩,
     ⟨0x0, 8, 3, .rwl, 0, [], false, 0⟩,
     ⟨0x4, 0, 3, .wo, 0, [(1, 2)], false, 0⟩,
     ⟨0x4, 4, 2, .wo, 0, [], false, 0⟩,
     ⟨0x4, 8, 1, .wo, 0, [], false, 0⟩,
     ⟨0x8, 0, 8, .ro, 0, [], false, 0⟩,
     ⟨0x8, 8, 1, .ro, 0, [], false, 0⟩,
     ⟨0x8, 9, 1, .w1c, 0, [], false, 0⟩,
     ⟨0x8, 16, 16, .ro, 0, [], false, 0⟩,
     ⟨0xC, 0, 3, .ro, 0, [], false, 0⟩,
     ⟨0xC, 3, 1, .ro, 0, [], false, 0⟩,
     ⟨0xC, 4, 2, .ro, 0, [], false, 0⟩,
     ⟨0xC, 8, 5, .ro, 0, [], false, 0⟩,
     ⟨0xC, 13, 1, .ro, 0, [], false, 0⟩,
     ⟨0xC, 14, 2, .ro, 0, [], false, 0⟩,
     ⟨0x10, 0, 13, .ro, 0, [], false, 0⟩,
     ⟨0x14, 0, 7, .rw, 0x10, [(4, 64)], false, 0⟩,
     ⟨0x18, 0, 4, .rw, 8, [(4, 12)], false, 0⟩,
     ⟨0x18, 4, 1, .rw, 1, [], false, 0⟩,
     ⟨0x1C, 0, 2, .rw, 2, [(1, 3)], false, 0⟩,
     ⟨0x20, 0, 16, .rw, 0x40, [], false, 0⟩,
     ⟨0x24, 0, 2, .rw, 0, [], false, 0⟩,
     ⟨0x28, 0, 32, .rw, 0x2710, [], false, 0⟩,
     ⟨0x2C, 0, 2, .ro, 0, [], false, 0⟩,
     ⟨0x2C, 4, 2, .ro, 0, [], false, 0⟩,
     ⟨0x30, 0, 15, .ro, 0, [], false, 0⟩] ++
    [⟨0xA0, 0, 32, .roc, 0, [], false, 0⟩,
     ⟨0xA4, 0, 32, .roc, 0, [], false, 0⟩,
     ⟨0xA8, 0, 32, .roc, 0, [], false, 0⟩]⟩,
  ⟨0x160040, 0x10000, 2, 0x20, 1,
    [⟨0x0, 0, 32, .rw, 0x1F40, [(200, 1000000)], false, 0⟩,
     ⟨0x4, 0, 32, .rw, 0xFA0, [(200, 1000000)], false, 0⟩,
     ⟨0x8, 0, 32, .rw, 0x4B0, [(200, 1000000)], false, 0⟩,
     ⟨0xC, 0, 32, .rw, 0x4E20, [(200, 1000000)], false, 0⟩,
     ⟨0x10, 0, 32, .rw, 0x4E20, [(200, 1000000)], false, 0⟩,
     ⟨0x14, 0, 32, .rw, 0x4E20, [(200, 1000000)], false, 0⟩,
     ⟨0x18, 0, 32, .rw, 0xC350, [(200, 1000000)], false, 0⟩,
     ⟨0x1C, 0, 32, .rw, 0xF4240, [(200, 1000000)], false, 0⟩]⟩,
  ⟨0x160060, 0x10000, 2, 0x4, 8,
    [⟨0x0, 0, 32, .roc, 0, [], false, 0⟩]⟩,
  ⟨0x160080, 0x10000, 2, 0x4, 8,
    [⟨0x0, 0, 32, .roc, 0, [], false, 0⟩]⟩,
  ⟨0x160100, 0x10000, 2, 0x4, 20,
    [⟨0x0, 0, 7, .ro, 0, [], false, 0⟩,
     ⟨0x0, 8, 7, .ro, 0, [], false, 0⟩,
     ⟨0x0, 16, 7, .ro, 0, [], false, 0⟩,
     ⟨0x0, 24, 7, .ro, 0, [], false, 0⟩]⟩,
  ⟨0x160200, 0x10000, 2, 0x100, 4,
    [⟨0x0, 0, 1, .rw, 0, [], false, 0⟩,
     ⟨0x4, 0, 13, .rw, 0, [(4800, 6400)], false, 0⟩,
     ⟨0x8, 0, 32, .rw, 0, [], false, 0⟩,
     ⟨0xC, 0, 32, .rw, 0, [], false, 0⟩,
     ⟨0x10, 0, 32, .rw, 0, [], false, 0⟩,
     ⟨0x14, 0, 32, .rw, 0, [], false, 0⟩,
     ⟨0x18, 0, 32, .rw, 0, [], false, 0⟩,
     ⟨0x1C, 0, 32, .rw, 0, [], false, 0⟩,
     ⟨0x20, 0, 32, .rw, 0, [], false, 0⟩,
     ⟨0x40, 0, 7, .rw, 0, [], false, 0⟩,
     ⟨0x40, 8, 7, .rw, 0, [], false, 0⟩,
     ⟨0x44, 0, 7, .rw, 0, [], false, 0⟩,
     ⟨0x44, 8, 7, .rw, 0, [], false, 0⟩,
     ⟨0x48, 0, 7, .rw, 0, [], false, 0⟩,
     ⟨0x48, 8, 7, .rw, 0, [], false, 0⟩,
     ⟨0x4C, 0, 7, .rw, 0, [], false, 0⟩,
     ⟨0x4C, 8, 7, .rw, 0, [], false, 0⟩,
     ⟨0x50, 0, 7, .rw, 0, [], false, 0⟩,
     ⟨0x50, 8, 7, .rw, 0, [], false, 0⟩,
     ⟨0x54, 0, 7, .rw, 0, [], false, 0⟩,
     ⟨0x54, 8, 7, .rw, 0, [], false, 0⟩,
     ⟨0x58, 0, 7, .rw, 0, [], false, 0⟩,
     ⟨0x58, 8, 7, .rw, 0, [], false, 0⟩,
     ⟨0x5C, 0, 7, .rw, 0, [], false, 0⟩,
     ⟨0x5C, 8, 7, .rw, 0, [], false, 0⟩,
     ⟨0x60, 0, 7, .rw, 0, [], false, 0⟩,
     ⟨0x60, 8, 7, .rw, 0, [], false, 0⟩,
     ⟨0x64, 0, 7, .rw, 0, [], false, 0⟩,
     ⟨0x64, 8, 7, .rw, 0, [], false, 0⟩,
     ⟨0x68, 0, 7, .rw, 0, [], false, 0⟩] ++
    [⟨0x68, 8, 7, .rw, 0, [], false, 0⟩,
     ⟨0x6C, 0, 7, .rw, 0, [], false, 0⟩,
     ⟨0x6C, 8, 7, .rw, 0, [], false, 0⟩,
     ⟨0x70, 0, 7, .rw, 0, [], false, 0⟩,
     ⟨0x70, 8, 7, .rw, 0, [], false, 0⟩,
     ⟨0x74, 0, 7, .rw, 0, [], false, 0⟩,
     ⟨0x74, 8, 7, .rw, 0, [], false, 0⟩,
     ⟨0x78, 0, 7, .rw, 0, [], false, 0⟩,
     ⟨0x78, 8, 7, .rw, 0, [], false, 0⟩,
     ⟨0x7C, 0, 7, .rw, 0, [], false, 0⟩,
     ⟨0x7C, 8, 7, .rw, 0, [], false, 0⟩,
     ⟨0x80, 0, 7, .rw, 0, [], false, 0⟩,
     ⟨0x80, 8, 7, .rw, 0, [], false, 0⟩,
     ⟨0x84, 0, 7, .rw, 0, [], false, 0⟩,
     ⟨0x84, 8, 7, .rw, 0, [], false, 0⟩,
     ⟨0x88, 0, 7, .rw, 0, [], false, 0⟩,
     ⟨0x88, 8, 7, .rw, 0, [], false, 0⟩,
     ⟨0x8C, 0, 7, .rw, 0, [], false, 0⟩,
     ⟨0x8C, 8, 7, .rw, 0, [], false, 0⟩]⟩]

/-- Register groups of block ECC. -/
def groupsEcc : List RegGroup := [
  ⟨0x180000, 0x1000000, 1, 0x1000000, 1,
    [⟨0x0, 0, 3, .wo, 0, [(1, 6)], false, 0⟩,
     ⟨0x4, 0, 8, .ro, 0, [], false, 0⟩,
     ⟨0x4, 8, 1, .ro, 0, [], false, 0⟩,
     ⟨0x4, 9, 1, .w1c, 0, [], false, 0⟩,
     ⟨0x4, 16, 16, .ro, 0, [], false, 0⟩,
     ⟨0x8, 0, 5, .rw, 0, [], false, 0⟩,
     ⟨0x10, 0, 32, .rw, 0, [], false, 1⟩,
     ⟨0x14, 0, 32, .rw, 0, [], false, 2⟩,
     ⟨0x18, 0, 32, .rw, 0, [], false, 1⟩,
     ⟨0x1C, 0, 32, .rw, 0, [], false, 2⟩,
     ⟨0x20, 0, 32, .rw, 0x64, [(20, 1000000)], false, 0⟩,
     ⟨0x24, 0, 32, .ro, 0, [], false, 1⟩,
     ⟨0x28, 0, 32, .ro, 0, [], false, 2⟩,
     ⟨0x2C, 0, 32, .ro, 0, [], false, 0⟩,
     ⟨0x30, 0, 32, .ro, 0, [], false, 0⟩,
     ⟨0x40, 0, 1, .rwl, 0, [], false, 0⟩,
     ⟨0x44, 0, 32, .rw, 0, [], false, 1⟩,
     ⟨0x48, 0, 32, .rw, 0, [], false, 2⟩,
     ⟨0x4C, 0, 8, .rw, 0, [], false, 0⟩,
     ⟨0x4C, 8, 8, .rw, 0, [], false, 0⟩,
     ⟨0x50, 0, 8, .ro, 0, [], false, 0⟩,
     ⟨0x50, 8, 2, .ro, 0, [], false, 0⟩,
     ⟨0x60, 0, 4, .rw, 0, [], false, 0⟩,
     ⟨0x64, 0, 32, .ro, 0, [], false, 0⟩,
     ⟨0x68, 0, 32, .ro, 0, [], false, 0⟩,
     ⟨0x6C, 0, 32, .ro, 0, [], false, 0⟩,
     ⟨0x70, 0, 32, .ro, 0, [], false, 0⟩,
     ⟨0x74, 0, 5, .ro, 0, [], false, 0⟩]⟩,
  ⟨0x180100, 0x20, 32, 0x20, 1,
    [⟨0x0, 0, 32, .roc, 0, [], false, 0⟩,
     ⟨0x4, 0, 32, .roc, 0, [], false, 0⟩,
     ⟨0x8, 0, 32, .roc, 0, [], false, 0⟩,
     ⟨0xC, 0, 32, .roc, 0, [], false, 0⟩,
     ⟨0x10, 0, 32, .ro, 0, [], false, 1⟩,
     ⟨0x14, 0, 32, .ro, 0, [], false, 2⟩,
     ⟨0x18, 0, 32, .roc, 0, [], false, 0⟩]⟩]

/-- Register groups of block DMA. -/
def groupsDma : List RegGroup := [
  ⟨0x190000, 0x1000000, 1, 0x1000000, 1,
    [⟨0x0, 0, 32, .ro, 0, [], false, 1⟩,
     ⟨0x4, 0, 32, .ro, 0, [], false, 2⟩,
     ⟨0x8, 0, 32, .ro, 0, [], false, 1⟩,
     ⟨0xC, 0, 32, .ro, 0, [], false, 2⟩,
     ⟨0x10, 0, 32, .w1c, 0, [], false, 1⟩,
     ⟨0x14, 0, 32, .w1c, 0, [], false, 2⟩,
     ⟨0x18, 0, 32, .roc, 0, [], false, 0⟩,
     ⟨0x1C, 0, 32, .roc, 0, [], false, 0⟩]⟩,
  ⟨0x191000, 0x100, 64, 0x100, 1,
    [⟨0x0, 0, 3, .wo, 0, [(1, 4)], false, 0⟩,
     ⟨0x4, 0, 8, .ro, 0, [], false, 0⟩,
     ⟨0x4, 16, 16, .ro, 0, [], false, 0⟩,
     ⟨0x8, 0, 10, .rw, 0, [], false, 0⟩,
     ⟨0x8, 12, 2, .rw, 0, [], false, 0⟩,
     ⟨0x8, 16, 6, .rw, 0, [], false, 0⟩,
     ⟨0xC, 0, 3, .ro, 0, [], false, 0⟩,
     ⟨0xC, 3, 1, .ro, 0, [], false, 0⟩,
     ⟨0xC, 4, 1, .ro, 0, [], false, 0⟩,
     ⟨0xC, 8, 4, .ro, 0, [], false, 0⟩,
     ⟨0xC, 12, 1, .w1c, 0, [], false, 0⟩,
     ⟨0xC, 13, 1, .w1c, 0, [], false, 0⟩,
     ⟨0xC, 14, 1, .w1c, 0, [], false, 0⟩,
     ⟨0x10, 0, 10, .ro, 0, [], false, 0⟩,
     ⟨0x14, 0, 32, .ro, 0, [], false, 1⟩,
     ⟨0x18, 0, 32, .ro, 0, [], false, 2⟩,
     ⟨0x1C, 0, 32, .ro, 0, [], false, 1⟩,
     ⟨0x20, 0, 32, .ro, 0, [], false, 2⟩,
     ⟨0x24, 0, 32, .ro, 0, [], false, 0⟩,
     ⟨0x28, 0, 32, .roc, 0, [], false, 0⟩,
     ⟨0x2C, 0, 32, .ro, 0, [], false, 1⟩,
     ⟨0x30, 0, 32, .ro, 0, [], false, 2⟩,
     ⟨0x34, 0, 32, .ro, 0, [], false, 1⟩,
     ⟨0x38, 0, 32, .ro, 0, [], false, 2⟩,
     ⟨0x3C, 0, 32, .ro, 0, [], false, 0⟩]⟩,
  ⟨0x198000, 0x20, 1024, 0x20, 1,
    [⟨0x0, 0, 26, .rw, 0, [], false, 0⟩,
     ⟨0x4, 0, 32, .rw, 0, [], false, 0⟩,
     ⟨0x8, 0, 32, .rw, 0, [], false, 0⟩,
     ⟨0xC, 0, 32, .rw, 0, [], false, 0⟩,
     ⟨0x10, 0, 32, .rw, 0, [], false, 0⟩,
     ⟨0x14, 0, 32, .rw, 0, [], false, 0⟩,
     ⟨0x18, 0, 32, .rw, 0, [], false, 0⟩,
     ⟨0x1C, 0, 32, .rw, 0, [], false, 0⟩]⟩]

/-- Register groups of block CRC. -/
def groupsCrc : List RegGroup := [
  ⟨0x1A0100, 0x40, 36, 0x40, 1,
    [⟨0x0, 0, 6, .rw, 0x20, [(8, 32)], false, 0⟩,
     ⟨0x0, 8, 1, .rw, 1, [], false, 0⟩,
     ⟨0x0, 9, 1, .rw, 1, [], false, 0⟩,
     ⟨0x4, 0, 32, .rw, 0x1EDC6F41, [], false, 0⟩,
     ⟨0x8, 0, 32, .rw, 0xFFFFFFFF, [], false, 0⟩,
     ⟨0xC, 0, 32, .rw, 0xFFFFFFFF, [], false, 0⟩,
     ⟨0x10, 0, 32, .rw, 0xFFFFFFFF, [], false, 0⟩,
     ⟨0x14, 0, 32, .ro, 0, [], false, 0⟩,
     ⟨0x18, 0, 32, .wo, 0, [], false, 0⟩,
     ⟨0x1C, 0, 8, .wo, 0, [], false, 0⟩,
     ⟨0x20, 0, 1, .wo, 0, [], false, 0⟩,
     ⟨0x24, 0, 7, .ro, 0, [], false, 0⟩,
     ⟨0x28, 0, 32, .roc, 0, [], false, 0⟩,
     ⟨0x2C, 0, 32, .ro, 0, [], false, 0⟩]⟩]

/-- Register groups of block EVT. -/
def groupsEvt : List RegGroup := [
  ⟨0x20000, 0x1000000, 1, 0x1000000, 1,
    [⟨0x0, 0, 2, .ro, 0, [], false, 0⟩,
     ⟨0x0, 4, 4, .ro, 0, [], false, 0⟩,
     ⟨0x0, 8, 4, .ro, 0, [], false, 0⟩,
     ⟨0x0, 12, 1, .ro, 0, [], false, 0⟩,
     ⟨0x4, 0, 2, .wo, 0, [(1, 2)], false, 0⟩,
     ⟨0x8, 0, 8, .ro, 0, [], false, 0⟩,
     ⟨0x10, 0, 32, .ro, 0, [], false, 0⟩,
     ⟨0x14, 0, 32, .rw, 0, [], false, 0⟩,
     ⟨0x18, 0, 32, .roc, 0, [], false, 0⟩,
     ⟨0x1C, 0, 2, .rw, 2, [], false, 0⟩,
     ⟨0x1C, 8, 1, .rw, 0, [], false, 0⟩,
     ⟨0x1C, 16, 6, .rw, 0, [], false, 0⟩,
     ⟨0x20, 0, 1, .w1c, 0, [], false, 0⟩,
     ⟨0x40, 0, 32, .ro, 0, [], false, 0⟩,
     ⟨0x44, 0, 32, .rw, 0, [], false, 0⟩,
     ⟨0x48, 0, 32, .roc, 0, [], false, 0⟩,
     ⟨0x4C, 0, 32, .roc, 0, [], false, 0⟩,
     ⟨0x50, 0, 32, .roc, 0, [], false, 0⟩,
     ⟨0x54, 0, 32, .roc, 0, [], false, 0⟩,
     ⟨0x58, 0, 32, .roc, 0, [], false, 0⟩,
     ⟨0x5C, 0, 13, .rw, 0x100, [(16, 4096)], false, 0⟩]⟩,
  ⟨0x20100, 0x20, 4, 0x20, 1,
    [⟨0x0, 0, 1, .rwl, 0, [], false, 0⟩,
     ⟨0x0, 1, 1, .rwl, 0, [], false, 0⟩,
     ⟨0x0, 4, 4, .rwl, 0xE, [], false, 0⟩,
     ⟨0x0, 16, 16, .rwl, 0xFF, [], false, 0⟩,
     ⟨0x4, 0, 32, .rwl, 0, [], false, 1⟩,
     ⟨0x8, 0, 32, .rwl, 0, [], false, 2⟩,
     ⟨0xC, 0, 20, .rwl, 0x2710, [(1, 1000000)], false, 0⟩,
     ⟨0x10, 0, 32, .roc, 0, [], false, 0⟩,
     ⟨0x14, 0, 32, .roc, 0xFFFFFFFF, [], false, 0⟩,
     ⟨0x18, 0, 1, .ro, 0, [], false, 0⟩]⟩,
  ⟨0x20200, 0x4, 16, 0x4, 1,
    [⟨0x0, 0, 32, .rwl, 0xFFFFFFFF, [], false, 0⟩]⟩]

/-- Register groups of block FAB. -/
def groupsFab : List RegGroup := [
  ⟨0x140000, 0x1000000, 1, 0x1000000, 1,
    [⟨0x0, 0, 1, .rwl, 0, [], false, 0⟩,
     ⟨0x0, 1, 1, .rwl, 0, [], false, 0⟩,
     ⟨0x0, 8, 7, .rwl, 1, [(1, 64)], false, 0⟩,
     ⟨0x4, 0, 3, .wo, 0, [(1, 2)], false, 0⟩,
     ⟨0x4, 8, 6, .wo, 0, [], false, 0⟩,
     ⟨0x8, 0, 8, .ro, 0, [], false, 0⟩,
     ⟨0x8, 16, 16, .ro, 0, [], false, 0⟩,
     ⟨0xC, 0, 3, .ro, 0, [], false, 0⟩,
     ⟨0xC, 3, 1, .ro, 0, [], false, 0⟩,
     ⟨0xC, 4, 1, .ro, 0, [], false, 0⟩,
     ⟨0xC, 5, 1, .ro, 0, [], false, 0⟩,
     ⟨0xC, 8, 6, .ro, 0x3F, [], false, 0⟩,
     ⟨0xC, 16, 7, .ro, 0, [], false, 0⟩,
     ⟨0xC, 24, 6, .ro, 0, [], false, 0⟩,
     ⟨0x10, 0, 32, .ro, 0, [], false, 0⟩,
     ⟨0x14, 0, 6, .ro, 0, [], false, 0⟩,
     ⟨0x18, 0, 14, .rwl, 0x3E8, [(10, 10000)], false, 0⟩,
     ⟨0x1C, 0, 12, .rwl, 0x3E8, [(250, 4000)], false, 0⟩,
     ⟨0x20, 0, 10, .rw, 0x14, [(2, 1000)], false, 0⟩,
     ⟨0x24, 0, 14, .rw, 0x64, [(20, 10000)], false, 0⟩,
     ⟨0x28, 0, 32, .ro, 0, [], false, 0⟩,
     ⟨0x2C, 0, 13, .rw, 0x40, [(16, 4096)], false, 0⟩,
     ⟨0x30, 0, 32, .roc, 0, [], false, 0⟩,
     ⟨0x34, 0, 32, .roc, 0, [], false, 0⟩,
     ⟨0x38, 0, 32, .roc, 0, [], false, 0⟩,
     ⟨0x3C, 0, 16, .ro, 0, [], false, 0⟩]⟩,
  ⟨0x140100, 0x40, 8, 0x40, 1,
    [⟨0x0, 0, 1, .rwl, 0, [], false, 0⟩,
     ⟨0x4, 0, 2, .wo, 0, [(1, 3)], false, 0⟩,
     ⟨0x8, 0, 4, .ro, 0, [], false, 0⟩,
     ⟨0x8, 4, 2, .ro, 0, [], false, 0⟩,
     ⟨0x8, 6, 1, .ro, 0, [], false, 0⟩,
     ⟨0x8, 7, 1, .ro, 0, [], false, 0⟩,
     ⟨0xC, 0, 8, .ro, 0, [], false, 0⟩,
     ⟨0x10, 0, 32, .ro, 0, [], false, 1⟩,
     ⟨0x14, 0, 32, .ro, 0, [], false, 2⟩,
     ⟨0x18, 0, 3, .ro, 0, [], false, 0⟩,
     ⟨0x1C, 0, 32, .ro, 0, [], false, 0⟩,
     ⟨0x20, 0, 16, .rw, 0, [], false, 0⟩,
     ⟨0x24, 0, 10, .rw, 0x64, [(20, 1000)], false, 0⟩,
     ⟨0x28, 0, 32, .roc, 0, [], false, 0⟩,
     ⟨0x2C, 0, 32, .roc, 0, [], false, 0⟩]⟩,
  ⟨0x140400, 0x100, 1, 0x4, 64,
    [⟨0x0, 0, 3, .ro, 0, [], false, 0⟩,
     ⟨0x0, 3, 1, .ro, 0, [], false, 0⟩,
     ⟨0x0, 8, 5, .ro, 0, [], false, 0⟩]⟩,
  ⟨0x140600, 0x200, 1, 0x8, 64,
    [⟨0x0, 0, 32, .ro, 0, [], false, 1⟩,
     ⟨0x4, 0, 32, .ro, 0, [], false, 2⟩]⟩]

/-- Register groups of block TIM. -/
def groupsTim : List RegGroup := [
  ⟨0x1B0000, 0x1000000, 1, 0x1000000, 1,
    [⟨0x0, 0, 1, .rw, 0, [], false, 0⟩,
     ⟨0x0, 1, 1, .rw, 0, [], false, 0⟩,
     ⟨0x4, 0, 2, .wo, 0, [(1, 2)], false, 0⟩,
     ⟨0x8, 0, 8, .ro, 0, [], false, 0⟩,
     ⟨0x8, 8, 1, .ro, 0, [], false, 0⟩,
     ⟨0x8, 9, 1, .w1c, 0, [], false, 0⟩,
     ⟨0x8, 16, 16, .ro, 0, [], false, 0⟩,
     ⟨0xC, 0, 1, .ro, 0, [], false, 0⟩,
     ⟨0xC, 1, 3, .ro, 0, [], false, 0⟩,
     ⟨0xC, 4, 1, .ro, 0, [], false, 0⟩,
     ⟨0xC, 5, 1, .w1c, 0, [], false, 0⟩,
     ⟨0xC, 6, 2, .ro, 0, [], false, 0⟩,
     ⟨0x10, 0, 32, .ro, 0, [], false, 0⟩,
     ⟨0x14, 0, 32, .ro, 0, [], false, 1⟩,
     ⟨0x18, 0, 32, .ro, 0, [], false, 2⟩,
     ⟨0x20, 0, 32, .rw, 0, [], false, 0⟩,
     ⟨0x24, 0, 32, .rw, 0, [], false, 1⟩,
     ⟨0x28, 0, 32, .rw, 0, [], false, 2⟩,
     ⟨0x2C, 0, 32, .rw, 0, [], false, 1⟩,
     ⟨0x30, 0, 32, .rw, 0, [], false, 2⟩,
     ⟨0x34, 0, 32, .rw, 0, [], false, 0⟩,
     ⟨0x38, 0, 32, .rw, 0x2710, [(0, 1000000000)], false, 0⟩,
     ⟨0x3C, 0, 32, .rw, 0x3E8, [], false, 0⟩,
     ⟨0x40, 0, 32, .rw, 0x64, [], false, 0⟩,
     ⟨0x44, 0, 32, .ro, 0, [], false, 1⟩,
     ⟨0x48, 0, 32, .ro, 0, [], false, 2⟩,
     ⟨0x4C, 0, 32, .roc, 0, [], false, 0⟩,
     ⟨0x50, 0, 32, .roc, 0, [], false, 0⟩,
     ⟨0x54, 0, 32, .roc, 0, [], false, 0⟩,
     ⟨0x90, 0, 5, .ro, 0, [], false, 0⟩] ++
    [⟨0x94, 0, 32, .ro, 0, [], false, 0⟩,
     ⟨0x98, 0, 32, .ro, 0, [], false, 0⟩,
     ⟨0x9C, 0, 32, .ro, 0, [], false, 1⟩,
     ⟨0xA0, 0, 32, .ro, 0, [], false, 2⟩,
     ⟨0xA4, 0, 32, .roc, 0, [], false, 0⟩,
     ⟨0xC0, 0, 32, .ro, 0, [], false, 1⟩,
     ⟨0xC4, 0, 32, .ro, 0, [], false, 2⟩,
     ⟨0xC8, 0, 15, .ro, 0, [], false, 0⟩,
     ⟨0xCC, 0, 1, .ro, 0, [], false, 0⟩,
     ⟨0x400, 0, 32, .rwl, 0, [], false, 1⟩,
     ⟨0x404, 0, 32, .rwl, 0, [], false, 2⟩,
     ⟨0x408, 0, 32, .rw, 0, [], false, 0⟩,
     ⟨0x40C, 0, 32, .rw, 0, [], false, 0⟩,
     ⟨0x410, 0, 32, .rw, 0, [], false, 0⟩,
     ⟨0x414, 0, 16, .rw, 0x15F4, [], false, 0⟩,
     ⟨0x418, 0, 1, .rwl, 1, [], false, 0⟩,
     ⟨0x418, 1, 2, .rw, 0, [], false, 0⟩,
     ⟨0x418, 8, 5, .rw, 0, [], false, 0⟩,
     ⟨0x41C, 0, 1, .ro, 0, [], false, 0⟩,
     ⟨0x41C, 1, 2, .ro, 0, [], false, 0⟩,
     ⟨0x420, 0, 32, .rw, 0, [], false, 0⟩,
     ⟨0x424, 0, 32, .roc, 0, [], false, 0⟩,
     ⟨0x428, 0, 32, .roc, 0, [], false, 0⟩]⟩,
  ⟨0x1B0080, 0xC, 1, 0x4, 3,
    [⟨0x0, 0, 16, .rw, 0, [], false, 0⟩,
     ⟨0x0, 16, 16, .rw, 0, [], false, 0⟩]⟩]

/-- Register groups of block DEV. -/
def groupsDev : List RegGroup := [
  ⟨0x0, 0x1000000, 1, 0x1000000, 1,
    [⟨0x100, 0, 4, .rw, 0, [], false, 0⟩,
     ⟨0x104, 0, 1, .ro, 0, [], false, 0⟩,
     ⟨0x104, 1, 1, .ro, 0, [], false, 0⟩,
     ⟨0x104, 2, 1, .ro, 1, [], false, 0⟩,
     ⟨0x104, 3, 1, .ro, 0, [], false, 0⟩,
     ⟨0x104, 4, 1, .ro, 0, [], false, 0⟩,
     ⟨0x104, 5, 1, .ro, 0, [], false, 0⟩,
     ⟨0x104, 6, 1, .ro, 0, [], false, 0⟩,
     ⟨0x108, 0, 1, .wo, 0, [], false, 0⟩,
     ⟨0x10C, 0, 8, .ro, 0, [], false, 0⟩,
     ⟨0x120, 0, 2, .wo, 0, [(1, 3)], false, 0⟩,
     ⟨0x124, 0, 8, .ro, 0, [], false, 0⟩,
     ⟨0x124, 8, 1, .ro, 0, [], false, 0⟩,
     ⟨0x124, 9, 1, .w1c, 0, [], false, 0⟩,
     ⟨0x124, 16, 16, .ro, 0, [], false, 0⟩,
     ⟨0x128, 0, 5, .rw, 0x1F, [], false, 0⟩,
     ⟨0x12C, 0, 2, .ro, 0, [], false, 0⟩,
     ⟨0x12C, 2, 1, .ro, 0, [], false, 0⟩,
     ⟨0x130, 0, 32, .ro, 0, [], false, 0⟩,
     ⟨0x134, 0, 32, .ro, 0, [], false, 0⟩,
     ⟨0x138, 0, 32, .ro, 0, [], false, 0⟩,
     ⟨0x13C, 0, 32, .ro, 0, [], false, 0⟩,
     ⟨0x140, 0, 32, .roc, 0, [], false, 0⟩,
     ⟨0x144, 0, 32, .roc, 0, [], false, 0⟩,
     ⟨0x160, 0, 12, .wo, 0, [], false, 0⟩,
     ⟨0x164, 0, 1, .ro, 0, [], false, 0⟩,
     ⟨0x164, 1, 1, .w1c, 0, [], false, 0⟩,
     ⟨0x164, 2, 1, .w1c, 0, [], false, 0⟩,
     ⟨0x164, 16, 12, .ro, 0, [], false, 0⟩,
     ⟨0x168, 0, 6, .rw, 0, [], false, 0⟩] ++
    [⟨0x168, 8, 1, .rw, 0, [], false, 0⟩,
     ⟨0x16C, 0, 4, .ro, 0, [], false, 0⟩,
     ⟨0x0, 0, 3, .ro, 1, [], false, 0⟩,
     ⟨0x0, 4, 2, .ro, 0, [], false, 0⟩,
     ⟨0x0, 8, 4, .ro, 1, [], false, 0⟩,
     ⟨0x4, 0, 3, .wo, 0, [(1, 4)], false, 0⟩,
     ⟨0x8, 0, 8, .ro, 0, [], false, 0⟩,
     ⟨0x8, 16, 16, .ro, 0, [], false, 0⟩,
     ⟨0xC, 0, 16, .ro, 0, [], false, 0⟩,
     ⟨0x10, 0, 16, .ro, 0, [], false, 0⟩]⟩,
  ⟨0x1000, 0x800, 1, 0x4, 512,
    [⟨0x0, 0, 32, .rw, 0, [], false, 0⟩]⟩,
  ⟨0x1800, 0x800, 1, 0x4, 512,
    [⟨0x0, 0, 32, .ro, 0, [], false, 0⟩]⟩]

/-- Register groups of block PWR. -/
def groupsPwr : List RegGroup := [
  ⟨0x10000, 0x1000000, 1, 0x1000000, 1,
    [⟨0x0, 0, 4, .wo, 0, [], false, 0⟩,
     ⟨0x0, 8, 2, .wo, 0, [(1, 2)], false, 0⟩,
     ⟨0x4, 0, 8, .ro, 0, [], false, 0⟩,
     ⟨0x4, 8, 1, .ro, 0, [], false, 0⟩,
     ⟨0x4, 9, 1, .w1c, 0, [], false, 0⟩,
     ⟨0x4, 16, 16, .ro, 0, [], false, 0⟩,
     ⟨0x8, 0, 10, .ro, 0x3FF, [], false, 0⟩,
     ⟨0xC, 0, 10, .ro, 0, [], false, 0⟩,
     ⟨0x10, 0, 10, .rw, 0x3FF, [], false, 0⟩,
     ⟨0x14, 0, 2, .wo, 0, [(1, 2)], false, 0⟩,
     ⟨0x14, 8, 1, .wo, 0, [], false, 0⟩,
     ⟨0x14, 16, 16, .wo, 0, [], false, 0⟩,
     ⟨0x18, 0, 8, .ro, 0, [], false, 0⟩,
     ⟨0x1C, 0, 14, .rw, 0x7D0, [(0, 0), (100, 10000)], false, 0⟩,
     ⟨0x20, 0, 1, .wo, 0, [], false, 0⟩,
     ⟨0x24, 0, 7, .ro, 0x7F, [], false, 0⟩,
     ⟨0x28, 0, 32, .roc, 0, [], false, 0⟩,
     ⟨0x2C, 0, 32, .roc, 0, [], false, 0⟩,
     ⟨0x800, 0, 5, .w1c, 0, [], false, 0⟩,
     ⟨0x804, 0, 7, .w1c, 0, [], false, 0⟩,
     ⟨0x808, 0, 1, .ro, 0, [], false, 0⟩,
     ⟨0x808, 1, 1, .ro, 0, [], false, 0⟩]⟩,
  ⟨0x10A00, 0x200, 1, 0x4, 128,
    [⟨0x0, 0, 32, .ro, 0, [], false, 0⟩]⟩]

/-- Register groups of block CAL. -/
def groupsCal : List RegGroup := [
  ⟨0x1C0000, 0x1000000, 1, 0x1000000, 1,
    [⟨0x0, 0, 2, .wo, 0, [(1, 3)], false, 0⟩,
     ⟨0x4, 0, 9, .rw, 0, [], false, 0⟩,
     ⟨0x4, 16, 4, .rw, 0, [], false, 0⟩,
     ⟨0x4, 24, 5, .rw, 0, [], false, 0⟩,
     ⟨0x8, 0, 32, .rw, 0, [], false, 1⟩,
     ⟨0xC, 0, 32, .rw, 0, [], false, 2⟩,
     ⟨0x10, 0, 32, .rw, 0, [], false, 1⟩,
     ⟨0x14, 0, 32, .rw, 0, [], false, 2⟩,
     ⟨0x18, 0, 8, .ro, 0, [], false, 0⟩,
     ⟨0x18, 8, 1, .ro, 0, [], false, 0⟩,
     ⟨0x18, 9, 1, .w1c, 0, [], false, 0⟩,
     ⟨0x1C, 0, 8, .ro, 0, [], false, 0⟩,
     ⟨0x1C, 8, 1, .ro, 0, [], false, 0⟩,
     ⟨0x1C, 9, 1, .w1c, 0, [], false, 0⟩,
     ⟨0x20, 0, 1, .w1c, 0, [], false, 0⟩,
     ⟨0x20, 16, 16, .ro, 0, [], false, 0⟩,
     ⟨0x24, 0, 16, .ro, 0, [], false, 0⟩,
     ⟨0x28, 0, 8, .rw, 0x14, [(1, 100)], false, 0⟩,
     ⟨0x2C, 0, 8, .rw, 8, [(1, 255)], false, 0⟩,
     ⟨0x30, 0, 8, .rw, 8, [], false, 0⟩,
     ⟨0x30, 16, 8, .rw, 0x10, [], false, 0⟩,
     ⟨0x34, 0, 4, .ro, 0xF, [], false, 0⟩,
     ⟨0x38, 0, 32, .ro, 0, [], false, 1⟩,
     ⟨0x3C, 0, 32, .ro, 0, [], false, 2⟩,
     ⟨0x40, 0, 32, .roc, 0, [], false, 0⟩,
     ⟨0x44, 0, 7, .ro, 0, [], false, 0⟩,
     ⟨0x48, 0, 32, .ro, 0, [], false, 1⟩,
     ⟨0x4C, 0, 32, .ro, 0, [], false, 2⟩]⟩,
  ⟨0x1C0100, 0x10, 9, 0x10, 1,
    [⟨0x0, 0, 10, .rwl, 0, [], false, 0⟩,
     ⟨0x0, 16, 10, .rwl, 0, [], false, 0⟩,
     ⟨0x4, 0, 16, .ro, 0, [], false, 0⟩,
     ⟨0x8, 0, 8, .ro, 0, [], false, 0⟩,
     ⟨0xC, 0, 32, .roc, 0, [], false, 0⟩]⟩]

/-- Register groups of block UPD. -/
def groupsUpd : List RegGroup := [
  ⟨0x1D0000, 0x1000000, 1, 0x1000000, 1,
    [⟨0x0, 0, 3, .wo, 0, [(1, 5)], false, 0⟩,
     ⟨0x4, 0, 8, .ro, 0, [], false, 0⟩,
     ⟨0x4, 8, 1, .ro, 0, [], false, 0⟩,
     ⟨0x4, 9, 1, .w1c, 0, [], false, 0⟩,
     ⟨0x4, 16, 16, .ro, 0, [], false, 0⟩,
     ⟨0x8, 0, 3, .ro, 0, [], false, 0⟩,
     ⟨0xC, 0, 32, .rw, 0, [], false, 0⟩,
     ⟨0x10, 0, 32, .ro, 0, [], false, 0⟩,
     ⟨0x14, 0, 32, .rw, 0, [], false, 0⟩,
     ⟨0x18, 0, 13, .rw, 0, [(4, 4096)], false, 0⟩,
     ⟨0x1C, 0, 8, .ro, 0, [], false, 0⟩,
     ⟨0x1C, 8, 8, .ro, 0, [], false, 0⟩,
     ⟨0x20, 0, 7, .ro, 0, [], false, 0⟩,
     ⟨0x24, 0, 32, .ro, 0, [], false, 0⟩,
     ⟨0x28, 0, 8, .ro, 0, [], false, 0⟩,
     ⟨0x2C, 0, 32, .ro, 0, [], false, 0⟩,
     ⟨0x30, 0, 8, .ro, 0, [], false, 0⟩,
     ⟨0x34, 0, 8, .ro, 0, [], false, 0⟩,
     ⟨0x38, 0, 32, .ro, 0, [], false, 0⟩]⟩,
  ⟨0x1D1000, 0x1000, 1, 0x4, 1024,
    [⟨0x0, 0, 32, .wo, 0, [], false, 0⟩]⟩]

/-- The block that a 64 KiB page of BAR0 belongs to (Table 16.11); head ports take 4 KiB each. -/
def groupsOfPage (page : Nat) : List RegGroup :=
  match page with
  | 0x00 => groupsDev | 0x01 => groupsPwr | 0x02 => groupsEvt | 0x03 => groupsPos | 0x04 => groupsItm | 0x05 => groupsFir
  | 0x08 => groupsJob | 0x09 => groupsExp | 0x0A => groupsCmp | 0x0B => groupsDos | 0x0C => groupsLas
  | 0x10 => groupsHp | 0x11 => groupsHp | 0x14 => groupsFab | 0x16 => groupsDrc | 0x17 => groupsDrc
  | 0x18 => groupsEcc | 0x19 => groupsDma | 0x1A => groupsCrc | 0x1B => groupsTim | 0x1C => groupsCal | 0x1D => groupsUpd
  | _ => []

/-- Every field row of the BAR0 word at byte address `a`; empty where no register stands (R450). -/
def rowsAt (a : Nat) : List FieldRow :=
  (groupsOfPage (a / 0x10000)).flatMap (fun g => g.rowsAt a)

/-- The reset value of the BAR0 word at byte address `a`: its rows' reset values, reserved bits 0 (R7). -/
def resetWord (a : Nat) : BitVec 32 :=
  BitVec.ofNat 32 ((rowsAt a).foldl (fun acc f => acc ||| (f.rst <<< f.lo)) 0)

/-- Whether the word at `a` holds profile settings (Table 16.9). -/
def isProfileAddr (a : Nat) : Bool := (rowsAt a).any (fun f => f.prof)

/-! Named fields. Parameters: p head or fabric port, c channel or class, n instance, i array element. -/
namespace R


-- Table 2.5
/-- 0–3 ENCn, 4 fabric, 5–7 reserved (RWL). -/
def POS_CTRL_SRC : Fld := ⟨0x30000, 0, 3⟩
/-- check encoder input 0–3 (RWL). -/
def POS_CTRL_CHK_SRC : Fld := ⟨0x30000, 4, 3⟩
/-- enable check encoder (R55) (RWL). -/
def POS_CTRL_CHK_EN : Fld := ⟨0x30000, 7, 1⟩
/-- position valid (R65) (RO). -/
def POS_STATUS_VALID : Fld := ⟨0x30004, 0, 1⟩
/-- in reversal (R62) (RO). -/
def POS_STATUS_REVERSED : Fld := ⟨0x30004, 1, 1⟩
/-- prediction on (RO). -/
def POS_STATUS_PRED : Fld := ⟨0x30004, 2, 1⟩
/-- v ≥ FIR_VMIN (RO). -/
def POS_STATUS_MOVING : Fld := ⟨0x30004, 3, 1⟩
/-- last invalid cause (RO). -/
def POS_STATUS_CAUSE : Fld := ⟨0x30004, 8, 4⟩
/-- R56 (WO). -/
def POS_CMD_LOAD : Fld := ⟨0x30008, 0, 1⟩
/-- R66 (WO). -/
def POS_CMD_RESTORE_KEEP : Fld := ⟨0x30008, 1, 1⟩
/-- R66 (WO). -/
def POS_CMD_RESTORE_LOAD : Fld := ⟨0x30008, 2, 1⟩
/-- reported position, 48.16, latched per R5 (RO). -/
def POS_LO : Fld := ⟨0x30010, 0, 32⟩
/-- reported position, 48.16, latched per R5 (RO). -/
def POS_HI : Fld := ⟨0x30014, 0, 32⟩
/-- weir level, 48.16 (RO). -/
def WEIR_LO : Fld := ⟨0x30018, 0, 32⟩
/-- weir level, 48.16 (RO). -/
def WEIR_HI : Fld := ⟨0x3001C, 0, 32⟩
/-- load value, 48.16 (RW). -/
def POS_LD_LO : Fld := ⟨0x30020, 0, 32⟩
/-- load value, 48.16 (RW). -/
def POS_LD_HI : Fld := ⟨0x30024, 0, 32⟩
/-- v, signed, 2^−32 lines per ns (RO). -/
def VEL : Fld := ⟨0x30028, 0, 32⟩
/-- counts (R61) (RW). -/
def WEIR_DEPTH : Fld := ⟨0x3002C, 0, 16⟩
/-- window 2^n ns, n = 10–20 (RWL). -/
def VEL_WIN : Fld := ⟨0x30030, 0, 5⟩
/-- absorbed excursions (ROC). -/
def REV_ABS_CNT : Fld := ⟨0x30034, 0, 32⟩
/-- reversals (ROC). -/
def REV_CNT : Fld := ⟨0x30038, 0, 32⟩
/-- check disagreement limit, 1/256 line (RW). -/
def CHK_LIMIT : Fld := ⟨0x3003C, 0, 16⟩
/-- enable input (RWL). -/
def ENC_CFG_EN (n : Nat) : Fld := ⟨0x30100 + 0x40 * n, 0, 1⟩
/-- 0 digital, 1 analog (RWL). -/
def ENC_CFG_MODE (n : Nat) : Fld := ⟨0x30100 + 0x40 * n, 1, 1⟩
/-- 0 ×4, 1 ×2, 2 ×1, 3 reserved (RWL). -/
def ENC_CFG_DECODE (n : Nat) : Fld := ⟨0x30100 + 0x40 * n, 2, 2⟩
/-- reverse counting (RWL). -/
def ENC_CFG_DIR (n : Nat) : Fld := ⟨0x30100 + 0x40 * n, 4, 1⟩
/-- 0 off, 1 warn, 2 invalidate (RWL). -/
def ENC_CFG_ZCHK (n : Nat) : Fld := ⟨0x30100 + 0x40 * n, 5, 2⟩
/-- sticky: QERR, RATE, LOS, AMP, ADC, ZMIS (W1C). -/
def ENC_STATUS (n : Nat) : Fld := ⟨0x30104 + 0x40 * n, 0, 6⟩
/-- K, 32.32 (R51) (RWL). -/
def ENC_CPL_LO (n : Nat) : Fld := ⟨0x30108 + 0x40 * n, 0, 32⟩
/-- K, 32.32 (R51) (RWL). -/
def ENC_CPL_HI (n : Nat) : Fld := ⟨0x3010C + 0x40 * n, 0, 32⟩
/-- C, signed (RO). -/
def ENC_CNT_LO (n : Nat) : Fld := ⟨0x30110 + 0x40 * n, 0, 32⟩
/-- C, signed (RO). -/
def ENC_CNT_HI (n : Nat) : Fld := ⟨0x30114 + 0x40 * n, 0, 32⟩
/-- counts per Z period (RW). -/
def ENC_CPR (n : Nat) : Fld := ⟨0x30118 + 0x40 * n, 0, 32⟩
/-- Z tolerance, counts (RW). -/
def ENC_ZTOL (n : Nat) : Fld := ⟨0x3011C + 0x40 * n, 0, 16⟩
/-- last vector amplitude, ADC codes (RO). -/
def ENC_AMP (n : Nat) : Fld := ⟨0x30120 + 0x40 * n, 0, 14⟩

-- Table 2.6
/-- items in flight, 0–4,096 (RO). -/
def ITM_STATUS_IN_FLIGHT : Fld := ⟨0x40000, 0, 13⟩
/-- overflow occurred (R72) (W1C). -/
def ITM_STATUS_OVF : Fld := ⟨0x40000, 16, 1⟩
/-- highest IN_FLIGHT since the last read; restarts at the IN_FLIGHT va… (ROC). -/
def ITM_PEAK : Fld := ⟨0x40004, 0, 13⟩
/-- next item number (R69) (RWL). -/
def ITM_NEXT : Fld := ⟨0x40008, 0, 32⟩
/-- item number to read (RW). -/
def ITM_SEL : Fld := ⟨0x4000C, 0, 32⟩
/-- selected item is in flight (RO). -/
def ITM_REC_STAT_FOUND : Fld := ⟨0x40010, 0, 1⟩
/-- record per Table 2.2 (RO). -/
def ITM_REC (i : Nat) : Fld := ⟨0x40040 + 4 * i, 0, 32⟩
/-- enable input (RWL). -/
def TRG_CFG_EN (n : Nat) : Fld := ⟨0x40100 + 0x20 * n, 0, 1⟩
/-- 0 rising, 1 falling (RWL). -/
def TRG_CFG_EDGE (n : Nat) : Fld := ⟨0x40100 + 0x20 * n, 1, 1⟩
/-- distribute to fabric (R73) (RWL). -/
def TRG_CFG_FAB (n : Nat) : Fld := ⟨0x40100 + 0x20 * n, 2, 1⟩
/-- filter, ns (RWL). -/
def TRG_FILT (n : Nat) : Fld := ⟨0x40104 + 0x20 * n, 0, 20⟩
/-- hold-off, 16.16 lines (RW). -/
def TRG_HOLD (n : Nat) : Fld := ⟨0x40108 + 0x20 * n, 0, 32⟩
/-- item offset, 48.16, profile (RW). -/
def TRG_OFS_LO (n : Nat) : Fld := ⟨0x4010C + 0x20 * n, 0, 32⟩
/-- item offset, 48.16, profile (RW). -/
def TRG_OFS_HI (n : Nat) : Fld := ⟨0x40110 + 0x20 * n, 0, 32⟩
/-- rejected edges (R67) (ROC). -/
def TRG_REJ_CNT (n : Nat) : Fld := ⟨0x40114 + 0x20 * n, 0, 32⟩
/-- accepted triggers (RO). -/
def TRG_CNT (n : Nat) : Fld := ⟨0x40118 + 0x20 * n, 0, 32⟩

-- Table 2.7
/-- filtered FIRE_INHIBIT_N asserted (RO). -/
def FIR_STATUS_INHIBIT : Fld := ⟨0x50000, 0, 1⟩
/-- all R35 conditions other than the last hold (RO). -/
def FIR_STATUS_FIRING : Fld := ⟨0x50000, 1, 1⟩
/-- lines per second (R60) (RW). -/
def FIR_VMIN : Fld := ⟨0x50008, 0, 32⟩
/-- 2^−16 line (R82) (RW). -/
def FIR_LATE_LIM : Fld := ⟨0x5000C, 0, 16⟩
/-- ns (R81) (RWL). -/
def FIR_INH_FILT : Fld := ⟨0x50010, 0, 10⟩
/-- Hz (R77) (RO). -/
def FIR_RATE_MIN : Fld := ⟨0x50014, 0, 32⟩
/-- Hz (R77) (RO). -/
def FIR_RATE_MAX : Fld := ⟨0x50018, 0, 32⟩
/-- late triggers (ROC). -/
def FIR_LATE_CNT : Fld := ⟨0x50020, 0, 32⟩
/-- window withholds (ROC). -/
def FIR_WIN_CNT : Fld := ⟨0x50024, 0, 32⟩
/-- inhibit withholds (ROC). -/
def FIR_INH_CNT : Fld := ⟨0x50028, 0, 32⟩
/-- row enabled (RW). -/
def ROW_EN (n : Nat) : Fld := ⟨0x51000 + 0x10 * n, 0, 1⟩
/-- head port 0–31 (RW). -/
def ROW_PORT (n : Nat) : Fld := ⟨0x51000 + 0x10 * n, 1, 5⟩
/-- row on head 0–15 (RW). -/
def ROW_HEAD_ROW (n : Nat) : Fld := ⟨0x51000 + 0x10 * n, 6, 4⟩
/-- φ, 2^−16 line (RW). -/
def ROW_PHASE (n : Nat) : Fld := ⟨0x51004 + 0x10 * n, 0, 24⟩
/-- t_f, signed ns (RW). -/
def ROW_TFLIGHT (n : Nat) : Fld := ⟨0x51008 + 0x10 * n, 0, 32⟩

-- Table 3.11
/-- opcode per Table 3.9 (WO). -/
def JOB_CMD_OP : Fld := ⟨0x80000, 0, 4⟩
/-- per Table 3.10 (RO). -/
def JOB_RESULT_CODE : Fld := ⟨0x80004, 0, 8⟩
/-- command in progress (RO). -/
def JOB_RESULT_BUSY : Fld := ⟨0x80004, 8, 1⟩
/-- write discarded (R116) (W1C). -/
def JOB_RESULT_OVR : Fld := ⟨0x80004, 9, 1⟩
/-- accepted commands, wraps (RO). -/
def JOB_RESULT_SEQ : Fld := ⟨0x80004, 16, 16⟩
/-- arguments (RW). -/
def JOB_ARG (i : Nat) : Fld := ⟨0x80010 + 4 * i, 0, 32⟩
/-- head slot (RO). -/
def SEQ_STATUS_HEAD : Fld := ⟨0x80040, 0, 4⟩
/-- slots not EMPTY, 0–16 (RO). -/
def SEQ_STATUS_COUNT : Fld := ⟨0x80040, 4, 5⟩
/-- resume in progress (RO). -/
def SEQ_STATUS_RESUMING : Fld := ⟨0x80040, 12, 1⟩
/-- R115 (RO). -/
def SEQ_STATUS_RESUME_READY : Fld := ⟨0x80040, 13, 1⟩
/-- swap scheduled (RO). -/
def SWAP_STATUS_PENDING : Fld := ⟨0x80044, 0, 1⟩
/-- N known (RO). -/
def SWAP_STATUS_CONVERTED : Fld := ⟨0x80044, 1, 1⟩
/-- per Table 3.7 (RO). -/
def SWAP_STATUS_FORM : Fld := ⟨0x80044, 2, 2⟩
/-- N, whole lines (RO). -/
def SWAP_LINE_LO : Fld := ⟨0x80048, 0, 32⟩
/-- N, whole lines (RO). -/
def SWAP_LINE_HI : Fld := ⟨0x8004C, 0, 32⟩
/-- increments at each swap (RO). -/
def PROFILE_GEN : Fld := ⟨0x80050, 0, 32⟩
/-- BAR2 target well (RW). -/
def INTAKE_WIN_WELL : Fld := ⟨0x80060, 0, 4⟩
/-- window offset, MiB (RW). -/
def INTAKE_WIN_OFS : Fld := ⟨0x80060, 16, 16⟩
/-- discarded writes (R94, R95) (ROC). -/
def INTAKE_DISC_CNT : Fld := ⟨0x80064, 0, 32⟩
/-- N of the last accepted RESUME (RO). -/
def RESUME_LINE_LO : Fld := ⟨0x80070, 0, 32⟩
/-- N of the last accepted RESUME (RO). -/
def RESUME_LINE_HI : Fld := ⟨0x80074, 0, 32⟩
/-- history entry, 0 = newest (RW). -/
def JOB_HIST_SEL : Fld := ⟨0x80080, 0, 4⟩
/-- slot words +0x00 to +0x1C of the selected record (RO). -/
def JOB_HIST (i : Nat) : Fld := ⟨0x80084 + 4 * i, 0, 32⟩
/-- well of the last SEAL_FAIL (R91) (RO). -/
def SEAL_LAST_WELL : Fld := ⟨0x800A4, 0, 4⟩
/-- full byte offset of the last SEAL_FAIL, latched per R5 (RO). -/
def SEAL_LAST_OFS_LO : Fld := ⟨0x800A8, 0, 32⟩
/-- full byte offset of the last SEAL_FAIL, latched per R5 (RO). -/
def SEAL_LAST_OFS_HI : Fld := ⟨0x800AC, 0, 32⟩
/-- 0 FREE, 1 CLOSED, 2 LOADING, 3 SEALING, 4 SEALED (RO). -/
def WELL_STATE (n : Nat) : Fld := ⟨0x80100 + 0x20 * n, 0, 3⟩
/-- R89 (RO). -/
def WELL_PLACE (n : Nat) : Fld := ⟨0x80100 + 0x20 * n, 4, 2⟩
/-- R93 (RO). -/
def WELL_UNREAD (n : Nat) : Fld := ⟨0x80100 + 0x20 * n, 8, 1⟩
/-- bytes (RO). -/
def WELL_BASE_LO (n : Nat) : Fld := ⟨0x80104 + 0x20 * n, 0, 32⟩
/-- bytes (RO). -/
def WELL_BASE_HI (n : Nat) : Fld := ⟨0x80108 + 0x20 * n, 0, 32⟩
/-- bytes (RO). -/
def WELL_SIZE_LO (n : Nat) : Fld := ⟨0x8010C + 0x20 * n, 0, 32⟩
/-- bytes (RO). -/
def WELL_SIZE_HI (n : Nat) : Fld := ⟨0x80110 + 0x20 * n, 0, 32⟩
/-- J_w, bytes per line (R91) (RO). -/
def WELL_JMAX (n : Nat) : Fld := ⟨0x80114 + 0x20 * n, 0, 32⟩
/-- failed check per SEAL_FAIL (RO). -/
def WELL_SEAL_ERR (n : Nat) : Fld := ⟨0x80118 + 0x20 * n, 0, 8⟩
/-- offset of the failure, bytes, bits [31:0]; the full offset of the l… (RO). -/
def WELL_SEAL_OFS (n : Nat) : Fld := ⟨0x8011C + 0x20 * n, 0, 32⟩
/-- 0 EMPTY, 1 QUEUED, 2 HEAD, 3 ACTIVE, 4 ENDED (RO). -/
def SLOT_STATE (n : Nat) : Fld := ⟨0x80400 + 0x40 * n, 0, 3⟩
/-- 0 none, 1 COMPLETE, 2 ABORTED, 3 MISSED (RO). -/
def SLOT_OUTCOME (n : Nat) : Fld := ⟨0x80400 + 0x40 * n, 4, 2⟩
/-- R103 (RO). -/
def SLOT_ABORT_LATE (n : Nat) : Fld := ⟨0x80400 + 0x40 * n, 8, 1⟩
/-- well (RO). -/
def SLOT_WELL (n : Nat) : Fld := ⟨0x80400 + 0x40 * n, 12, 4⟩
/-- 0 AT_LINE, 1 AT_ITEM, 2 FOLLOW (RO). -/
def SLOT_MODE (n : Nat) : Fld := ⟨0x80400 + 0x40 * n, 16, 2⟩
/-- S, whole lines; valid from HEAD with S fixed (RO). -/
def SLOT_S_LO (n : Nat) : Fld := ⟨0x80404 + 0x40 * n, 0, 32⟩
/-- S, whole lines; valid from HEAD with S fixed (RO). -/
def SLOT_S_HI (n : Nat) : Fld := ⟨0x80408 + 0x40 * n, 0, 32⟩
/-- raster lines released (RO). -/
def SLOT_RELEASED (n : Nat) : Fld := ⟨0x8040C + 0x40 * n, 0, 32⟩
/-- b (RO). -/
def SLOT_FIRST_BAND (n : Nat) : Fld := ⟨0x80410 + 0x40 * n, 0, 32⟩
/-- from the stream header (RO). -/
def SLOT_JOB_ID_LO (n : Nat) : Fld := ⟨0x80414 + 0x40 * n, 0, 32⟩
/-- from the stream header (RO). -/
def SLOT_JOB_ID_HI (n : Nat) : Fld := ⟨0x80418 + 0x40 * n, 0, 32⟩
/-- from the stream header (RO). -/
def SLOT_JOB_LINES (n : Nat) : Fld := ⟨0x8041C + 0x40 * n, 0, 32⟩

-- Table 4.9
/-- bit e: engine e has raised SEG_ERROR or SEG_CRC (W1C). -/
def EXP_ERR : Fld := ⟨0x90000, 0, 32⟩
/-- unproven band-slices (ROC). -/
def EXP_UNPROVEN_CNT : Fld := ⟨0x90004, 0, 32⟩
/-- code 17 (ROC). -/
def EXP_CRC_CNT : Fld := ⟨0x90008, 0, 32⟩
/-- codes 1–16 (ROC). -/
def EXP_ERR_CNT : Fld := ⟨0x9000C, 0, 32⟩
/-- 0 OFF, 1 IDLE, 2 PRIME, 3 WAIT, 4 RUN, 5 HALT (RO). -/
def ENG_STATUS_STATE (n : Nat) : Fld := ⟨0x91000 + 0x400 * n, 0, 3⟩
/-- n_s, 0–8 (RO). -/
def ENG_STATUS_SEGS (n : Nat) : Fld := ⟨0x91000 + 0x400 * n, 4, 4⟩
/-- last code per Table 4.1 (RO). -/
def ENG_STATUS_LAST_ERR (n : Nat) : Fld := ⟨0x91000 + 0x400 * n, 8, 8⟩
/-- H_s, bytes (R123) (RO). -/
def ENG_HIST (n : Nat) : Fld := ⟨0x91004 + 0x400 * n, 0, 16⟩
/-- band being expanded (RO). -/
def ENG_BAND (n : Nat) : Fld := ⟨0x91008 + 0x400 * n, 0, 32⟩
/-- job line last completed (RO). -/
def ENG_LINE (n : Nat) : Fld := ⟨0x9100C + 0x400 * n, 0, 32⟩
/-- well offset of the byte holding the error (RO). -/
def ENG_ERR_OFS_LO (n : Nat) : Fld := ⟨0x91010 + 0x400 * n, 0, 32⟩
/-- well offset of the byte holding the error (RO). -/
def ENG_ERR_OFS_HI (n : Nat) : Fld := ⟨0x91014 + 0x400 * n, 0, 32⟩
/-- band of the last error (RO). -/
def ENG_ERR_BAND (n : Nat) : Fld := ⟨0x91018 + 0x400 * n, 0, 32⟩
/-- plane of the last error (RO). -/
def ENG_ERR_PLANE (n : Nat) : Fld := ⟨0x9101C + 0x400 * n, 0, 3⟩
/-- expanded bytes, wraps (RO). -/
def ENG_BYTES_LO (n : Nat) : Fld := ⟨0x91020 + 0x400 * n, 0, 32⟩
/-- expanded bytes, wraps (RO). -/
def ENG_BYTES_HI (n : Nat) : Fld := ⟨0x91024 + 0x400 * n, 0, 32⟩
/-- smallest margin since the last read, ns; restarts at 0xFFFF_FFFF at… (ROC). -/
def ENG_MARGIN_MIN (n : Nat) : Fld := ⟨0x91028 + 0x400 * n, 0, 32⟩
/-- code 17 on this engine (ROC). -/
def ENG_CRC_CNT (n : Nat) : Fld := ⟨0x9102C + 0x400 * n, 0, 32⟩
/-- codes 1–16 on this engine (ROC). -/
def ENG_ERR_CNT (n : Nat) : Fld := ⟨0x91030 + 0x400 * n, 0, 32⟩
/-- start task (R139) (WO). -/
def CMPR_CMD_START (n : Nat) : Fld := ⟨0x99000 + 0x400 * n, 0, 1⟩
/-- R147 (WO). -/
def CMPR_CMD_ABORT (n : Nat) : Fld := ⟨0x99000 + 0x400 * n, 1, 1⟩
/-- Table 4.4 (RW). -/
def CMPR_CFG_EFFORT (n : Nat) : Fld := ⟨0x99004 + 0x400 * n, 0, 2⟩
/-- distance limit 2^(8+n) bytes (R140) (RW). -/
def CMPR_CFG_DIST_LIM (n : Nat) : Fld := ⟨0x99004 + 0x400 * n, 4, 3⟩
/-- 1 CONTONE8, 2 LEVEL (RW). -/
def CMPR_CFG_FORMAT (n : Nat) : Fld := ⟨0x99004 + 0x400 * n, 8, 2⟩
/-- 1, 2 or 4 (RW). -/
def CMPR_CFG_DEPTH (n : Nat) : Fld := ⟨0x99004 + 0x400 * n, 12, 3⟩
/-- band number (RW). -/
def CMPR_SEG0 (n : Nat) : Fld := ⟨0x99008 + 0x400 * n, 0, 32⟩
/-- slice (RW). -/
def CMPR_SEG1_SLICE (n : Nat) : Fld := ⟨0x9900C + 0x400 * n, 0, 8⟩
/-- plane (RW). -/
def CMPR_SEG1_PLANE (n : Nat) : Fld := ⟨0x9900C + 0x400 * n, 8, 8⟩
/-- column first (RW). -/
def CMPR_SEG1_COL_FIRST (n : Nat) : Fld := ⟨0x9900C + 0x400 * n, 16, 16⟩
/-- column count (RW). -/
def CMPR_SEG2_COL_COUNT (n : Nat) : Fld := ⟨0x99010 + 0x400 * n, 0, 16⟩
/-- lines in the band (RW). -/
def CMPR_SEG2_LINES (n : Nat) : Fld := ⟨0x99010 + 0x400 * n, 16, 16⟩
/-- task in progress (RO). -/
def CMPR_STATUS_BUSY (n : Nat) : Fld := ⟨0x99014 + 0x400 * n, 0, 1⟩
/-- task ended (W1C). -/
def CMPR_STATUS_DONE (n : Nat) : Fld := ⟨0x99014 + 0x400 * n, 1, 1⟩
/-- R147 (W1C). -/
def CMPR_STATUS_ABORT_LATE (n : Nat) : Fld := ⟨0x99014 + 0x400 * n, 2, 1⟩
/-- Table 4.5 (RO). -/
def CMPR_STATUS_RESULT (n : Nat) : Fld := ⟨0x99014 + 0x400 * n, 8, 8⟩
/-- raw length, bytes (RO). -/
def CMPR_RAW_LEN (n : Nat) : Fld := ⟨0x99018 + 0x400 * n, 0, 32⟩
/-- input bytes consumed (RO). -/
def CMPR_IN_CNT (n : Nat) : Fld := ⟨0x9901C + 0x400 * n, 0, 32⟩
/-- R142 (RO). -/
def CMPR_OUT_LEN (n : Nat) : Fld := ⟨0x99020 + 0x400 * n, 0, 32⟩
/-- payload length (RO). -/
def CMPR_PAY_LEN (n : Nat) : Fld := ⟨0x99024 + 0x400 * n, 0, 32⟩
/-- payload CRC written (RO). -/
def CMPR_CRC (n : Nat) : Fld := ⟨0x99028 + 0x400 * n, 0, 32⟩
/-- segment is RAW (RO). -/
def CMPR_FLAGS_RAW (n : Nat) : Fld := ⟨0x9902C + 0x400 * n, 0, 1⟩
/-- input offset of the first difference (R144) (RO). -/
def CMPR_ERR_OFS_LO (n : Nat) : Fld := ⟨0x99030 + 0x400 * n, 0, 32⟩
/-- input offset of the first difference (R144) (RO). -/
def CMPR_ERR_OFS_HI (n : Nat) : Fld := ⟨0x99034 + 0x400 * n, 0, 32⟩
/-- VERIFY_FAIL results (ROC). -/
def CMPR_VERIFY_CNT (n : Nat) : Fld := ⟨0x99038 + 0x400 * n, 0, 32⟩
/-- discarded excess bytes (R146) (ROC). -/
def CMPR_EXCESS (n : Nat) : Fld := ⟨0x9903C + 0x400 * n, 0, 32⟩

-- Table 5.17
/-- R151 (WO). -/
def CMP_CMD_VALIDATE : Fld := ⟨0xA0000, 0, 1⟩
/-- R155 (WO). -/
def CMP_CMD_FLUSH : Fld := ⟨0xA0000, 1, 1⟩
/-- R162 (WO). -/
def CMP_CMD_GLYPH_COMMIT : Fld := ⟨0xA0000, 2, 1⟩
/-- R157 (WO). -/
def CMP_CMD_CNT_LOAD : Fld := ⟨0xA0000, 3, 1⟩
/-- Shadow template store valid (RO). -/
def CMP_STATUS_TPL_VALID : Fld := ⟨0xA0004, 0, 1⟩
/-- command in progress; further commands discarded (RO). -/
def CMP_STATUS_BUSY : Fld := ⟨0xA0004, 1, 1⟩
/-- failed check per Table 5.5 (RO). -/
def CMP_STATUS_CHECK : Fld := ⟨0xA0004, 8, 8⟩
/-- 0 OK, 1 FAIL, 2 IN_USE, 3 STATE (RO). -/
def CMP_STATUS_RESULT : Fld := ⟨0xA0004, 16, 8⟩
/-- store offset of the failure, bytes (RO). -/
def CMP_CHECK_OFS : Fld := ⟨0xA0008, 0, 32⟩
/-- font slot (RW). -/
def CMP_GLYPH_SEL : Fld := ⟨0xA000C, 0, 5⟩
/-- bit n: slot n valid (RO). -/
def CMP_GLYPH_VALID : Fld := ⟨0xA0010, 0, 32⟩
/-- bit n: slot n locked (RO). -/
def CMP_GLYPH_LOCK : Fld := ⟨0xA0014, 0, 32⟩
/-- discarded glyph writes (ROC). -/
def CMP_GLYPH_DISC : Fld := ⟨0xA0018, 0, 32⟩
/-- record length; pushes CMP_REC_WIN (WO). -/
def CMP_REC_PUSH : Fld := ⟨0xA0020, 0, 11⟩
/-- Table 5.8 (RO). -/
def CMP_REC_RESULT_CODE : Fld := ⟨0xA0024, 0, 8⟩
/-- pushes handled, wraps (RO). -/
def CMP_REC_RESULT_SEQ : Fld := ⟨0xA0024, 16, 16⟩
/-- records held, 0–1,024 (RO). -/
def CMP_REC_QUEUED : Fld := ⟨0xA0028, 0, 11⟩
/-- unbound records (RO). -/
def CMP_REC_UNBOUND : Fld := ⟨0xA0028, 16, 11⟩
/-- bytes held (RO). -/
def CMP_REC_BYTES : Fld := ⟨0xA002C, 0, 20⟩
/-- item number of the last binding (RO). -/
def CMP_BIND_ITEM : Fld := ⟨0xA0030, 0, 32⟩
/-- host key of the last binding (RO). -/
def CMP_BIND_KEY : Fld := ⟨0xA0034, 0, 32⟩
/-- render reserve, 1–1,024 lines (RWL). -/
def CMP_RES : Fld := ⟨0xA0040, 0, 11⟩
/-- render horizon, CMP_RES + 1 – 4,096 lines (RWL). -/
def CMP_HORIZON : Fld := ⟨0xA0044, 0, 13⟩
/-- Hz (R152) (RO). -/
def CMP_RATE_LIM : Fld := ⟨0xA0048, 0, 32⟩
/-- clocks (R152) (RO). -/
def CMP_TMAX : Fld := ⟨0xA004C, 0, 32⟩
/-- peak image store use since the last read, bytes; restarts at the us… (ROC). -/
def CMP_IMG_PEAK : Fld := ⟨0xA0050, 0, 21⟩
/-- profile: 0 BLANK, 1 A_SIDE (RW). -/
def CMP_MISMATCH_ACT : Fld := ⟨0xA0054, 0, 1⟩
/-- MISMATCH fields (ROC). -/
def CMP_MISMATCH_CNT : Fld := ⟨0xA0060, 0, 32⟩
/-- DATA_LATE items (ROC). -/
def CMP_DLATE_CNT : Fld := ⟨0xA0064, 0, 32⟩
/-- RENDER_LATE items (ROC). -/
def CMP_RLATE_CNT : Fld := ⟨0xA0068, 0, 32⟩
/-- results 4–13 (ROC). -/
def CMP_FIELD_ERR_CNT : Fld := ⟨0xA006C, 0, 32⟩
/-- refused pushes (ROC). -/
def CMP_REC_REF_CNT : Fld := ⟨0xA0070, 0, 32⟩
/-- counter for CNT_LOAD and CMP_CNT_VAL (RW). -/
def CMP_CNT_SEL : Fld := ⟨0xA0080, 0, 4⟩
/-- next[n] of the selected counter (RO). -/
def CMP_CNT_VAL_LO : Fld := ⟨0xA0084, 0, 32⟩
/-- next[n] of the selected counter (RO). -/
def CMP_CNT_VAL_HI : Fld := ⟨0xA0088, 0, 32⟩
/-- bit n: counter n loaded (R158) (RO). -/
def CMP_CNT_LOADED : Fld := ⟨0xA008C, 0, 16⟩
/-- record staging (WO). -/
def CMP_REC_WIN (i : Nat) : Fld := ⟨0xA1000 + 4 * i, 0, 32⟩
/-- profile: template index of input i (RW). -/
def IN_TEMPLATE (n : Nat) : Fld := ⟨0xA0100 + 0x4 * n, 0, 4⟩
/-- profile: items take records (R154) (RW). -/
def IN_DATA (n : Nat) : Fld := ⟨0xA0100 + 0x4 * n, 4, 1⟩
/-- profile (RW). -/
def CNT_START_LO (n : Nat) : Fld := ⟨0xA0200 + 0x20 * n, 0, 32⟩
/-- profile (RW). -/
def CNT_START_HI (n : Nat) : Fld := ⟨0xA0204 + 0x20 * n, 0, 32⟩
/-- profile (RW). -/
def CNT_LIMIT_LO (n : Nat) : Fld := ⟨0xA0208 + 0x20 * n, 0, 32⟩
/-- profile (RW). -/
def CNT_LIMIT_HI (n : Nat) : Fld := ⟨0xA020C + 0x20 * n, 0, 32⟩
/-- profile, 1–65,535 (RW). -/
def CNT_STEP (n : Nat) : Fld := ⟨0xA0210 + 0x20 * n, 0, 16⟩
/-- profile: 0 WRAP, 1 STOP (RW). -/
def CNT_MODE_STOP (n : Nat) : Fld := ⟨0xA0214 + 0x20 * n, 0, 1⟩
/-- profile (R157) (RW). -/
def CNT_MODE_LOAD_ON_SWAP (n : Nat) : Fld := ⟨0xA0214 + 0x20 * n, 1, 1⟩

-- Table 6.10
/-- R189 (WO). -/
def DOS_CMD_VALIDATE : Fld := ⟨0xB0000, 0, 1⟩
/-- Shadow screens valid (RO). -/
def DOS_STATUS_SCR_VALID : Fld := ⟨0xB0004, 0, 1⟩
/-- correction writable (R184) (RO). -/
def DOS_STATUS_CORR_VALID : Fld := ⟨0xB0004, 1, 1⟩
/-- validation running; DOS_CMD writes discarded (RO). -/
def DOS_STATUS_BUSY : Fld := ⟨0xB0004, 2, 1⟩
/-- copy of R184 in progress (RO). -/
def DOS_STATUS_COPYING : Fld := ⟨0xB0004, 3, 1⟩
/-- correction half in use by the Active profile (RO). -/
def DOS_STATUS_HALF : Fld := ⟨0xB0004, 4, 1⟩
/-- failed check per Table 6.6 (RO). -/
def DOS_STATUS_CHECK : Fld := ⟨0xB0004, 8, 8⟩
/-- plane or cell (RO). -/
def DOS_CHECK_INFO : Fld := ⟨0xB0008, 0, 16⟩
/-- line at which retention ends; 0 when none (RO). -/
def DOS_RETIRE_LO : Fld := ⟨0xB0010, 0, 32⟩
/-- line at which retention ends; 0 when none (RO). -/
def DOS_RETIRE_HI : Fld := ⟨0xB0014, 0, 32⟩
/-- R195 (ROC). -/
def DOS_MISMATCH_CNT : Fld := ⟨0xB0018, 0, 32⟩
/-- R196 (ROC). -/
def DOS_MEM_CNT : Fld := ⟨0xB001C, 0, 32⟩
/-- R192 (ROC). -/
def DOS_PLANE_CNT : Fld := ⟨0xB0020, 0, 32⟩
/-- discarded correction and threshold writes (ROC). -/
def DOS_DISC_CNT : Fld := ⟨0xB0024, 0, 32⟩
/-- R199, Expert (WO). -/
def DOS_TEST_INJECT : Fld := ⟨0xB0028, 0, 1⟩
/-- profile (RW). -/
def SCR_BASE (n : Nat) : Fld := ⟨0xB0100 + 0x10 * n, 0, 16⟩
/-- profile (RW). -/
def SCR_WM1 (n : Nat) : Fld := ⟨0xB0100 + 0x10 * n, 16, 8⟩
/-- profile (RW). -/
def SCR_HM1 (n : Nat) : Fld := ⟨0xB0100 + 0x10 * n, 24, 8⟩
/-- profile (RW). -/
def SCR_XOFS (n : Nat) : Fld := ⟨0xB0104 + 0x10 * n, 0, 8⟩
/-- profile (RW). -/
def SCR_YOFS (n : Nat) : Fld := ⟨0xB0104 + 0x10 * n, 8, 8⟩
/-- profile (RW). -/
def CORR_EN (n : Nat) : Fld := ⟨0xB0104 + 0x10 * n, 16, 1⟩

-- Table 7.8
/-- R206 (WO). -/
def LAS_CMD_VALIDATE : Fld := ⟨0xC0000, 0, 1⟩
/-- R214, IDLE only (WO). -/
def LAS_CMD_PLAN : Fld := ⟨0xC0000, 1, 1⟩
/-- R204 (WO). -/
def LAS_CMD_FILL_IDENTITY : Fld := ⟨0xC0000, 2, 1⟩
/-- Shadow remap valid (RO). -/
def LAS_STATUS_REMAP_VALID : Fld := ⟨0xC0004, 0, 1⟩
/-- command running; LAS_CMD writes discarded (RO). -/
def LAS_STATUS_BUSY : Fld := ⟨0xC0004, 1, 1⟩
/-- R208 (RO). -/
def LAS_STATUS_COPYING : Fld := ⟨0xC0004, 2, 1⟩
/-- a plan is in force (RO). -/
def LAS_STATUS_PLANNED : Fld := ⟨0xC0004, 3, 1⟩
/-- remap half in use by the Active profile (RO). -/
def LAS_STATUS_HALF : Fld := ⟨0xC0004, 4, 1⟩
/-- Table 7.2 (RO). -/
def LAS_STATUS_CHECK : Fld := ⟨0xC0004, 8, 8⟩
/-- level of LINE_HOLD_REQ (RO). -/
def LAS_STATUS_HOLD : Fld := ⟨0xC0004, 16, 1⟩
/-- fallback region in use (R225) (RO). -/
def LAS_STATUS_RELOCATED : Fld := ⟨0xC0004, 17, 1⟩
/-- entry or row (RO). -/
def LAS_CHECK_INFO : Fld := ⟨0xC0008, 0, 18⟩
/-- D_s: 1, 2 or 4 (RWL). -/
def LAS_CFG_DEPTH : Fld := ⟨0xC000C, 0, 3⟩
/-- headrace records, 2–16 (RWL). -/
def LAS_CFG_HR : Fld := ⟨0xC000C, 8, 5⟩
/-- tailrace records, 2–16 (RWL). -/
def LAS_CFG_TR : Fld := ⟨0xC000C, 16, 5⟩
/-- R223 (RW). -/
def LAS_HOLD_EN : Fld := ⟨0xC0010, 0, 1⟩
/-- enabled dry causes, as DRY_LINE [35:32] (RW). -/
def LAS_HOLD_CAUSE : Fld := ⟨0xC0010, 1, 4⟩
/-- release LINE_HOLD_REQ (WO). -/
def LAS_HOLD_CLR : Fld := ⟨0xC0010, 8, 1⟩
/-- region base, multiple of 1 MiB (RWL). -/
def LAS_REG_BASE_LO : Fld := ⟨0xC0014, 0, 32⟩
/-- region base, multiple of 1 MiB (RWL). -/
def LAS_REG_BASE_HI : Fld := ⟨0xC0018, 0, 32⟩
/-- region size, multiple of 1 MiB (RWL). -/
def LAS_REG_SIZE_LO : Fld := ⟨0xC001C, 0, 32⟩
/-- region size, multiple of 1 MiB (RWL). -/
def LAS_REG_SIZE_HI : Fld := ⟨0xC0020, 0, 32⟩
/-- as R89 (RWL). -/
def LAS_REG_PLACE : Fld := ⟨0xC0024, 0, 2⟩
/-- fallback base on channel f (RWL). -/
def LAS_FB_BASE_LO (n : Nat) : Fld := ⟨0xC0030 + 0x10 * n, 0, 32⟩
/-- fallback base on channel f (RWL). -/
def LAS_FB_BASE_HI (n : Nat) : Fld := ⟨0xC0034 + 0x10 * n, 0, 32⟩
/-- fallback size; 0 = none (RWL). -/
def LAS_FB_SIZE_LO (n : Nat) : Fld := ⟨0xC0038 + 0x10 * n, 0, 32⟩
/-- fallback size; 0 = none (RWL). -/
def LAS_FB_SIZE_HI (n : Nat) : Fld := ⟨0xC003C + 0x10 * n, 0, 32⟩
/-- bytes (R213) (RO). -/
def LAS_NEED_LO : Fld := ⟨0xC0050, 0, 32⟩
/-- bytes (R213) (RO). -/
def LAS_NEED_HI : Fld := ⟨0xC0054, 0, 32⟩
/-- bytes of the pool (RO). -/
def LAS_SRAM_USED : Fld := ⟨0xC0058, 0, 32⟩
/-- S, bytes per line (RO). -/
def LAS_SPILL_BYTES : Fld := ⟨0xC005C, 0, 32⟩
/-- Hz (R216) (RO). -/
def LAS_SIZE_RATE : Fld := ⟨0xC0060, 0, 32⟩
/-- dry port lines (ROC). -/
def LAS_DRY_CNT : Fld := ⟨0xC0064, 0, 32⟩
/-- R221 (ROC). -/
def LAS_SHUT_CNT : Fld := ⟨0xC0068, 0, 32⟩
/-- R211 (ROC). -/
def LAS_ADMIT_WAIT : Fld := ⟨0xC006C, 0, 32⟩
/-- MEMORY causes (ROC). -/
def LAS_MEM_CNT : Fld := ⟨0xC0070, 0, 32⟩
/-- discarded remap writes (ROC). -/
def LAS_DISC_CNT : Fld := ⟨0xC0074, 0, 32⟩
/-- SUBST entries in the Active half (RO). -/
def LAS_SUBST_CNT : Fld := ⟨0xC0078, 0, 19⟩
/-- k0 of the last RESUME (RO). -/
def LAS_K0_LO : Fld := ⟨0xC0080, 0, 32⟩
/-- k0 of the last RESUME (RO). -/
def LAS_K0_HI : Fld := ⟨0xC0084, 0, 32⟩
/-- profile: 2^ROWS head rows (RW). -/
def PORT_LAYOUT_ROWS (n : Nat) : Fld := ⟨0xC0100 + 0x4 * n, 0, 3⟩
/-- profile: 0 INTERLEAVED, 1 BLOCKED (RW). -/
def PORT_LAYOUT_ORDER (n : Nat) : Fld := ⟨0xC0100 + 0x4 * n, 4, 1⟩
/-- profile: d_c, lines (RW). -/
def LAS_CLASS_DELAY (n : Nat) : Fld := ⟨0xC0400 + 0x4 * n, 0, 16⟩
/-- profile: class of row r (RW). -/
def LAS_ROW_CLASS (n : Nat) : Fld := ⟨0xC1000 + 0x4 * n, 0, 8⟩
/-- class in use (RO). -/
def CIS_IN_USE (n : Nat) : Fld := ⟨0xC2000 + 0x10 * n, 0, 1⟩
/-- long cistern (RO). -/
def CIS_LONG (n : Nat) : Fld := ⟨0xC2000 + 0x10 * n, 1, 1⟩
/-- B_c, bytes (RO). -/
def CIS_WIDTH (n : Nat) : Fld := ⟨0xC2004 + 0x10 * n, 0, 32⟩
/-- SRAM bytes (RO). -/
def CIS_SRAM (n : Nat) : Fld := ⟨0xC2008 + 0x10 * n, 0, 32⟩
/-- middle offset, 4 KiB units (RO). -/
def CIS_OFS (n : Nat) : Fld := ⟨0xC200C + 0x10 * n, 0, 32⟩

-- Table 8.12
/-- port enabled; TRAIN refused with STATE when 0 (RWL). -/
def HPL_CTRL_EN (p : Nat) : Fld := ⟨0x100000 + 0x1000 * p, 0, 1⟩
/-- target rate: 1 2.5, 2 5.0, 3 8.0 Gbaud; 0 reserved (RWL). -/
def HPL_CTRL_RATE (p : Nat) : Fld := ⟨0x100000 + 0x1000 * p, 1, 2⟩
/-- even port only: bond with port p + 1 (R235) (RWL). -/
def HPL_CTRL_BOND (p : Nat) : Fld := ⟨0x100000 + 0x1000 * p, 3, 1⟩
/-- R241 (WO). -/
def HPL_CMD_TRAIN (p : Nat) : Fld := ⟨0x100004 + 0x1000 * p, 0, 1⟩
/-- R246 (WO). -/
def HPL_CMD_EI_ENTER (p : Nat) : Fld := ⟨0x100004 + 0x1000 * p, 1, 1⟩
/-- R248 (WO). -/
def HPL_CMD_EI_EXIT (p : Nat) : Fld := ⟨0x100004 + 0x1000 * p, 2, 1⟩
/-- R249 (WO). -/
def HPL_CMD_LOOP_START (p : Nat) : Fld := ⟨0x100004 + 0x1000 * p, 3, 1⟩
/-- R249 (WO). -/
def HPL_CMD_LOOP_STOP (p : Nat) : Fld := ⟨0x100004 + 0x1000 * p, 4, 1⟩
/-- R252 (RO). -/
def HPL_RESULT_CODE (p : Nat) : Fld := ⟨0x100008 + 0x1000 * p, 0, 8⟩
/-- commands handled, wraps (RO). -/
def HPL_RESULT_SEQ (p : Nat) : Fld := ⟨0x100008 + 0x1000 * p, 16, 16⟩
/-- Table 8.5 (RO). -/
def HPL_STATUS_STATE (p : Nat) : Fld := ⟨0x10000C + 0x1000 * p, 0, 4⟩
/-- no signal (RO). -/
def HPL_STATUS_LOS (p : Nat) : Fld := ⟨0x10000C + 0x1000 * p, 4, 1⟩
/-- CDR locked (RO). -/
def HPL_STATUS_CDR_LOCK (p : Nat) : Fld := ⟨0x10000C + 0x1000 * p, 5, 1⟩
/-- R239 (RO). -/
def HPL_STATUS_BLOCK_LOCK (p : Nat) : Fld := ⟨0x10000C + 0x1000 * p, 6, 1⟩
/-- R240 (RO). -/
def HPL_STATUS_AM_LOCK (p : Nat) : Fld := ⟨0x10000C + 0x1000 * p, 7, 1⟩
/-- receive polarity inverted (RO). -/
def HPL_STATUS_POL_INV (p : Nat) : Fld := ⟨0x10000C + 0x1000 * p, 8, 1⟩
/-- bonded lanes swapped (R236) (RO). -/
def HPL_STATUS_REVERSED (p : Nat) : Fld := ⟨0x10000C + 0x1000 * p, 9, 1⟩
/-- port is a member of a bonded pair (RO). -/
def HPL_STATUS_BONDED (p : Nat) : Fld := ⟨0x10000C + 0x1000 * p, 10, 1⟩
/-- last TRAIN from the head had RX_READY (RO). -/
def HPL_STATUS_PARTNER_READY (p : Nat) : Fld := ⟨0x10000C + 0x1000 * p, 11, 1⟩
/-- rate in use, coded as HPL_CTRL.RATE (RO). -/
def HPL_STATUS_RATE_NOW (p : Nat) : Fld := ⟨0x10000C + 0x1000 * p, 12, 2⟩
/-- R246 (RO). -/
def HPL_STATUS_LIVE (p : Nat) : Fld := ⟨0x10000C + 0x1000 * p, 14, 1⟩
/-- last cause per Table 8.6 (RO). -/
def HPL_CAUSE (p : Nat) : Fld := ⟨0x100010 + 0x1000 * p, 0, 8⟩
/-- µs, 100–65,535 (RW). -/
def HPL_TRAIN_TMO (p : Nat) : Fld := ⟨0x100014 + 0x1000 * p, 0, 16⟩
/-- ns, 20–1,000 (RW). -/
def HPL_LOS_T (p : Nat) : Fld := ⟨0x100018 + 0x1000 * p, 0, 10⟩
/-- Table 8.10; 0 none (RW). -/
def HPL_LOOP_CFG_MODE (p : Nat) : Fld := ⟨0x10001C + 0x1000 * p, 0, 2⟩
/-- µs; 0 = until LOOP_STOP (RW). -/
def HPL_LOOP_TIME (p : Nat) : Fld := ⟨0x100020 + 0x1000 * p, 0, 32⟩
/-- invalid blocks (ROC). -/
def HPL_CODE_ERR_CNT (p : Nat) : Fld := ⟨0x100024 + 0x1000 * p, 0, 32⟩
/-- AM errors (ROC). -/
def HPL_AM_ERR_CNT (p : Nat) : Fld := ⟨0x100028 + 0x1000 * p, 0, 32⟩
/-- IDLE blocks inserted (R232) (ROC). -/
def HPL_SKIP_ADDED (p : Nat) : Fld := ⟨0x10002C + 0x1000 * p, 0, 16⟩
/-- IDLE blocks removed (ROC). -/
def HPL_SKIP_REMOVED (p : Nat) : Fld := ⟨0x10002C + 0x1000 * p, 16, 16⟩
/-- slips in the last search (RO). -/
def HPL_SLIP_CNT (p : Nat) : Fld := ⟨0x100030 + 0x1000 * p, 0, 16⟩
/-- lane skew, blocks (R237) (RO). -/
def HPL_SKEW (p : Nat) : Fld := ⟨0x100034 + 0x1000 * p, 0, 5⟩
/-- checked bits (R251) (RO). -/
def HPL_PRBS_BITS_LO (p : Nat) : Fld := ⟨0x100038 + 0x1000 * p, 0, 32⟩
/-- checked bits (R251) (RO). -/
def HPL_PRBS_BITS_HI (p : Nat) : Fld := ⟨0x10003C + 0x1000 * p, 0, 32⟩
/-- bit errors, saturating (RO). -/
def HPL_PRBS_ERR (p : Nat) : Fld := ⟨0x100040 + 0x1000 * p, 0, 32⟩
/-- entries to DOWN (ROC). -/
def HPL_DOWN_CNT (p : Nat) : Fld := ⟨0x100044 + 0x1000 * p, 0, 32⟩
/-- µs from TRAIN or EI exit to the last UP (RO). -/
def HPL_UP_TIME (p : Nat) : Fld := ⟨0x100048 + 0x1000 * p, 0, 16⟩
/-- TRAIN byte 2 last received (RO). -/
def HPL_HEAD_RATES (p : Nat) : Fld := ⟨0x10004C + 0x1000 * p, 0, 3⟩

-- Table 9.13
/-- Table 9.4 (RO). -/
def HPF_STATUS_FSTATE (p : Nat) : Fld := ⟨0x100100 + 0x1000 * p, 0, 3⟩
/-- R260 (RO). -/
def HPF_STATUS_UNFIT_CAUSE (p : Nat) : Fld := ⟨0x100100 + 0x1000 * p, 4, 4⟩
/-- from STATUS (RO). -/
def HPF_STATUS_TEMP_WARN (p : Nat) : Fld := ⟨0x100100 + 0x1000 * p, 8, 1⟩
/-- from STATUS (RO). -/
def HPF_STATUS_TEMP_LIMIT (p : Nat) : Fld := ⟨0x100100 + 0x1000 * p, 9, 1⟩
/-- from STATUS (RO). -/
def HPF_STATUS_FAULT (p : Nat) : Fld := ⟨0x100100 + 0x1000 * p, 10, 1⟩
/-- R279 (RO). -/
def HPF_STATUS_ELEM_PENDING (p : Nat) : Fld := ⟨0x100100 + 0x1000 * p, 11, 1⟩
/-- check sent, not answered (RO). -/
def HPF_STATUS_ELEM_RUN (p : Nat) : Fld := ⟨0x100100 + 0x1000 * p, 12, 1⟩
/-- H_p (RO). -/
def HPF_HP (p : Nat) : Fld := ⟨0x100104 + 0x1000 * p, 0, 8⟩
/-- credit now (R263) (RO). -/
def HPF_CREDITS (p : Nat) : Fld := ⟨0x100104 + 0x1000 * p, 16, 8⟩
/-- D_p in use, ns (RO). -/
def HPF_DP (p : Nat) : Fld := ⟨0x100108 + 0x1000 * p, 0, 16⟩
/-- ns (R259), Expert (RWL). -/
def HPF_DP_OVR_VALUE (p : Nat) : Fld := ⟨0x10010C + 0x1000 * p, 0, 16⟩
/-- use VALUE (RWL). -/
def HPF_DP_OVR_EN (p : Nat) : Fld := ⟨0x10010C + 0x1000 * p, 16, 1⟩
/-- T_ping, ns (RO). -/
def HPF_TPING (p : Nat) : Fld := ⟨0x100110 + 0x1000 * p, 0, 32⟩
/-- t_h, ns (RO). -/
def HPF_TH (p : Nat) : Fld := ⟨0x100114 + 0x1000 * p, 0, 16⟩
/-- t_free, ns (RO). -/
def HPF_TFREE (p : Nat) : Fld := ⟨0x100114 + 0x1000 * p, 16, 16⟩
/-- T_rt, ns (RO). -/
def HPF_TRT (p : Nat) : Fld := ⟨0x100118 + 0x1000 * p, 0, 32⟩
/-- Hz (R266) (RO). -/
def HPF_SLUICE_RATE (p : Nat) : Fld := ⟨0x10011C + 0x1000 * p, 0, 32⟩
/-- lines, 4–4,096 (RW). -/
def HPF_ECHO_TMO (p : Nat) : Fld := ⟨0x100120 + 0x1000 * p, 0, 13⟩
/-- µs, 100–65,535 (RW). -/
def HPF_STATUS_TMO (p : Nat) : Fld := ⟨0x100124 + 0x1000 * p, 0, 16⟩
/-- signed, 1/16 °C (RO). -/
def HPF_TEMP (p : Nat) : Fld := ⟨0x100128 + 0x1000 * p, 0, 16⟩
/-- head fault code (RO). -/
def HPF_HEAD_FAULT (p : Nat) : Fld := ⟨0x10012C + 0x1000 * p, 0, 16⟩
/-- head ID (RO). -/
def HPF_HEAD_ID_LO (p : Nat) : Fld := ⟨0x100130 + 0x1000 * p, 0, 32⟩
/-- head ID (RO). -/
def HPF_HEAD_ID_HI (p : Nat) : Fld := ⟨0x100134 + 0x1000 * p, 0, 32⟩
/-- lines (R279) (RW). -/
def HPF_ELEM_GAP (p : Nat) : Fld := ⟨0x100138 + 0x1000 * p, 0, 16⟩
/-- t_ec, ms (RO). -/
def HPF_TEC (p : Nat) : Fld := ⟨0x10013C + 0x1000 * p, 0, 16⟩
/-- Table 9.9 (WO). -/
def HPF_CMD_OP (p : Nat) : Fld := ⟨0x100140 + 0x1000 * p, 0, 3⟩
/-- Table 9.10 (RO). -/
def HPF_CMD_RESULT_CODE (p : Nat) : Fld := ⟨0x100144 + 0x1000 * p, 0, 8⟩
/-- command outstanding (RO). -/
def HPF_CMD_RESULT_BUSY (p : Nat) : Fld := ⟨0x100144 + 0x1000 * p, 8, 1⟩
/-- CMD_RSP byte 2 (RO). -/
def HPF_CMD_RESULT_HEAD_RESULT (p : Nat) : Fld := ⟨0x100144 + 0x1000 * p, 16, 8⟩
/-- argument bytes, 0–1,024 (RW). -/
def HPF_CMD_LEN (p : Nat) : Fld := ⟨0x100148 + 0x1000 * p, 0, 11⟩
/-- response bytes (RO). -/
def HPF_RSP_LEN (p : Nat) : Fld := ⟨0x10014C + 0x1000 * p, 0, 11⟩
/-- µs (RW). -/
def HPF_CMD_TMO (p : Nat) : Fld := ⟨0x100150 + 0x1000 * p, 0, 32⟩
/-- steps with ECHO_NOT_FIRED (ROC). -/
def HPF_NOT_FIRED_CNT (p : Nat) : Fld := ⟨0x100160 + 0x1000 * p, 0, 32⟩
/-- ECHO_UNEXPECTED steps (ROC). -/
def HPF_UNEXP_CNT (p : Nat) : Fld := ⟨0x100164 + 0x1000 * p, 0, 32⟩
/-- ECHO_CHECK steps (ROC). -/
def HPF_ECHO_CHK_CNT (p : Nat) : Fld := ⟨0x100168 + 0x1000 * p, 0, 32⟩
/-- ECHO_MISSING steps (ROC). -/
def HPF_ECHO_MISS_CNT (p : Nat) : Fld := ⟨0x10016C + 0x1000 * p, 0, 32⟩
/-- late or stray echoes (R273) (ROC). -/
def HPF_ECHO_LATE_CNT (p : Nat) : Fld := ⟨0x100170 + 0x1000 * p, 0, 32⟩
/-- R257 (ROC). -/
def HPF_FRAME_ERR_CNT (p : Nat) : Fld := ⟨0x100174 + 0x1000 * p, 0, 32⟩
/-- LINE frames sent, wraps (RO). -/
def HPF_LINE_CNT (p : Nat) : Fld := ⟨0x100178 + 0x1000 * p, 0, 32⟩
/-- TRIGs sent, wraps (RO). -/
def HPF_TRIG_CNT (p : Nat) : Fld := ⟨0x10017C + 0x1000 * p, 0, 32⟩
/-- last first-fire delay, 1/4 ns (RO). -/
def HPF_DELAY_LAST (p : Nat) : Fld := ⟨0x100180 + 0x1000 * p, 0, 16⟩
/-- command arguments (RW). -/
def HPF_CMD_BUF (p : Nat) (i : Nat) : Fld := ⟨0x100400 + 0x1000 * p + 0x4 * i, 0, 32⟩
/-- response data (RO). -/
def HPF_RSP_BUF (p : Nat) (i : Nat) : Fld := ⟨0x100800 + 0x1000 * p + 0x4 * i, 0, 32⟩

-- Table 10.7
/-- 0 = absent (R282) (RWL). -/
def DRC_CFG_EN (c : Nat) : Fld := ⟨0x160000 + 0x10000 * c, 0, 1⟩
/-- level used at boot (RWL). -/
def DRC_CFG_TRAIN_LVL (c : Nat) : Fld := ⟨0x160000 + 0x10000 * c, 1, 1⟩
/-- 0 ×8, 1 ×16 (RWL). -/
def DRC_CFG_WIDTH (c : Nat) : Fld := ⟨0x160000 + 0x10000 * c, 2, 1⟩
/-- R286 (RWL). -/
def DRC_CFG_TWO_RANKS (c : Nat) : Fld := ⟨0x160000 + 0x10000 * c, 3, 1⟩
/-- 2 or 3 (RWL). -/
def DRC_CFG_BG_BITS (c : Nat) : Fld := ⟨0x160000 + 0x10000 * c, 4, 2⟩
/-- w − 14: 2 or 3 (RWL). -/
def DRC_CFG_ROW_BITS (c : Nat) : Fld := ⟨0x160000 + 0x10000 * c, 8, 3⟩
/-- 1 RETRAIN, 2 FREQ (WO). -/
def DRC_CMD_OP (c : Nat) : Fld := ⟨0x160004 + 0x10000 * c, 0, 3⟩
/-- target point for FREQ (WO). -/
def DRC_CMD_POINT (c : Nat) : Fld := ⟨0x160004 + 0x10000 * c, 4, 2⟩
/-- RETRAIN level (WO). -/
def DRC_CMD_LEVEL (c : Nat) : Fld := ⟨0x160004 + 0x10000 * c, 8, 1⟩
/-- 0 OK, 1 BUSY, 2 STATE, 3 BAD_ARG, 4 FREQ_NO_POINT, 5 TRAIN_FAIL, 6 … (RO). -/
def DRC_RESULT_CODE (c : Nat) : Fld := ⟨0x160008 + 0x10000 * c, 0, 8⟩
/-- command running (RO). -/
def DRC_RESULT_BUSY (c : Nat) : Fld := ⟨0x160008 + 0x10000 * c, 8, 1⟩
/-- R309 (W1C). -/
def DRC_RESULT_OVR (c : Nat) : Fld := ⟨0x160008 + 0x10000 * c, 9, 1⟩
/-- accepted commands, wraps (RO). -/
def DRC_RESULT_SEQ (c : Nat) : Fld := ⟨0x160008 + 0x10000 * c, 16, 16⟩
/-- Table 10.3 (RO). -/
def DRC_STATUS_STATE (c : Nat) : Fld := ⟨0x16000C + 0x10000 * c, 0, 3⟩
/-- in service (RO). -/
def DRC_STATUS_INSVC (c : Nat) : Fld := ⟨0x16000C + 0x10000 * c, 3, 1⟩
/-- point in use (RO). -/
def DRC_STATUS_POINT (c : Nat) : Fld := ⟨0x16000C + 0x10000 * c, 4, 2⟩
/-- lane step of the sweep (RO). -/
def DRC_STATUS_STEP (c : Nat) : Fld := ⟨0x16000C + 0x10000 * c, 8, 5⟩
/-- memory supports RFM (RO). -/
def DRC_STATUS_RFM_SUP (c : Nat) : Fld := ⟨0x16000C + 0x10000 * c, 13, 1⟩
/-- bit per rank (R298) (RO). -/
def DRC_STATUS_REF_2X (c : Nat) : Fld := ⟨0x16000C + 0x10000 * c, 14, 2⟩
/-- transfer rate in use, MT/s (RO). -/
def DRC_MTS (c : Nat) : Fld := ⟨0x160010 + 0x10000 * c, 0, 13⟩
/-- 1/64 UI, 4–64 (RW). -/
def DRC_EYE_MIN (c : Nat) : Fld := ⟨0x160014 + 0x10000 * c, 0, 7⟩
/-- 4–12 (RW). -/
def DRC_RFM_K (c : Nat) : Fld := ⟨0x160018 + 0x10000 * c, 0, 4⟩
/-- R300 (RW). -/
def DRC_RFM_EN (c : Nat) : Fld := ⟨0x160018 + 0x10000 * c, 4, 1⟩
/-- 1–3 (R294) (RW). -/
def DRC_HOST_STOP (c : Nat) : Fld := ⟨0x16001C + 0x10000 * c, 0, 2⟩
/-- ns (RW). -/
def DRC_PAGE_IDLE (c : Nat) : Fld := ⟨0x160020 + 0x10000 * c, 0, 16⟩
/-- bit per rank (RW). -/
def DRC_RANK_COLD (c : Nat) : Fld := ⟨0x160024 + 0x10000 * c, 0, 2⟩
/-- ns (RW). -/
def DRC_PD_TIMER (c : Nat) : Fld := ⟨0x160028 + 0x10000 * c, 0, 32⟩
/-- ranks in power-down (RO). -/
def DRC_PD_STATUS_IN_PD (c : Nat) : Fld := ⟨0x16002C + 0x10000 * c, 0, 2⟩
/-- COLD marks in effect (R310) (RO). -/
def DRC_PD_STATUS_EFFECTIVE (c : Nat) : Fld := ⟨0x16002C + 0x10000 * c, 4, 2⟩
/-- as TRAIN_FAIL detail [14:0] (RO). -/
def DRC_FAIL_LANE (c : Nat) : Fld := ⟨0x160030 + 0x10000 * c, 0, 15⟩
/-- T of port i, ns, 200–1,000,000 (RW). -/
def DRC_TGT (c : Nat) (i : Nat) : Fld := ⟨0x160040 + 0x10000 * c + 4 * i, 0, 32⟩
/-- late bursts of port i (ROC). -/
def DRC_LATE_CNT (c : Nat) (i : Nat) : Fld := ⟨0x160060 + 0x10000 * c + 0x4 * i, 0, 32⟩
/-- largest age of port i, ns (ROC). -/
def DRC_LAT_MAX (c : Nat) (i : Nat) : Fld := ⟨0x160080 + 0x10000 * c + 0x4 * i, 0, 32⟩
/-- R297 (ROC). -/
def DRC_REF_FORCED (c : Nat) : Fld := ⟨0x1600A0 + 0x10000 * c, 0, 32⟩
/-- R299 (ROC). -/
def DRC_RFM_CNT (c : Nat) : Fld := ⟨0x1600A4 + 0x10000 * c, 0, 32⟩
/-- ACT commands (ROC). -/
def DRC_ACT_CNT (c : Nat) : Fld := ⟨0x1600A8 + 0x10000 * c, 0, 32⟩
/-- [6:0] read width, [14:8] write width, [22:16] read centre, [30:24] … (RO). -/
def DRC_EYE_RDW (c : Nat) (i : Nat) : Fld := ⟨0x160100 + 0x10000 * c + 4 * i, 0, 7⟩
/-- [6:0] read width, [14:8] write width, [22:16] read centre, [30:24] … (RO). -/
def DRC_EYE_WRW (c : Nat) (i : Nat) : Fld := ⟨0x160100 + 0x10000 * c + 4 * i, 8, 7⟩
/-- [6:0] read width, [14:8] write width, [22:16] read centre, [30:24] … (RO). -/
def DRC_EYE_RDC (c : Nat) (i : Nat) : Fld := ⟨0x160100 + 0x10000 * c + 4 * i, 16, 7⟩
/-- [6:0] read width, [14:8] write width, [22:16] read centre, [30:24] … (RO). -/
def DRC_EYE_WRC (c : Nat) (i : Nat) : Fld := ⟨0x160100 + 0x10000 * c + 4 * i, 24, 7⟩
/-- point stored (RW). -/
def PT_VALID (c : Nat) (n : Nat) : Fld := ⟨0x160200 + 0x10000 * c + 0x100 * n, 0, 1⟩
/-- 4,800–6,400 (RW). -/
def PT_MTS (c : Nat) (n : Nat) : Fld := ⟨0x160204 + 0x10000 * c + 0x100 * n, 0, 13⟩
/-- [7:0] tCL, [15:8] tCWL, [23:16] tRCD, [31:24] tRP (RW). -/
def PT_T0 (c : Nat) (n : Nat) : Fld := ⟨0x160208 + 0x10000 * c + 0x100 * n, 0, 32⟩
/-- [7:0] tRRD_S, [15:8] tRRD_L, [23:16] tCCD_L, [31:24] tCCD_L_WR (RW). -/
def PT_T1 (c : Nat) (n : Nat) : Fld := ⟨0x16020C + 0x10000 * c + 0x100 * n, 0, 32⟩
/-- [7:0] tFAW, [15:8] tRTP, [23:16] tWTR_S, [31:24] tWTR_L (RW). -/
def PT_T2 (c : Nat) (n : Nat) : Fld := ⟨0x160210 + 0x10000 * c + 0x100 * n, 0, 32⟩
/-- [7:0] tRAS, [15:8] tWR, [31:16] tXS (RW). -/
def PT_T3 (c : Nat) (n : Nat) : Fld := ⟨0x160214 + 0x10000 * c + 0x100 * n, 0, 32⟩
/-- [15:0] tRFCsb, [31:16] tREFI (RW). -/
def PT_T4 (c : Nat) (n : Nat) : Fld := ⟨0x160218 + 0x10000 * c + 0x100 * n, 0, 32⟩
/-- [15:0] tRFMsb, [31:16] tXP (RW). -/
def PT_T5 (c : Nat) (n : Nat) : Fld := ⟨0x16021C + 0x10000 * c + 0x100 * n, 0, 32⟩
/-- [6:0] CA delay A, [14:8] CA delay B, 1/64 UI (RW). -/
def PT_CA (c : Nat) (n : Nat) : Fld := ⟨0x160220 + 0x10000 * c + 0x100 * n, 0, 32⟩
/-- read delay of lane step i (RW). -/
def PT_DLY_RD (c : Nat) (n : Nat) (i : Nat) : Fld := ⟨0x160240 + 0x10000 * c + 0x100 * n + 4 * i, 0, 7⟩
/-- write delay of lane step i (RW). -/
def PT_DLY_WR (c : Nat) (n : Nat) (i : Nat) : Fld := ⟨0x160240 + 0x10000 * c + 0x100 * n + 4 * i, 8, 7⟩

-- Table 11.5
/-- Table 11.3 (WO). -/
def ECC_CMD_OP : Fld := ⟨0x180000, 0, 3⟩
/-- 0 OK, 1 BUSY, 2 STATE, 3 BAD_ARG, 4 ABORTED, 5 CHANNEL, 6 DOMAIN, 7… (RO). -/
def ECC_RESULT_CODE : Fld := ⟨0x180004, 0, 8⟩
/-- scrub or fill running (RO). -/
def ECC_RESULT_BUSY : Fld := ⟨0x180004, 8, 1⟩
/-- R329 (W1C). -/
def ECC_RESULT_OVR : Fld := ⟨0x180004, 9, 1⟩
/-- accepted commands, wraps (RO). -/
def ECC_RESULT_SEQ : Fld := ⟨0x180004, 16, 16⟩
/-- Table 11.1 (RW). -/
def ECC_ARG_MEM : Fld := ⟨0x180008, 0, 5⟩
/-- first word (RW). -/
def ECC_ARG_START_LO : Fld := ⟨0x180010, 0, 32⟩
/-- first word (RW). -/
def ECC_ARG_START_HI : Fld := ⟨0x180014, 0, 32⟩
/-- words (RW). -/
def ECC_ARG_COUNT_LO : Fld := ⟨0x180018, 0, 32⟩
/-- words (RW). -/
def ECC_ARG_COUNT_HI : Fld := ⟨0x18001C, 0, 32⟩
/-- ns, 20–1,000,000 (R326) (RW). -/
def ECC_SCRUB_GAP : Fld := ⟨0x180020, 0, 32⟩
/-- next word (R327) (RO). -/
def ECC_SCRUB_POS_LO : Fld := ⟨0x180024, 0, 32⟩
/-- next word (R327) (RO). -/
def ECC_SCRUB_POS_HI : Fld := ⟨0x180028, 0, 32⟩
/-- words fixed by the last run (RO). -/
def ECC_SCRUB_FIXED : Fld := ⟨0x18002C, 0, 32⟩
/-- uncorrectable words in the last run (RO). -/
def ECC_SCRUB_UE : Fld := ⟨0x180030, 0, 32⟩
/-- test mode, Expert (R328) (RWL). -/
def ECC_TEST_EN : Fld := ⟨0x180040, 0, 1⟩
/-- test data (RW). -/
def ECC_TD_LO : Fld := ⟨0x180044, 0, 32⟩
/-- test data (RW). -/
def ECC_TD_HI : Fld := ⟨0x180048, 0, 32⟩
/-- check bits (RW). -/
def ECC_TC_CHECK : Fld := ⟨0x18004C, 0, 8⟩
/-- address tag, DRAM only (RW). -/
def ECC_TC_TAG : Fld := ⟨0x18004C, 8, 8⟩
/-- syndrome of TEST_READ (RO). -/
def ECC_TSYN : Fld := ⟨0x180050, 0, 8⟩
/-- 0 clean, 1 correctable, 2 uncorrectable, 3 tag mismatch (RO). -/
def ECC_TSTAT : Fld := ⟨0x180050, 8, 2⟩
/-- log entry, 0 = newest (RW). -/
def ECC_LOG_SEL : Fld := ⟨0x180060, 0, 4⟩
/-- [4:0] memory; [7:5] kind 1 SYNDROME, 2 TAG, 3 WRITE; [15:8] request… (RO). -/
def ECC_LOG0 : Fld := ⟨0x180064, 0, 32⟩
/-- word index, low and high (RO). -/
def ECC_LOG1 : Fld := ⟨0x180068, 0, 32⟩
/-- word index, low and high (RO). -/
def ECC_LOG2 : Fld := ⟨0x18006C, 0, 32⟩
/-- repeat count, saturating (RO). -/
def ECC_LOG3 : Fld := ⟨0x180070, 0, 32⟩
/-- valid entries, 0–16 (RO). -/
def ECC_LOG_COUNT : Fld := ⟨0x180074, 0, 5⟩
/-- corrected reads (ROC). -/
def ECC_CE_CNT (n : Nat) : Fld := ⟨0x180100 + 0x20 * n, 0, 32⟩
/-- uncorrectable reads (ROC). -/
def ECC_UE_CNT (n : Nat) : Fld := ⟨0x180104 + 0x20 * n, 0, 32⟩
/-- R321 (ROC). -/
def ECC_PW_FIX_CNT (n : Nat) : Fld := ⟨0x180108 + 0x20 * n, 0, 32⟩
/-- R322 (ROC). -/
def ECC_WR_REF_CNT (n : Nat) : Fld := ⟨0x18010C + 0x20 * n, 0, 32⟩
/-- last corrected word (RO). -/
def ECC_LAST_CE_LO (n : Nat) : Fld := ⟨0x180110 + 0x20 * n, 0, 32⟩
/-- last corrected word (RO). -/
def ECC_LAST_CE_HI (n : Nat) : Fld := ⟨0x180114 + 0x20 * n, 0, 32⟩
/-- words poisoned (R317) (ROC). -/
def ECC_POISON_CNT (n : Nat) : Fld := ⟨0x180118 + 0x20 * n, 0, 32⟩

-- Table 12.6
/-- bit n: channel n not IDLE (RO). -/
def DMA_ACTIVE_LO : Fld := ⟨0x190000, 0, 32⟩
/-- bit n: channel n not IDLE (RO). -/
def DMA_ACTIVE_HI : Fld := ⟨0x190004, 0, 32⟩
/-- bit n: channel n PAUSED (RO). -/
def DMA_PAUSED_LO : Fld := ⟨0x190008, 0, 32⟩
/-- bit n: channel n PAUSED (RO). -/
def DMA_PAUSED_HI : Fld := ⟨0x19000C, 0, 32⟩
/-- bit n: chain ended with code 3–10 (W1C). -/
def DMA_ERR_LO : Fld := ⟨0x190010, 0, 32⟩
/-- bit n: chain ended with code 3–10 (W1C). -/
def DMA_ERR_HI : Fld := ⟨0x190014, 0, 32⟩
/-- late withdrawals (R336) (ROC). -/
def DMA_LATE_CNT : Fld := ⟨0x190018, 0, 32⟩
/-- longest drain, ns (ROC). -/
def DMA_DRAIN_MAX : Fld := ⟨0x19001C, 0, 32⟩
/-- 1 START, 2 PAUSE, 3 RESUME, 4 STOP (WO). -/
def DMA_CH_CMD_OP (n : Nat) : Fld := ⟨0x191000 + 0x100 * n, 0, 3⟩
/-- R337 (RO). -/
def DMA_CH_RESULT_CODE (n : Nat) : Fld := ⟨0x191004 + 0x100 * n, 0, 8⟩
/-- accepted commands, wraps (RO). -/
def DMA_CH_RESULT_SEQ (n : Nat) : Fld := ⟨0x191004 + 0x100 * n, 16, 16⟩
/-- first descriptor (RW). -/
def DMA_CH_CFG_FIRST (n : Nat) : Fld := ⟨0x191008 + 0x100 * n, 0, 10⟩
/-- 0–3 (R334) (RW). -/
def DMA_CH_CFG_PRIO (n : Nat) : Fld := ⟨0x191008 + 0x100 * n, 12, 2⟩
/-- MSI-X vector 0–63 (RW). -/
def DMA_CH_CFG_VEC (n : Nat) : Fld := ⟨0x191008 + 0x100 * n, 16, 6⟩
/-- Table 12.4 (RO). -/
def DMA_CH_STATUS_STATE (n : Nat) : Fld := ⟨0x19100C + 0x100 * n, 0, 3⟩
/-- R337 (RO). -/
def DMA_CH_STATUS_PAUSE_HOST (n : Nat) : Fld := ⟨0x19100C + 0x100 * n, 3, 1⟩
/-- R341 (RO). -/
def DMA_CH_STATUS_PAUSE_DOMAIN (n : Nat) : Fld := ⟨0x19100C + 0x100 * n, 4, 1⟩
/-- end code (RO). -/
def DMA_CH_STATUS_END (n : Nat) : Fld := ⟨0x19100C + 0x100 * n, 8, 4⟩
/-- R336 (W1C). -/
def DMA_CH_STATUS_WITHDRAWN_LATE (n : Nat) : Fld := ⟨0x19100C + 0x100 * n, 12, 1⟩
/-- R330 (W1C). -/
def DMA_CH_STATUS_DISCARDED (n : Nat) : Fld := ⟨0x19100C + 0x100 * n, 13, 1⟩
/-- set, and vector signalled, at the end of a descriptor with IRQ and … (W1C). -/
def DMA_CH_STATUS_IRQ (n : Nat) : Fld := ⟨0x19100C + 0x100 * n, 14, 1⟩
/-- R340 (RO). -/
def DMA_CUR_DESC (n : Nat) : Fld := ⟨0x191010 + 0x100 * n, 0, 10⟩
/-- next source address (RO). -/
def DMA_CUR_SRC_LO (n : Nat) : Fld := ⟨0x191014 + 0x100 * n, 0, 32⟩
/-- next source address (RO). -/
def DMA_CUR_SRC_HI (n : Nat) : Fld := ⟨0x191018 + 0x100 * n, 0, 32⟩
/-- next destination address (RO). -/
def DMA_CUR_DST_LO (n : Nat) : Fld := ⟨0x19101C + 0x100 * n, 0, 32⟩
/-- next destination address (RO). -/
def DMA_CUR_DST_HI (n : Nat) : Fld := ⟨0x191020 + 0x100 * n, 0, 32⟩
/-- bytes of LENGTH not yet sent (RO). -/
def DMA_REMAIN (n : Nat) : Fld := ⟨0x191024 + 0x100 * n, 0, 32⟩
/-- descriptors ended DONE (ROC). -/
def DMA_DONE_CNT (n : Nat) : Fld := ⟨0x191028 + 0x100 * n, 0, 32⟩
/-- bytes written, wraps (RO). -/
def DMA_BYTES_LO (n : Nat) : Fld := ⟨0x19102C + 0x100 * n, 0, 32⟩
/-- bytes written, wraps (RO). -/
def DMA_BYTES_HI (n : Nat) : Fld := ⟨0x191030 + 0x100 * n, 0, 32⟩
/-- R339 (RO). -/
def DMA_ERR_ADDR_LO (n : Nat) : Fld := ⟨0x191034 + 0x100 * n, 0, 32⟩
/-- R339 (RO). -/
def DMA_ERR_ADDR_HI (n : Nat) : Fld := ⟨0x191038 + 0x100 * n, 0, 32⟩
/-- TAG of the last descriptor ended (RO). -/
def DMA_LAST_TAG (n : Nat) : Fld := ⟨0x19103C + 0x100 * n, 0, 32⟩

-- Table 12.7
/-- 8–32 (RW). -/
def CRC_CFG_WIDTH (n : Nat) : Fld := ⟨0x1A0100 + 0x40 * n, 0, 6⟩
/-- R344 (RW). -/
def CRC_CFG_REFIN (n : Nat) : Fld := ⟨0x1A0100 + 0x40 * n, 8, 1⟩
/-- R344 (RW). -/
def CRC_CFG_REFOUT (n : Nat) : Fld := ⟨0x1A0100 + 0x40 * n, 9, 1⟩
/-- normal form (RW). -/
def CRC_POLY (n : Nat) : Fld := ⟨0x1A0104 + 0x40 * n, 0, 32⟩
/-- loaded unchanged (RW). -/
def CRC_INIT (n : Nat) : Fld := ⟨0x1A0108 + 0x40 * n, 0, 32⟩
/-- final XOR (RW). -/
def CRC_XOROUT (n : Nat) : Fld := ⟨0x1A010C + 0x40 * n, 0, 32⟩
/-- running value (R348) (RW). -/
def CRC_VAL (n : Nat) : Fld := ⟨0x1A0110 + 0x40 * n, 0, 32⟩
/-- result of R344 (RO). -/
def CRC_RESULT (n : Nat) : Fld := ⟨0x1A0114 + 0x40 * n, 0, 32⟩
/-- feeds 4 bytes (WO). -/
def CRC_DATA (n : Nat) : Fld := ⟨0x1A0118 + 0x40 * n, 0, 32⟩
/-- feeds 1 byte (WO). -/
def CRC_DATA8 (n : Nat) : Fld := ⟨0x1A011C + 0x40 * n, 0, 8⟩
/-- v = CRC_INIT (WO). -/
def CRC_CMD_LOAD (n : Nat) : Fld := ⟨0x1A0120 + 0x40 * n, 0, 1⟩
/-- 0 free, 1–64 channel + 1, 0x7F port (RO). -/
def CRC_STATUS_OWNER (n : Nat) : Fld := ⟨0x1A0124 + 0x40 * n, 0, 7⟩
/-- discarded writes (R347) (ROC). -/
def CRC_DISC_CNT (n : Nat) : Fld := ⟨0x1A0128 + 0x40 * n, 0, 32⟩
/-- bytes fed, wraps (RO). -/
def CRC_BYTES (n : Nat) : Fld := ⟨0x1A012C + 0x40 * n, 0, 32⟩

-- Table 13.9
/-- 0 FULL, 1 REDUCED, 2 BASIC (RO). -/
def EVT_LEVEL_LEVEL : Fld := ⟨0x20000, 0, 2⟩
/-- Table 13.6 (RO). -/
def EVT_LEVEL_ACTIVE : Fld := ⟨0x20000, 4, 4⟩
/-- R367 (RO). -/
def EVT_LEVEL_LATCHED : Fld := ⟨0x20000, 8, 4⟩
/-- R370 (RO). -/
def EVT_LEVEL_RESUME_REQ : Fld := ⟨0x20000, 12, 1⟩
/-- 1 CLEAR, 2 RESTORE (WO). -/
def EVT_LEVEL_CMD_OP : Fld := ⟨0x20004, 0, 2⟩
/-- R368 (RO). -/
def EVT_LEVEL_RESULT_CODE : Fld := ⟨0x20008, 0, 8⟩
/-- entries written, wraps (RO). -/
def EVT_HEAD : Fld := ⟨0x20010, 0, 32⟩
/-- entries the host has read (RW). -/
def EVT_READ : Fld := ⟨0x20014, 0, 32⟩
/-- R364, R365 (ROC). -/
def EVT_LOST : Fld := ⟨0x20018, 0, 32⟩
/-- 0 info, 1 warning, 2 fault, 3 critical (RW). -/
def EVT_IRQ_CLASS : Fld := ⟨0x2001C, 0, 2⟩
/-- R366 (RW). -/
def EVT_IRQ_EN : Fld := ⟨0x2001C, 8, 1⟩
/-- MSI-X vector (RW). -/
def EVT_IRQ_VEC : Fld := ⟨0x2001C, 16, 6⟩
/-- R366 (W1C). -/
def EVT_IRQ_STATUS_PEND : Fld := ⟨0x20020, 0, 1⟩
/-- ring entries written, wraps (RO). -/
def VRD_RING_HEAD : Fld := ⟨0x20040, 0, 32⟩
/-- entries the host has read (RW). -/
def VRD_RING_READ : Fld := ⟨0x20044, 0, 32⟩
/-- R358 (ROC). -/
def VRD_RING_LOST : Fld := ⟨0x20048, 0, 32⟩
/-- MARKED_OK verdicts (ROC). -/
def VRD_OK_CNT : Fld := ⟨0x2004C, 0, 32⟩
/-- FAIL verdicts (ROC). -/
def VRD_FAIL_CNT : Fld := ⟨0x20050, 0, 32⟩
/-- NOT_MARKED verdicts (ROC). -/
def VRD_NM_CNT : Fld := ⟨0x20054, 0, 32⟩
/-- R361 (ROC). -/
def VRD_LATE_CNT : Fld := ⟨0x20058, 0, 32⟩
/-- lines, 16–4,096 (R357) (RW). -/
def VRD_REMOTE_TMO : Fld := ⟨0x2005C, 0, 13⟩
/-- R359 (RWL). -/
def VRD_CFG_EN (n : Nat) : Fld := ⟨0x20100 + 0x20 * n, 0, 1⟩
/-- 0 active-high, 1 active-low (RWL). -/
def VRD_CFG_POL (n : Nat) : Fld := ⟨0x20100 + 0x20 * n, 1, 1⟩
/-- R359 (RWL). -/
def VRD_CFG_VMASK (n : Nat) : Fld := ⟨0x20100 + 0x20 * n, 4, 4⟩
/-- bit n: input n (RWL). -/
def VRD_CFG_INPUTS (n : Nat) : Fld := ⟨0x20100 + 0x20 * n, 16, 16⟩
/-- gate offset, 48.16 (RWL). -/
def VRD_GATE_LO (n : Nat) : Fld := ⟨0x20104 + 0x20 * n, 0, 32⟩
/-- gate offset, 48.16 (RWL). -/
def VRD_GATE_HI (n : Nat) : Fld := ⟨0x20108 + 0x20 * n, 0, 32⟩
/-- µs, 1–1,000,000 (RWL). -/
def VRD_WIDTH (n : Nat) : Fld := ⟨0x2010C + 0x20 * n, 0, 20⟩
/-- pulses (ROC). -/
def VRD_PULSE_CNT (n : Nat) : Fld := ⟨0x20110 + 0x20 * n, 0, 32⟩
/-- lines (R361); smallest since the last read; restarts at 0xFFFF_FFFF… (ROC). -/
def VRD_MARGIN_MIN (n : Nat) : Fld := ⟨0x20114 + 0x20 * n, 0, 32⟩
/-- output active (RO). -/
def VRD_STATUS_ACTIVE (n : Nat) : Fld := ⟨0x20118 + 0x20 * n, 0, 1⟩
/-- M_i of input i (RWL). -/
def VRD_IN_PORTS (n : Nat) : Fld := ⟨0x20200 + 0x4 * n, 0, 32⟩

-- Table 14.9
/-- fabric in use (R386) (RWL). -/
def FAB_CFG_EN : Fld := ⟨0x140000, 0, 1⟩
/-- anchor configured here (RWL). -/
def FAB_CFG_ANCHOR : Fld := ⟨0x140000, 1, 1⟩
/-- N_cfg, 1–64 (RWL). -/
def FAB_CFG_COUNT : Fld := ⟨0x140000, 8, 7⟩
/-- 1 MERGE, 2 ANCHOR (WO). -/
def FAB_CMD_OP : Fld := ⟨0x140004, 0, 3⟩
/-- port for MERGE; address for ANCHOR (WO). -/
def FAB_CMD_ARG : Fld := ⟨0x140004, 8, 6⟩
/-- 0 OK, 1 BUSY, 2 STATE, 3 BAD_ARG, 4 ROSTER (RO). -/
def FAB_RESULT_CODE : Fld := ⟨0x140008, 0, 8⟩
/-- accepted commands, wraps (RO). -/
def FAB_RESULT_SEQ : Fld := ⟨0x140008, 16, 16⟩
/-- Table 14.5 (RO). -/
def FAB_STATUS_STATE : Fld := ⟨0x14000C, 0, 3⟩
/-- this device is root (RO). -/
def FAB_STATUS_ROOT : Fld := ⟨0x14000C, 3, 1⟩
/-- R395 (RO). -/
def FAB_STATUS_QUORUM : Fld := ⟨0x14000C, 4, 1⟩
/-- time locked (R390) (RO). -/
def FAB_STATUS_LOCKED : Fld := ⟨0x14000C, 5, 1⟩
/-- own address (RO). -/
def FAB_STATUS_ADDR : Fld := ⟨0x14000C, 8, 6⟩
/-- roster members in component (RO). -/
def FAB_STATUS_MEMBERS : Fld := ⟨0x14000C, 16, 7⟩
/-- root address (RO). -/
def FAB_STATUS_ROOT_ADDR : Fld := ⟨0x14000C, 24, 6⟩
/-- formation number (RO). -/
def FAB_FORMATION : Fld := ⟨0x140010, 0, 32⟩
/-- anchor address (RO). -/
def FAB_ANCHOR_ADDR : Fld := ⟨0x140014, 0, 6⟩
/-- ms (R383) (RWL). -/
def FAB_FORM_TMO : Fld := ⟨0x140018, 0, 14⟩
/-- ns (R389) (RWL). -/
def FAB_POS_PER : Fld := ⟨0x14001C, 0, 12⟩
/-- µs (R391) (RW). -/
def FAB_POS_TMO : Fld := ⟨0x140020, 0, 10⟩
/-- ns (R391) (RW). -/
def FAB_TIME_LIM : Fld := ⟨0x140024, 0, 14⟩
/-- signed ns (R390) (RO). -/
def FAB_TIME_OFS : Fld := ⟨0x140028, 0, 32⟩
/-- lines (R396) (RW). -/
def FAB_SWAP_GUARD : Fld := ⟨0x14002C, 0, 13⟩
/-- R376 (ROC). -/
def FAB_ROUTE_DISC_CNT : Fld := ⟨0x140030, 0, 32⟩
/-- R374 (ROC). -/
def FAB_FRAME_ERR_CNT : Fld := ⟨0x140034, 0, 32⟩
/-- ASSIGNs received (ROC). -/
def FAB_REFORM_CNT : Fld := ⟨0x140038, 0, 32⟩
/-- ms from IDLE to READY (RO). -/
def FAB_FORM_TIME : Fld := ⟨0x14003C, 0, 16⟩
/-- port enabled (RWL). -/
def FP_CTRL_EN (n : Nat) : Fld := ⟨0x140100 + 0x40 * n, 0, 1⟩
/-- 1 TRAIN, 2 LOOP_START, 3 LOOP_STOP (WO). -/
def FP_CMD_OP (n : Nat) : Fld := ⟨0x140104 + 0x40 * n, 0, 2⟩
/-- lane state per Table 8.5 (RO). -/
def FP_STATUS_STATE (n : Nat) : Fld := ⟨0x140108 + 0x40 * n, 0, 4⟩
/-- 0 OFF, 1 HELLO, 2 MEMBER, 3 DOWN (RO). -/
def FP_STATUS_FSTATE (n : Nat) : Fld := ⟨0x140108 + 0x40 * n, 4, 2⟩
/-- adjacent (R377) (RO). -/
def FP_STATUS_ADJ (n : Nat) : Fld := ⟨0x140108 + 0x40 * n, 6, 1⟩
/-- lanes swapped (R236) (RO). -/
def FP_STATUS_REVERSED (n : Nat) : Fld := ⟨0x140108 + 0x40 * n, 7, 1⟩
/-- Table 8.6; 11 HELLO; 12 UNDECIDED (RO). -/
def FP_CAUSE (n : Nat) : Fld := ⟨0x14010C + 0x40 * n, 0, 8⟩
/-- neighbour ID (RO). -/
def FP_NBR_ID_LO (n : Nat) : Fld := ⟨0x140110 + 0x40 * n, 0, 32⟩
/-- neighbour ID (RO). -/
def FP_NBR_ID_HI (n : Nat) : Fld := ⟨0x140114 + 0x40 * n, 0, 32⟩
/-- neighbour port (RO). -/
def FP_NBR_PORT (n : Nat) : Fld := ⟨0x140118 + 0x40 * n, 0, 3⟩
/-- link delay, ns (R378) (RO). -/
def FP_DELAY (n : Nat) : Fld := ⟨0x14011C + 0x40 * n, 0, 32⟩
/-- signed ns, Expert (RW). -/
def FP_ASYM (n : Nat) : Fld := ⟨0x140120 + 0x40 * n, 0, 16⟩
/-- ns, 20–1,000 (RW). -/
def FP_LOS_T (n : Nat) : Fld := ⟨0x140124 + 0x40 * n, 0, 10⟩
/-- missed HELLOs (ROC). -/
def FP_HELLO_MISS_CNT (n : Nat) : Fld := ⟨0x140128 + 0x40 * n, 0, 32⟩
/-- R234 (ROC). -/
def FP_CODE_ERR_CNT (n : Nat) : Fld := ⟨0x14012C + 0x40 * n, 0, 32⟩
/-- output port (RO). -/
def DITCH_PORT (i : Nat) : Fld := ⟨0x140400 + 4 * i, 0, 3⟩
/-- route exists (RO). -/
def DITCH_VALID (i : Nat) : Fld := ⟨0x140400 + 4 * i, 3, 1⟩
/-- hops, 1–16 (RO). -/
def DITCH_HOPS (i : Nat) : Fld := ⟨0x140400 + 4 * i, 8, 5⟩
/-- ID at address a; 0 = free (RO). -/
def ROSTER_LO (i : Nat) : Fld := ⟨0x140600 + 8 * i, 0, 32⟩
/-- ID at address a; 0 = free (RO). -/
def ROSTER_HI (i : Nat) : Fld := ⟨0x140604 + 8 * i, 0, 32⟩

-- Table 15.6
/-- 0 firmware servo, 1 host (Table 15.1) (RW). -/
def TIM_CTRL_OWNER : Fld := ⟨0x1B0000, 0, 1⟩
/-- PTP stack runs (RW). -/
def TIM_CTRL_PTP_EN : Fld := ⟨0x1B0000, 1, 1⟩
/-- 1 SET, 2 STEP (WO). -/
def TIM_CMD_OP : Fld := ⟨0x1B0004, 0, 2⟩
/-- 0 OK, 1 BUSY, 2 STATE, 3 BAD_ARG, 4 LIMIT, 5 FABRIC, 6 OWNER (RO). -/
def TIM_RESULT_CODE : Fld := ⟨0x1B0008, 0, 8⟩
/-- command running (RO). -/
def TIM_RESULT_BUSY : Fld := ⟨0x1B0008, 8, 1⟩
/-- R407 (W1C). -/
def TIM_RESULT_OVR : Fld := ⟨0x1B0008, 9, 1⟩
/-- accepted commands, wraps (RO). -/
def TIM_RESULT_SEQ : Fld := ⟨0x1B0008, 16, 16⟩
/-- R408 (RO). -/
def TIM_STATUS_VALID : Fld := ⟨0x1B000C, 0, 1⟩
/-- Table 15.3 (RO). -/
def TIM_STATUS_SYNC : Fld := ⟨0x1B000C, 1, 3⟩
/-- R410 (RO). -/
def TIM_STATUS_KEEPER : Fld := ⟨0x1B000C, 4, 1⟩
/-- R404 (W1C). -/
def TIM_STATUS_CLAMP : Fld := ⟨0x1B000C, 5, 1⟩
/-- 0 firmware, 1 host, 2 fabric (RO). -/
def TIM_STATUS_OWNER_NOW : Fld := ⟨0x1B000C, 6, 2⟩
/-- ns; latches seconds (R402) (RO). -/
def TIM_NOW_NS : Fld := ⟨0x1B0010, 0, 32⟩
/-- seconds (RO). -/
def TIM_NOW_SEC_LO : Fld := ⟨0x1B0014, 0, 32⟩
/-- seconds (RO). -/
def TIM_NOW_SEC_HI : Fld := ⟨0x1B0018, 0, 32⟩
/-- SET argument (RW). -/
def TIM_ARG_NS : Fld := ⟨0x1B0020, 0, 32⟩
/-- SET argument (RW). -/
def TIM_ARG_SEC_LO : Fld := ⟨0x1B0024, 0, 32⟩
/-- SET argument (RW). -/
def TIM_ARG_SEC_HI : Fld := ⟨0x1B0028, 0, 32⟩
/-- STEP offset, signed ns (RW). -/
def TIM_ARG_OFS_LO : Fld := ⟨0x1B002C, 0, 32⟩
/-- STEP offset, signed ns (RW). -/
def TIM_ARG_OFS_HI : Fld := ⟨0x1B0030, 0, 32⟩
/-- signed, 2^−40 (R401, R404) (RW). -/
def TIM_ADJ : Fld := ⟨0x1B0034, 0, 32⟩
/-- ns, 0–1,000,000,000 (R406) (RW). -/
def TIM_STEP_LIM : Fld := ⟨0x1B0038, 0, 32⟩
/-- ns (R415) (RW). -/
def TIM_STEP_THR : Fld := ⟨0x1B003C, 0, 32⟩
/-- ns (Table 15.3) (RW). -/
def TIM_LOCK_THR : Fld := ⟨0x1B0040, 0, 32⟩
/-- last accepted offset, signed ns (RO). -/
def TIM_LAST_STEP_LO : Fld := ⟨0x1B0044, 0, 32⟩
/-- last accepted offset, signed ns (RO). -/
def TIM_LAST_STEP_HI : Fld := ⟨0x1B0048, 0, 32⟩
/-- accepted steps (ROC). -/
def TIM_STEP_CNT : Fld := ⟨0x1B004C, 0, 32⟩
/-- refused steps (ROC). -/
def TIM_REFUSE_CNT : Fld := ⟨0x1B0050, 0, 32⟩
/-- discarded TIM_ADJ writes (ROC). -/
def TIM_DISC_CNT : Fld := ⟨0x1B0054, 0, 32⟩
/-- PHY transmit latency, ns; s = 0 1,000, 1 100, 2 10 Mbit/s (RW). -/
def TS_LAT_TX (i : Nat) : Fld := ⟨0x1B0080 + 4 * i, 0, 16⟩
/-- PHY receive latency, ns (RW). -/
def TS_LAT_RX (i : Nat) : Fld := ⟨0x1B0080 + 4 * i, 16, 16⟩
/-- stamps queued, 0–16 (RO). -/
def TS_TX_LEVEL : Fld := ⟨0x1B0090, 0, 5⟩
/-- [3:0] messageType, [31:16] sequenceId; read advances the queue (RO). -/
def TS_TX_POP : Fld := ⟨0x1B0094, 0, 32⟩
/-- stamp of the entry popped (RO). -/
def TS_TX_NS : Fld := ⟨0x1B0098, 0, 32⟩
/-- stamp of the entry popped (RO). -/
def TS_TX_SEC_LO : Fld := ⟨0x1B009C, 0, 32⟩
/-- stamp of the entry popped (RO). -/
def TS_TX_SEC_HI : Fld := ⟨0x1B00A0, 0, 32⟩
/-- R414 (ROC). -/
def TS_TX_LOST : Fld := ⟨0x1B00A4, 0, 32⟩
/-- keeper seconds (RO). -/
def KEEP_SEC_LO : Fld := ⟨0x1B00C0, 0, 32⟩
/-- keeper seconds (RO). -/
def KEEP_SEC_HI : Fld := ⟨0x1B00C4, 0, 32⟩
/-- keeper ticks (RO). -/
def KEEP_SUB : Fld := ⟨0x1B00C8, 0, 15⟩
/-- power-fail flag (RO). -/
def KEEP_STATUS_PWRFAIL : Fld := ⟨0x1B00CC, 0, 1⟩
/-- MAC address (R419) (RWL). -/
def NET_MAC_LO : Fld := ⟨0x1B0400, 0, 32⟩
/-- MAC address (R419) (RWL). -/
def NET_MAC_HI : Fld := ⟨0x1B0404, 0, 32⟩
/-- IPv4 address, big-endian (RW). -/
def NET_IP : Fld := ⟨0x1B0408, 0, 32⟩
/-- big-endian (RW). -/
def NET_MASK : Fld := ⟨0x1B040C, 0, 32⟩
/-- big-endian (RW). -/
def NET_GW : Fld := ⟨0x1B0410, 0, 32⟩
/-- R422 (RW). -/
def NET_IOP_PORT : Fld := ⟨0x1B0414, 0, 16⟩
/-- R418 (RWL). -/
def NET_CTRL_TXDLY : Fld := ⟨0x1B0418, 0, 1⟩
/-- 0 auto, 1 10, 2 100, 3 1,000 Mbit/s (RW). -/
def NET_CTRL_FORCE : Fld := ⟨0x1B0418, 1, 2⟩
/-- PHY address (RW). -/
def NET_CTRL_PHYAD : Fld := ⟨0x1B0418, 8, 5⟩
/-- link up (RO). -/
def NET_STATUS_LINK : Fld := ⟨0x1B041C, 0, 1⟩
/-- as NET_LINK (RO). -/
def NET_STATUS_SPEED : Fld := ⟨0x1B041C, 1, 2⟩
/-- [15:0] data, [20:16] register, [21] write, [31] busy (RW). -/
def NET_MDIO : Fld := ⟨0x1B0420, 0, 32⟩
/-- frames discarded (R419, R420, R422) (ROC). -/
def NET_RX_DISC_CNT : Fld := ⟨0x1B0424, 0, 32⟩
/-- queue overflows (ROC). -/
def NET_RX_OVF_CNT : Fld := ⟨0x1B0428, 0, 32⟩

-- Table 16.13
/-- tables being written: [0] remap, [1] correction, [2] templates, [3]… (RW). -/
def DEV_PROF_OPEN : Fld := ⟨0x100, 0, 4⟩
/-- R151 (RO). -/
def DEV_PROF_STATUS_TPL_VALID : Fld := ⟨0x104, 0, 1⟩
/-- R189 (RO). -/
def DEV_PROF_STATUS_SCR_VALID : Fld := ⟨0x104, 1, 1⟩
/-- R184 (RO). -/
def DEV_PROF_STATUS_CORR_VALID : Fld := ⟨0x104, 2, 1⟩
/-- R206 (RO). -/
def DEV_PROF_STATUS_REMAP_VALID : Fld := ⟨0x104, 3, 1⟩
/-- DEV_PROF_OPEN non-zero or a segmented write open (RO). -/
def DEV_PROF_STATUS_OPEN : Fld := ⟨0x104, 4, 1⟩
/-- R443 (RO). -/
def DEV_PROF_STATUS_COMPLETE : Fld := ⟨0x104, 5, 1⟩
/-- as SWAP_STATUS.PENDING (RO). -/
def DEV_PROF_STATUS_SWAP_PENDING : Fld := ⟨0x104, 6, 1⟩
/-- R445 (WO). -/
def DEV_PROF_CMD_REVERT : Fld := ⟨0x108, 0, 1⟩
/-- 0 OK, 9 LOCKED, 10 BUSY (RO). -/
def DEV_PROF_RESULT : Fld := ⟨0x10C, 0, 8⟩
/-- 1 SAVE, 2 LOAD, 3 ERASE (WO). -/
def DEV_STORE_CMD_OP : Fld := ⟨0x120, 0, 2⟩
/-- 0 OK, 1 BUSY, 2 STATE, 3 NO_ROOM, 4 FLASH (RO). -/
def DEV_STORE_RESULT_CODE : Fld := ⟨0x124, 0, 8⟩
/-- command running (RO). -/
def DEV_STORE_RESULT_BUSY : Fld := ⟨0x124, 8, 1⟩
/-- write while BUSY discarded (W1C). -/
def DEV_STORE_RESULT_OVR : Fld := ⟨0x124, 9, 1⟩
/-- accepted commands, wraps (RO). -/
def DEV_STORE_RESULT_SEQ : Fld := ⟨0x124, 16, 16⟩
/-- [0] remap, [1] correction, [2] templates, [3] threshold store, [4] … (RW). -/
def DEV_STORE_CFG_TABLES : Fld := ⟨0x128, 0, 5⟩
/-- 0 none, 1 A, 2 B (RO). -/
def DEV_STORE_STATUS_SLOT : Fld := ⟨0x12C, 0, 2⟩
/-- defaults loaded at boot (RO). -/
def DEV_STORE_STATUS_DEFAULTS : Fld := ⟨0x12C, 2, 1⟩
/-- save sequence in force (RO). -/
def DEV_STORE_SEQ : Fld := ⟨0x130, 0, 32⟩
/-- content bytes (RO). -/
def DEV_STORE_USED : Fld := ⟨0x134, 0, 32⟩
/-- slot size, bytes (RO). -/
def DEV_STORE_SLOT : Fld := ⟨0x138, 0, 32⟩
/-- schema version running (RO). -/
def DEV_STORE_SCHEMA : Fld := ⟨0x13C, 0, 32⟩
/-- R450 (ROC). -/
def DEV_BAR_DISC_CNT : Fld := ⟨0x140, 0, 32⟩
/-- R425 (ROC). -/
def DEV_RANGE_DISC_CNT : Fld := ⟨0x144, 0, 32⟩
/-- message length, bytes (WO). -/
def DEV_MBX_DOORBELL : Fld := ⟨0x160, 0, 12⟩
/-- message being handled (RO). -/
def DEV_MBX_STATUS_BUSY : Fld := ⟨0x164, 0, 1⟩
/-- response ready (W1C). -/
def DEV_MBX_STATUS_DONE : Fld := ⟨0x164, 1, 1⟩
/-- doorbell discarded (W1C). -/
def DEV_MBX_STATUS_OVR : Fld := ⟨0x164, 2, 1⟩
/-- response bytes (RO). -/
def DEV_MBX_STATUS_RSP_LEN : Fld := ⟨0x164, 16, 12⟩
/-- MSI-X vector (RW). -/
def DEV_MBX_CFG_VEC : Fld := ⟨0x168, 0, 6⟩
/-- signal on DONE (RW). -/
def DEV_MBX_CFG_IRQ_EN : Fld := ⟨0x168, 8, 1⟩
/-- IOP sessions open, 0–8 (RO). -/
def DEV_SESS_OPEN : Fld := ⟨0x16C, 0, 4⟩
/-- request message (RW). -/
def DEV_MBX_REQ (i : Nat) : Fld := ⟨0x1000 + 4 * i, 0, 32⟩
/-- response message (RO). -/
def DEV_MBX_RSP (i : Nat) : Fld := ⟨0x1800 + 4 * i, 0, 32⟩

-- Table 17.10
/-- 1 BOOT, 2 IDLE, 3 ARMED, 4 RUN (RO). -/
def DEV_STATE_STATE : Fld := ⟨0x0, 0, 3⟩
/-- as EVT_LEVEL.LEVEL (RO). -/
def DEV_STATE_LEVEL : Fld := ⟨0x0, 4, 2⟩
/-- Table 17.6 (RO). -/
def DEV_STATE_BOOT_STEP : Fld := ⟨0x0, 8, 4⟩
/-- 1 ARM, 2 RUN, 3 DISARM, 4 STOP (WO). -/
def DEV_STATE_CMD_OP : Fld := ⟨0x4, 0, 3⟩
/-- 0 OK, 1 BUSY, 2 STATE, 3 LEVEL, 4 FABRIC, 5 PLAN, 6 OFFSET, 7 JOBS,… (RO). -/
def DEV_STATE_RESULT_CODE : Fld := ⟨0x8, 0, 8⟩
/-- accepted commands, wraps (RO). -/
def DEV_STATE_RESULT_SEQ : Fld := ⟨0x8, 16, 16⟩
/-- ms from release to IDLE (RO). -/
def DEV_BOOT_MS : Fld := ⟨0xC, 0, 16⟩
/-- [7:0] step, [15:8] code (R467) (RO). -/
def DEV_BOOT_ERR : Fld := ⟨0x10, 0, 16⟩

-- Table 17.11
/-- Table 17.2 (WO). -/
def PWR_DOM_CMD_DOMAIN : Fld := ⟨0x10000, 0, 4⟩
/-- 1 ON, 2 OFF (WO). -/
def PWR_DOM_CMD_OP : Fld := ⟨0x10000, 8, 2⟩
/-- 0 OK, 1 BUSY, 2 STATE, 3 BAD_ARG, 4 DOMAIN_BUSY, 5 LIVE (RO). -/
def PWR_DOM_RESULT_CODE : Fld := ⟨0x10004, 0, 8⟩
/-- command running (RO). -/
def PWR_DOM_RESULT_BUSY : Fld := ⟨0x10004, 8, 1⟩
/-- R456 (W1C). -/
def PWR_DOM_RESULT_OVR : Fld := ⟨0x10004, 9, 1⟩
/-- accepted commands, wraps (RO). -/
def PWR_DOM_RESULT_SEQ : Fld := ⟨0x10004, 16, 16⟩
/-- bit per domain code (RO). -/
def PWR_DOM_STATUS_ON : Fld := ⟨0x10008, 0, 10⟩
/-- OFF draining (R457) (RO). -/
def PWR_DOM_PENDING : Fld := ⟨0x1000C, 0, 10⟩
/-- domains left on at step 5; bits 0 and 9 ignored (RW). -/
def PWR_DOM_BOOT : Fld := ⟨0x10010, 0, 10⟩
/-- 1 SYSTEM, 2 MGMT (WO). -/
def PWR_RST_CMD_OP : Fld := ⟨0x10014, 0, 2⟩
/-- R462 (WO). -/
def PWR_RST_CMD_FORCE : Fld := ⟨0x10014, 8, 1⟩
/-- 0x2618 (WO). -/
def PWR_RST_CMD_KEY : Fld := ⟨0x10014, 16, 16⟩
/-- 0 OK, 2 STATE (RO). -/
def PWR_RST_RESULT : Fld := ⟨0x10018, 0, 8⟩
/-- ms; 0 off, 100–10,000 (RW). -/
def PWR_WDT : Fld := ⟨0x1001C, 0, 14⟩
/-- R464 (WO). -/
def PWR_WDT_KICK : Fld := ⟨0x10020, 0, 1⟩
/-- in range: [0] VDD, [1] VDDS, [2] VDDH, [3] VDDQ0, [4] VDDQ1, [5] VA… (RO). -/
def PWR_SUPPLY_STATUS : Fld := ⟨0x10024, 0, 7⟩
/-- R463 (ROC). -/
def PWR_PERST_CNT : Fld := ⟨0x10028, 0, 32⟩
/-- R464 (ROC). -/
def PWR_MGMT_RST_CNT : Fld := ⟨0x1002C, 0, 32⟩
/-- [0] PORST, [1] SUPPLY, [2] SYSTEM, [3] CLOCK, [4] KEEPER (W1C). -/
def PWR_RST_CAUSE : Fld := ⟨0x10800, 0, 5⟩
/-- failed rail, as PWR_SUPPLY_STATUS (W1C). -/
def PWR_RST_RAIL : Fld := ⟨0x10804, 0, 7⟩
/-- power-fail flag (RO). -/
def PWR_KEEP_STATUS_PWRFAIL : Fld := ⟨0x10808, 0, 1⟩
/-- R460 (RO). -/
def PWR_KEEP_STATUS_ON_VKEEP : Fld := ⟨0x10808, 1, 1⟩
/-- Table 17.3 (RO). -/
def KEEP_RET (i : Nat) : Fld := ⟨0x10A00 + 4 * i, 0, 32⟩

-- Table 18.5
/-- 1 ADC, 2 BIST, 3 ABORT (WO). -/
def CAL_CMD_OP : Fld := ⟨0x1C0000, 0, 2⟩
/-- R477 (RW). -/
def CAL_ARG_ADC_MASK : Fld := ⟨0x1C0004, 0, 9⟩
/-- 1 memory march, 2 DRAM test, 3 CRC, 4 decompressors, 5 compressors,… (RW). -/
def CAL_ARG_TEST : Fld := ⟨0x1C0004, 16, 4⟩
/-- memory ID, channel, unit or engine (RW). -/
def CAL_ARG_TARGET : Fld := ⟨0x1C0004, 24, 5⟩
/-- first word (RW). -/
def CAL_ARG_START_LO : Fld := ⟨0x1C0008, 0, 32⟩
/-- first word (RW). -/
def CAL_ARG_START_HI : Fld := ⟨0x1C000C, 0, 32⟩
/-- words; 0 = whole memory (RW). -/
def CAL_ARG_COUNT_LO : Fld := ⟨0x1C0010, 0, 32⟩
/-- words; 0 = whole memory (RW). -/
def CAL_ARG_COUNT_HI : Fld := ⟨0x1C0014, 0, 32⟩
/-- 0 OK, 1 BUSY, 2 STATE, 3 BAD_ARG, 4 DOMAIN, 5 HANDOVER, 6 RESIDUAL (RO). -/
def CAL_RESULT_CODE : Fld := ⟨0x1C0018, 0, 8⟩
/-- ADC calibration running (RO). -/
def CAL_RESULT_BUSY : Fld := ⟨0x1C0018, 8, 1⟩
/-- ADC command discarded while BUSY (W1C). -/
def CAL_RESULT_OVR : Fld := ⟨0x1C0018, 9, 1⟩
/-- 0 OK, 1 BUSY, 2 STATE, 3 BAD_ARG, 4 DOMAIN, 7 ABORTED, 8 FAIL (RO). -/
def BIST_RESULT_CODE : Fld := ⟨0x1C001C, 0, 8⟩
/-- test running (RO). -/
def BIST_RESULT_BUSY : Fld := ⟨0x1C001C, 8, 1⟩
/-- BIST command discarded while BUSY (W1C). -/
def BIST_RESULT_OVR : Fld := ⟨0x1C001C, 9, 1⟩
/-- R474 (W1C). -/
def CAL_BG_DRIFT : Fld := ⟨0x1C0020, 0, 1⟩
/-- ppm, signed (RO). -/
def CAL_BG_DIFF : Fld := ⟨0x1C0020, 16, 16⟩
/-- die temperature, signed, 1/16 °C (RO). -/
def CAL_TEMP : Fld := ⟨0x1C0024, 0, 16⟩
/-- °C, 1–100 (RW). -/
def CAL_TEMP_DELTA : Fld := ⟨0x1C0028, 0, 8⟩
/-- codes, 1–255 (RW). -/
def CAL_HO_TOL : Fld := ⟨0x1C002C, 0, 8⟩
/-- 1/8 code (RW). -/
def CAL_RES_LIM_OFS : Fld := ⟨0x1C0030, 0, 8⟩
/-- 1/8 code (RW). -/
def CAL_RES_LIM_GAIN : Fld := ⟨0x1C0030, 16, 8⟩
/-- converter replaced by ADC 8; 0xF none (RO). -/
def CAL_SPARE_FOR : Fld := ⟨0x1C0034, 0, 4⟩
/-- first failing word (RO). -/
def BIST_FAIL_WORD_LO : Fld := ⟨0x1C0038, 0, 32⟩
/-- first failing word (RO). -/
def BIST_FAIL_WORD_HI : Fld := ⟨0x1C003C, 0, 32⟩
/-- failing words (ROC). -/
def BIST_FAIL_CNT : Fld := ⟨0x1C0040, 0, 32⟩
/-- bit per test code 1–7 that failed at its last run (RO). -/
def BIST_KAT : Fld := ⟨0x1C0044, 0, 7⟩
/-- next word (RO). -/
def BIST_POS_LO : Fld := ⟨0x1C0048, 0, 32⟩
/-- next word (RO). -/
def BIST_POS_HI : Fld := ⟨0x1C004C, 0, 32⟩
/-- offset trim, 1/8 code (R475) (RWL). -/
def ADC_TRIM_OFS (n : Nat) : Fld := ⟨0x1C0100 + 0x10 * n, 0, 10⟩
/-- gain trim, 2^−14 (RWL). -/
def ADC_TRIM_GAIN (n : Nat) : Fld := ⟨0x1C0100 + 0x10 * n, 16, 10⟩
/-- die temperature at calibration (RO). -/
def ADC_CAL_TEMP (n : Nat) : Fld := ⟨0x1C0104 + 0x10 * n, 0, 16⟩
/-- last result code (RO). -/
def ADC_CAL_LAST (n : Nat) : Fld := ⟨0x1C0108 + 0x10 * n, 0, 8⟩
/-- calibrations (ROC). -/
def ADC_CAL_CNT (n : Nat) : Fld := ⟨0x1C010C + 0x10 * n, 0, 32⟩

-- Table 19.8
/-- 1 BEGIN, 2 BLOCK, 3 VERIFY, 4 ACTIVATE, 5 CANCEL (WO). -/
def UPD_CMD_OP : Fld := ⟨0x1D0000, 0, 3⟩
/-- 0 OK, 1 BUSY, 2 STATE, 3 BAD_ARG, 4 OFFSET, 5 TOO_LARGE, 6 FLASH, 7… (RO). -/
def UPD_RESULT_CODE : Fld := ⟨0x1D0004, 0, 8⟩
/-- command running (RO). -/
def UPD_RESULT_BUSY : Fld := ⟨0x1D0004, 8, 1⟩
/-- R491 (W1C). -/
def UPD_RESULT_OVR : Fld := ⟨0x1D0004, 9, 1⟩
/-- accepted commands, wraps (RO). -/
def UPD_RESULT_SEQ : Fld := ⟨0x1D0004, 16, 16⟩
/-- Table 19.5 (RO). -/
def UPD_STATUS_STATE : Fld := ⟨0x1D0008, 0, 3⟩
/-- bundle length, bytes (R492) (RW). -/
def UPD_TOTAL : Fld := ⟨0x1D000C, 0, 32⟩
/-- next offset expected (R493) (RO). -/
def UPD_NEXT : Fld := ⟨0x1D0010, 0, 32⟩
/-- block offset (RW). -/
def UPD_BLK_OFS : Fld := ⟨0x1D0014, 0, 32⟩
/-- block length, 4–4,096 (RW). -/
def UPD_BLK_LEN : Fld := ⟨0x1D0018, 0, 13⟩
/-- Table 19.4 (RO). -/
def UPD_VERIFY_ERR_CHECK : Fld := ⟨0x1D001C, 0, 8⟩
/-- part entry (RO). -/
def UPD_VERIFY_ERR_PART : Fld := ⟨0x1D001C, 8, 8⟩
/-- C (R490) (RO). -/
def UPD_FUSE_CNT : Fld := ⟨0x1D0020, 0, 7⟩
/-- bundle version running (RO). -/
def UPD_ACTIVE_VER : Fld := ⟨0x1D0024, 0, 32⟩
/-- its security version (RO). -/
def UPD_ACTIVE_SVN : Fld := ⟨0x1D0028, 0, 8⟩
/-- bundle version in staging, valid from VERIFIED (RO). -/
def UPD_STAGED_VER : Fld := ⟨0x1D002C, 0, 32⟩
/-- its security version (RO). -/
def UPD_STAGED_SVN : Fld := ⟨0x1D0030, 0, 8⟩
/-- at the last start: 0 none, 1 activated, 2 resumed, 3 failed, 4 reco… (RO). -/
def UPD_LAST_ACT : Fld := ⟨0x1D0034, 0, 8⟩
/-- S, bytes (RO). -/
def UPD_FLASH_SIZE : Fld := ⟨0x1D0038, 0, 32⟩
/-- block data (R493) (WO). -/
def UPD_BUF (i : Nat) : Fld := ⟨0x1D1000 + 4 * i, 0, 32⟩

-- Table 12.1
/-- descriptor table word i (32-byte descriptors in memory 9) (RW). -/
def DMA_DESC (i : Nat) : Fld := ⟨0x198000 + 4 * i, 0, 32⟩

end R

end Sys2Proof.Machine
end

