-- ==== Sys2Proof/Machine/SMap.lean ====
section
/-! DEFINITION. Sparse maps: a list of (key, value) pairs in rising key order; a key that is not listed has a
default value that the reader supplies. Registers, tables and instance arrays are held so. -/

namespace Sys2Proof.Machine

/-- A sparse map from a number to a value. -/
abbrev SMap (α : Type) := List (Nat × α)

/-- The listed value of a key, if any. -/
def SMap.find? {α : Type} : SMap α → Nat → Option α
  | [], _ => none
  | (a, v) :: r, k => if k < a then none else if k = a then some v else SMap.find? r k

/-- The value of a key, `dflt` where the key is not listed. -/
def SMap.get {α : Type} (m : SMap α) (dflt : α) (k : Nat) : α := (m.find? k).getD dflt

/-- Lists a value for a key, keeping the keys in rising order. -/
def SMap.put {α : Type} : SMap α → Nat → α → SMap α
  | [], k, v => [(k, v)]
  | (a, w) :: r, k, v =>
    if k < a then (k, v) :: (a, w) :: r
    else if k = a then (k, v) :: r
    else (a, w) :: SMap.put r k v

/-- Takes a key out of the list. -/
def SMap.drop {α : Type} (m : SMap α) (k : Nat) : SMap α := m.filter (fun p => p.1 != k)

/-- The lowest key whose value satisfies `q`. -/
def SMap.keyOf {α : Type} (m : SMap α) (q : α → Bool) : Option Nat := ((m.filter (fun p => q p.2)).head?).map (·.1)

/-- Applies `f` to the value of key `k`. -/
def SMap.upd {α : Type} (m : SMap α) (dflt : α) (k : Nat) (f : α → α) : SMap α := m.put k (f (m.get dflt k))

/-- The map is in its canonical form: keys strictly rising. -/
def SMap.wf {α : Type} : SMap α → Bool
  | [] => true
  | [_] => true
  | (a, _) :: (b, w) :: r => decide (a < b) && SMap.wf ((b, w) :: r)

end Sys2Proof.Machine
end

