-- ==== Sys2Proof/Machine/State.lean ====
section
/-! DEFINITION. The state of the DX-2618 as plain data, its reset value, its faults and refusals. -/

namespace Sys2Proof.Machine

/-! ## Device state, level, events, verdicts (01 Tables 1.6, 1.7; 13) -/

/-- Device states (01 Table 1.6). -/
inductive DevState where
  | keep | boot | idle | armed | run
  deriving DecidableEq, Repr

/-- Degradation levels (01 Table 1.7). -/
inductive Level where
  | full | reduced | basic
  deriving DecidableEq, Repr

/-- Verdicts of an item (13 R354). -/
inductive Verdict where
  | pending | markedOk | fail | notMarked
  deriving DecidableEq, Repr

/-- One event as raised (13 Table 13.5); `clk` is the clock it was raised on, which orders the queue (R365). -/
structure EvEntry where
  code : Nat
  item : Option Nat
  posValid : Bool
  timeValid : Bool
  dstate : DevState
  level : Level
  tsec : Nat
  tsub : Nat
  pos : Nat
  detail : Nat
  clk : Nat
  deriving DecidableEq, Repr

/-- One entry of the verdict ring (13 Table 13.3). -/
structure VrdEntry where
  item : Nat
  verdict : Verdict
  attempted : Bool
  late : Bool
  origin : Bool
  fabric : Bool
  input : Nat
  causes : Nat
  key : Nat
  deriving DecidableEq, Repr

/-- Event log, verdict ring, pulses and level causes (13). `lvlActive` and `lvlLatched` are Table 13.6 masks;
`occ` counts the occurrences of each rate-limited event (code, instance) in the running 1 ms interval (R518); `latched` the item records
latched for the keeper and not yet committed (17 R461);
`pulses` lists (output, end clock) of running pulses (R359). -/
structure Evt where
  queue : List EvEntry := []
  log : SMap EvEntry := []
  ring : SMap VrdEntry := []
  occ : List ((Nat × Nat) × Nat) := []
  latched : List (List Nat) := []
  lvlActive : Nat := 0
  lvlLatched : Nat := 0
  resumeReq : Bool := false
  pulses : List (Nat × Nat) := []
  deriving DecidableEq, Repr

/-! ## Position, triggers, rows (02) -/

/-- One encoder input: signed count C, the last levels of A and B, the count at the last Z edge, the checks of
Table 2.1 that fail at present (R50, R66), the count at the last load of position (R52, R55), the interpolated angle of the last
sample in 1/4,096 period (R47) and the consecutive samples whose amplitude lay outside its limits (check 4). [DESIGN CHOICE, unsafe, log 9] -/
structure Enc where
  c : Int := 0
  a : Bool := false
  b : Bool := false
  lastZ : Option Int := none
  failing : List Nat := []
  cl : Int := 0
  ang : Option Nat := none
  ampBad : Nat := 0
  deriving DecidableEq, Repr

/-- One trigger input: the pin level, the clock of an edge whose filter time runs, the previous accepted position. [DESIGN CHOICE, unsafe, log 9] -/
structure Trg where
  level : Bool := false
  edgeAt : Option Nat := none
  lastPos : Option Nat := none
  deriving DecidableEq, Repr

/-- One row of the fire scheduler: the next fire step and the last fire point issued (R79); the ranges of steps that were issued or reported fired,
newest first (13 R353). -/
structure RowSt where
  next : Nat := 0
  last : Option Int := none
  issued : List (Nat × Nat) := []
  deriving DecidableEq, Repr

/-- Position subsystem (02). `chkP` is the position every encoder was loaded with last (R55); `hist` lists (clock, pos_int) at each count, newest first; `tClr` is t_clr of R63 while
prediction is off after a cleared reversal; `fabVel`, `fabAt` and `fabPred` are velocity, time and PRED of the last POS message (14 R389); `skips` are the ranges of fire steps passed by LOAD or RESTORE_LOAD (R66).
`posInt` is the signed position of R52; `weir` the weir level; `nextRel` and `nextFetch` those of 01 (R21–R23). [DESIGN CHOICE, unsafe, log 9] -/
structure Pos where
  encs : SMap Enc := []
  pL : Int := 0
  cL : Int := 0
  chkP : Int := 0
  cW : Int := 0
  posInt : Int := 0
  weir : Nat := 0
  hist : List (Nat × Int) := []
  excursion : Bool := false
  reversal : Bool := false
  tClr : Option Nat := none
  persist : List Nat := []
  fabVel : Int := 0
  fabAt : Nat := 0
  fabPred : Bool := false
  skips : List (Nat × Nat) := []
  nextRel : Nat := 0
  nextFetch : Nat := 0
  trgs : SMap Trg := []
  rows : SMap RowSt := []
  inhibit : Bool := true
  deriving DecidableEq, Repr

/-! ## Items and renderings (02 Table 2.2; 05; 13 R350–R362) -/

/-- A module image: `w` × `h` dots, each row one number with bit 0 the leftmost dot (05, after rotation). -/
structure Img where
  w : Nat := 0
  h : Nat := 0
  rows : List Nat := []
  deriving DecidableEq, Repr

/-- One field of a rendering: where it is stamped, with what, and its results (05 Tables 5.3, 5.13).
`stamped` is false for a field that is not merged at all (R191); `planeRep` that FIELD_PLANE was raised for it (R192). -/
structure FieldImg where
  idx : Nat
  plane : Nat
  ink : Nat
  rule : Nat
  mw : Nat
  mh : Nat
  col : Nat
  line : Nat
  img : Img
  res : Nat
  resB : Nat
  stamped : Bool
  planeRep : Bool
  deriving DecidableEq, Repr

/-- Progress of a rendering (05 R170–R173). -/
inductive RendState where
  | waiting | running | done | late
  deriving DecidableEq, Repr

/-- A rendering of an item under one profile generation (05 R169); `again` marks one made again after a RESUME, which has no
render deadline (05 R175). [DEDUCED, safe, log 20] -/
structure Rend where
  gen : Nat
  st : RendState
  fields : List FieldImg
  again : Bool := false
  deriving DecidableEq, Repr

/-- An item in flight (02 Table 2.2, 05 R154–R177, 13 R350–R362). `outs` lists the outputs whose gate has passed, `due` those whose
gate is reached on this clock (R360); `decidedAt` is the weir
level of the decision; of an item this device distributed (`dist`), `ownAt` is the weir level of its own decision and `awaiting`
the members whose VERDICT is to come (R357); of a delivered one, `origin` is the address its VERDICT goes to and `sent` that it
has gone. -/
structure Item where
  num : Nat
  input : Nat
  posInv : Bool
  timeInv : Bool
  trigPos : Nat
  tsec : Nat
  tsub : Nat
  verdict : Verdict
  start : Nat
  stop : Nat
  lateGate : Bool
  causes : Nat
  attempted : Bool
  takesRec : Bool
  tplInput : Nat
  record : Option Nat
  dataLate : Bool
  resolved : Bool
  noTemplate : Bool
  slot : Option Nat
  tset : Nat
  tidx : Nat
  tFirst : Nat
  ctrEnd : Bool
  snaps : SMap Nat
  rends : List Rend
  outs : List Nat
  due : List Nat := []
  decidedAt : Option Nat
  dist : Bool
  origin : Nat
  ownAt : Option Nat
  awaiting : List Nat
  sent : Bool
  deriving DecidableEq, Repr

/-- An item data record held in the queue (05 Table 5.6); `id` is its place in the order of arrival, `boundAt` the clock its own push bound it
on (R154). -/
structure Rec where
  id : Nat
  byNumber : Bool
  tpl : Nat
  num : Nat
  key : Nat
  fields : List (Nat × List Byte)
  len : Nat
  bound : Option Nat
  boundAt : Option Nat := none
  deriving DecidableEq, Repr

/-- One of the 16 counters (05 R156, R158). -/
structure Ctr where
  next : Nat := 0
  loaded : Bool := false
  wrapped : Bool := false
  deriving DecidableEq, Repr

/-- Composition engine (05): template stores by BAR4 word index (Shadow, Active, retired), glyph store by word index,
record staging window, records, counters, the (item, generation) being rendered, the pending validation. [DEDUCED, unsafe, log 32] -/
structure Cmp where
  tplS : SMap Word := []
  tplA : SMap Word := []
  tplR : SMap Word := []
  glyph : SMap Word := []
  recs : List Rec := []
  nextRec : Nat := 0
  ctrs : SMap Ctr := []
  rendering : Option (Nat × Nat) := none
  validating : Bool := false
  deriving DecidableEq, Repr

/-! ## Jobs and wells (03) -/

/-- Well states (03 Table 3.4). -/
inductive WellState where
  | free | closed | loading | sealing | sealed
  deriving DecidableEq, Repr

/-- The fields of a stream header (03 Table 3.1). -/
structure DxsHdr where
  jobId : Nat := 0
  lines : Nat := 0
  bandLines : Nat := 1
  depth : Nat := 1
  formats : Nat := 0
  tset : Nat := 0
  sliceMask : Nat := 0
  bandCount : Nat := 0
  segs : Nat := 0
  tableOfs : Nat := 0
  itemLen : Nat := 0
  deriving DecidableEq, Repr

/-- A well (03 Table 3.11); `hdr` is the header its seal check accepted. -/
structure Well where
  st : WellState := .free
  place : Nat := 0
  base : Nat := 0
  size : Nat := 0
  jmax : Nat := 0
  unread : Bool := false
  sealErr : Nat := 0
  sealOfs : Nat := 0
  hdr : DxsHdr := {}
  deriving DecidableEq, Repr

/-- Slot states (03 Table 3.6). -/
inductive SlotState where
  | empty | queued | head | active | ended
  deriving DecidableEq, Repr

/-- A job slot (03 Tables 3.5, 3.6, 3.11). `deep` marks a job deeper
than the storage depth (07 R202), `eHead` the E found when the job became head (03 R97), `badSlices` the slices with more than eight segments per band (04 R122). -/
structure Slot where
  st : SlotState := .empty
  outcome : Nat := 0
  abortLate : Bool := false
  well : Nat := 0
  mode : Nat := 0
  input : Nat := 0
  gap : Nat := 0
  argS : Nat := 0
  s : Option Nat := none
  released : Nat := 0
  firstBand : Nat := 0
  hdr : DxsHdr := {}
  jmax : Nat := 0
  deep : Bool := false
  eHead : Nat := 0
  badSlices : List Nat := []
  deriving DecidableEq, Repr

/-- A scheduled swap (03 Table 3.7, 14 R396). `granted` : a fabric swap that has received its decision. -/
structure SwapReq where
  form : Nat
  arg : Nat
  n : Option Nat
  fabric : Bool
  granted : Bool
  deriving DecidableEq, Repr

/-- A resume in progress (03 R111–R115): N, and the raster lines it re-expands into the cisterns. [DEDUCED, unsafe, log 42] -/
structure Resume where
  n : Nat
  keep : Nat
  frontier : Nat
  lateRaised : Bool
  deriving DecidableEq, Repr

/-- Job subsystem (03). `order` lists the slots that are not EMPTY, head first; `hist` holds eight-word records, newest
first; `gen` is PROFILE_GEN, `contN` and `fireN` the first raster line and the
first fire step of the Active generation (01 R39); `resumeRanges` the withheld step ranges of the resumes (R112);
`sealing` the well of the seal check in progress; `intake` the BAR2 writes that wait while host intake is held, oldest first:
placement, address, bytes (01 R33); `swapped` that a swap has taken effect since reset; `rate` 0x3410.03, `workW` and `fetchF` W and F (01 R27, R30). [DEDUCED, unsafe, log 33] -/
structure Job where
  wells : SMap Well := []
  slots : SMap Slot := []
  order : List Nat := []
  hist : List (List Nat) := []
  swap : Option SwapReq := none
  gen : Nat := 0
  contN : Nat := 0
  fireN : Nat := 0
  resume : Option Resume := none
  resumeRanges : List (Nat × Nat) := []
  resumeReady : Bool := false
  sealing : Option Nat := none
  intake : List (Nat × Nat × List Byte) := []
  swapped : Bool := false
  rate : Nat := 120000
  workW : Nat := 6
  fetchF : Nat := 2
  deriving DecidableEq, Repr

/-! ## Expansion and compression (04) -/

/-- Decompression engine states (04 Table 4.3). -/
inductive EngState where
  | off | idle | prime | wait | run | halt
  deriving DecidableEq, Repr

/-- A segment header as the band walk read it (03 Table 3.3); `ofs` is the payload's offset in the well,
`bad` the code the segment ends with where the walk failed (04 R127, R137). -/
structure Seg where
  slice : Nat
  plane : Nat
  raw : Bool
  blank : Bool
  colFirst : Nat
  colCount : Nat
  payLen : Nat
  rawLen : Nat
  crc : Nat
  ofs : Nat
  bad : Option Nat
  deriving DecidableEq, Repr

/-- A walked band (04 R127). -/
structure Walk where
  slot : Nat
  band : Nat
  segs : List Seg
  deriving DecidableEq, Repr

/-- A released raster line waiting in an engine: its job slot and job line; `toStage` is false for re-expanded lines below
N − d_max (04 R131). -/
structure RelLine where
  line : Nat
  slot : Nat
  jline : Nat
  toStage : Bool
  deriving DecidableEq, Repr

/-- A slice-line in output staging: each segment with the bytes of the line. -/
structure StagedLine where
  line : Nat
  slot : Nat
  parts : List (Seg × List Byte)
  deriving DecidableEq, Repr

/-- A canonical Huffman code: how many codes of each length 1–15, and the symbols by length and then value. -/
structure Huff where
  counts : List Nat
  syms : List Nat
  deriving DecidableEq, Repr

/-- What a DEFLATE decoder does next: a block header, a symbol of the current block, a byte of a stored block, or nothing more. -/
inductive InfPhase where
  | block
  | coded (lit dist : Huff) (noDist : Bool) (final : Bool)
  | stored (left : Nat) (final : Bool)
  | done
  deriving DecidableEq, Repr

/-- Decoder state: bit position, expanded bytes newest first, their number, what comes next, the code that ended the segment. -/
structure Inf where
  pos : Nat := 0
  out : List Byte := []
  n : Nat := 0
  phase : InfPhase := .block
  err : Option Nat := none
  deriving DecidableEq, Repr

/-- The context of an open segment (04 R122): the payload bytes its engine has read, the decoder, whose output serves as history and
for the CRC of R134. -/
structure Ctx where
  pay : List Byte := []
  inf : Inf := {}
  deriving DecidableEq, Repr

/-- A decompression engine (04 Table 4.3, 4.9). `ctxAt` is the (slot, band) whose contexts `ctxs` it holds, in stream order; `haltBand` is the (slot, band) abandoned after a code
(R136), `doneAt` the clock each
slice-line not yet past its intake deadline was complete at (R132). [DEDUCED, safe, log 20] -/
structure Engine where
  st : EngState := .idle
  pend : List RelLine := []
  staged : List StagedLine := []
  ctxAt : Option (Nat × Nat) := none
  ctxs : List Ctx := []
  haltBand : Option (Nat × Nat) := none
  doneAt : SMap Nat := []
  deriving DecidableEq, Repr

/-- The reported result of a band-slice (04 R135); `again` while a resume expands its band anew, so that it is reported anew
(04 R131). [DEDUCED, unsafe, log 43] -/
structure BandRes where
  slot : Nat
  band : Nat
  slice : Nat
  proven : Bool
  again : Bool := false
  deriving DecidableEq, Repr

/-- A compressor task (04 R139–R148). `inp` holds the task's input so far, `coded` how many of its bytes
stand in verified blocks, `pay` the whole bytes of the payload those blocks make and `tail` the bits of its unfinished last byte; `hdrDue` that the
zero header waits for its channel, `beyond` the bytes beyond raw length that wait behind the task (R146). -/
structure Cmpr where
  busy : Bool := false
  started : Bool := false
  committed : Bool := false
  well : Nat := 0
  ofs : Nat := 0
  slice : Nat := 0
  plane : Nat := 0
  format : Nat := 1
  depth : Nat := 4
  colFirst : Nat := 0
  colCount : Nat := 0
  lines : Nat := 0
  effort : Nat := 1
  distLim : Nat := 7
  band : Nat := 0
  rawLen : Nat := 0
  inp : List Byte := []
  pay : List Byte := []
  tail : List Bool := []
  coded : Nat := 0
  excessRaised : Bool := false
  hdrDue : Bool := false
  beyond : Nat := 0
  deriving DecidableEq, Repr

/-- Expansion subsystem (04): engines, band walks asked for and done, the segment layout of each slot's first band (R127),
reported band-slices, compressors. -/
structure Exp where
  engines : SMap Engine := []
  walkPend : List (Nat × Nat) := []
  walks : List Walk := []
  lays : SMap (List Seg) := []
  reported : List BandRes := []
  cmprs : SMap Cmpr := []
  deriving DecidableEq, Repr

/-! ## Dose mapping (06) and line assembly (07) -/

/-- Dose mapping (06): correction halves by word index, threshold store by word index, the row buffers of the line in progress by
plane (R187; 16 bytes for each cell of the row, none where a read returned a bus error), released lines of jobs not yet started, the
line in progress with the
beats already taken of each slice and the levels computed, the slice served last, a waiting injection, the DOSE_MEMORY
sources already raised for the line, that the wait of the next line was counted (07 R211), retention end, validation in
progress. -/
structure Dos where
  corrA : SMap Word := []
  corrS : SMap Word := []
  thr : SMap Word := []
  line : Option Nat := none
  rowBuf : SMap (List (Option Nat)) := []
  queue : List RelLine := []
  taken : SMap Nat := []
  levels : SMap (List Nat) := []
  lastSlice : Nat := 31
  inject : Bool := false
  memRaised : List Nat := []
  waited : Bool := false
  retireAt : Option Nat := none
  validating : Bool := false
  deriving DecidableEq, Repr

/-- Line ledger states (07 R210). -/
inductive LineState where
  | missing | zero | dry | data
  deriving DecidableEq, Repr

/-- One cistern of the plan (07 R212, R213) and its contents: headrace records whose spill has not completed, lines whose
record stands in the middle and is not refilled, tailrace or short-ring records (`none` = the read returned a bus error), and the words
of headrace records that intake wrote poisoned (11 Table 11.2). [DEDUCED, safe, log 20] -/
structure Cis where
  inUse : Bool := false
  long : Bool := false
  width : Nat := 0
  cap : Nat := 0
  sram : Nat := 0
  ofs : Nat := 0
  head : List (Nat × List Byte) := []
  mid : List Nat := []
  tail : List (Nat × Option (List Byte)) := []
  bad : List (Nat × List Nat) := []
  deriving DecidableEq, Repr

/-- Line assembly (07): remap halves by word index (Active, Shadow, and the half retired by the last swap while lines
in flight still need it), cisterns, line ledger by L mod 131,072, plan and relocation, pending validation. `depth`, `hr`, `tr` are
D_s, HR and TR as the plan in force took them (R214); `place`, `base`, `size` the region its middles lie in: the cistern region, or the
fallback region since a relocation (R225). [DEDUCED, unsafe, log 32] -/
structure Las where
  remapA : SMap Word := []
  remapS : SMap Word := []
  remapR : SMap Word := []
  cis : SMap Cis := []
  ledger : SMap LineState := []
  planned : Bool := false
  depth : Nat := 4
  hr : Nat := 4
  tr : Nat := 4
  place : Nat := 0
  base : Nat := 0
  size : Nat := 0
  relocated : Option Nat := none
  unplaced : Bool := false
  validating : Bool := false
  deriving DecidableEq, Repr

/-! ## Head ports, frame layer (09) -/

/-- A fire step whose port line was fetched: payload until sent, then what the ECHO is compared with (09 R272, R273); `lapsed`
marks a step whose deadline passed while its line was still staged. [DEDUCED, unsafe, log 65] -/
structure StepRec where
  k : Nat
  dry : Bool
  check : Nat
  bytes : List Byte
  sent : Bool
  seq : Nat
  mask : Nat
  deadline : Option Nat
  lapsed : Bool := false
  deriving DecidableEq, Repr

/-- An outstanding head command (09 R278). -/
structure HCmd where
  op : Nat
  tag : Nat
  at_ : Nat
  auto : Bool
  deriving DecidableEq, Repr

/-- Frame layer of one head port (09). `runs` lists (code, cause, last step that carried them) (R274);
`shuts` the steps not gathered for want of a staging slot (R221); `lastTrig` the clock, step and mask of the last TRIG and
`trigFree` the clock its path is free again (R268); `lostRaised` that STEPS_LOST was raised in this period (R277); `depths` and `rowExp` from the last STATUS (R260);
`sluiceLow` that the sluice rate was below 120,000 when it was last computed (R266); `trigPhase` the PHASE of the last TRIG (R267). -/
structure Port where
  sentCnt : Nat := 0
  freed : Nat := 0
  seqLine : Nat := 0
  seqCmd : Nat := 0
  steps : List StepRec := []
  cmd : Option HCmd := none
  nextTag : Nat := 0
  elemPend : Option (List Byte) := none
  runs : List (Nat × Nat × Nat) := []
  shuts : List Nat := []
  lastTrig : Option (Nat × Nat × Nat) := none
  trigFree : Nat := 0
  lostRaised : Bool := false
  retired : Option Nat := none
  statusAt : Nat := 0
  depths : Nat := 0
  rowExp : Nat := 0
  sluiceLow : Bool := false
  trigPhase : Nat := 0
  deriving DecidableEq, Repr

/-- What leaves the device on one of its links (09, 08, 14, 15, 13 R366, 16 R442), and what a DRAM controller answers a requester
(10 R290; `ok` is false for a bus error) and the DMA writes to host memory (12 R330); of a port line, `bad` lists the 8-byte words whose body
blocks leave with H0 = H1 (11 Table 11.2); `poisoned` is a completion with EP set, which AER reports as a poisoned TLP (11 R318). The list of these, newest first, is the
model's record of what was sent; no rule reads it. [DESIGN CHOICE, safe, log 23; DESIGN CHOICE, safe, log 107] -/
inductive Sent where
  | line (port step : Nat) (dry : Bool) (seq check depth : Nat) (bytes : List Byte) (bad : List Nat)
  | trig (port step mask phase : Nat)
  | retire (port step : Nat)
  | cmd (port op tag : Nat) (args : List Byte)
  | msix (vec : Nat)
  | lane (port kind : Nat)
  | train (link flags target : Nat)
  | pattern (link bits : Nat)
  | fab (port kind : Nat) (body : List Byte)
  | net (frame : List Byte)
  | mdio (bits : List Byte)
  | host (addr : Nat) (data : List Byte)
  | hostRead (addr len : Nat)
  | poisoned (bar addr : Nat)
  | mem (ch port addr : Nat) (write ok : Bool) (data : List Byte)
  deriving DecidableEq, Repr

/-! ## Device time (15 R400–R411) -/

/-- Device time: seconds, nanoseconds, the 40-bit fraction accumulator (R401), and the seconds latched by a read of
TIM_NOW_NS (R402). VALID, KEEPER, CLAMP and SYNC stand in TIM_STATUS. -/
structure Tim where
  sec : Nat := 0
  ns : Nat := 0
  acc : Nat := 0
  latch : Nat := 0
  deriving DecidableEq, Repr

/-- The data of an announcing master (15 R412; the IEEE 1588 data set): sending clock, grandmaster, priorities, clock quality,
steps removed, UTC offset, leap flags. -/
structure Master where
  src : Nat := 0
  gm : Nat := 0
  prio1 : Nat := 128
  quality : Nat := 0
  prio2 : Nat := 128
  steps : Nat := 0
  utc : Int := 0
  leap : Nat := 0
  deriving DecidableEq, Repr

/-- PTP stack and servo (15 R412–R416): parent, data of the announcing masters, sources already reported as foreign, the Sync
that awaits its Follow_Up (sequence, ingress, correction), the own delay request (sequence, egress), the own peer delay
request and a two-step answer to it (sequence, source, t4 − t1, receive time, correction), mean path delay and offset from master in ns, the last Sync's times, consecutive
offsets within TIM_LOCK_THR, the last LOCKED TIM_ADJ, UTC offset and leap flags as announced, own sequence numbers, the
transmit stamp queue (messageType, sequenceId, time). -/
structure Ptp where
  parent : Option Nat := none
  masters : List Master := []
  foreign : List Nat := []
  sync : Option (Nat × Int × Int) := none
  delayReq : Option (Nat × Int) := none
  pdelay : Option (Nat × Int) := none
  pdResp : Option (Nat × Nat × Int × Int × Int) := none
  pathDelay : Int := 0
  t12 : Int := 0
  offset : Int := 0
  within : Nat := 0
  lockedAdj : Int := 0
  utc : Int := 0
  leap : Nat := 0
  seqSync : Nat := 0
  seqDelay : Nat := 0
  seqPdelay : Nat := 0
  seqAnn : Nat := 0
  txq : List (Nat × Nat × Nat) := []
  deriving DecidableEq, Repr

/-! ## Lanes (08, 14 R372) -/

/-- Link states (08 Table 8.5). -/
inductive LinkMode where
  | off | search | ready | rate | burst | up | ei | down | failed | loop
  deriving DecidableEq, Repr

/-- What a lane of a pair hands to the deskew (08 R235, R237): an AM with its count, or a block with its header bits, whether it is valid,
and its descrambled payload. -/
inductive RxBlock where
  | am (count : Nat)
  | block (hdr : Nat) (valid : Bool) (payload : Nat)
  deriving DecidableEq, Repr

/-- Receiver of one lane: lanes 0–31 are the head lanes, lanes 32 + 2n + m lane m of fabric port n. `good` counts consecutive
valid candidates and `ofs` is the bit offset of the search (R239); `polKnown`, `inv` polarity (R240); `prevAm`, `op` count
and OP bit of the last AM, `amGood` consecutive AMs at the expected spacing, `since` blocks since the last AM, `ams` counts and
clocks of the last eight, newest first, `member` its MEMBER bit; `scr` the descrambler, `seeded` once an AM has seeded it (R228); `hist` the
last 64 blocks, a 1 for an invalid one, `missed` AM positions in a row without an AM, `notReady` TRAIN blocks in a row with
RX_READY = 0 (R245); `queue` what waits for the other lane of a pair. [DESIGN CHOICE, unsafe, log 9] -/
structure Lane where
  los : Bool := true
  cdr : Bool := false
  block : Bool := false
  am : Bool := false
  polKnown : Bool := false
  inv : Bool := false
  good : Nat := 0
  ofs : Nat := 0
  prevAm : Option Nat := none
  op : Bool := false
  amGood : Nat := 0
  since : Nat := 0
  ams : List (Nat × Nat) := []
  member : Nat := 0
  scr : Nat := 0
  seeded : Bool := false
  hist : Nat := 0
  missed : Nat := 0
  notReady : Nat := 0
  queue : List RxBlock := []
  deriving DecidableEq, Repr

/-- A link, named by its first lane. `target` is the rate latched at TRAIN and `rate` the one in use; `partner` is the RX_READY of
the last TRAIN block, `seen` that RX_READY was seen in this bring-up and `further` counts the blocks after it, `go` that RATE_GO is sent, `goSeen` RATE_GO blocks seen (R242); `startAt` the clock of TRAIN or of
the EI exit; `loopMode`, `loopAck`, `chkBits`, `chk` the loopback and its checker (R250, R251), `gen` its pattern generator; `body` and `skip` the frame
being received (09 R257); `hadUp` that the link has been UP since reset (14 R373); `txOrg` the instant, in
1/100 ns, at which the first block of operational traffic left (R230). -/
structure Link where
  st : LinkMode := .off
  bonded : Bool := false
  target : Nat := 3
  rate : Nat := 0
  reversed : Bool := false
  partner : Bool := false
  seen : Bool := false
  further : Nat := 0
  go : Bool := false
  goSeen : Nat := 0
  startAt : Nat := 0
  loopMode : Nat := 0
  loopAck : Bool := false
  chkBits : Nat := 0
  chk : Nat := 0
  gen : Nat := 0
  body : Nat := 0
  skip : Bool := false
  hadUp : Bool := false
  txOrg : Nat := 0
  deriving DecidableEq, Repr

/-! ## Fabric (14) -/

/-- Fabric states (14 Table 14.5). -/
inductive FabState where
  | off | forming | joined | ready | noQuorum
  deriving DecidableEq, Repr

/-- One port entry of an LSA (14 Table 14.2). -/
structure LsaPort where
  nbr : Nat := 0
  nport : Nat := 0
  member : Bool := false
  delay : Nat := 0
  deriving DecidableEq, Repr

/-- The latest LSA of a source (14 R379). -/
structure Lsa where
  id : Nat := 0
  ncfg : Nat := 0
  anchor : Bool := false
  fresh : Bool := false
  addr : Nat := 0xFF
  formation : Nat := 0
  ports : List LsaPort := []
  deriving DecidableEq, Repr

/-- A fabric port beside its registers: the neighbour's FRESH flag, send times of the own last eight HELLOs, newest first, send and receive time of
the last HELLO received (ns since the epoch), whether one came in the running period (14 R377, R378). -/
structure FPort where
  nbrFresh : Bool := false
  sentAt : List Nat := []
  gotSent : Nat := 0
  gotAt : Nat := 0
  gotNow : Bool := false
  deriving DecidableEq, Repr

/-- A fabric swap at the root: ID, line, requester, addresses that accepted (14 R396). -/
structure FabSwap where
  id : Nat
  n : Nat
  src : Nat
  votes : List Nat
  deriving DecidableEq, Repr

/-- Fabric (14). `seqIn` last flood sequence accepted from each source; `comp` the component at the last change; `formTmo`
that FAB_FORM_TMO has passed; `heard`, `lockCnt`, `stepDue` of R384 and R390; `reports` the last REPORT of each address
(formation, digest, flags); `lastReport` the own one; `swap` the root's, `prep` the tentative one (ID, line), `decided` the
decision of each swap (ID, code), `req` the line of the own request and `reqId` its swap once prepared;
`idleAt` the clock IDLE was entered (FAB_FORM_TIME); `refused` that the root refuses a formation until the database changes
(R382), `owed` that it did when the database changed; `readySent` that READY was flooded for the last ASSIGN. -/
structure Fab where
  st : FabState := .off
  fports : SMap FPort := []
  db : List Lsa := []
  seqOut : Nat := 0
  seqIn : List (Nat × Nat) := []
  roster : SMap Nat := []
  fresh : Bool := true
  everReady : Bool := false
  comp : List Nat := []
  formTmo : Bool := false
  maxForm : Nat := 0
  heard : Bool := false
  lockCnt : Nat := 0
  stepDue : Bool := false
  reports : SMap (Nat × Nat × Nat) := []
  lastReport : Option (Nat × Nat × Nat) := none
  nextSwap : Nat := 0
  swap : Option FabSwap := none
  prep : Option (Nat × Nat) := none
  decided : List (Nat × Nat) := []
  req : Option Nat := none
  reqId : Option Nat := none
  idleAt : Nat := 0
  refused : Bool := false
  owed : Bool := false
  readySent : Bool := false
  deriving DecidableEq, Repr

/-! ## DRAM controllers (10) -/

/-- A burst in a controller (10 R290): its number, requester port, first byte as channel address, bytes of the burst it
covers, the data of a write, the clock its request entered, that it is late (R291) and that a queue has admitted it. -/
structure Burst where
  id : Nat
  port : Nat
  addr : Nat
  len : Nat
  write : Bool
  data : List Byte
  start : Nat
  late : Bool
  queued : Bool
  deriving DecidableEq, Repr

/-- One DRAM channel beside its registers (10): waiting bursts in order of age, open row of each bank, refresh debt of each
(subchannel, rank, bank index), write batch in progress per subchannel (bursts issued, R293), the LFSR of each subchannel and
the banks that owe an RFMsb (R299), the command that runs (level of a training and the state it started from; target of a
frequency change), the timing and delay words loaded last by offset in the point table. -/
structure Drc where
  bursts : List Burst := []
  nextId : Nat := 0
  rows : SMap Nat := []
  debt : SMap Nat := []
  batch : SMap Nat := []
  lfsr : SMap Nat := []
  rfmDue : List Nat := []
  train : Option (Nat × Nat) := none
  freq : Option Nat := none
  work : SMap Word := []
  deriving DecidableEq, Repr

/-! ## Stored data integrity (11) -/

/-- One entry of the error address log (11 R316, Table 11.5). -/
structure EccEntry where
  mem : Nat
  word : Nat
  kind : Nat
  req : Nat
  syn : Nat
  rep : Nat
  deriving DecidableEq, Repr

/-- A scrub or fill in progress (11 R325–R327). -/
structure EccRun where
  fill : Bool
  mem : Nat
  start : Nat
  count : Nat
  abort : Bool
  since : Nat := 0
  deriving DecidableEq, Repr

/-- Code words of the SRAM (11): `diffs` holds, by memory × 2^32 + word, the difference of the stored check bits from the
correct ones; `raw` the data test mode stored in memories whose layout the spec does not give; the error address log,
newest first; the run in progress. [DEDUCED, safe, log 20] -/
structure Ecc where
  diffs : SMap Nat := []
  raw : SMap Nat := []
  log : List EccEntry := []
  run : Option EccRun := none
  deriving DecidableEq, Repr

/-! ## DMA engine and CRC units (12) -/

/-- A DMA channel beside its registers (12): the eight words of the descriptor in hand, bursts read from the source but not yet
written, oldest first (source address, bytes), stream bytes written so far and bytes not written because they are a stripped check value, the
record push so far, bytes of a TABLE word that is not whole yet (R330), the clock of a STOP that waits for the drain, that the request was
withdrawn with a burst started (R336), the clock its drain started, the address of a failed read, the domains whose power-down it is paused
for (R341). -/
structure DmaCh where
  desc : List Word := []
  reads : List (Nat × Nat) := []
  asked : Nat := 0
  seen : Nat := 0
  strip : List Byte := []
  push : List Byte := []
  part : List Byte := []
  stopAt : Option Nat := none
  withdrawn : Bool := false
  drainAt : Option Nat := none
  readErr : Option Nat := none
  pauseFor : List Nat := []
  deriving DecidableEq, Repr

/-- DMA engine (12): channels, the channel served last. -/
structure Dma where
  chs : SMap DmaCh := []
  last : Nat := 63
  deriving DecidableEq, Repr

/-! ## Power, reset, start-up (17) -/

/-- What the power controller holds beside its registers: PERST_N low, PORST_N low, SYSCLK_IN absent, that the management processors are stopped by an uncorrectable word (11 R319), domain switch-offs in
progress (domain, clock of the request), domains being powered, clock of the last watchdog kick. [DESIGN CHOICE, unsafe, log 9] -/
structure Pwr where
  perst : Bool := false
  porst : Bool := true
  noClock : Bool := false
  mgmtStop : Bool := false
  offs : List (Nat × Nat) := []
  ons : List Nat := []
  kickAt : Option Nat := none
  deriving DecidableEq, Repr

/-! ## Management network and object protocol (15 R418–R422, 16 R429–R449) -/

/-- An IOP session (16 R429–R435): ID, source address and port, Expert, last sequence, sequence of its SESSION_OPEN and whether no
other request has come since, nonce, stored response, tables with a segmented write open (subindices of 0x1121), clock of the last valid
request. -/
structure Session where
  id : Nat := 0xFFFF
  ip : Nat := 0
  port : Nat := 0
  expert : Bool := false
  seq : Nat := 0
  openSeq : Nat := 0
  untouched : Bool := false
  nonce : List Byte := []
  resp : List Byte := []
  segs : List Nat := []
  at_ : Nat := 0
  deriving DecidableEq, Repr

/-- Management firmware: values of the objects it holds that differ from their default (index × 256 + subindex), the Expert
credential, failed elevations and the clock of the last one, sessions, the mailbox session, ARP cache (address, MAC), oldest
first, the store command that runs (1 SAVE) with its content, the length of a mailbox message that
waits (R442), the receive queue of the MAC: frames with the time stamp of each, oldest first (15 R413, R419), and datagrams that wait for the
MAC address of their next hop (15 R420). -/
structure Mgmt where
  objs : SMap Nat := []
  cred : Option (List Byte) := none
  failed : Nat := 0
  failAt : Option Nat := none
  sessions : List Session := []
  mbx : Session := { expert := true }
  arp : List (Nat × Nat) := []
  saving : Option (List Byte) := none
  bell : Option Nat := none
  rxq : List (Nat × List Byte) := []
  arpWait : List (Nat × List Byte) := []
  deriving DecidableEq, Repr

/-! ## Calibration and self-test (18) -/

/-- A test that runs (18 R482–R486): test code, target, first word and words of its range, ABORT received. -/
structure BistRun where
  test : Nat
  target : Nat
  start : Nat
  count : Nat
  abort : Bool
  deriving DecidableEq, Repr

/-- Calibration block: mask of the ADC calibration that runs, the test that runs, converters whose CAL_DUE is raised (R481), that
DIE_TEMP_HIGH is raised (20 R503), ENC_CFG words written during the calibration of a converter that is not in use: they read back at once and take
effect at its end (R478). [DEDUCED, unsafe, log 89] -/
structure Cal where
  run : Option Nat := none
  bist : Option BistRun := none
  due : List Nat := []
  hot : Bool := false
  shown : SMap Word := []
  deriving DecidableEq, Repr

/-! ## What survives a reset (17 Table 17.4; 19) -/

/-- Keeper domain (15 R409–R411, 17 R460, R461): seconds, 32.768 kHz ticks and the part of a tick passed (in 1/10^9 of a tick),
power-fail flag, supply, that the keeper supply is below 1.8 V, that the keeper was cleared since the last boot, PWR_RST_CAUSE, PWR_RST_RAIL, rails of a supply fault that is logged at the next boot,
retention by word index. [DESIGN CHOICE, unsafe, log 6] -/
structure Keep where
  sec : Nat := 0
  sub : Nat := 0
  frac : Nat := 0
  pwrFail : Bool := true
  onVkeep : Bool := false
  low : Bool := false
  lost : Bool := false
  cause : Nat := 0
  rail : Nat := 0
  supply : Nat := 0
  ret : SMap Word := []
  deriving DecidableEq, Repr

/-- The activation journal (19 R495, R496): the PENDING record (bundle length, bundle version, SHA-256 of the manifest), how many
SECTOR records follow it, VERIFIED, DONE. -/
structure Journal where
  pending : Option (Nat × Nat × List Byte) := none
  sectors : Nat := 0
  verified : Bool := false
  done : Bool := false
  deriving DecidableEq, Repr

/-- The boot flash (19 Table 19.1): the activated bundle in the active region (`none` = the bundle the part ships with), the bytes
programmed into the staging region, the journal, the two store slots (an invalid slot is empty). [DESIGN CHOICE, unsafe, log 7] -/
structure Flash where
  active : Option (List Byte) := none
  staging : List Byte := []
  journal : Journal := {}
  slotA : List Byte := []
  slotB : List Byte := []
  deriving DecidableEq, Repr

/-- Memories that keep their content through a reset of the device; `fuses` is C (19 R490). [DESIGN CHOICE, unsafe, log 7] -/
structure NonVol where
  keep : Keep := {}
  flash : Flash := {}
  fuses : Nat := 0
  deriving DecidableEq, Repr

/-! ## Test access port (20 R511–R514) -/

/-- Instructions of the TAP (20 Table 20.13). -/
inductive TapIr where
  | extest | idcode | sample | clamp | highz | bypass
  deriving DecidableEq, Repr

/-- Who holds the pins (20 R513): the functions of the device, the boundary cells (EXTEST, CLAMP), nobody (HIGHZ). -/
inductive PinHold where
  | functional | boundary | floating
  deriving DecidableEq, Repr

/-- The TAP: instruction in force, the data register it selects as captured, the boundary cells as loaded, who holds the pins, TRST_N
low. [DESIGN CHOICE, unsafe, log 9] -/
structure Tap where
  ir : TapIr := .idcode
  dr : List Bool := []
  cells : List Bool := []
  hold : PinHold := .functional
  held : Bool := true
  deriving DecidableEq, Repr


/-! ## The device -/

/-- Everything on the die but DRAM contents, non-volatile memories and the test access port. `regs` holds the BAR0 words
that differ from their reset value (Shadow values of profile settings), `active` and `retired` the profile settings of
the Active profile and of the generation before it; `held` and `latch` are the half-transferred words of 00_scope R5;
`resp` is what the last read returned; `free` counts the free values taken (a field of the model, not of the spec);
`sent` is the model's record of the traffic that left the device. [DESIGN CHOICE, safe, log 10; DESIGN CHOICE, safe, log 23; DEDUCED, unsafe, log 32] -/
structure Dev where
  now : Nat := 0
  dstate : DevState := .boot
  level : Level := .full
  regs : SMap Word := []
  active : SMap Word := []
  retired : SMap Word := []
  older : List (Nat × Nat × SMap Word) := []
  held : SMap Word := []
  latch : SMap Word := []
  resp : List Word := []
  free : Nat := 0
  evt : Evt := {}
  tim : Tim := {}
  pos : Pos := {}
  items : List Item := []
  cmp : Cmp := {}
  job : Job := {}
  exp : Exp := {}
  dos : Dos := {}
  las : Las := {}
  ports : SMap Port := []
  lanes : SMap Lane := []
  links : SMap Link := []
  fab : Fab := {}
  ptp : Ptp := {}
  dram : SMap Drc := []
  ecc : Ecc := {}
  dma : Dma := {}
  pwr : Pwr := {}
  mgmt : Mgmt := {}
  cal : Cal := {}
  sent : List Sent := []
  deriving DecidableEq, Repr

/-- Contents of the two DRAM channels (10): the data bytes that differ from 0, in rising channel address order, and for
each 64-bit word that does not stand in a clean code word the difference of its stored check bits (bits 7:0) and address
tag (bits 15:8) from the correct ones (11 R312, R313). -/
structure Mem where
  ch0 : List Host.Cell := []
  ch1 : List Host.Cell := []
  x0 : SMap Nat := []
  x1 : SMap Nat := []
  deriving DecidableEq, Repr

/-- The state of the model: the device, the two DRAM channels, the non-volatile memories, the test access port, and the commands that wait, first in first out. [DESIGN CHOICE, safe, log 2] -/
structure State where
  dev : Dev
  mem : Mem
  nv : NonVol
  tap : Tap
  pending : List Instr
  deriving DecidableEq, Repr

/-- Faults. [DEDUCED, safe, log 14] -/
inductive Fault where
  /-- Raised by a command that names an instance (encoder, port, row, engine, class, channel) the hardware does not
  have: no such place exists for the event to come from. Safe: the model stops where the hardware cannot be. -/
  | noSuchInstance
  deriving DecidableEq, Repr

/-- Refusals. -/
inductive Refusal where
  /-- Raised by an arm of `exec` for a command that has no meaning yet. Safe. -/
  | notModelled (mnemonic : String)
  deriving DecidableEq, Repr

/-- The machine right after reset: reset values of the register tables, empty queues, empty DRAM. [DESIGN CHOICE, safe, log 4; DESIGN CHOICE, unsafe, log 5; DESIGN CHOICE, unsafe, log 6] -/
def State.reset : State := { dev := {}, mem := {}, nv := {}, tap := {}, pending := [] }

end Sys2Proof.Machine
end

