-- ==== Sys2Proof/Machine/Ops.lean ====
section
/-! DEFINITION. The shared operations: bit fields, registers, counters, events, free values, the lifting of an effect on
the device to the whole state. -/

namespace Sys2Proof.Machine

/-! ## Bit fields and signed values -/

/-- `w` bits of `x` from bit `lo` up. -/
def bitsOf (x lo w : Nat) : Nat := (x >>> lo) % 2 ^ w

/-- `x` with the `w` bits from bit `lo` up replaced by the low bits of `v`. -/
def putBits (x lo w v : Nat) : Nat := x - bitsOf x lo w * 2 ^ lo + (v % 2 ^ w) * 2 ^ lo

/-- Bit `i` of `x`. -/
def hasBit (x i : Nat) : Bool := x.testBit i

/-- `x` with bit `i` set. -/
def orBit (x i : Nat) : Nat := x ||| 2 ^ i

/-- The two's complement value of the low `w` bits of `x`. -/
def toSigned (w x : Nat) : Int :=
  if x % 2 ^ w < 2 ^ (w - 1) then ((x % 2 ^ w : Nat) : Int) else ((x % 2 ^ w : Nat) : Int) - (2 ^ w : Nat)

/-- The low `w` bits of a signed value in two's complement. -/
def ofSigned (w : Nat) (i : Int) : Nat := (i % ((2 ^ w : Nat) : Int)).toNat

/-- Division rounding up. -/
def ceilDiv (a b : Nat) : Nat := (a + b - 1) / b

/-- A 48.16 position rounded up to whole lines. -/
def ceilLine (p : Nat) : Nat := ceilDiv p 65536

/-- A 48.16 position rounded down to whole lines. -/
def floorLine (p : Nat) : Nat := p / 65536

/-- The bytes of `x`, least significant first. -/
def bytesOf : Nat → Nat → List Byte
  | 0, _ => []
  | n + 1, x => BitVec.ofNat 8 x :: bytesOf n (x / 256)

/-- Little-endian value of bytes (00_scope R3). -/
def leOf : List Byte → Nat
  | [] => 0
  | b :: r => b.toNat + 256 * leOf r

/-- Big-endian value of bytes, for fields a published standard fixes so (00_scope R3). -/
def beOf (l : List Byte) : Nat := l.foldl (fun a b => 256 * a + b.toNat) 0

/-- `n` bytes from offset `o`. -/
def sliceOf (l : List Byte) (o n : Nat) : List Byte := (l.drop o).take n

/-- Little-endian field of `n` bytes at offset `o`. -/
def leAt (l : List Byte) (o n : Nat) : Nat := leOf (sliceOf l o n)

/-! ## Registers -/

/-- The value of the BAR0 word at byte address `a`: what was stored, or its reset value. -/
def Dev.reg (d : Dev) (a : Nat) : Word := (d.regs.find? a).getD (resetWord a)

/-- Stores a BAR0 word. -/
def Dev.setReg (d : Dev) (a : Nat) (v : Word) : Dev := { d with regs := d.regs.put a v }

/-- A register field. -/
def Dev.get (d : Dev) (f : Fld) : Nat := bitsOf (d.reg f.addr).toNat f.lo f.w

/-- Stores a register field; the word's other bits stay. -/
def Dev.set (d : Dev) (f : Fld) (v : Nat) : Dev :=
  d.setReg f.addr (BitVec.ofNat 32 (putBits (d.reg f.addr).toNat f.lo f.w v))

/-- A one-bit field is 1. -/
def Dev.is (d : Dev) (f : Fld) : Bool := d.get f == 1

/-- Stores a one-bit field. -/
def Dev.setB (d : Dev) (f : Fld) (b : Bool) : Dev := d.set f (if b then 1 else 0)

/-- A signed field. -/
def Dev.getS (d : Dev) (f : Fld) : Int := toSigned f.w (d.get f)

/-- The upper word's field of a 64-bit register named by its lower word (00_scope R5). -/
def Fld.hi (f : Fld) : Fld := { f with addr := f.addr + 4 }

/-- A 64-bit register value. -/
def Dev.get64 (d : Dev) (f : Fld) : Nat := d.get f + 2 ^ 32 * d.get f.hi

/-- Stores a 64-bit register value. -/
def Dev.set64 (d : Dev) (f : Fld) (v : Nat) : Dev := (d.set f v).set f.hi (v / 2 ^ 32)

/-- A word of a profile: what was stored, or its reset value. -/
def profWord (m : SMap Word) (a : Nat) : Word := (m.find? a).getD (resetWord a)

/-- A field of a profile. -/
def profGet (m : SMap Word) (f : Fld) : Nat := bitsOf (profWord m f.addr).toNat f.lo f.w

/-- A 64-bit value of a profile. -/
def profGet64 (m : SMap Word) (f : Fld) : Nat := profGet m f + 2 ^ 32 * profGet m f.hi

/-- A field of the Active profile (01 R37), named by its Shadow register. -/
def Dev.aget (d : Dev) (f : Fld) : Nat := profGet d.active f

/-- A 64-bit value of the Active profile. -/
def Dev.aget64 (d : Dev) (f : Fld) : Nat := profGet64 d.active f

/-- The profile settings that stand in the Shadow profile. -/
def Dev.shadow (d : Dev) : SMap Word := d.regs.filter (fun p => isProfileAddr p.1)

/-- Adds to a counter field. A counter that passes its largest value holds a value the spec does not state. [DESIGN CHOICE, safe, log 11] -/
def Dev.bump (d : Dev) (f : Fld) (n : Nat) : Dev :=
  let v := d.get f + n
  d.set f (if v < 2 ^ f.w then v else Config.counterOver f.addr v)

/-- Adds to a counter field that wraps. -/
def Dev.wrap (d : Dev) (f : Fld) (n : Nat) : Dev := d.set f ((d.get f + n) % 2 ^ f.w)

/-- Keeps the smallest value seen in a field. -/
def Dev.keepMin (d : Dev) (f : Fld) (v : Nat) : Dev := if v < d.get f then d.set f v else d

/-- Keeps the largest value seen in a field. -/
def Dev.keepMax (d : Dev) (f : Fld) (v : Nat) : Dev := if d.get f < v then d.set f v else d

/-! ## Free values -/

/-- A free value below `2 ^ w`, and the device with the counter of free values advanced. [DESIGN CHOICE, safe, log 10] -/
def Dev.fresh (d : Dev) (tag w : Nat) : Nat × Dev := (Config.freeValue tag d.free % 2 ^ w, { d with free := d.free + 1 })

/-! ## Events (13 R364, R365; 00_scope R518) -/

/-- Print position does not wrap (00_scope R9): the largest value of its 48.16 form stands for everything beyond it. [DEDUCED, unsafe, log 111] -/
def satPos (p : Nat) : Nat := min p (2 ^ 64 - 1)

/-- The reported position: max(0, pos_int) (02 R53). -/
def Dev.repPos (d : Dev) : Nat := satPos d.pos.posInt.toNat

/-- The entry an event gives when raised now; `at_` replaces the reported position where the event names a step or line. [DEDUCED, unsafe, log 22] -/
def Dev.event (d : Dev) (code detail : Nat) (item at_ : Option Nat) : EvEntry :=
  { code := code, item := item, posValid := d.is R.POS_STATUS_VALID, timeValid := d.is R.TIM_STATUS_VALID,
    dstate := d.dstate, level := d.level, tsec := d.tim.sec % 2 ^ 32, tsub := d.tim.ns,
    pos := (at_.map (fun k => satPos (k * 65536))).getD d.repPos, detail := detail % 2 ^ 64, clk := d.now }

/-- Block and code of an event, the order of events raised on one clock (R365). -/
def EvEntry.rank (e : EvEntry) : Nat := e.code % 0x1000

/-- Puts an event behind those raised on earlier clocks and in rank order among those of its own clock. [DEDUCED, unsafe, log 21] -/
def insertEvent (e : EvEntry) : List EvEntry → List EvEntry
  | [] => [e]
  | x :: r => if x.clk == e.clk && decide (e.rank < x.rank) then e :: x :: r else x :: insertEvent e r

/-- Events that may wait: one being written and 64 in the queue (R365). -/
def evCapacity : Nat := 65

/-- Raises an event: it waits for the log, or is counted in EVT_LOST when every place is taken (R365). [DEDUCED, unsafe, log 21] -/
def Dev.post (d : Dev) (e : EvEntry) : Dev :=
  if d.evt.queue.length < evCapacity then { d with evt := { d.evt with queue := insertEvent e d.evt.queue } }
  else d.bump R.EVT_LOST 1

/-- Raises an event with its detail. [DEDUCED, unsafe, log 22] -/
def Dev.raise (d : Dev) (code detail : Nat) : Dev := d.post (d.event code detail none none)

/-- Raises an event that carries an item number. -/
def Dev.raiseItem (d : Dev) (code detail item : Nat) : Dev := d.post (d.event code detail (some item) none)

/-- Raises an event whose position field carries a step or line. [DEDUCED, unsafe, log 22] -/
def Dev.raiseAt (d : Dev) (code detail line : Nat) : Dev := d.post (d.event code detail none (some line))

/-- Adds occurrences of a rate-limited event of one instance to the running interval (R518). -/
def occAdd (k : Nat × Nat) (n : Nat) : List ((Nat × Nat) × Nat) → List ((Nat × Nat) × Nat)
  | [] => [(k, n)]
  | (j, m) :: r => if j == k then (j, m + n) :: r else (j, m) :: occAdd k n r

/-- Counts occurrences of a rate-limited event (R518). -/
def Dev.occur (d : Dev) (code inst n : Nat) : Dev :=
  { d with evt := { d.evt with occ := occAdd (code, inst) n d.evt.occ } }

/-- Records traffic that left the device. [DESIGN CHOICE, safe, log 107] -/
def Dev.emit (d : Dev) (x : Sent) : Dev := { d with sent := x :: d.sent }

/-! ## The error address log (11 R315, R316, R322) -/

/-- Replaces the first entry of a memory and word. -/
def logAgain (m w : Nat) : List EccEntry → List EccEntry
  | [] => []
  | e :: r => if e.mem = m ∧ e.word = w then { e with rep := min (e.rep + 1) (2 ^ 32 - 1) } :: r else e :: logAgain m w r

/-- Writes an entry; the oldest of 16 is overwritten. [DESIGN CHOICE, safe, log 80] -/
def Dev.eccEnter (d : Dev) (e : EccEntry) : Dev := { d with ecc := { d.ecc with log := (e :: d.ecc.log).take 16 } }

/-- A correctable word was read (11 R315). -/
def Dev.eccCorrected (d : Dev) (m w : Nat) : Dev :=
  ((d.bump (R.ECC_CE_CNT m) 1).set64 (R.ECC_LAST_CE_LO m) w).occur Ev.ECC_CORRECTED m 1

/-- An uncorrectable word was read (11 R316). -/
def Dev.eccUncorrectable (d : Dev) (m w kind req syn : Nat) : Dev :=
  let d1 := d.bump (R.ECC_UE_CNT m) 1
  if d1.ecc.log.any (fun e => e.mem == m && e.word == w) then
    { d1 with ecc := { d1.ecc with log := logAgain m w d1.ecc.log } }
  else
    (d1.eccEnter { mem := m, word := w, kind := kind, req := req, syn := syn % 256, rep := 0 }).raise
      Ev.ECC_UNCORRECTABLE (m + 32 * kind + 256 * req + 65536 * w)

/-- A partial write met an uncorrectable word and was not performed (11 R322). -/
def Dev.eccRefused (d : Dev) (m w req syn : Nat) : Dev :=
  ((d.bump (R.ECC_WR_REF_CNT m) 1).eccEnter
    { mem := m, word := w, kind := 3, req := req, syn := syn % 256, rep := 0 }).raise
      Ev.ECC_WRITE_REFUSED (m + 256 * req + 65536 * w)

/-- Words of an SRAM memory. -/
def eccSramWords : Nat → Nat
  | 0 => 1048576 | 1 => 262144 | 2 => 524288 | 3 => 262144 | 4 => 262144 | 5 => 131072 | 6 => 262144 | 7 => 524288
  | 8 => 262144 | 9 => 262144 | 10 => 262144
  | _ => 0

/-- Key of an SRAM word. -/
def eccKey (m w : Nat) : Nat := m * 2 ^ 32 + w

/-- Two stored check bits of a free word with even weight are wrong: the syndromes an uncorrectable word may show are free, this one where
the free value shows none. [DESIGN CHOICE, safe, log 80] -/
def badSyndrome (syn : Nat) : Nat :=
  let n := (List.range 7).foldl (fun n i => n + (syn >>> i) % 2) 0
  if n % 2 = 0 ∧ 0 < n then syn % 128 else 3

/-- Word `w` of an SRAM memory has become uncorrectable and is read: it stays so until it is written (11 R316). -/
def Dev.wordFault (d : Dev) (m w req : Nat) : Dev :=
  let (s, d1) := d.fresh 0x317 8
  { d1 with ecc := { d1.ecc with diffs := d1.ecc.diffs.put (eccKey m w) (badSyndrome s) } }.eccUncorrectable m w 1 req (badSyndrome s)

/-- The first word of the line ledger, at the end of memory 0: 131,072 two-bit entries (07 R210). [DESIGN CHOICE, unsafe, log 115] -/
def ledgerWord0 : Nat := 1044480

/-- Management processors stop at an uncorrectable word (11 R319). -/
def Dev.mgmtHalt (d : Dev) (word : Nat) : Dev :=
  { d with pwr := { d.pwr with mgmtStop := true } }.raise Ev.MGMT_MEMORY (65536 * word)

/-- An engine met an uncorrectable word in an SRAM memory (11 R316, Table 11.2): the command that says so names no word, its
index and syndrome are free values; in memory 0 it is a record word. [DESIGN CHOICE, safe, log 80] -/
def Dev.sramFault (d : Dev) (m req : Nat) : Dev :=
  let (w, d1) := d.fresh 0x316 20
  d1.wordFault m (w % (if m = 0 then ledgerWord0 else eccSramWords m)) req

/-! ## Lifting to the whole state -/

/-- The outcome type of this machine. -/
abbrev Out := Host.Outcome State Fault Refusal

/-- The main supplies of 17 Table 17.1 are in range; VDDQ0 and VDDQ1 carry one DRAM channel each and are not among them. -/
def Dev.mainRails (d : Dev) : Bool := [0, 1, 2, 5, 6].all (hasBit (d.get R.PWR_SUPPLY_STATUS))

/-- The device is powered and out of reset: not in KEEP, PORST_N high, SYSCLK_IN running, supplies in range (17 Tables 17.4 and
17.7, R465). -/
def Dev.awake (d : Dev) : Bool := d.dstate != .keep && !d.pwr.porst && !d.pwr.noClock && d.mainRails

/-- A device that is held in reset or without power takes part in nothing. [DESIGN CHOICE, safe, log 4; DESIGN CHOICE, safe, log 15] -/
def Dev.ifAwake (d : Dev) (f : Dev → Dev) : Dev := if d.awake then f d else d

/-- An access of the host to a block that does not answer: no effect, counted (16 R450). [DESIGN CHOICE, safe, log 15] -/
def Dev.barMiss (d : Dev) : Dev := d.bump R.DEV_BAR_DISC_CNT 1

/-- A host command to a block other than DEV and PWR: until IDLE the access has no effect (17 R468, 16 R450). [DESIGN CHOICE, safe, log 15] -/
def Dev.hosted (d : Dev) (f : Dev → Dev) : Dev := if d.dstate = .boot then d.barMiss else f d

/-- An effect on the device alone. -/
def onDev (f : Dev → Dev) (s : State) : Out := .next { s with dev := s.dev.ifAwake f }

/-- An effect on the device alone of an event of an instance that must exist. [DEDUCED, safe, log 14] -/
def onDevIf (ok : Bool) (f : Dev → Dev) (s : State) : Out :=
  if ok then .next { s with dev := s.dev.ifAwake f } else .fault .noSuchInstance

/-- A pin event: pins are followed also while the device is held in reset. [DEDUCED, safe, log 14] -/
def onPin (ok : Bool) (f : Dev → Dev) (s : State) : Out :=
  if ok then .next { s with dev := f s.dev } else .fault .noSuchInstance

/-- A host command, on the whole state, to a block other than DEV and PWR. -/
def hostState (f : State → State) (s : State) : State :=
  if !s.dev.awake then s else if s.dev.dstate = .boot then { s with dev := s.dev.barMiss } else f s

/-- A host command to a block other than DEV and PWR. [DESIGN CHOICE, safe, log 15] -/
def onHost (f : Dev → Dev) (s : State) : Out := onDev (fun d => d.hosted f) s

/-- The same for a command that names an instance. [DESIGN CHOICE, safe, log 15] -/
def onHostIf (ok : Bool) (f : Dev → Dev) (s : State) : Out := onDevIf ok (fun d => d.hosted f) s

/-- `f` applied while `c` holds. -/
def when {α : Type} (c : Bool) (f : α → α) (x : α) : α := if c then f x else x

/-- `f` once for each element, first element first. -/
def forEach {α β : Type} (l : List β) (f : α → β → α) (x : α) : α := l.foldl f x

/-! ## Byte views of the event log -/

/-- Device state codes of Table 13.5 and of DEV_STATE. -/
def DevState.code : DevState → Nat
  | .keep => 0
  | .boot => 1
  | .idle => 2
  | .armed => 3
  | .run => 4

/-- Level codes of Tables 13.5 and 13.9. -/
def Level.code : Level → Nat
  | .full => 0
  | .reduced => 1
  | .basic => 2

/-- The event log entry of Table 13.5, 32 bytes. -/
def EvEntry.bytes (e : EvEntry) : List Byte :=
  bytesOf 2 e.code ++
    bytesOf 1 ((if e.item.isSome then 1 else 0) + (if e.posValid then 2 else 0) + (if e.timeValid then 4 else 0)) ++
    bytesOf 1 (e.dstate.code + 16 * e.level.code) ++ bytesOf 4 (e.item.getD 0) ++ bytesOf 4 e.tsub ++ bytesOf 4 e.tsec ++
    bytesOf 8 e.pos ++ bytesOf 8 e.detail

end Sys2Proof.Machine
end

