-- ==== Sys2Proof/Machine/Memory.lean ====
section
/-! DEFINITION. The two DRAM channels: canonical byte lists, address mapping (10 R285), code words (11 R312–R322). -/

namespace Sys2Proof.Machine

/-! ## One channel's bytes -/

/-- What an unlisted channel address reads as. [DESIGN CHOICE, unsafe, log 8] -/
def unlisted : Byte := 0

/-- The byte at a channel address. -/
def cellGet : List Host.Cell → Nat → Byte
  | [], _ => unlisted
  | (a, b) :: r, k => if k < a then unlisted else if k = a then b else cellGet r k

/-- Stores a byte; writing what an unlisted address reads as takes the entry out. -/
def cellPut : List Host.Cell → Nat → Byte → List Host.Cell
  | [], k, b => if b = unlisted then [] else [(k, b)]
  | (a, c) :: r, k, b =>
    if k < a then (if b = unlisted then (a, c) :: r else (k, b) :: (a, c) :: r)
    else if k = a then (if b = unlisted then r else (k, b) :: r)
    else (a, c) :: cellPut r k b

/-- The canonical form of one channel: addresses strictly rising from `lo`, no entry equal to an unlisted byte. -/
def cellsFrom (lo : Nat) : List Host.Cell → Bool
  | [] => true
  | (a, b) :: r => decide (lo ≤ a) && b != unlisted && cellsFrom (a + 1) r

/-- The canonical form of code-word differences: words strictly rising from `lo`, none without a difference. -/
def diffsFrom (lo : Nat) : SMap Nat → Bool
  | [] => true
  | (a, x) :: r => decide (lo ≤ a) && x != 0 && diffsFrom (a + 1) r

/-- The canonical form of both channels. -/
def Mem.wf (m : Mem) : Bool := cellsFrom 0 m.ch0 && cellsFrom 0 m.ch1 && diffsFrom 0 m.x0 && diffsFrom 0 m.x1

/-! ## Channels and the address map -/

/-- The byte list of a channel. -/
def Mem.cells (m : Mem) (ch : Nat) : List Host.Cell := if ch = 0 then m.ch0 else m.ch1

/-- The code-word differences of a channel. -/
def Mem.diffs (m : Mem) (ch : Nat) : SMap Nat := if ch = 0 then m.x0 else m.x1

/-- The byte at a channel address. [DESIGN CHOICE, unsafe, log 8] -/
def Mem.byteAt (m : Mem) (ch a : Nat) : Byte := cellGet (m.cells ch) a

/-- Stores a byte at a channel address. -/
def Mem.putByte (m : Mem) (ch a : Nat) (b : Byte) : Mem :=
  if ch = 0 then { m with ch0 := cellPut m.ch0 a b } else { m with ch1 := cellPut m.ch1 a b }

/-- Stores the code-word difference of a 64-bit word (0 = clean). -/
def Mem.putDiff (m : Mem) (ch w x : Nat) : Mem :=
  if ch = 0 then { m with x0 := if x = 0 then m.x0.drop w else m.x0.put w x }
  else { m with x1 := if x = 0 then m.x1.drop w else m.x1.put w x }

/-- Channel and channel address of address `x` in a region of placement `place` (03 R89, 10 R285). -/
def mapAddr (place x : Nat) : Nat × Nat :=
  if place = 1 then (0, x)
  else if place = 2 then (1, x)
  else (((x >>> 8) ^^^ (x >>> 17) ^^^ (x >>> 26)) % 2, ((x >>> 9) <<< 8) ||| (x % 256))

/-! ## Code words -/

/-- Number of 1 bits of an 8-bit value. -/
def weight8 (x : Nat) : Nat := (List.range 8).foldl (fun n i => n + (x >>> i) % 2) 0

/-- Check bits of a code with `w` data bits (11 Table 11.1). -/
def codeChecks (w : Nat) : Nat := if w = 32 then 7 else 8

/-- Columns of odd weight with at least three bits set, ascending: with the unit columns of the check bits they make a code that
corrects every single and detects every double error. -/
def oddColumns (w : Nat) : List Nat :=
  (List.range (2 ^ codeChecks w)).filter (fun x => weight8 x % 2 == 1 && decide (3 ≤ weight8 x))

/-- Config's columns make a SEC-DED code: each of them among the odd columns, no two equal (R312). [DESIGN CHOICE, safe, log 79] -/
def eccColsOk (w : Nat) : Bool :=
  let l := (List.range w).map (Config.eccCol w)
  l.all (fun x => (oddColumns w).contains x) && decide l.Nodup

/-- Check-bit column of data bit `j`: whatever code the device has, it is a SEC-DED code (R312). [DESIGN CHOICE, safe, log 79] -/
def eccCol (w j : Nat) : Nat := if eccColsOk w then Config.eccCol w j else (oddColumns w).getD j 0

/-- The check bits the code gives `w` data bits: the exclusive or of the columns of the set bits. [DESIGN CHOICE, safe, log 79] -/
def checkBits (w data : Nat) : Nat :=
  (List.range w).foldl (fun c j => if hasBit data j then c ^^^ eccCol w j else c) 0

/-- The data bit whose column equals a syndrome. -/
def flippedBit (w syn : Nat) : Option Nat := (List.range w).find? (fun j => eccCol w j == syn)

/-- How a code word reads (R312, R313): clean, corrected in data bit j (none: a check bit), or uncorrectable of a kind. -/
inductive WordRead where
  | clean
  | fixed (bit : Option Nat)
  | bad (kind : Nat)
  deriving DecidableEq, Repr

/-- Reading of a word of `w` data bits and `c` check bits from the difference of its stored check bits and tag. -/
def readKind (w c diff : Nat) : WordRead :=
  let syn := diff % 256
  if diff / 256 ≠ 0 then .bad 2
  else if syn = 0 then .clean
  else if weight8 syn % 2 = 0 then .bad 1
  else if weight8 syn = 1 ∧ syn < 2 ^ c then .fixed none
  else match flippedBit w syn with
    | some j => .fixed (some j)
    | none => .bad 1

/-! ### SRAM words (Table 11.1) -/

/-- Data bits of a word. -/
def eccWidth (m : Nat) : Nat := if [2, 3, 4, 7, 9].contains m then 32 else 64

/-- Check bits of a word. -/
def eccChecks (m : Nat) : Nat := if eccWidth m = 32 then 7 else 8

/-- A read of a word with the given check difference: its counts, and whether data is delivered. -/
def Dev.eccRead (d : Dev) (m w req diff : Nat) : Bool × Dev :=
  match readKind (eccWidth m) (eccChecks m) diff with
  | .clean => (true, d)
  | .fixed _ => (true, d.eccCorrected m w)
  | .bad k => (false, d.eccUncorrectable m w k req diff)

/-- How an SRAM word reads. -/
def Dev.sramKind (d : Dev) (m w : Nat) : WordRead := readKind (eccWidth m) (eccChecks m) (d.ecc.diffs.get 0 (eccKey m w))

/-- An SRAM word reads uncorrectable. -/
def Dev.sramBad (d : Dev) (m w : Nat) : Bool :=
  match d.sramKind m w with
  | .bad _ => true
  | _ => false

/-- What a read of an SRAM word delivers where `v` is stored: corrected data, or nothing (R315, R316). -/
def Dev.sramData (d : Dev) (m w v : Nat) : Option Nat :=
  match d.sramKind m w with
  | .bad _ => none
  | .fixed (some j) => some (v ^^^ 2 ^ j)
  | _ => some v

/-- Entries with keys from `a` up to but not including `b`. -/
def inRange {α : Type} (l : SMap α) (a b : Nat) : SMap α := l.filter (fun e => decide (a ≤ e.1) && decide (e.1 < b))

/-- Entries with keys outside `a` up to but not including `b`. -/
def outRange {α : Type} (l : SMap α) (a b : Nat) : SMap α := l.filter (fun e => decide (e.1 < a) || decide (b ≤ e.1))

/-- A requester reads words `a` to `b` − 1 of an SRAM memory: the counts and log of those that are not clean. -/
def Dev.sramReads (d : Dev) (m a b req : Nat) : Dev :=
  forEach (inRange d.ecc.diffs (eccKey m a) (eccKey m b)) (fun (d : Dev) e => (d.eccRead m (e.1 - eccKey m 0) req e.2).2) d

/-- The half of the remap store (memory 3) that the Active or the Shadow profile uses (07 R204, LAS_STATUS.HALF). -/
def Dev.remapHalf (d : Dev) (active : Bool) : Nat := if d.is R.LAS_STATUS_HALF == active then 1 else 0

/-- The half of each correction word that a profile uses. -/
def Dev.corrHalf (d : Dev) (active : Bool) : Nat := if d.is R.DOS_STATUS_HALF == active then 1 else 0

/-- Entry of column `c` in a correction half (06 R183). -/
def corrEntry (m : SMap Word) (c : Nat) : Nat := bitsOf (m.get 0 (c / 2)).toNat (16 * (c % 2)) 16

/-- Stores a word that differs from what the table holds. -/
def putWord32 (m : SMap Word) (k v : Nat) : SMap Word :=
  if m.get 0 k = BitVec.ofNat 32 v then m else m.put k (BitVec.ofNat 32 v)

/-- Stores the entry of column `c` in a correction half. -/
def putEntry (m : SMap Word) (c v : Nat) : SMap Word :=
  putWord32 m (c / 2) (putBits (m.get 0 (c / 2)).toNat (16 * (c % 2)) 16 v)

/-- Stored correction word of column `c`: the entry of half 0 below that of half 1 (06 R181). [DESIGN CHOICE, unsafe, log 115] -/
def Dev.corrWord (d : Dev) (c : Nat) : Nat :=
  corrEntry (if d.corrHalf true = 0 then d.dos.corrA else d.dos.corrS) c +
    65536 * corrEntry (if d.corrHalf true = 0 then d.dos.corrS else d.dos.corrA) c

/-- Data of the 64-bit word `k` of a table held in 32-bit words. -/
def pairAt (m : SMap Word) (k : Nat) : Nat := (m.get 0 (2 * k)).toNat + 2 ^ 32 * (m.get 0 (2 * k + 1)).toNat

/-- Stores the 64-bit word `k` of a table held in 32-bit words. -/
def putPair (m : SMap Word) (k v : Nat) : SMap Word := putWord32 (putWord32 m (2 * k) (v % 2 ^ 32)) (2 * k + 1) (v / 2 ^ 32)

/-- A table as reads deliver it (R315): each correctable word of memory `m` from word `lo` on, `k` of the table's 32-bit words each, with
its bit corrected. -/
def Dev.readTable (d : Dev) (m lo n k : Nat) (t : SMap Word) : SMap Word :=
  (inRange d.ecc.diffs (eccKey m lo) (eccKey m (lo + n))).foldl (fun t e =>
    let w := e.1 - eccKey m lo
    match readKind (eccWidth m) (eccChecks m) e.2 with
    | .fixed (some j) => putWord32 t (k * w + j / 32) ((t.get 0 (k * w + j / 32)).toNat ^^^ 2 ^ (j % 32))
    | _ => t) t

/-- The Shadow correction half as reads deliver it (R315). -/
def Dev.corrShadow (d : Dev) : SMap Word :=
  (inRange d.ecc.diffs (eccKey 4 0) (eccKey 4 (eccSramWords 4))).foldl (fun t e =>
    let c := e.1 - eccKey 4 0
    match readKind 32 7 e.2 with
    | .fixed (some j) => if j / 16 = d.corrHalf false then putEntry t c (corrEntry t c ^^^ 2 ^ (j % 16)) else t
    | _ => t) d.dos.corrS

/-- The first word of the Active half of the template store in memory 6; the Shadow half stands from word 0 on. [DESIGN CHOICE, unsafe, log 115] -/
def tplActiveWord : Nat := 16384

/-- Two-bit code of a ledger entry. [DESIGN CHOICE, unsafe, log 115] -/
def LineState.code : LineState → Nat
  | .missing => 0 | .zero => 1 | .dry => 2 | .data => 3

/-- The ledger entry a two-bit code stands for. [DESIGN CHOICE, unsafe, log 115] -/
def lineStateOf (c : Nat) : LineState :=
  if c % 4 = 0 then .missing else if c % 4 = 1 then .zero else if c % 4 = 2 then .dry else .data

/-- Word of memory 0 that holds the ledger entry of a raster line. -/
def ledgerWord (l : Nat) : Nat := ledgerWord0 + l % 131072 / 32

/-- The staging slot in memory 8 that holds a word: port, slot, first byte. The slots fill the lower half of the memory, eight of 4 KiB for each
port in turn. [DESIGN CHOICE, unsafe, log 115] -/
def stagingOf (w : Nat) : Nat × Nat × Nat := (w / 4096, w / 512 % 8, 8 * (w % 512))

/-- First word of the staging slot of a port line. -/
def stagingWord (p k : Nat) : Nat := 4096 * p + 512 * (k % 8)

/-- The bytes of the port line in a staging slot. -/
def Dev.stagedIn (d : Dev) (p s : Nat) : Option (List Byte) :=
  ((d.ports.get {} p).steps.find? (fun (r : StepRec) => !r.sent && r.k % 8 == s)).map (·.bytes)

/-- The data of a 32-bit word of the event log in memory 9, behind the 8,192 words of the DMA descriptors. [DESIGN CHOICE, unsafe, log 115] -/
def Dev.logWord (d : Dev) (w : Nat) : Nat :=
  match d.ecc.raw.find? (eccKey 9 (8192 + w)) with
  | some v => v
  | none => match d.evt.log.find? (w / 8) with
    | some e => leAt e.bytes (4 * (w % 8)) 4
    | none => 0

/-- The data an SRAM word stores: a word of the table that holds it, else what test mode or a fill left there. [DESIGN CHOICE, safe, log 80; DESIGN CHOICE, unsafe, log 115] -/
def Dev.sramWord (d : Dev) (m w : Nat) : Nat :=
  if m = 2 then (d.cmp.glyph.get 0 w).toNat
  else if m = 3 then ((if d.remapHalf true = w / 131072 then d.las.remapA else d.las.remapS).get 0 (w % 131072)).toNat
  else if m = 4 then d.corrWord w
  else if m = 5 then pairAt d.dos.thr w
  else if m = 6 ∧ w < tplActiveWord then pairAt d.cmp.tplS w
  else if m = 6 ∧ w < 2 * tplActiveWord then pairAt d.cmp.tplA (w - tplActiveWord)
  else if m = 0 ∧ ledgerWord0 ≤ w then
    (List.range 32).foldl (fun v i => v + (d.las.ledger.get .missing (32 * (w - ledgerWord0) + i)).code * 4 ^ i) 0
  else if m = 8 ∧ w < 131072 then
    (match d.stagedIn (stagingOf w).1 (stagingOf w).2.1 with
     | some l => leAt l (stagingOf w).2.2 8
     | none => d.ecc.raw.get 0 (eccKey m w))
  else if m = 9 ∧ w < 8192 then (d.reg (0x198000 + 4 * w)).toNat
  else if m = 9 ∧ w < 16384 then d.logWord (w - 8192)
  else d.ecc.raw.get 0 (eccKey m w)

/-- Stores the data of an SRAM word in the table that holds it. [DESIGN CHOICE, safe, log 80; DESIGN CHOICE, unsafe, log 115] -/
def Dev.putSramWord (d : Dev) (m w v : Nat) : Dev :=
  if m = 2 then { d with cmp := { d.cmp with glyph := putWord32 d.cmp.glyph w v } }
  else if m = 3 then
    (if d.remapHalf true = w / 131072 then { d with las := { d.las with remapA := putWord32 d.las.remapA (w % 131072) v } }
     else { d with las := { d.las with remapS := putWord32 d.las.remapS (w % 131072) v } })
  else if m = 4 then
    { d with dos := { d.dos with
        corrA := putEntry d.dos.corrA w (v >>> (16 * d.corrHalf true))
        corrS := putEntry d.dos.corrS w (v >>> (16 * d.corrHalf false)) } }
  else if m = 5 then { d with dos := { d.dos with thr := putPair d.dos.thr w v } }
  else if m = 6 ∧ w < tplActiveWord then { d with cmp := { d.cmp with tplS := putPair d.cmp.tplS w v } }
  else if m = 6 ∧ w < 2 * tplActiveWord then { d with cmp := { d.cmp with tplA := putPair d.cmp.tplA (w - tplActiveWord) v } }
  else if m = 0 ∧ ledgerWord0 ≤ w then
    forEach (List.range 32) (fun (d : Dev) i => { d with las := { d.las with
      ledger := d.las.ledger.put (32 * (w - ledgerWord0) + i) (lineStateOf (v / 4 ^ i)) } }) d
  else if m = 8 ∧ w < 131072 ∧ (d.stagedIn (stagingOf w).1 (stagingOf w).2.1).isSome = true then
    let (p, s, o) := stagingOf w
    let x := d.ports.get {} p
    { d with ports := d.ports.put p { x with steps := x.steps.map (fun (r : StepRec) =>
      if !r.sent && r.k % 8 == s then { r with bytes := r.bytes.take o ++ (bytesOf 8 v).take (r.bytes.length - o) ++ r.bytes.drop (o + 8) } else r) } }
  else if m = 9 ∧ w < 8192 then d.setReg (0x198000 + 4 * w) (BitVec.ofNat 32 v)
  else { d with ecc := { d.ecc with raw := d.ecc.raw.put (eccKey m w) v } }

/-- Words `a` to `b` − 1 of an SRAM memory are written whole: their check bits are fresh (R320). -/
def Dev.freshWords (d : Dev) (m a b : Nat) : Dev :=
  { d with ecc := { d.ecc with diffs := outRange d.ecc.diffs (eccKey m a) (eccKey m b), raw := outRange d.ecc.raw (eccKey m a) (eccKey m b) } }

/-- Words `a` to `b` − 1 of an SRAM memory that read uncorrectable, ascending. -/
def Dev.badIn (d : Dev) (m a b : Nat) : List Nat :=
  ((inRange d.ecc.diffs (eccKey m a) (eccKey m b)).map (fun e => e.1 - eccKey m 0)).filter (d.sramBad m)

/-- `n` words copied from word `a` to word `b` of a memory by reads and whole-word writes: the copy of an uncorrectable word is uncorrectable, every
other one clean (11 R315, R320). [DESIGN CHOICE, unsafe, log 115] -/
def Dev.copyMarks (d : Dev) (m a b n req : Nat) : Dev :=
  let bad := (inRange d.ecc.diffs (eccKey m a) (eccKey m (a + n))).filter (fun e => d.sramBad m (e.1 - eccKey m 0))
  let d1 := (d.sramReads m a (a + n) req).freshWords m b (b + n)
  { d1 with ecc := { d1.ecc with diffs := bad.foldl (fun l e => l.put (e.1 - a + b) e.2) d1.ecc.diffs } }

/-- A requester reads an SRAM word: what is delivered, none on a bus error, with the counts of the read (R315, R316). -/
def Dev.sramRead (d : Dev) (m w req : Nat) : Option Nat × Dev :=
  (d.sramData m w (d.sramWord m w), (d.eccRead m w req (d.ecc.diffs.get 0 (eccKey m w))).2)

/-- A partial write of an SRAM word (R321, R322): `f` merges the new bytes into the corrected word. False where it is refused. -/
def Dev.sramPartial (d : Dev) (m w req : Nat) (f : Nat → Nat) : Bool × Dev :=
  let key := eccKey m w
  match d.sramData m w (d.sramWord m w) with
  | none => (false, d.eccRefused m w req (d.ecc.diffs.get 0 key))
  | some v =>
    let fixes := d.sramKind m w != .clean
    let d1 := d.putSramWord m w (f v)
    let d2 := { d1 with ecc := { d1.ecc with diffs := d1.ecc.diffs.drop key } }
    (true, if fixes then d2.bump (R.ECC_PW_FIX_CNT m) 1 else d2)

/-- The entries of columns `a` to `b` − 1 of the Shadow correction half are written: half of each word, a partial write that an uncorrectable
word refuses (11 R321, R322). `new` gives the half from the corrected device. -/
def Dev.corrLoad (d : Dev) (a b req : Nat) (new : Dev → SMap Word) : Dev :=
  let bad := d.badIn 4 a b
  let d1 := forEach (inRange d.ecc.diffs (eccKey 4 a) (eccKey 4 b)) (fun (d : Dev) e => (d.sramPartial 4 (e.1 - eccKey 4 0) req id).2) d
  { d1 with dos := { d1.dos with corrS := bad.foldl (fun t c => putEntry t c (corrEntry d.dos.corrS c)) (new d1) } }

/-- How the 64-bit word `w` of a channel reads. -/
def Mem.wordKind (m : Mem) (ch w : Nat) : WordRead := readKind 64 8 ((m.diffs ch).get 0 w)

/-- The stored data of a 64-bit word. -/
def Mem.wordData (m : Mem) (ch w : Nat) : Nat := leOf ((List.range 8).map (fun i => m.byteAt ch (8 * w + i)))

/-- The byte a read delivers: corrected where its word is correctable, nothing where it is uncorrectable (R315, R316). -/
def Mem.readByte (m : Mem) (ch a : Nat) : Option Byte :=
  match m.wordKind ch (a / 8) with
  | .clean => some (m.byteAt ch a)
  | .fixed none => some (m.byteAt ch a)
  | .fixed (some j) =>
    some (if j / 8 = a % 8 then m.byteAt ch a ^^^ BitVec.ofNat 8 (2 ^ (j % 8)) else m.byteAt ch a)
  | .bad _ => none

/-- `n` bytes of a region as a read delivers them; `none` is a bus error. -/
def Mem.read (m : Mem) (place x n : Nat) : Option (List Byte) :=
  (List.range n).mapM (fun i => m.readByte (mapAddr place (x + i)).1 (mapAddr place (x + i)).2)

/-- `n` stored bytes of a region, whatever their code words. -/
def Mem.bytes (m : Mem) (place x n : Nat) : List Byte :=
  (List.range n).map (fun i => m.byteAt (mapAddr place (x + i)).1 (mapAddr place (x + i)).2)

/-- Corrects the data of a correctable word in place and makes it clean (R321). -/
def Mem.repair (m : Mem) (ch w : Nat) : Mem :=
  match m.wordKind ch w with
  | .fixed (some j) =>
    (m.putByte ch (8 * w + j / 8) (m.byteAt ch (8 * w + j / 8) ^^^ BitVec.ofNat 8 (2 ^ (j % 8)))).putDiff ch w 0
  | .fixed none => m.putDiff ch w 0
  | _ => m

/-- Stores bytes from a channel address on. -/
def Mem.putBytes (m : Mem) (ch a : Nat) : List Byte → Mem
  | [] => m
  | b :: r => (m.putByte ch a b).putBytes ch (a + 1) r

/-- Writes bytes that lie in one 64-bit word: a whole word is made clean, a partial write corrects the word first and is
not performed on an uncorrectable word (R320–R322). -/
def Mem.writeWord (m : Mem) (ch a : Nat) (l : List Byte) : Mem :=
  if l.length = 8 then (m.putBytes ch a l).putDiff ch (a / 8) 0
  else match m.wordKind ch (a / 8) with
    | .bad _ => m
    | _ => (m.repair ch (a / 8)).putBytes ch a l

/-- Writes bytes to a region from address `x` on, word by word; `fuel` bounds the words. -/
def Mem.writeLoop : Nat → Mem → Nat → Nat → List Byte → Mem
  | 0, m, _, _, _ => m
  | f + 1, m, place, x, l =>
    match l with
    | [] => m
    | _ =>
      let n := 8 - x % 8
      let (ch, a) := mapAddr place x
      Mem.writeLoop f (m.writeWord ch a (l.take n)) place (x + n) (l.drop n)

/-- Writes bytes to a region. -/
def Mem.write (m : Mem) (place x : Nat) (l : List Byte) : Mem := Mem.writeLoop (l.length / 8 + 2) m place x l

/-- Poisons the 64-bit word at a channel address: check bits XORed with 0x03, tag correct (R317). -/
def Mem.poison (m : Mem) (ch w : Nat) : Mem := m.putDiff ch w 3

end Sys2Proof.Machine
end

