-- ==== Sys2Proof/Machine/Operands.lean ====
section
/-! DEFINITION. The forms data takes on its way into the device: check codes, DXS structures (03 Tables 3.1–3.3), frames
and blocks of the head link (09), byte views of items and log entries (02 Table 2.2, 13 Tables 13.3, 13.5). -/

namespace Sys2Proof.Machine

/-! ## Check codes -/

/-- One bit of a reflected CRC with (reflected) polynomial `poly`. -/
def crcBitR (poly c : Nat) : Nat := if c % 2 = 1 then (c >>> 1) ^^^ poly else c >>> 1

/-- One byte of a reflected CRC. -/
def crcByteR (poly c : Nat) (b : Byte) : Nat :=
  (List.range 8).foldl (fun x _ => crcBitR poly x) (c ^^^ b.toNat)

/-- Running value of CRC-32C over more bytes, before the final XOR (03 R85). -/
def crc32cRun (c : Nat) (l : List Byte) : Nat := l.foldl (crcByteR 0x82F63B78) c

/-- CRC-32C (03 R85): polynomial 0x1EDC_6F41 reflected, initial value and final XOR all ones. -/
def crc32c (l : List Byte) : Nat := crc32cRun 0xFFFFFFFF l ^^^ 0xFFFFFFFF

/-- One bit of CRC-8 with polynomial 0x07. -/
def crc8Bit (c : Nat) : Nat := if c ≥ 128 then ((c * 2) % 256) ^^^ 0x07 else c * 2

/-- CRC-8 of the head link's control blocks (09 R255). -/
def crc8 (l : List Byte) : Nat :=
  l.foldl (fun c b => (List.range 8).foldl (fun x _ => crc8Bit x) (c ^^^ b.toNat)) 0

/-! ## DXS structures -/

/-- The 64 bytes at the start of a well read as a stream header (03 Table 3.1). -/
def parseHdr (l : List Byte) : DxsHdr :=
  { jobId := leAt l 0x08 8, lines := leAt l 0x10 4, bandLines := leAt l 0x14 2, depth := leAt l 0x16 1,
    formats := leAt l 0x18 2, tset := leAt l 0x1A 2, sliceMask := leAt l 0x1C 4, bandCount := leAt l 0x20 4,
    segs := leAt l 0x24 4, tableOfs := leAt l 0x28 8, itemLen := leAt l 0x30 8 }

/-- Plane formats of Table 3.1: 0 ABSENT, 1 CONTONE8, 2 LEVEL. -/
def planeFormat (h : DxsHdr) (p : Nat) : Nat := bitsOf h.formats (2 * p) 2

/-- Number of job lines in band `b`: the last band may be shorter. -/
def bandLinesOf (h : DxsHdr) (b : Nat) : Nat := min h.bandLines (h.lines - b * h.bandLines)

/-- Bytes of one line of a segment: columns for CONTONE8, ⌈columns × depth / 8⌉ for LEVEL (R86). -/
def lineLen (format depth count : Nat) : Nat := if format = 1 then count else ceilDiv (count * depth) 8

/-- A band table entry: offset, length, segment count, reserved (03 Table 3.2). -/
structure BandEntry where
  ofs : Nat
  len : Nat
  count : Nat
  rsv : Nat
  deriving DecidableEq, Repr

/-- A band table entry from its 16 bytes. -/
def parseBandEntry (l : List Byte) : BandEntry :=
  { ofs := leAt l 0 8, len := leAt l 8 4, count := leAt l 0xC 2, rsv := leAt l 0xE 2 }

/-- The fields of a segment header that are not part of `Seg`: magic, band, flags, reserved, header CRC. -/
structure SegRaw where
  magic : Nat
  band : Nat
  flags : Nat
  rsv : Nat
  hdrCrc : Nat
  seg : Seg
  deriving DecidableEq, Repr

/-- A segment header from its 32 bytes at well offset `o` (03 Table 3.3). -/
def parseSeg (l : List Byte) (o : Nat) : SegRaw :=
  { magic := leAt l 0 4, band := leAt l 4 4, flags := leAt l 0xA 1, rsv := leAt l 0xB 1, hdrCrc := leAt l 0x1C 4,
    seg := { slice := leAt l 8 1, plane := leAt l 9 1, raw := hasBit (leAt l 0xA 1) 0, blank := hasBit (leAt l 0xA 1) 1,
             colFirst := leAt l 0xC 2, colCount := leAt l 0xE 2, payLen := leAt l 0x10 4, rawLen := leAt l 0x14 4,
             crc := leAt l 0x18 4, ofs := o + 32, bad := none } }

/-- Rounded up to a multiple of 8. -/
def pad8 (n : Nat) : Nat := ceilDiv n 8 * 8

/-- Order of segments within a band: (slice, plane, column first) (R88). -/
def segBefore (a b : Seg) : Bool :=
  decide (a.slice < b.slice) ||
    (a.slice == b.slice && (decide (a.plane < b.plane) || (a.plane == b.plane && decide (a.colFirst < b.colFirst))))

/-- Same place in the segment layout (R88, 04 R127). -/
def sameLayout (a b : Seg) : Bool :=
  a.slice == b.slice && a.plane == b.plane && a.colFirst == b.colFirst && a.colCount == b.colCount

/-- Two segments of one slice cover a common column. -/
def segOverlap (a b : Seg) : Bool :=
  a.slice == b.slice && decide (a.colFirst < b.colFirst + b.colCount) && decide (b.colFirst < a.colFirst + a.colCount)

/-! ## Head-link blocks and frames (09 R255–R257) -/

/-- A control block passes its CRC-8 over bytes 0–6. -/
def blockOk (b : List Byte) : Bool := b.length == 8 && crc8 (b.take 7) == leAt b 7 1

/-- A frame other than LINE is accepted: its start block is whole and passes, it was not cut short, the body has the length
the start block gives, no body block was errored and the body's CRC-32C holds (R256, R257). -/
def frameOk (f : HFrame) : Bool :=
  !f.startErr && blockOk f.start && !f.cut && !f.bodyErr && f.body.length == 8 * leAt f.start 4 2 &&
    decide (4 ≤ f.body.length) &&
    crc32c (f.body.take (f.body.length - 4)) == leOf (f.body.drop (f.body.length - 4))

/-- Step tag of a start block (Table 9.2). -/
def frameTag (f : HFrame) : Nat := leAt f.start 2 2

/-- A single-block message or start block with its CRC-8 (Tables 9.2, 9.3). -/
def withCrc8 (b : List Byte) : List Byte := b ++ [BitVec.ofNat 8 (crc8 b)]

/-- The line check value: CRC-32C over start-block bytes 1–3 and the port line bytes (R261). [DEDUCED, unsafe, log 67] -/
def lineCheck (sub : Nat) (dry : Bool) (step : Nat) (bytes : List Byte) : Nat :=
  crc32c (BitVec.ofNat 8 (sub + if dry then 2 else 0) :: bytesOf 2 step ++ bytes)

/-! ## Byte views -/

/-- Verdict codes of Tables 2.2 and 13.3. -/
def Verdict.code : Verdict → Nat
  | .pending => 0
  | .markedOk => 1
  | .fail => 2
  | .notMarked => 3

/-- The item record of Table 2.2, 48 bytes. -/
def Item.bytes (i : Item) : List Byte :=
  bytesOf 4 i.num ++ bytesOf 1 i.input ++
    bytesOf 1 ((if i.posInv then 1 else 0) + (if i.timeInv then 2 else 0)) ++ bytesOf 2 0 ++ bytesOf 8 i.trigPos ++
    bytesOf 8 i.tsec ++ bytesOf 4 i.tsub ++ bytesOf 1 i.verdict.code ++ bytesOf 3 0 ++ bytesOf 8 i.start ++ bytesOf 8 i.stop

/-- The verdict ring entry of Table 13.3, 16 bytes. -/
def VrdEntry.bytes (e : VrdEntry) : List Byte :=
  bytesOf 4 e.item ++ bytesOf 1 e.verdict.code ++
    bytesOf 1 ((if e.attempted then 1 else 0) + (if e.late then 2 else 0) + (if e.origin then 4 else 0) +
      (if e.fabric then 8 else 0)) ++
    bytesOf 1 e.input ++ bytesOf 1 0 ++ bytesOf 4 e.causes ++ bytesOf 4 e.key

/-- Words as their bytes, lowest word first. -/
def bytesOfWords (l : List Word) : List Byte := l.flatMap (fun w => bytesOf 4 w.toNat)

/-- The 32-bit words of a byte list, little-endian. -/
def wordsOf (l : List Byte) : List Word :=
  (List.range (ceilDiv l.length 4)).map (fun i => BitVec.ofNat 32 (leAt l (4 * i) 4))

end Sys2Proof.Machine
end

