-- ==== Sys2Proof/Machine/Inflate.lean ====
section
/-! DEFINITION. The DEFLATE subset of 04 R117–R120: one segment payload decoded with the error codes of Table 4.1. A code ends
the segment at the first bit where its condition becomes true; of several at one bit the lowest counts (R118). -/

namespace Sys2Proof.Machine

/-- The canonical code of a list of code lengths. -/
def huffOf (lens : List Nat) : Huff :=
  let idx := lens.zipIdx
  { counts := (List.range 15).map (fun l => (lens.filter (· == l + 1)).length)
    syms := (List.range 15).flatMap (fun l => (idx.filter (fun p => p.1 == l + 1)).map (·.2)) }

/-- Space a code set leaves of 2^15: negative when over-subscribed. -/
def huffLeft (lens : List Nat) : Int :=
  lens.foldl (fun (s : Int) l => if l = 0 then s else s - (2 ^ (15 - l) : Nat)) (2 ^ 15)

/-- The code set is over-subscribed. -/
def huffOver (lens : List Nat) : Bool := decide (huffLeft lens < 0)

/-- The code set is incomplete. -/
def huffIncomplete (lens : List Nat) : Bool := decide (0 < huffLeft lens)

/-- Exactly one code, of length 1 (R119). -/
def huffSingle (lens : List Nat) : Bool := lens.filter (· != 0) == [1]

/-- No code at all (R119). -/
def huffEmpty (lens : List Nat) : Bool := lens.all (· == 0)

/-- What a decode step inside the payload yields: a value and the next bit position, or a code of Table 4.1 and the bit position past
the bit at which it became true. -/
inductive Dec where
  | ok (v pos : Nat)
  | err (code pos : Nat)
  deriving DecidableEq, Repr

/-- Codes of Table 4.1. -/
inductive SegCode where
  | btype | storedLen | hdrCount | codeOver | codeIncomplete | repeat_ | noEob | symbol | distBefore | distFar
  | long | short | trunc | trail | header | read | crc
  deriving DecidableEq, Repr

/-- Number of a code. -/
def SegCode.num : SegCode → Nat
  | .btype => 1 | .storedLen => 2 | .hdrCount => 3 | .codeOver => 4 | .codeIncomplete => 5 | .repeat_ => 6 | .noEob => 7
  | .symbol => 8 | .distBefore => 9 | .distFar => 10 | .long => 11 | .short => 12 | .trunc => 13 | .trail => 14
  | .header => 15 | .read => 16 | .crc => 17

/-- `k` bits of the payload, first bit least significant. -/
def takeBits (data len pos k : Nat) : Dec :=
  if pos + k ≤ len then .ok (bitsOf data pos k) (pos + k) else .err SegCode.trunc.num len

/-- The extra bits of a symbol, one at a time: `v` is what the value amounts to at least by the bits so far, and `bad` the code that
this already gives (R118). The next bit weighs `wt`. -/
def takeExtra (bad : Nat → Option Nat) (data len : Nat) : Nat → Nat → Nat → Nat → Dec
  | k, pos, v, wt =>
    match bad v with
    | some c => .err c pos
    | none =>
      match k with
      | 0 => .ok v pos
      | k + 1 =>
        if pos < len then takeExtra bad data len k (pos + 1) (v + wt * bitsOf data pos 1) (2 * wt)
        else .err SegCode.trunc.num len

/-- Decodes one symbol bit by bit over the remaining code lengths. -/
def huffGo (h : Huff) (data len : Nat) : List Nat → Nat → Nat → Nat → Nat → Dec
  | [], pos, _, _, _ => .err SegCode.codeIncomplete.num pos
  | n :: r, pos, code, first, index =>
    if pos < len then
      let c := code + bitsOf data pos 1
      if c < first + n then .ok ((h.syms.drop (index + (c - first))).headD 0) (pos + 1)
      else if r.all (· == 0) then .err SegCode.codeIncomplete.num (pos + 1)
      else huffGo h data len r (pos + 1) (2 * c) (2 * (first + n)) (index + n)
    else .err SegCode.trunc.num len

/-- Decodes one symbol of a canonical code. -/
def huffSym (h : Huff) (data len pos : Nat) : Dec := huffGo h data len h.counts pos 0 0 0

/-- Ends the segment with a code that became true at the bit before `pos`. [DEDUCED, unsafe, log 45] -/
def Inf.fail (x : Inf) (code pos : Nat) : Inf := { x with err := some code, pos := pos, phase := .done }

/-- Base and extra bits of length symbols 257–285 (RFC 1951). -/
def lengthTable : List (Nat × Nat) :=
  [(3, 0), (4, 0), (5, 0), (6, 0), (7, 0), (8, 0), (9, 0), (10, 0), (11, 1), (13, 1), (15, 1), (17, 1), (19, 2), (23, 2),
   (27, 2), (31, 2), (35, 3), (43, 3), (51, 3), (59, 3), (67, 4), (83, 4), (99, 4), (115, 4), (131, 5), (163, 5), (195, 5),
   (227, 5), (258, 0)]

/-- Base and extra bits of distance symbols 0–29 (RFC 1951). -/
def distTable : List (Nat × Nat) :=
  [(1, 0), (2, 0), (3, 0), (4, 0), (5, 1), (7, 1), (9, 2), (13, 2), (17, 3), (25, 3), (33, 4), (49, 4), (65, 5), (97, 5),
   (129, 6), (193, 6), (257, 7), (385, 7), (513, 8), (769, 8), (1025, 9), (1537, 9), (2049, 10), (3073, 10), (4097, 11),
   (6145, 11), (8193, 12), (12289, 12), (16385, 13), (24577, 13)]

/-- Order of the code-length code lengths in a dynamic header (RFC 1951). -/
def clenOrder : List Nat := [16, 17, 18, 0, 8, 7, 9, 6, 10, 5, 11, 4, 12, 3, 13, 2, 14, 1, 15]

/-- Literal/length lengths of the fixed code. -/
def fixedLit : List Nat :=
  List.replicate 144 8 ++ List.replicate 112 9 ++ List.replicate 24 7 ++ List.replicate 8 8

/-- Distance lengths of the fixed code. -/
def fixedDist : List Nat := List.replicate 32 5

/-- Copies `k` bytes from `dist` back, one at a time. -/
def copyMatch : Nat → Nat → List Byte → List Byte
  | 0, _, out => out
  | k + 1, dist, out => copyMatch k dist ((out.drop (dist - 1)).headD 0 :: out)

/-- The code that the lengths read so far of a dynamic header give, lowest code first (R118, R119). -/
def hdrCheck (lens : List Nat) (nlit ndist : Nat) : Option Nat :=
  let lit := lens.take nlit
  let dist := lens.drop nlit
  if huffOver lit || huffOver dist then some SegCode.codeOver.num
  else if decide (nlit ≤ lens.length) && huffIncomplete lit then some SegCode.codeIncomplete.num
  else if lens.length == nlit + ndist && huffIncomplete dist && !huffSingle dist && !huffEmpty dist then
    some SegCode.codeIncomplete.num
  else if decide (256 < lens.length) && (lens.drop 256).headD 0 == 0 then some SegCode.noEob.num
  else none

/-- The code that code lengths `lens` followed by `n` times `v` give: what they overrun is REPEAT unless a lower code holds. -/
def lensCheck (lens : List Nat) (v nlit ndist n : Nat) : Option Nat :=
  let all := lens ++ List.replicate n v
  let c := hdrCheck (all.take (nlit + ndist)) nlit ndist
  if nlit + ndist < all.length then (if c = some 4 ∨ c = some 5 then c else some SegCode.repeat_.num) else c

/-- Reads the code lengths of a dynamic header; `lens` holds those read so far. -/
def readLens (h : Huff) (data len nlit ndist : Nat) : Nat → Nat → List Nat → Sum (Nat × Nat) (List Nat × Nat)
  | 0, pos, _ => .inl (SegCode.trunc.num, pos)
  | f + 1, pos, lens =>
    if nlit + ndist ≤ lens.length then .inr (lens, pos)
    else
      match huffSym h data len pos with
      | .err c p => .inl (c, p)
      | .ok sym p =>
        if sym = 16 ∧ lens = [] then .inl (SegCode.repeat_.num, p)
        else
          let v := if sym < 16 then sym else if sym = 16 then lens.getLastD 0 else 0
          let base := if sym < 16 then 1 else if sym = 18 then 11 else 3
          let bits := if sym < 16 then 0 else if sym = 16 then 2 else if sym = 17 then 3 else 7
          match takeExtra (lensCheck lens v nlit ndist) data len bits p base 1 with
          | .err c p2 => .inl (c, p2)
          | .ok n p2 => readLens h data len nlit ndist f p2 (lens ++ List.replicate n v)

/-- Reads the code lengths of the code-length code. -/
def readClens (data len : Nat) : List Nat → Nat → List (Nat × Nat) → Sum (Nat × Nat) (List (Nat × Nat) × Nat)
  | [], pos, acc => .inr (acc, pos)
  | i :: r, pos, acc =>
    match takeBits data len pos 3 with
    | .err c p => .inl (c, p)
    | .ok v p =>
      if huffOver (v :: acc.map (·.2)) then .inl (SegCode.codeOver.num, p) else readClens data len r p ((i, v) :: acc)

/-- Reads a dynamic block header (R119). -/
def dynHeader (x : Inf) (data len : Nat) (final : Bool) : Inf :=
  match takeBits data len x.pos 5 with
  | .err c p => x.fail c p
  | .ok hlit p1 =>
    if 286 < hlit + 257 then x.fail SegCode.hdrCount.num p1
    else match takeBits data len p1 5 with
    | .err c p => x.fail c p
    | .ok hdist p2 =>
      if 30 < hdist + 1 then x.fail SegCode.hdrCount.num p2
      else match takeBits data len p2 4 with
      | .err c p => x.fail c p
      | .ok hclen p3 =>
        match readClens data len (clenOrder.take (hclen + 4)) p3 [] with
        | .inl (c, p) => x.fail c p
        | .inr (cl, p4) =>
          let clens := (List.range 19).map (fun i => ((cl.find? (fun e => e.1 == i)).map (·.2)).getD 0)
          if huffIncomplete clens then x.fail SegCode.codeIncomplete.num p4
          else match readLens (huffOf clens) data len (hlit + 257) (hdist + 1) (hlit + hdist + 259) p4 [] with
          | .inl (c, p) => x.fail c p
          | .inr (lens, p5) =>
            let dist := lens.drop (hlit + 257)
            { x with pos := p5, phase := .coded (huffOf (lens.take (hlit + 257))) (huffOf dist) (huffEmpty dist) final }

/-- The end of a block: the next one, or the checks that follow the BFINAL block (SHORT, TRAIL; R120). -/
def Inf.endBlock (x : Inf) (raw len : Nat) (final : Bool) : Inf :=
  if final then
    if x.n < raw then x.fail SegCode.short.num x.pos
    else if ceilDiv x.pos 8 * 8 < len then x.fail SegCode.trail.num x.pos
    else { x with phase := .done }
  else { x with phase := .block }

/-- The first of the 16 bits of NLEN that is no complement of its LEN bit, or 16. -/
def firstEqual (n m : Nat) : Nat := ((List.range 16).find? (fun i => hasBit n i == hasBit m i)).getD 16

/-- The header of a stored block. -/
def storedBlock (x : Inf) (data len raw : Nat) (final : Bool) : Inf :=
  let p := ceilDiv x.pos 8 * 8
  match takeBits data len p 16 with
  | .err c e => x.fail c e
  | .ok n p1 =>
    let i := firstEqual n (bitsOf data p1 16)
    if raw < x.n + n then x.fail SegCode.long.num p1
    else if i < 16 ∧ p1 + i < len then x.fail SegCode.storedLen.num (p1 + i + 1)
    else if len < p1 + 16 then x.fail SegCode.trunc.num len
    else if n = 0 then { x with pos := p1 + 16 }.endBlock raw len final
    else { x with pos := p1 + 16, phase := .stored n final }

/-- One byte of a stored block, `left` bytes before its end. -/
def storedStep (x : Inf) (data len raw left : Nat) (final : Bool) : Inf :=
  match takeBits data len x.pos 8 with
  | .err c p => x.fail c p
  | .ok v p =>
    let y := { x with pos := p, out := BitVec.ofNat 8 v :: x.out, n := x.n + 1 }
    if left ≤ 1 then y.endBlock raw len final else { y with phase := .stored (left - 1) final }

/-- The code a match distance of at least `v` gives. -/
def distCheck (n hist v : Nat) : Option Nat :=
  if n < v then some SegCode.distBefore.num else if hist < v then some SegCode.distFar.num else none

/-- A match of length `l`: its distance symbol, distance checks, copy. -/
def matchStep (x : Inf) (data len hist : Nat) (dist : Huff) (pos l : Nat) : Inf :=
  match huffSym dist data len pos with
  | .err c p => x.fail c p
  | .ok ds p =>
    if 30 ≤ ds then x.fail SegCode.symbol.num p
    else
      let (base, extra) := (distTable.drop ds).headD (1, 0)
      match takeExtra (distCheck x.n hist) data len extra p base 1 with
      | .err c p => x.fail c p
      | .ok v p2 => { x with pos := p2, out := copyMatch l v x.out, n := x.n + l }

/-- The code a match length of at least `v` gives. -/
def longCheck (n raw v : Nat) : Option Nat := if raw < n + v then some SegCode.long.num else none

/-- One symbol of a coded block. -/
def codedStep (x : Inf) (data len raw hist : Nat) (lit dist : Huff) (noDist final : Bool) : Inf :=
  match huffSym lit data len x.pos with
  | .err c p => x.fail c p
  | .ok sym p =>
    if sym < 256 then
      if raw < x.n + 1 then x.fail SegCode.long.num p
      else { x with pos := p, out := BitVec.ofNat 8 sym :: x.out, n := x.n + 1 }
    else if sym = 256 then { x with pos := p }.endBlock raw len final
    else if 286 ≤ sym then x.fail SegCode.symbol.num p
    else if noDist then x.fail SegCode.codeIncomplete.num p
    else
      let (base, extra) := (lengthTable.drop (sym - 257)).headD (3, 0)
      match takeExtra (longCheck x.n raw) data len extra p base 1 with
      | .err c p => x.fail c p
      | .ok l p2 => matchStep x data len hist dist p2 l

/-- One step of the decoder. -/
def infStep (x : Inf) (data len raw hist : Nat) : Inf :=
  match x.phase with
  | .done => x
  | .coded lit dist noDist final => codedStep x data len raw hist lit dist noDist final
  | .stored left final => storedStep x data len raw left final
  | .block =>
    match takeBits data len x.pos 3 with
    | .err c p => x.fail c p
    | .ok h p =>
      let y := { x with pos := p }
      let final := h % 2 == 1
      match h / 2 with
      | 0 => storedBlock y data len raw final
      | 1 => { y with phase := .coded (huffOf fixedLit) (huffOf fixedDist) false final }
      | 2 => dynHeader y data len final
      | _ => y.fail SegCode.btype.num p

/-- Steps until `target` bytes are delivered or the segment ends; every step but the last consumes a bit. -/
def infRun : Nat → Inf → Nat → Nat → Nat → Nat → Nat → Inf
  | 0, x, _, _, _, _, _ => x
  | f + 1, x, data, len, raw, hist, target =>
    if target ≤ x.n then x
    else
      match x.phase with
      | .done => x
      | _ => infRun f (infStep x data len raw hist) data len raw hist target

/-- A decoder that goes on over the payload bytes read so far until it has delivered `target` bytes, or ends with a code of Table 4.1
(R118). -/
def inflate (x : Inf) (payload : List Byte) (raw hist target : Nat) : Inf :=
  infRun (8 * payload.length + 2) x (leOf payload) (8 * payload.length) raw hist target

end Sys2Proof.Machine
end

