-- ==== Sys2Proof/Machine/Flags.lean ====
section
/-! DEFINITION. Flags and causes: profile generations (01 R37–R45), table validity (01 R42), degradation level and its causes
(13 R367), cause masks and verdicts of items (13 R350–R354), the sustainable line rate (01 R29–R31). -/

namespace Sys2Proof.Machine

/-! ## Profile generations (01 R39) -/

/-- N of the scheduled swap, if known. -/
def Dev.swapN (d : Dev) : Option Nat := d.job.swap.bind (fun q => q.n)

/-- The scheduled swap governs from a line or step on (01 R39, 05 R169). -/
def Dev.swapGoverns (d : Dev) (k : Nat) : Bool :=
  match d.swapN with
  | some n => decide (n ≤ k)
  | none => false

/-- The profile whose fire settings govern fire step `k`. [DEDUCED, unsafe, log 32] -/
def Dev.fireProf (d : Dev) (k : Nat) : SMap Word :=
  if d.swapGoverns k then d.regs else if d.job.fireN ≤ k then d.active
  else match d.older.find? (fun g => decide (g.2.1 ≤ k)) with
  | some g => g.2.2
  | none => d.retired

/-- The profile whose content settings govern raster line `L`. [DEDUCED, unsafe, log 32] -/
def Dev.contProf (d : Dev) (l : Nat) : SMap Word :=
  if d.swapGoverns l then d.regs else if d.job.contN ≤ l then d.active
  else match d.older.find? (fun g => decide (g.1 ≤ l)) with
  | some g => g.2.2
  | none => d.retired

/-- The generation number that governs raster line `L`. -/
def Dev.genOf (d : Dev) (l : Nat) : Nat :=
  if d.swapGoverns l then d.job.gen + 1 else if d.job.contN ≤ l then d.job.gen
  else d.job.gen - 1 - d.older.findIdx (fun g => decide (g.1 ≤ l))

/-- Row `r` is enabled in a profile. -/
def rowOn (p : SMap Word) (r : Nat) : Bool := profGet p (R.ROW_EN r) == 1

/-- Rows a profile mentions: only a word of the row table that was written can enable a row (02 Table 2.7). -/
def rowsOf (p : SMap Word) : List Nat :=
  (p.filter (fun e => decide (0x51000 ≤ e.1) && decide (e.1 < 0x53000) && e.1 % 16 == 0)).filterMap
    (fun e => if rowOn p ((e.1 - 0x51000) / 16) then some ((e.1 - 0x51000) / 16) else none)

/-- Port of a row in a profile. -/
def rowPort (p : SMap Word) (r : Nat) : Nat := profGet p (R.ROW_PORT r)

/-- Delay class of a row in a profile (07 R200). -/
def rowClass (p : SMap Word) (r : Nat) : Nat := profGet p (R.LAS_ROW_CLASS r)

/-- Class delay d_c in a profile (07 R201). -/
def classDelay (p : SMap Word) (c : Nat) : Nat := profGet p (R.LAS_CLASS_DELAY c)

/-- Classes in use by a profile (07 R201): a row that is enabled gives its class nozzles when its head row is below 2^ROWS. -/
def classesOf (p : SMap Word) : List Nat :=
  ((rowsOf p).filter (fun r => decide (profGet p (R.ROW_HEAD_ROW r) < 2 ^ profGet p (R.PORT_LAYOUT_ROWS (rowPort p r))))).map
    (rowClass p) |>.eraseDups

/-- d_max of a profile (07 R201). -/
def dMaxOf (p : SMap Word) : Nat := (classesOf p).foldl (fun m c => max m (classDelay p c)) 0

/-- d_max in force. -/
def Dev.dMax (d : Dev) : Nat := dMaxOf d.active

/-- The words that decide the class of a nozzle or a class delay (07 R201). -/
def isClassAddr (a : Nat) : Bool :=
  (decide (0x51000 ≤ a) && decide (a < 0x53000) && a % 16 == 0) ||
    (decide (0xC0100 ≤ a) && decide (a < 0xC0180)) || (decide (0xC0400 ≤ a) && decide (a < 0xC0800)) ||
    (decide (0xC1000 ≤ a) && decide (a < 0xC1800))

/-- Two profiles hold the same words at the addresses `q` selects. -/
def profSame (q : Nat → Bool) (a b : SMap Word) : Bool :=
  ((a ++ b).filter (fun e => q e.1)).all (fun e => profWord a e.1 == profWord b e.1)

/-- A swap changes a word that decides the class of a nozzle or a class delay: in ARMED or RUN it falls under R40 (07 R201). [DEDUCED, unsafe, log 120] -/
def Dev.swapChangesClasses (d : Dev) : Bool := !profSame isClassAddr d.active d.regs

/-! ## Validity of the Shadow profile (01 R42) -/

/-- A segmented write of some session is open (16 R443). -/
def Dev.segOpen (d : Dev) : Bool := !d.mgmt.mbx.segs.isEmpty || d.mgmt.sessions.any (fun x => !x.segs.isEmpty)

/-- Writes to the Shadow profile are refused while a swap is scheduled (01 R43). -/
def Dev.shadowLocked (d : Dev) : Bool := d.job.swap.isSome

/-- The Shadow profile is complete: no table write to it is open and every validity flag is set (01 R42, 16 R443). -/
def Dev.profileComplete (d : Dev) : Bool :=
  d.get R.DEV_PROF_OPEN == 0 && !d.segOpen && d.is R.CMP_STATUS_TPL_VALID && d.is R.DOS_STATUS_SCR_VALID &&
    d.is R.DOS_STATUS_CORR_VALID && !d.shadowLocked && d.is R.LAS_STATUS_REMAP_VALID

/-- Nanoseconds in a second. -/
def nsPerSec : Nat := 1000000000

/-- Device time in ns since the epoch. -/
def Dev.timeNs (d : Dev) : Nat := d.tim.sec * nsPerSec + d.tim.ns

/-- The Shadow view of the correction store is shut: from the scheduling of a swap until the copy ends (06 R184). -/
def Dev.corrShut (d : Dev) : Bool := !d.is R.DOS_STATUS_CORR_VALID || d.shadowLocked

/-! ## Power domains (17 Table 17.2) -/

/-- Domain `c` of Table 17.2 is on. -/
def Dev.domOn (d : Dev) (c : Nat) : Bool := hasBit (d.get R.PWR_DOM_STATUS_ON) c

/-- A host access to a block whose domain `c` is off has no effect and is counted (17 R459, 16 R450). -/
def Dev.inDomain (d : Dev) (c : Nat) (f : Dev → Dev) : Dev := if d.domOn c then f d else d.barMiss

/-- The domain of head port `p`. -/
def headDomain (p : Nat) : Nat := if p < 16 then 1 else 2

/-! ## DRAM channels in service (10 R287–R289) -/

/-- Channel `c` is enabled (10 R282). -/
def Dev.chOn (d : Dev) (c : Nat) : Bool := d.is (R.DRC_CFG_EN c)

/-- Channel `c` is enabled and in service. -/
def Dev.chIn (d : Dev) (c : Nat) : Bool := d.chOn c && d.is (R.DRC_STATUS_INSVC c)

/-- Channel `c` is out of service: enabled and not in service (R287). -/
def Dev.chOut (d : Dev) (c : Nat) : Bool := d.chOn c && !d.is (R.DRC_STATUS_INSVC c)

/-- The channels a placement uses (03 R89). -/
def placeChannels (place : Nat) : List Nat := if place = 1 then [0] else if place = 2 then [1] else [0, 1]

/-- Every channel of a placement is in service. -/
def Dev.placeIn (d : Dev) (place : Nat) : Bool := (placeChannels place).all d.chIn

/-- Channel addresses a region occupies on each of its channels (10 R285). -/
def regionSpan (place base size : Nat) : Nat × Nat := if place = 0 then (base / 2, (base + size) / 2) else (base, base + size)

/-- Two regions occupy a common channel address on a common channel (10 R285); a region of size 0 is no region (07 R214). -/
def regionsOverlap (p1 b1 s1 p2 b2 s2 : Nat) : Bool :=
  s1 != 0 && s2 != 0 && (placeChannels p1).any (fun c => (placeChannels p2).contains c) &&
    decide ((regionSpan p1 b1 s1).1 < (regionSpan p2 b2 s2).2) && decide ((regionSpan p2 b2 s2).1 < (regionSpan p1 b1 s1).2)

/-- Installed capacity of a channel from its geometry (10 Table 10.1). -/
def Dev.capacity (d : Dev) (c : Nat) : Nat :=
  2 ^ (15 + d.get (R.DRC_CFG_BG_BITS c) + 14 + d.get (R.DRC_CFG_ROW_BITS c)) * (1 + d.get (R.DRC_CFG_TWO_RANKS c))

/-- Usable capacity: less the training area (10 R284). -/
def Dev.usable (d : Dev) (c : Nat) : Nat := d.capacity c - 1048576

/-- A well by number. -/
def Dev.well (d : Dev) (w : Nat) : Well := d.job.wells.get {} w

/-- A slot by number. -/
def Dev.slot (d : Dev) (q : Nat) : Slot := d.job.slots.get {} q

/-- Replaces a well. -/
def Dev.setWell (d : Dev) (w : Nat) (x : Well) : Dev := { d with job := { d.job with wells := d.job.wells.put w x } }

/-- Replaces a slot. -/
def Dev.setSlot (d : Dev) (q : Nat) (x : Slot) : Dev := { d with job := { d.job with slots := d.job.slots.put q x } }

/-- A region meets a defined well other than `self`. -/
def Dev.meetsWell (d : Dev) (self : Option Nat) (place base size : Nat) : Bool :=
  (List.range 16).any (fun w => self != some w && (d.well w).st != .free &&
    regionsOverlap place base size (d.well w).place (d.well w).base (d.well w).size)

/-! ## Sustainable line rate (01 R29–R31) -/

/-- Usable DRAM bandwidth U in bytes per second: 0.68 × 8 × the sum of the transfer rates in service (10 R289). -/
def Dev.bandwidth (d : Dev) : Nat :=
  5440000 * ((if d.chIn 0 then d.get (R.DRC_MTS 0) else 0) + (if d.chIn 1 then d.get (R.DRC_MTS 1) else 0))

/-- The head job: the first slot in queue order that has not ended (03 Table 3.6). -/
def Dev.headSlot (d : Dev) : Option Nat := d.job.order.find? (fun q => (d.slot q).st != .ended)

/-- J of the head job (01 R30, 03 R91). [DEDUCED, unsafe, log 34] -/
def Dev.headJ (d : Dev) : Nat :=
  match d.headSlot with
  | none => 0
  | some q => (d.slot q).jmax

/-- The sustainable line rate: the smaller of 120,000 and (U − 2.0 GB/s) / (2 S + J) (01 R30); 0 while U is below 2.0 GB/s, and
120,000 while 2 S + J is 0, for which the rule gives no value. [DEDUCED, unsafe, log 34] -/
def Dev.rateNow (d : Dev) : Nat :=
  let b := 2 * d.get R.LAS_SPILL_BYTES + d.headJ
  if b = 0 then 120000 else min 120000 ((d.bandwidth - 2000000000) / b)

/-- Recomputes 0x3410.03 and raises RATE_FELL when it falls (01 R31). -/
def Dev.reRate (d : Dev) : Dev :=
  let r := d.rateNow
  let d' := { d with job := { d.job with rate := r } }
  if r < d.job.rate then d'.raise Ev.RATE_FELL (r + 2 ^ 32 * d.job.rate) else d'

/-! ## Degradation level (13 R367) -/

/-- The cause mask of Table 13.6 with bit `b` set or clear. -/
def setMask (m b : Nat) (on : Bool) : Nat := if on then orBit m b else if hasBit m b then m - 2 ^ b else m

/-- Wells with a part on a channel out of service become unreadable in REDUCED, each reported once (03 R93). -/
def Dev.markUnreadable (d : Dev) : Dev :=
  forEach (List.range 16) (fun d w =>
    let x := d.well w
    if x.st != .free && !x.unread && (placeChannels x.place).any d.chOut then
      (d.setWell w { x with unread := true }).raise Ev.WELL_UNREADABLE w
    else d) d

/-- Base and size of fallback region `f` (07 R225). -/
def Dev.fallback (d : Dev) (f : Nat) : Nat × Nat := (d.get64 (R.LAS_FB_BASE_LO f), d.get64 (R.LAS_FB_SIZE_LO f))

/-- Every line of a long cistern that is not refilled leaves the cistern and reads MISSING in the ledger (07 R225). [DEDUCED, unsafe, log 60] -/
def Las.loseMiddles (l : Las) : Las :=
  let lost := (l.cis.filter (fun e => e.2.long)).flatMap (fun e => e.2.head.map (·.1) ++ e.2.mid)
  { l with
    cis := l.cis.map (fun e => if e.2.long then (e.1, { e.2 with head := [], mid := [], bad := [] }) else e)
    ledger := lost.foldl (fun g x =>
      if g.get .missing (x % 131072) = .data then g.put (x % 131072) .missing else g) l.ledger }

/-- Latency target of a port over the channels a placement uses: the largest. [DEDUCED, unsafe, log 78] -/
def Dev.target (d : Dev) (place i : Nat) : Nat :=
  (placeChannels place).foldl (fun m c => max m (d.get (R.DRC_TGT c i))) 0

/-- LAS_SIZE_RATE (R216). -/
def Dev.sizeRate (d : Dev) : Nat :=
  if d.las.cis.all (fun e => !e.2.long) then 120000
  else
    min 120000 (min ((d.las.hr - 1) * 1000000000 / (2 * d.target d.las.place 0))
      ((d.las.tr - 1) * 1000000000 / (2 * d.target d.las.place 1)))

/-- Recomputes LAS_SIZE_RATE and raises CISTERN_SIZE when the plan or a target brings it below 120,000 (R216). -/
def Dev.reSize (d : Dev) : Dev :=
  let d1 := d.set R.LAS_SIZE_RATE d.sizeRate
  if d.sizeRate < 120000 ∧ 120000 ≤ d.get R.LAS_SIZE_RATE then d1.raise Ev.CISTERN_SIZE d.sizeRate else d1

/-- In REDUCED a cistern region on the channel out of service is abandoned for the fallback region of the remaining channel
(07 R225). -/
def Dev.relocate (d : Dev) : Dev :=
  let r := if d.chOut 0 then 1 else 0
  let (fb, fs) := d.fallback r
  let need := d.get64 R.LAS_NEED_LO
  if !(placeChannels d.las.place).any d.chOut || d.las.size = 0 then d
  else
    let d1 := { d with las := d.las.loseMiddles }
    if fs = 0 ∨ fs < need then
      { d1 with las := { d1.las with unplaced := true } }.raise Ev.CISTERN_REGION (1 + 256)
    else if d1.meetsWell none (r + 1) fb fs then
      { d1 with las := { d1.las with unplaced := true } }.raise Ev.CISTERN_REGION (2 + 256)
    else
      (({ d1 with las := { d1.las with relocated := some r, unplaced := false, place := r + 1, base := fb, size := fs } }).raise
        Ev.CISTERN_RELOCATED r).reSize

/-- What the level REDUCED calls for while a channel is out of service: unreadable wells, and the cistern middles moved once
(03 R93, 07 R225); a region that found no place waits for a RESUME. -/
def Dev.reducedEffects (d : Dev) : Dev :=
  let d1 := d.markUnreadable
  if d1.las.unplaced then d1 else d1.relocate

/-- The level the causes call for now. -/
def Dev.wantLevel (d : Dev) : Level :=
  if hasBit d.evt.lvlActive 0 || hasBit d.evt.lvlActive 1 || (!d.chIn 0 && !d.chIn 1) then .basic
  else if hasBit d.evt.lvlActive 2 || hasBit d.evt.lvlActive 3 then .reduced
  else .full

/-- Enters REDUCED from FULL, with its effects (R367: 03 R93, 07 R225, 01 R31). -/
def Dev.enterReduced (d : Dev) : Dev :=
  let out := if d.chOut 0 then 0 else 1
  let d1 := { d with level := .reduced }.raise Ev.LEVEL_REDUCED (d.evt.lvlActive + 16 * out)
  d1.reducedEffects.reRate

/-- Enters BASIC. -/
def Dev.enterBasic (d : Dev) : Dev :=
  ({ d with level := .basic }.raise Ev.LEVEL_BASIC (d.evt.lvlActive + 16 * d.level.code)).reRate

/-- Raises the level where the causes call for it, never lowers it (R367); a channel lost in REDUCED has the effects of that level. -/
def Dev.levelUp (d : Dev) : Dev :=
  match d.level, d.wantLevel with
  | .full, .reduced => d.enterReduced
  | .full, .basic => d.enterBasic
  | .reduced, .basic => d.enterBasic
  | .reduced, _ => d.reducedEffects
  | _, _ => d

/-- The level follows the causes from the end of BOOT on (17 R469). -/
def Dev.raiseLevel (d : Dev) : Dev := if d.dstate = .keep ∨ d.dstate = .boot then d else d.levelUp

/-- A cause of Table 13.6 becomes active: it is latched, and the level rises where it must (R367). -/
def Dev.causeOn (d : Dev) (b : Nat) : Dev :=
  { d with evt := { d.evt with lvlActive := orBit d.evt.lvlActive b, lvlLatched := orBit d.evt.lvlLatched b } }.raiseLevel

/-- A cause is no longer active. -/
def Dev.causeOff (d : Dev) (b : Nat) : Dev :=
  { d with evt := { d.evt with lvlActive := setMask d.evt.lvlActive b false } }

/-- Position becomes invalid with a cause (02 R65): POS_INVALID, VALID clear, BASIC. -/
def Dev.posInvalid (d : Dev) (cause enc : Nat) : Dev :=
  if d.is R.POS_STATUS_VALID then
    (((d.raise Ev.POS_INVALID (cause + 256 * enc)).setB R.POS_STATUS_VALID false).set R.POS_STATUS_CAUSE cause).causeOn 0
  else d

/-! ## Items: extent, touch, causes, verdict (13 R350–R354) -/

/-- Bits of the cause mask (13 Table 13.2). -/
inductive Cause where
  | band | dose | dry | fireLate | notFired | unexpected | check | echoMissing | stepsLost | mismatch | memory | remote
  | notRun | basic | inhibit | position | resume | window | sluiceShut | dataLate | renderLate | field | noJob | noRows
  deriving DecidableEq, Repr

/-- The bit of a cause. -/
def Cause.bit : Cause → Nat
  | .band => 0 | .dose => 1 | .dry => 2 | .fireLate => 3 | .notFired => 4 | .unexpected => 5 | .check => 6
  | .echoMissing => 7 | .stepsLost => 8 | .mismatch => 9 | .memory => 10 | .remote => 11
  | .notRun => 16 | .basic => 17 | .inhibit => 18 | .position => 19 | .resume => 20 | .window => 21
  | .sluiceShut => 22 | .dataLate => 23 | .renderLate => 24 | .field => 25 | .noJob => 26 | .noRows => 27

/-- One past the last field line of a rendering. -/
def Rend.lineEnd (r : Rend) : Nat := r.fields.foldl (fun m f => max m (f.line + f.img.h * f.mh)) 0

/-- X of an item: one past the last raster line of its extent (R350). -/
def Item.extentEnd (i : Item) : Nat :=
  i.rends.foldl (fun m r => max m r.lineEnd) (max (ceilLine i.stop) (floorLine i.start + 1))

/-- The item touches raster line `L` (R351). -/
def Item.touchesLine (i : Item) (l : Nat) : Bool := decide (floorLine i.start ≤ l) && decide (l < i.extentEnd)

/-- Port mask M_i: VRD_IN.PORTS of the item's input. -/
def Dev.portMask (d : Dev) (i : Item) : Nat := d.get (R.VRD_IN_PORTS i.input)

/-- The item touches row `r` at fire step `k` (R351). -/
def Dev.touchesRow (d : Dev) (i : Item) (r k : Nat) : Bool :=
  let p := d.fireProf k
  let dc := classDelay p (rowClass p r)
  hasBit (d.portMask i) (rowPort p r) && decide (dc ≤ k) && i.touchesLine (k - dc)

/-- A step added to ranges of steps, newest first. -/
def addStep (k : Nat) : List (Nat × Nat) → List (Nat × Nat)
  | (a, b) :: r => if a ≤ k ∧ k ≤ b then (a, b) :: r else if k = b + 1 then (a, k) :: r else (k, k) :: (a, b) :: r
  | [] => [(k, k)]

/-- Rows `l` were issued, or reported fired, at step `k`: an undecided item that touches one is attempted (13 R353), and so is one accepted later. -/
def Dev.attempt (d : Dev) (l : List Nat) (k : Nat) : Dev :=
  { d with
    pos := { d.pos with rows := l.foldl (fun (m : SMap RowSt) r => m.put r { m.get {} r with issued := addStep k (m.get {} r).issued }) d.pos.rows }
    items := d.items.map (fun (i : Item) =>
      if i.decidedAt.isNone && l.any (fun r => d.touchesRow i r k) then { i with attempted := true } else i) }

/-- The item touches port `p` at fire step `k` (R351). -/
def Dev.touchesPort (d : Dev) (i : Item) (p k : Nat) : Bool :=
  (rowsOf (d.fireProf k)).any (fun r => rowPort (d.fireProf k) r == p && d.touchesRow i r k)

/-- Sets a cause bit; a bit that arrives after the decision is not applied (R355). -/
def Item.receive (i : Item) (c : Cause) : Item :=
  if i.decidedAt.isSome then i else { i with causes := orBit i.causes c.bit }

/-- Every item that `q` selects receives a cause (R352). -/
def Dev.causeItems (d : Dev) (c : Cause) (q : Item → Bool) : Dev :=
  { d with items := d.items.map (fun i => if q i then i.receive c else i) }

/-- An F bit of Table 13.2 is set. -/
def failBits (causes : Nat) : Bool := causes % 2 ^ 12 != 0

/-- The verdict of a decided item and the cause mask it leaves (R354). -/
def verdictOf (causes : Nat) (attempted : Bool) : Verdict × Nat :=
  if attempted && failBits causes then (.fail, causes)
  else if causes ≠ 0 then (.notMarked, causes)
  else if attempted then (.markedOk, causes)
  else (.notMarked, orBit causes Cause.noRows.bit)

/-- Replaces the item with a number. -/
def Dev.updItem (d : Dev) (n : Nat) (f : Item → Item) : Dev :=
  { d with items := d.items.map (fun i => if i.num = n then f i else i) }

/-- The item with a number (02 R69: exactly one). -/
def Dev.item? (d : Dev) (n : Nat) : Option Item := d.items.find? (fun i => i.num == n)

/-! ## Live traffic on a test's target (18 R486) -/

/-- The state is ARMED or RUN. -/
def Dev.atWork (d : Dev) : Bool := d.dstate == .armed || d.dstate == .run

/-- Live work on a test's target (18 Table 18.3; R486 names what ends a run). -/
def Dev.bistLive (d : Dev) (test target : Nat) : Bool :=
  if test = 1 ∧ target = 10 then (List.range 2).any (fun c => (d.exp.cmprs.get {} c).busy)
  else d.atWork || (test == 5 && (d.exp.cmprs.get {} target).busy)

/-- Live traffic that has started on the target of the running test ends its run, whatever comes of the traffic: ARM, a compressor task, a
DRAM channel that leaves service (18 R486). [DEDUCED, unsafe, log 90] -/
def Dev.bistTouch (d : Dev) : Dev :=
  { d with cal := { d.cal with bist := d.cal.bist.map (fun (b : BistRun) =>
      { b with abort := b.abort || d.bistLive b.test b.target || (b.test == 2 && !d.chIn b.target) }) } }

end Sys2Proof.Machine
end

