-- ==== Sys2Proof/Machine/Position.lean ====
section
/-! DEFINITION. Encoders, position, velocity, reversal, trigger pins, the inhibit pin (02 R46–R63, R67, R81). What a rise of the
weir sets off in the other subsystems stands in Pipeline.lean. -/

namespace Sys2Proof.Machine

/-! ## Counts (02 R46, R47, R49) -/

/-- An encoder input. -/
def Dev.enc (d : Dev) (n : Nat) : Enc := d.pos.encs.get {} n

/-- Replaces an encoder input. -/
def Dev.setEnc (d : Dev) (n : Nat) (e : Enc) : Dev := { d with pos := { d.pos with encs := d.pos.encs.put n e } }

/-- Step of a quadrature edge, forward when A leads B: +1, −1, or 0 when no single signal changed. [DEDUCED, unsafe, log 24] -/
def quadStep (a b a' b' : Bool) : Int :=
  if a != a' && b == b' then (if a' != b then 1 else -1)
  else if a == a' && b != b' then (if b' == a then 1 else -1)
  else 0

/-- Counts an edge gives under a DECODE setting: ×4 every edge, ×2 every edge of A, ×1 the one physical edge of each A
period, a rising edge of A forward and a falling one backward (R46). [DEDUCED, unsafe, log 24] -/
def quadCount (decode : Nat) (a b a' b' : Bool) : Int :=
  let st := quadStep a b a' b'
  if decode = 0 then st
  else if a == a' then 0
  else if decode = 1 then st
  else if b then 0 else st

/-- Turns of 2^n/4,096 period, widest first: their number of counts, cosine and sine times 2^48. -/
def encTurns : List (Nat × Int × Int) :=
  [(512, 199032864766430, 199032864766430), (256, 260048969897066, 107715810212518), (128, 276066513959654, 54913043845964),
   (64, 280119597762857, 27589372291508), (32, 281135927774060, 13811322488556), (16, 281390201710184, 6907741726938),
   (8, 281453782162583, 3454130953177), (4, 281469678023765, 1727097988720), (2, 281473652035816, 863553058405),
   (1, 281474645541751, 431777037209)]

/-- Angle of a vector of the first quadrant, 0–1,023 counts: each turn that does not pass the vector is taken. -/
def quarterAngle (x y : Int) : Nat :=
  (encTurns.foldl (fun (p : Nat × Int × Int) t =>
    if 0 ≤ p.2.2 * t.2.1 - p.2.1 * t.2.2 then
      (p.1 + t.1, p.2.1 * t.2.1 + p.2.2 * t.2.2, p.2.2 * t.2.1 - p.2.1 * t.2.2)
    else p) (0, x, y)).1

/-- The angle of a sample, in counts of 1/4,096 period (R47): 0 where SIN is 0 and COS positive, rising from COS to SIN; none of a
sample without a direction. [DEDUCED, unsafe, log 24] -/
def sampleAngle (sin cos : Int) : Option Nat :=
  if 0 < cos ∧ 0 ≤ sin then some (quarterAngle cos sin)
  else if cos ≤ 0 ∧ 0 < sin then some (1024 + quarterAngle sin (-cos))
  else if cos < 0 ∧ sin ≤ 0 then some (2048 + quarterAngle (-cos) (-sin))
  else if sin < 0 then some (3072 + quarterAngle (-sin) cos)
  else none

/-- The largest number whose square is at most `x`, below 2^`n`. -/
def rootBits : Nat → Nat → Nat → Nat
  | 0, _, r => r
  | n + 1, x, r => rootBits n x (if (r + 2 ^ n) * (r + 2 ^ n) ≤ x then r + 2 ^ n else r)

/-- Vector amplitude of a sample in ADC codes, rounded down (R50, ENC_AMP). [DEDUCED, unsafe, log 24] -/
def sampleAmp (sin cos : Int) : Nat := rootBits 14 (sin * sin + cos * cos).toNat 0

/-- Way from one angle to the next, the shorter way round: −2,048 to 2,047 counts (R47). -/
def angleStep (old new : Option Nat) : Int :=
  match old, new with
  | some x, some y => (((y : Int) - x + 2048) % 4096) - 2048
  | _, _ => 0

/-- The signed count change of an encoder edge or sample, reversed under ENC_CFG.DIR (R46, R47, R49). -/
def Dev.edgeDelta (d : Dev) (n : Nat) (x : EncEdge) : Int :=
  let e := d.enc n
  let raw := match x with
    | .quad a b => if d.is (R.ENC_CFG_MODE n) then 0 else quadCount (d.get (R.ENC_CFG_DECODE n)) e.a e.b a b
    | .analog s c => if d.is (R.ENC_CFG_MODE n) then angleStep e.ang (sampleAngle s c) else 0
  if d.is (R.ENC_CFG_DIR n) then -raw else raw

/-- An amplitude lies in 0.20–0.75 V peak: 2,048–7,680 codes of 0.8 V / 8,192 (R50, 18 R476). -/
def ampOk (a : Nat) : Bool := decide (2048 ≤ a) && decide (a ≤ 7680)

/-- Notes that a check fails from now on, or no longer fails (R66 asks whether a cause persists). -/
def Dev.encPersist (d : Dev) (n cause : Nat) (on : Bool) : Dev :=
  let e := d.enc n
  d.setEnc n { e with failing := if on then cause :: e.failing.erase cause else e.failing.erase cause }

/-- A pin of an encoder input changes while the device is held: the levels are followed, nothing is decoded or sampled. -/
def Dev.followPins (d : Dev) (n : Nat) (x : EncEdge) : Dev :=
  match x with
  | .quad a b => d.setEnc n { d.enc n with a := a, b := b }
  | .analog .. => d

/-- The encoder with count `c` after an edge or sample: levels, angle, amplitude, and whether its amplitude has now been outside
the limits for 4 consecutive samples (check 4 of Table 2.1). They are followed also while the input is disabled. -/
def Dev.followEdge (d : Dev) (n : Nat) (c : Int) (x : EncEdge) : Dev :=
  let e := d.enc n
  match x with
  | .quad a b => d.setEnc n { e with c := c, a := a, b := b }
  | .analog sin cos =>
    let bad := if ampOk (sampleAmp sin cos) then 0 else min 4 (e.ampBad + 1)
    ((d.setEnc n { e with c := c, ang := (sampleAngle sin cos).or e.ang, ampBad := bad }).set (R.ENC_AMP n)
      (sampleAmp sin cos)).encPersist n 4 (bad == 4)

/-- The encoder after a counted edge or sample: new levels, new signed 64-bit count. -/
def Dev.countEdge (d : Dev) (n : Nat) (x : EncEdge) : Dev :=
  d.followEdge n (toSigned 64 (ofSigned 64 ((d.enc n).c + d.edgeDelta n x))) x

/-- The source encoder, or none when position comes from the fabric (R55, R57). -/
def Dev.srcEnc (d : Dev) : Option Nat := if d.get R.POS_CTRL_SRC < 4 then some (d.get R.POS_CTRL_SRC) else none

/-- The check encoder while it is enabled (R55). -/
def Dev.chkEnc (d : Dev) : Option Nat :=
  if d.is R.POS_CTRL_CHK_EN then some (d.get R.POS_CTRL_CHK_SRC) else none

/-- Raw K of encoder `n` (R51). [DEDUCED, unsafe, log 33] -/
def Dev.ratio (d : Dev) (n : Nat) : Nat := d.get64 (R.ENC_CPL_LO n)

/-- pos_int of R52 from a count, with (c_l, p_l) the latched pair: floor division. -/
def posFrom (k : Nat) (c cl pl : Int) : Int := pl + ((c - cl) * (2 ^ 48 : Int)).fdiv (k : Int)

/-- pos_int of the source encoder now. -/
def Dev.srcPos (d : Dev) : Int :=
  match d.srcEnc with
  | some n => posFrom (d.ratio n) (d.enc n).c d.pos.cL d.pos.pL
  | none => d.pos.posInt

/-- Position of the check encoder, by its count since the last load of the source (R55). -/
def Dev.chkPos (d : Dev) (n : Nat) : Int := posFrom (d.ratio n) (d.enc n).c (d.enc n).cl d.pos.chkP

/-- The check encoder whose position differs from the source's by more than CHK_LIMIT, in 1/256 line (R55). -/
def Dev.checkApart (d : Dev) : Option Nat :=
  d.chkEnc.filter (fun n => decide (d.get R.CHK_LIMIT * 256 < (d.chkPos n - d.srcPos).natAbs))

/-! ## Velocity and prediction (02 R58–R60, R63) -/

/-- pos_int at an earlier clock, from the list of counts, newest first; 0 before the first one. [DEDUCED, unsafe, log 25] -/
def posAt : List (Nat × Int) → Nat → Int
  | [], _ => 0
  | (t, p) :: r, k => if t ≤ k then p else posAt r k

/-- The counts that the largest velocity window of 2^20 ns still needs: those inside it and the one before. -/
def pruneHist (now : Nat) : List (Nat × Int) → List (Nat × Int)
  | [] => []
  | (t, p) :: r => if t + 2 ^ 20 ≤ now then [(t, p)] else (t, p) :: pruneHist now r

/-- pos_int `w` clocks ago; 0 where that lies before the first clock. -/
def Dev.posAgo (d : Dev) (w : Nat) : Int := if d.now < w then 0 else posAt d.pos.hist (d.now - w)

/-- Velocity as the signed 32-bit VEL value (R58), over the elapsed time after a cleared reversal (R63). -/
def Dev.vel (d : Dev) : Int :=
  if d.get R.POS_CTRL_SRC = 4 then d.pos.fabVel
  else
    let w := 2 ^ d.get R.VEL_WIN
    match d.pos.tClr with
    | some t =>
      if d.now - t < w then
        if d.now = t then 0
        else toSigned 32 (ofSigned 32 (((d.pos.posInt - posAt d.pos.hist t) * 65536).fdiv ((d.now - t : Nat) : Int)))
      else toSigned 32 (ofSigned 32 (((d.pos.posInt - d.posAgo w) * 65536).fdiv (w : Int)))
    | none => toSigned 32 (ofSigned 32 (((d.pos.posInt - d.posAgo w) * 65536).fdiv (w : Int)))

/-- The substrate is moving: v is at least FIR_VMIN lines per second (R60). -/
def Dev.moving (d : Dev) : Bool := decide ((d.get R.FIR_VMIN : Int) * 2 ^ 32 ≤ d.vel * 1000000000)

/-- A full window has passed since a reversal was cleared (R63). -/
def Dev.windowFull (d : Dev) : Bool :=
  match d.pos.tClr with
  | some t => decide (t + 2 ^ d.get R.VEL_WIN ≤ d.now)
  | none => true

/-- Prediction is on (R60, R63), or as the anchor's message says (14 R389). -/
def Dev.predOn (d : Dev) : Bool :=
  if d.get R.POS_CTRL_SRC = 4 then d.pos.fabPred else d.moving && d.windowFull

/-- The extrapolated position at clock `t` (R59): arithmetic shift of v × (t − t_c); over the fabric the times are those of the device time
(14 R389). [DEDUCED, unsafe, log 26] -/
def Dev.extrap (d : Dev) (t : Int) : Int :=
  if d.get R.POS_CTRL_SRC = 4 then
    d.pos.posInt + (d.vel * ((d.timeNs : Int) + (t - (d.now : Int)) - (d.pos.fabAt : Int))).fdiv 65536
  else match d.pos.hist with
  | [] => d.pos.posInt
  | (tc, pc) :: _ => pc + (d.vel * (t - (tc : Int))).fdiv 65536

/-! ## Position, weir, reversal (02 R52, R61–R63) -/

/-- pos_int takes a new value at a count. -/
def Dev.setPos (d : Dev) (p : Int) : Dev :=
  { d with pos := { d.pos with posInt := p, hist := (d.now, p) :: pruneHist d.now d.pos.hist } }

/-- Backward travel b = C_W − C in counts (R61). -/
def Dev.backTravel (d : Dev) : Int :=
  match d.srcEnc with
  | some n => d.pos.cW - (d.enc n).c
  | none => 0

/-- Ends a reversal: REVERSAL_CLEARED, prediction restarts (R62, R63). -/
def Dev.endReversal (d : Dev) : Dev :=
  if d.pos.reversal then
    ({ d with pos := { d.pos with reversal := false, excursion := false, tClr := some d.now } }.setB
      R.POS_STATUS_REVERSED false).raise Ev.REVERSAL_CLEARED (floorLine d.pos.weir % 2 ^ 48)
  else d

/-- Backward travel after a count: absorbed up to WEIR_DEPTH and counted once for each excursion, reversal beyond it
(R61, R62). -/
def Dev.checkBack (d : Dev) : Dev :=
  let b := d.backTravel
  if b ≤ 0 then
    let d1 := match d.srcEnc with
      | some n => { d with pos := { d.pos with cW := (d.enc n).c, excursion := false } }
      | none => d
    if d1.pos.reversal && decide ((d1.pos.weir : Int) ≤ d1.pos.posInt) then d1.endReversal else d1
  else if d.pos.reversal then
    if (d.pos.weir : Int) ≤ d.pos.posInt then d.endReversal else d
  else if b ≤ d.get R.WEIR_DEPTH then
    if d.pos.excursion then d
    else { d with pos := { d.pos with excursion := true } }.bump R.REV_ABS_CNT 1
  else
    ((({ d with pos := { d.pos with reversal := true, excursion := true } }).setB R.POS_STATUS_REVERSED true).bump
      R.REV_CNT 1).raise Ev.REVERSAL (b.toNat % 2 ^ 32)

/-- A check encoder too far from the source makes position invalid with cause 6 (R55). [DESIGN CHOICE, unsafe, log 112] -/
def Dev.compareCheck (d : Dev) : Dev :=
  match d.checkApart with
  | some n => d.posInvalid 6 n
  | none => d

/-- `p` becomes the load point of the source and of every other encoder: P_L = `p`, C_L, C_W and the counts a check encoder is
measured from are the current counts, and no excursion is under way (R52, R55, R56, R61, R66). [DEDUCED, unsafe, log 25] -/
def Dev.latchAt (d : Dev) (p : Int) : Dev :=
  let c := match d.srcEnc with
    | some n => (d.enc n).c
    | none => 0
  { d with pos := { d.pos with
      pL := p, cL := c, cW := c, chkP := p, excursion := false, encs := d.pos.encs.map (fun e => (e.1, { e.2 with cl := e.2.c })) } }

/-! ## Commands -/

/-- ENC_STATUS bit of a cause of Table 2.1. -/
def encStatusBit (cause : Nat) : Option Nat :=
  match cause with
  | 1 => some 0 | 2 => some 1 | 3 => some 2 | 4 => some 3 | 5 => some 4 | 8 => some 5
  | _ => none

/-- A check of Table 2.1 applies to an encoder in this mode: 1 and 2 in digital mode, 4 and 5 in analog mode. -/
def checkApplies (cause : Nat) (analog : Bool) : Bool :=
  match cause with
  | 1 => !analog | 2 => !analog | 4 => analog | 5 => analog
  | _ => true

/-- A check of Table 2.1 fails on an enabled encoder: its ENC_STATUS bit is set, and for the source or check encoder position
becomes invalid (R50). -/
def Dev.encFail (d : Dev) (n cause : Nat) : Dev :=
  match encStatusBit cause with
  | none => d
  | some b =>
    if d.is (R.ENC_CFG_EN n) && checkApplies cause (d.is (R.ENC_CFG_MODE n)) then
      let d1 := d.set (R.ENC_STATUS n) (orBit (d.get (R.ENC_STATUS n)) b)
      if d.srcEnc = some n ∨ d.chkEnc = some n then d1.posInvalid cause n else d1
    else d

/-- Every check that fails at present, looked at again: the checks run continuously (R50, R55), so one that fails already counts when
its encoder is enabled or becomes the source or the check encoder, and sets a status bit again that was cleared. -/
def Dev.encReview (d : Dev) : Dev :=
  (forEach ((List.range 4).flatMap (fun n => (d.enc n).failing.map (fun c => (n, c)))) (fun (d : Dev) x => d.encFail x.1 x.2)
    d).compareCheck

/-- A change of POS_CTRL.SRC takes effect outside RUN: position carries on from its value without a step (R55). -/
def Dev.srcChange (d : Dev) (src : Nat) : Dev :=
  if d.dstate = .run ∨ 5 ≤ src then d
  else
    let d1 := d.set R.POS_CTRL_SRC src
    if src < 4 then (d1.latchAt d.pos.posInt).encReview
    else if d1.pos.persist ≠ [] then d1.encReview.posInvalid 7 0 else d1.encReview

/-- POS_SRC_CHANGE. -/
def execPosSrcChange (src : Nat) (s : State) : Out := onHost (fun d => d.srcChange src) s

/-- ENCODER_CHECK_FAIL. -/
def execEncoderCheckFail (enc cause : Nat) (phase : CheckPhase) (s : State) : Out :=
  onDevIf (decide (enc < 4)) (fun d =>
    match phase with
    | .momentary => d.encFail enc cause
    | .begins => (d.encPersist enc cause true).encFail enc cause
    | .ends => d.encPersist enc cause false) s

/-- The checks of Table 2.1 that an edge or sample itself shows: A and B changed together (1), 4 consecutive samples outside the
amplitude limits (4), an angle that moved by more than 1/4 period (5). `e` is the encoder before it. -/
def Dev.edgeChecks (d : Dev) (n : Nat) (e : Enc) (x : EncEdge) : Dev :=
  match x with
  | .quad a b => if e.a != a && e.b != b then d.encFail n 1 else d
  | .analog sin cos =>
    let d1 := if (d.enc n).ampBad = 4 then d.encFail n 4 else d
    if 1024 < (angleStep e.ang (sampleAngle sin cos)).natAbs then d1.encFail n 5 else d1

/-- A rising edge of Z: the count difference since the edge before, whichever way the motion went, is compared with ENC_CPR ± ENC_ZTOL
(R54). An input that is disabled is not checked (R50), and the first edge after it is enabled ends no revolution. [DEDUCED, unsafe, log 110] -/
def Dev.zEdge (d : Dev) (n : Nat) : Dev :=
  let e := d.enc n
  if !d.is (R.ENC_CFG_EN n) then d.setEnc n { e with lastZ := none } else
  let d1 := d.setEnc n { e with lastZ := some e.c }
  match e.lastZ with
  | none => d1
  | some z =>
    let m := (e.c - z).natAbs
    let cpr := d.get (R.ENC_CPR n)
    let tol := d.get (R.ENC_ZTOL n)
    if d.get (R.ENC_CFG_ZCHK n) ≠ 0 ∧ (m + tol < cpr ∨ cpr + tol < m) then
      let d2 := d1.raise Ev.ENC_Z_MISMATCH (m % 2 ^ 32 + 2 ^ 32 * n)
      if d.get (R.ENC_CFG_ZCHK n) = 2 then d2.encFail n 8 else d2
    else d1

/-- Z_RISING_EDGE. -/
def execZRisingEdge (enc : Nat) (s : State) : Out := onDevIf (decide (enc < 4)) (fun d => d.zEdge enc) s

/-- PREDICTION_WINDOW_END: a full window has passed since t_clr, v follows R58 again (R63). -/
def execPredictionWindowEnd (s : State) : Out :=
  onDev (fun d => if d.windowFull then { d with pos := { d.pos with tClr := none } } else d) s

/-- A trigger input. -/
def Dev.trg (d : Dev) (i : Nat) : Trg := d.pos.trgs.get {} i

/-- Replaces a trigger input. -/
def Dev.setTrg (d : Dev) (i : Nat) (t : Trg) : Dev := { d with pos := { d.pos with trgs := d.pos.trgs.put i t } }

/-- A trigger pin changes: an active edge of an enabled input starts the filter time, any other change ends it (R67). [DEDUCED, unsafe, log 25] -/
def Dev.trgEdge (d : Dev) (i : Nat) (level : Bool) : Dev :=
  let t := d.trg i
  let active := level != d.is (R.TRG_CFG_EDGE i)
  if t.level == level then d
  else d.setTrg i { t with level := level, edgeAt := if active && d.is (R.TRG_CFG_EN i) then some d.now else none }

/-- TRIGGER_EDGE. -/
def execTriggerEdge (input : Nat) (level : Bool) (s : State) : Out :=
  onPin (decide (input < 8)) (fun d => d.trgEdge input level) s

/-- The filtered level of FIRE_INHIBIT_N changes (R81); the events are raised from IDLE on. -/
def Dev.inhibitTo (d : Dev) (on : Bool) : Dev :=
  if d.pos.inhibit == on then d
  else
    let d1 := { d with pos := { d.pos with inhibit := on } }
    if d.dstate = .boot ∨ d.awake = false then d1
    else d1.raise (if on then Ev.INHIBIT_ASSERTED else Ev.INHIBIT_RELEASED) 0

/-- INHIBIT_ASSERTED. -/
def execInhibitAsserted (s : State) : Out := onPin true (fun d => d.inhibitTo true) s

/-- INHIBIT_RELEASED. -/
def execInhibitReleased (s : State) : Out := onPin true (fun d => d.inhibitTo false) s

/-- A cause of position loss persists (R66): a failing check of the source or check encoder, a check disagreement, or loss of
fabric position. -/
def Dev.causePersists (d : Dev) : Bool :=
  (List.range 4).any (fun n => (d.srcEnc == some n || d.chkEnc == some n) && d.is (R.ENC_CFG_EN n) &&
    (d.enc n).failing.any (fun c => checkApplies c (d.is (R.ENC_CFG_MODE n)))) ||
  d.checkApart.isSome || (d.get R.POS_CTRL_SRC == 4 && d.pos.persist != [])

/-- A restore is accepted while position is invalid and no cause persists (R66). -/
def Dev.restoreOk (d : Dev) : Bool := !d.is R.POS_STATUS_VALID && !d.causePersists

/-- What both restores do (R66): C_W from the current count, end of a reversal, VALID, POS_RESTORED. -/
def Dev.restored (d : Dev) (loaded : Nat) : Dev :=
  ((d.endReversal.setB R.POS_STATUS_VALID true).causeOff 0).raise Ev.POS_RESTORED loaded

/-- RESTORE_KEEP: position counts on from the current count, which is latched with the current position (R52, R66). -/
def Dev.restoreKeep (d : Dev) : Dev := if d.restoreOk then (d.latchAt d.pos.posInt).restored 0 else d

/-- RESTORE_KEEP. -/
def execRestoreKeep (s : State) : Out := onHost Dev.restoreKeep s

end Sys2Proof.Machine
end

