-- ==== Sys2Proof/Machine/Expand.lean ====
section
/-! DEFINITION. Band walks, the 32 decompression engines at slice-line steps, the two compressors (04 R117–R148). Each engine keeps
the context of every open segment from line to line (R122); every segment starts with empty history (R124). -/

namespace Sys2Proof.Machine

/-! ## Reading wells (03 R93, R94) -/

/-- `n` bytes of a well from offset `o` as a job read delivers them; `none` is a bus error: the well is unreadable (R93), its
channel out of service, or a word is uncorrectable. -/
def Dev.wellRead (d : Dev) (m : Mem) (w o n : Nat) : Option (List Byte) :=
  let x := d.well w
  if x.unread || !(placeChannels x.place).all d.chIn then none else m.read x.place (x.base + o) n

/-! ## Band walk (R127) -/

/-- Segments of the job's first walked band: the layout every band must repeat. -/
def Dev.layout (d : Dev) (q : Nat) : Option (List Seg) := d.exp.lays.find? q

/-- A segment that ends with a code because the walk could not reach or accept its header. -/
def deadSeg (slice plane code : Nat) : Seg :=
  { slice := slice, plane := plane, raw := false, blank := false, colFirst := 0, colCount := 0, payLen := 0, rawLen := 0,
    crc := 0, ofs := 0, bad := some code }

/-- A layout that lists every segment of the first band. -/
def wholeLayout (lay : Option (List Seg)) : Option (List Seg) := lay.filter (fun l => l.all (fun s => s.bad.isNone))

/-- Segments of the rest of a band whose place cannot be found: as the layout lists them, or one for each remaining slice of
the slice mask while no whole layout is known. [DEDUCED, unsafe, log 45] -/
def restDead (lay : Option (List Seg)) (mask i from_ code : Nat) : List Seg :=
  match wholeLayout lay with
  | some l => (l.drop i).map (fun s => { s with bad := some code, ofs := 0, payLen := 0 })
  | none => ((List.range 32).filter (fun s => hasBit mask s && decide (from_ ≤ s))).map (fun s => deadSeg s 0 code)

/-- Walks the headers of band `b` from well offset `o`: `i` is the index of the next one, `left` how many remain. An entry of the first
band that could not be read is compared with nothing, nor is one past the layout its walk left; a header that cannot be read ends its segment and those behind it with READ. [DESIGN CHOICE, unsafe, log 119] -/
def walkGo (rd : Nat → Nat → Option (List Byte)) (lay : Option (List Seg)) (mask b : Nat) :
    (left i o from_ : Nat) → List Seg
  | 0, _, _, _ => []
  | left + 1, i, o, from_ =>
    match rd o 32 with
    | none => restDead lay mask i from_ SegCode.read.num
    | some bs =>
      let r := parseSeg bs o
      let same := match lay with
        | some l => match l.drop i with
          | x :: _ => x.bad.isSome || sameLayout x r.seg
          | [] => true
        | none => true
      if r.magic = 0x47535844 ∧ r.hdrCrc = crc32c (bs.take 28) ∧ r.band = b ∧ same = true then
        r.seg :: walkGo rd lay mask b left (i + 1) (o + 32 + pad8 r.seg.payLen) r.seg.slice
      else restDead lay mask i from_ SegCode.header.num

/-- The walk of band `b` of slot `q` (R127). -/
def Dev.walkBand (d : Dev) (m : Mem) (q b : Nat) : List Seg :=
  let x := d.slot q
  let rd := fun o n => d.wellRead m x.well o n
  match rd (x.hdr.tableOfs + 16 * b) 16 with
  | none => restDead (d.layout q) x.hdr.sliceMask 0 0 SegCode.read.num
  | some e => walkGo rd (d.layout q) x.hdr.sliceMask b x.hdr.segs 0 (parseBandEntry e).ofs 0

/-- n_s: segments of a slice in a band. -/
def segsOfSlice (l : List Seg) (s : Nat) : List Seg := l.filter (fun x => x.slice == s)

/-- H_s (R123): 32,768 / 2^⌈log2 n_s⌉. -/
def histOf (n : Nat) : Nat := if n ≤ 1 then 32768 else if n = 2 then 16384 else if n ≤ 4 then 8192 else 4096

/-- An engine. -/
def Dev.eng (d : Dev) (e : Nat) : Engine := d.exp.engines.get {} e

/-- Replaces an engine. -/
def Dev.setEng (d : Dev) (e : Nat) (x : Engine) : Dev := { d with exp := { d.exp with engines := d.exp.engines.put e x } }

/-- The walked segments of a band. -/
def Dev.walkOf (d : Dev) (q b : Nat) : Option (List Seg) :=
  (d.exp.walks.find? (fun w => w.slot == q && w.band == b)).map (·.segs)

/-- Bytes of a staged line that belong to beats not yet taken: `taken` beats of 64 columns are gone. -/
def StagedLine.left (x : StagedLine) (taken : Nat) : Nat :=
  (x.parts.map (fun p => p.2.length)).sum * (128 - taken) / 128

/-- Beats of slice `e` already taken from raster line `l`. -/
def Dev.beatsTaken (d : Dev) (e l : Nat) : Nat := if d.dos.line = some l then d.dos.taken.get 0 e else 0

/-- Bytes in an engine's output staging (R128). [DEDUCED, safe, log 46] -/
def Dev.stagedBytes (d : Dev) (e : Nat) : Nat :=
  ((d.eng e).staged.map (fun x => x.left (d.beatsTaken e x.line))).sum

/-- Engine states that follow from what waits (Table 4.3): RUN while a released line whose band is walked waits and staging
has room, HALT until a line of another band than the abandoned one waits and that band is walked, PRIME from IDLE while a walk runs, else WAIT
or, with no band walked or asked for, IDLE. [DEDUCED, safe, log 46] -/
def Dev.settle (d : Dev) (e : Nat) : Dev :=
  let x := d.eng e
  if x.st = .off then d
  else
    let st : EngState :=
      match x.pend with
      | [] =>
        if x.haltBand.isSome then .halt
        else if !d.exp.walkPend.isEmpty then (if x.st = .idle ∨ x.st = .prime then .prime else .wait)
        else if d.exp.walks.isEmpty then .idle else .wait
      | l :: _ =>
        let b := l.jline / (d.slot l.slot).hdr.bandLines
        if x.haltBand = some (l.slot, b) then .halt
        else if (d.walkOf l.slot b).isNone then
          (if x.haltBand.isSome then .halt else if x.st = .idle ∨ x.st = .prime then .prime else .wait)
        else if d.stagedBytes e < 32768 then .run else .wait
    d.setEng e { x with st := st }

/-- Every engine's state follows. -/
def Dev.settleAll (d : Dev) : Dev := forEach (List.range 32) (fun (d : Dev) e => d.settle e) d

/-- Asks for the walk of a band (R127); idle engines go to PRIME (Table 4.3). -/
def Dev.askWalk (d : Dev) (q b : Nat) : Dev :=
  if b < (d.slot q).hdr.bandCount ∧ !(d.exp.walkPend.contains (q, b)) ∧
      !(d.exp.walks.any (fun w => w.slot == q && w.band == b)) then
    { d with exp := { d.exp with walkPend := d.exp.walkPend ++ [(q, b)] } }.settleAll
  else d

/-- Raster line of job line `j` of slot `q` (03 R97). -/
def Dev.rasterOf (d : Dev) (q j : Nat) : Nat :=
  let x := d.slot q
  x.s.getD 0 + j - x.firstBand * x.hdr.bandLines

/-- First and one past the last raster line of band `b` of slot `q`; lines an ended job never released belong to no job (03 R102). -/
def Dev.bandSpan (d : Dev) (q b : Nat) : Nat × Nat :=
  let x := d.slot q
  let lo := d.rasterOf q (b * x.hdr.bandLines)
  let hi := lo + bandLinesOf x.hdr b
  (lo, if x.st = .ended then min hi (x.s.getD 0 + x.released) else hi)

/-- The item touches band-slice (band, s) of slot `q` (13 R351). -/
def Dev.touchesBand (d : Dev) (i : Item) (q b s : Nat) : Bool :=
  let (lo, hi) := d.bandSpan q b
  hasBit (d.portMask i) s && decide (lo < hi) && decide (floorLine i.start < hi) && decide (lo < i.extentEnd)

/-- A band-slice is reported; the items that touch an unproven one receive FAIL (R135). [DEDUCED, unsafe, log 43] -/
def Dev.reportBand (d : Dev) (q b s : Nat) (proven : Bool) : Dev :=
  if d.exp.reported.any (fun r => r.slot == q && r.band == b && r.slice == s && !r.again) then d
  else
    let d1 := { d with exp := { d.exp with
      reported := { slot := q, band := b, slice := s, proven := proven } ::
        d.exp.reported.filter (fun r => !(r.slot == q && r.band == b && r.slice == s)) } }
    if proven then d1
    else (d1.causeItems .band (fun i => d.touchesBand i q b s)).bump R.EXP_UNPROVEN_CNT 1

/-- The band-slices of slices that are not expanded at all are unproven (R122, R135). [DEDUCED, unsafe, log 44] -/
def Dev.reportBad (d : Dev) (q b : Nat) : Dev := forEach (d.slot q).badSlices (fun d s => d.reportBand q b s false) d

/-- BAND_WALK_DONE (R122, R127): the walk is recorded; on the job's first walk a slice with more than eight segments is
reported and not expanded. -/
def Dev.walkDone (d : Dev) (m : Mem) (q b : Nat) : Dev :=
  if d.exp.walkPend.contains (q, b) then
    let segs := d.walkBand m q b
    let first := (d.layout q).isNone
    let d1 := { d with exp := { d.exp with
      walkPend := d.exp.walkPend.erase (q, b), walks := d.exp.walks ++ [{ slot := q, band := b, segs := segs }]
      lays := if first then d.exp.lays.put q segs else d.exp.lays } }
    let tooMany := if first then (List.range 32).filter (fun s => decide (8 < (segsOfSlice segs s).length)) else []
    let d2 := forEach tooMany (fun d s => d.raise Ev.SLICE_SEGMENTS (s + 256 * (segsOfSlice segs s).length)) d1
    let d3 := if tooMany = [] then d2 else d2.setSlot q { d2.slot q with badSlices := tooMany }
    let d4 := if tooMany = [] then d3 else
      { d3 with exp := { d3.exp with engines := d3.exp.engines.map (fun e =>
        if tooMany.contains e.1 then (e.1, { e.2 with pend := e.2.pend.filter (fun l => l.slot != q) }) else e) } }
    forEach (List.range 32) (fun d s =>
      let n := (segsOfSlice segs s).length
      if hasBit (d.slot q).hdr.sliceMask s then
        (((d.set (R.ENG_STATUS_SEGS s) (min n 8)).set (R.ENG_HIST s) (histOf n)).set (R.ENG_BAND s) b).settle s
      else d) (if first && decide (bandLinesOf (d.slot q).hdr b ≤ (d.slot q).released) then d4.reportBad q b else d4)
  else d

/-! ## Expanding one segment (R117, R118, R134) -/

/-- Bytes of a well up to the first 64-byte burst that a job read cannot deliver. -/
def wellPrefix (rd : Nat → Nat → Option (List Byte)) : (fuel o n : Nat) → List Byte
  | 0, _, _ => []
  | f + 1, o, n =>
    if n = 0 then []
    else
      let k := min n (64 - o % 64)
      match rd o k with
      | none => []
      | some b => b ++ wellPrefix rd f (o + k) (n - k)

/-- The payload of a segment from byte `k` on, as far as job reads deliver it. -/
def Dev.payload (d : Dev) (m : Mem) (w : Nat) (s : Seg) (k : Nat) : List Byte :=
  match d.wellRead m w (s.ofs + k) (s.payLen - k) with
  | some p => p
  | none => wellPrefix (fun o n => d.wellRead m w o n) (s.payLen / 64 + 2) (s.ofs + k) (s.payLen - k)

/-- What one line makes of a segment: its context then, all bytes it has delivered, the code that ends it if any, the payload byte of the
error. -/
structure SegRun where
  seg : Seg
  ctx : Ctx
  out : List Byte
  code : Option Nat
  errAt : Nat
  deriving DecidableEq, Repr

/-- Payload bytes up to the end of the 64-byte burst that holds byte `n`. -/
def Seg.burstEnd (s : Seg) (n : Nat) : Nat := ceilDiv (s.ofs + n) 64 * 64 - s.ofs

/-- A segment expanded on from its context until it has delivered `target` bytes (R122, R125). Payload bytes once read stay in the context; a
read that fails ends the segment where its decoder needs the word (R137). -/
def Dev.expandSeg (d : Dev) (m : Mem) (w : Nat) (s : Seg) (hist target : Nat) (c : Ctx) : SegRun :=
  if s.bad.isSome then { seg := s, ctx := c, out := [], code := s.bad, errAt := 0 }
  else if s.blank then { seg := s, ctx := c, out := List.replicate (min target s.rawLen) 0, code := none, errAt := 0 }
  else
    let p := c.pay ++ d.payload m w s c.pay.length
    let short := decide (p.length < s.payLen)
    if s.raw then
      let n := min target s.payLen
      { seg := s, ctx := { c with pay := p.take (s.burstEnd n) }, out := p.take n,
        code := if p.length < n then some SegCode.read.num else none, errAt := p.length }
    else
      let y := inflate c.inf p s.rawLen hist target
      let r := { seg := s, ctx := { pay := p.take (s.burstEnd (ceilDiv y.pos 8)), inf := y }, out := y.out.reverse, code := y.err,
                 errAt := (y.pos - 1) / 8 : SegRun }
      if short && y.err == some SegCode.trunc.num then { r with code := some SegCode.read.num, errAt := p.length }
      else if short && y.phase == .done && y.err.isNone then { r with code := some SegCode.trail.num }
      else r

/-- The line of the band being expanded when a code arises: where output stopped, the band's last line when all bytes of the
segment had been produced (R136). -/
def errLine (delivered lineBytes lines : Nat) : Nat :=
  if lineBytes = 0 then 0 else min (delivered / lineBytes) (lines - 1)

/-- A segment ends with code 1–16: SEG_ERROR once for the band-slice, HALT, band-slice unproven (R136). [DEDUCED, unsafe, log 44] -/
def Dev.haltEngine (d : Dev) (e q b plane code ofs : Nat) : Dev :=
  let x := d.eng e
  let d1 := d.setEng e { x with haltBand := some (q, b), st := .halt,
                                ctxAt := none, ctxs := [],
                                pend := x.pend.filter (fun l => !(l.slot == q &&
                                  l.jline / (d.slot q).hdr.bandLines == b)) }
  let d2 := (d1.raise Ev.SEG_ERROR (e + 32 * plane + 256 * code + 65536 * (b % 2 ^ 32))).set R.EXP_ERR
    (orBit (d1.get R.EXP_ERR) e)
  let d3 := (((d2.bump R.EXP_ERR_CNT 1).bump (R.ENG_ERR_CNT e) 1).set (R.ENG_STATUS_LAST_ERR e) code).set
    (R.ENG_ERR_BAND e) b
  ((d3.set (R.ENG_ERR_PLANE e) plane).set64 (R.ENG_ERR_OFS_LO e) ofs).reportBand q b e false

/-- A segment fails its payload CRC (R134, R136). -/
def Dev.segCrcFail (d : Dev) (e b plane : Nat) : Dev :=
  let d1 := (d.raise Ev.SEG_CRC (e + 32 * plane + 65536 * (b % 2 ^ 32))).set R.EXP_ERR (orBit (d.get R.EXP_ERR) e)
  (((d1.bump R.EXP_CRC_CNT 1).bump (R.ENG_CRC_CNT e) 1).set (R.ENG_STATUS_LAST_ERR e) SegCode.crc.num).set
    (R.ENG_ERR_PLANE e) plane |>.set (R.ENG_ERR_BAND e) b

/-- State of a raster line in the ledger (07 R210). -/
def Dev.ledgerAt (d : Dev) (l : Nat) : LineState := d.las.ledger.get .missing (l % 131072)

/-- A segment of a slice that has ended with a code on or before line `i` of its band. -/
def endedBy (fmt : Nat → Nat) (depth lines i : Nat) (r : SegRun) : Bool :=
  r.code.isSome && decide (errLine r.out.length (lineLen (fmt r.seg.plane) depth r.seg.colCount) lines ≤ i)

/-- A segment expanded whole passes its payload CRC (R134). -/
def SegRun.crcOk (r : SegRun) : Bool := r.seg.blank || crc32c r.out == r.seg.crc

/-- The payload CRC of each segment that ended without a code is compared at the band's last line (R134). -/
def Dev.crcChecks (d : Dev) (e b : Nat) (res : List SegRun) : Dev :=
  forEach (res.filter (fun r => !r.crcOk)) (fun d r => d.segCrcFail e b r.seg.plane) d

/-- The band of a waiting line. -/
def Dev.bandOf (d : Dev) (l : RelLine) : Nat := l.jline / (d.slot l.slot).hdr.bandLines

/-- Bytes of one line of a segment of a job. -/
def DxsHdr.segLine (h : DxsHdr) (s : Seg) : Nat := lineLen (planeFormat h s.plane) h.depth s.colCount

/-- The contexts an engine holds for a (slot, band), or `n` fresh ones (R124). [DEDUCED, unsafe, log 117] -/
def Engine.ctxsFor (x : Engine) (at_ : Nat × Nat) (n : Nat) : List Ctx := if x.ctxAt = some at_ then x.ctxs else List.replicate n {}

/-- What engine `e` makes of each segment of its slice at line `l`, in stream order: output up to the line's end, of the band's last line up to
the segment's end. `readErr` names the segment of the slice whose read of the engine's window returned a bus error. -/
def Dev.lineRuns (d : Dev) (m : Mem) (e : Nat) (l : RelLine) (all : List Seg) (readErr : Option Nat) : List SegRun :=
  let sl := d.slot l.slot
  let h := sl.hdr
  let b := d.bandOf l
  let i := l.jline % h.bandLines
  let segs := segsOfSlice all e
  (segs.zip ((d.eng e).ctxsFor (l.slot, b) segs.length)).zipIdx.map (fun p =>
    let s := p.1.1
    let r := d.expandSeg m sl.well s (histOf segs.length) (if i + 1 = bandLinesOf h b then s.rawLen + 1 else h.segLine s * (i + 1)) p.1.2
    if readErr == some p.2 then { r with out := r.out.take (h.segLine s * i), code := some SegCode.read.num } else r)

/-- The line's bytes of each segment, in stream order, up to and with the first that ends with a code; the rest deliver nothing. -/
def lineParts (h : DxsHdr) (lines i : Nat) (res : List SegRun) : List (Seg × List Byte) :=
  let good := res.takeWhile (fun r => !endedBy (planeFormat h) h.depth lines i r)
  let bad := res.drop good.length
  (good ++ bad.take 1).map (fun r => (r.seg, sliceOf r.out (h.segLine r.seg * i) (h.segLine r.seg))) ++
    (bad.drop 1).map (fun r => (r.seg, []))

/-- A drained job that late engines still expand keeps its header, walks and results under a number above 15 (log 122) until no engine
holds a line of it. [DESIGN CHOICE, unsafe, log 122] -/
def Dev.sweep (d : Dev) : Dev :=
  let stay := fun (q : Nat) => decide (q < 16) || d.exp.engines.any (fun e => e.2.pend.any (fun l => l.slot == q))
  { d with
    job := { d.job with slots := d.job.slots.filter (fun x => stay x.1) }
    exp := { d.exp with walkPend := d.exp.walkPend.filter (fun w => stay w.1), walks := d.exp.walks.filter (fun w => stay w.slot)
                        lays := d.exp.lays.filter (fun x => stay x.1), reported := d.exp.reported.filter (fun r => stay r.slot) } }

/-- SLICE_LINE_DONE (R118, R125, R134–R136): engine `e` expands its waiting line into staging, segment after segment; a segment that
ends with a code keeps the bytes before it and abandons the rest of the band. [DEDUCED, unsafe, log 45] -/
def Dev.sliceLine (d : Dev) (m : Mem) (e : Nat) (readErr : Option Nat) : Dev :=
  let x := d.eng e
  match x.st, x.pend with
  | .run, l :: rest =>
    let h := (d.slot l.slot).hdr
    let b := d.bandOf l
    let i := l.jline % h.bandLines
    let lines := bandLinesOf h b
    match d.walkOf l.slot b with
    | none => d
    | some all =>
      let res := d.lineRuns m e l all readErr
      let good := res.takeWhile (fun r => !endedBy (planeFormat h) h.depth lines i r)
      let parts := lineParts h lines i res
      let bytes := (parts.map (fun p => p.2.length)).sum
      if 32768 < d.stagedBytes e + bytes then d.setEng e { x with st := .wait }
      else
        let open_ := l.toStage && d.ledgerAt l.line != .dry
        let y := { x with
          pend := rest
          ctxAt := if i + 1 = lines then none else some (l.slot, b)
          ctxs := if i + 1 = lines then [] else res.map (·.ctx)
          staged := if open_ then x.staged ++ [{ line := l.line, slot := l.slot, parts := parts }] else x.staged }
        let d1 := ((d.setEng e y).set (R.ENG_BAND e) b).set64 (R.ENG_BYTES_LO e) ((d.get64 (R.ENG_BYTES_LO e) + bytes) % 2 ^ 64)
        let d2 := if i + 1 = lines then d1.crcChecks e b good else d1
        match res.drop good.length with
        | r :: _ => ((d2.haltEngine e l.slot b r.seg.plane (r.code.getD 0) (r.seg.ofs + r.errAt)).settle e).sweep
        | [] =>
          let z := d2.eng e
          let d3 := (d2.setEng e { z with haltBand := none, doneAt := if l.toStage then z.doneAt.put l.line d.now else z.doneAt }).set
            (R.ENG_LINE e) l.jline
          let d4 := if l.toStage && decide (l.line < d.pos.nextFetch) then d3.keepMin (R.ENG_MARGIN_MIN e) 0 else d3
          if i + 1 = lines then ((d4.reportBand l.slot b e (good.all SegRun.crcOk)).settle e).sweep
          else d4.settle e
  | _, _ => d

/-- ENGINE_STAGING_FREED: a waiting engine resumes when 64 bytes of staging are free (R128). [DEDUCED, safe, log 46] -/
def execEngineStagingFreed (engine : Nat) (s : State) : Out :=
  onDevIf (decide (engine < 32)) (fun d =>
    if (d.eng engine).st = .wait ∧ d.stagedBytes engine + 64 ≤ 32768 then d.settle engine else d) s

/-! ## Release of a line to the engines (R121, R125, R127, R130) -/

/-- A raster line of a job is handed to the engines of its slice mask; the release of a band's first line asks for the walk
of the band after it (R125, R127). -/
def Dev.feedEngines (d : Dev) (q l j : Nat) (toStage : Bool) : Dev :=
  let x := d.slot q
  let b := j / x.hdr.bandLines
  let d1 := if j % x.hdr.bandLines = 0 then d.askWalk q (b + 1) else d
  let d2 := (if j % x.hdr.bandLines + 1 = bandLinesOf x.hdr b then d1.reportBad q b else d1).askWalk q b
  forEach ((List.range 32).filter (fun s => hasBit x.hdr.sliceMask s && !x.badSlices.contains s)) (fun d s =>
    let e := d.eng s
    if e.st = .off then d
    else if e.haltBand = some (q, b) then d
    else (d.setEng s { e with pend := e.pend ++ [{ line := l, slot := q, jline := j, toStage := toStage }] }).settle s) d2

/-- A slice has no segment in a walked band. -/
def Dev.emptySlice (d : Dev) (q b s : Nat) : Bool := (d.walkOf q b).any (fun l => (segsOfSlice l s).isEmpty)

/-- After an abort: the band-slices of every band of the job whose last line was never released are reported, unproven where the slice
has a segment, none having ended, or the band's walk has not shown that it has none (R130). [DESIGN CHOICE, unsafe, log 119] -/
def Dev.cutBand (d : Dev) (q : Nat) : Dev :=
  let x := d.slot q
  let j := x.firstBand * x.hdr.bandLines + x.released
  if x.released = 0 ∨ j ≥ x.hdr.lines then d
  else
    forEach ((List.range x.hdr.bandCount).drop (j / x.hdr.bandLines)) (fun (d : Dev) b =>
      forEach ((List.range 32).filter (fun s => hasBit x.hdr.sliceMask s)) (fun d s =>
        d.reportBand q b s (d.emptySlice q b s)) d) d

/-- Every engine drops its contexts, what it has staged and what waits (R131). -/
def Dev.dropEngines (d : Dev) : Dev :=
  Dev.sweep { d with exp := { d.exp with engines := d.exp.engines.map (fun e =>
      (e.1, { e.2 with pend := [], staged := [], ctxAt := none, ctxs := [], haltBand := none, doneAt := [],
                       st := if e.2.st = .off then .off else .prime })) } }

/-- At the intake deadline of line `l` each engine's margin is taken, and what is left of the line is dropped (R132, 01 R24). -/
def Dev.deadlineEngines (d : Dev) (l : Nat) : Dev :=
  { forEach (d.exp.engines.filter (fun e => e.2.st != .off)) (fun d e =>
      match e.2.doneAt.find? l with
      | some t => d.keepMin (R.ENG_MARGIN_MIN e.1) (d.now - t)
      | none => d) d with
    exp := { d.exp with engines := d.exp.engines.map (fun e =>
      (e.1, { e.2 with doneAt := e.2.doneAt.drop l, staged := e.2.staged.filter (fun x => x.line != l) })) } }

/-! ## Compressors (R139–R148) -/

/-- A compressor. -/
def Dev.cmpr (d : Dev) (c : Nat) : Cmpr := d.exp.cmprs.get {} c

/-- Replaces a compressor. -/
def Dev.setCmpr (d : Dev) (c : Nat) (x : Cmpr) : Dev := { d with exp := { d.exp with cmprs := d.exp.cmprs.put c x } }

/-- Task results of Table 4.5. -/
inductive CmprResult where
  | ok | verifyFail | noGain | aborted | wellLost | badTask
  deriving DecidableEq, Repr

/-- Code of a task result. -/
def CmprResult.code : CmprResult → Nat
  | .ok => 0 | .verifyFail => 1 | .noGain => 2 | .aborted => 3 | .wellLost => 4 | .badTask => 5

/-- A task ends with a result; a START that is refused starts none and leaves the task before it as it ended. -/
def Dev.cmprEnd (d : Dev) (c : Nat) (r : CmprResult) : Dev :=
  (((d.setCmpr c { d.cmpr c with
    busy := false, committed := if r = .badTask then (d.cmpr c).committed else decide (r = .ok) }).setB (R.CMPR_STATUS_BUSY c) false).setB
    (R.CMPR_STATUS_DONE c) true).set (R.CMPR_STATUS_RESULT c) r.code

/-- The limits of R139. -/
def Dev.cmprTaskOk (d : Dev) (c : Nat) : Bool :=
  let first := d.get (R.CMPR_SEG1_COL_FIRST c)
  let count := d.get (R.CMPR_SEG2_COL_COUNT c)
  let lines := d.get (R.CMPR_SEG2_LINES c)
  decide (d.get (R.CMPR_SEG1_SLICE c) < 32) && decide (d.get (R.CMPR_SEG1_PLANE c) < 8) &&
    (d.get (R.CMPR_CFG_FORMAT c) == 1 || d.get (R.CMPR_CFG_FORMAT c) == 2) &&
    [1, 2, 4].contains (d.get (R.CMPR_CFG_DEPTH c)) && decide (1 ≤ count) && decide (first + count ≤ 8192) &&
    decide (1 ≤ lines) && decide (lines ≤ 4096)

/-- CMPR_CMD.START (R139): DONE is cleared as a task starts, and set with the result of a START that is refused. [DESIGN CHOICE, unsafe, log 119] -/
def Dev.cmprStart (d : Dev) (c : Nat) : Dev :=
  if (d.cmpr c).busy then d
  else if d.cmprTaskOk c then
    let depth := d.get (R.CMPR_CFG_DEPTH c)
    let fmt := d.get (R.CMPR_CFG_FORMAT c)
    let count := d.get (R.CMPR_SEG2_COL_COUNT c)
    let lines := d.get (R.CMPR_SEG2_LINES c)
    let raw := lines * lineLen fmt depth count
    let x : Cmpr :=
      { busy := true, slice := d.get (R.CMPR_SEG1_SLICE c), plane := d.get (R.CMPR_SEG1_PLANE c), format := fmt,
        depth := depth, colFirst := d.get (R.CMPR_SEG1_COL_FIRST c), colCount := count, lines := lines,
        effort := d.get (R.CMPR_CFG_EFFORT c), distLim := d.get (R.CMPR_CFG_DIST_LIM c), band := d.get (R.CMPR_SEG0 c),
        rawLen := raw }
    ((((((d.setCmpr c x).setB (R.CMPR_STATUS_BUSY c) true).setB (R.CMPR_STATUS_DONE c) false).set (R.CMPR_RAW_LEN c) raw).set
      (R.CMPR_IN_CNT c) 0).setB (R.CMPR_FLAGS_RAW c) (decide (x.effort = 0))).bistTouch
  else d.cmprEnd c .badTask

/-- CMPR_CMD.ABORT (R147). -/
def Dev.cmprAbort (d : Dev) (c : Nat) : Dev :=
  if (d.cmpr c).busy then d.cmprEnd c .aborted
  else if (d.cmpr c).committed then d.setB (R.CMPR_STATUS_ABORT_LATE c) true
  else d

/-- A write into a well lands when the well is LOADING and the bytes lie inside it (03 R94). -/
def Dev.wellTakes (d : Dev) (w o n : Nat) : Bool :=
  (d.well w).st == .loading && decide (o + n ≤ (d.well w).size)

/-- WELL_LOST (R148). [DEDUCED, unsafe, log 48] -/
def Dev.cmprLost (d : Dev) (c : Nat) : Dev :=
  ((d.bump R.INTAKE_DISC_CNT 1).occur Ev.INTAKE_DISCARD 0 1).cmprEnd c .wellLost |>.raise Ev.CMPR_WELL_LOST
    (c + 16 * (d.cmpr c).well)

/-- Input beyond the task: discarded, counted, reported once for each task (R146). [DEDUCED, unsafe, log 48] -/
def Dev.cmprExcess (d : Dev) (c n : Nat) : Dev :=
  let x := d.cmpr c
  if n = 0 ∨ !x.committed then d
  else
    let d1 := d.bump (R.CMPR_EXCESS c) n
    if x.excessRaised then d1
    else (d1.setCmpr c { x with excessRaised := true }).raise Ev.CMPR_INPUT (c + 2 ^ 32 * (n % 2 ^ 32))

/-- An effect on the device and the DRAM channels of an event of an instance that must exist. -/
def onDevMemIf (ok : Bool) (f : Dev → Mem → Dev × Mem) (s : State) : Out :=
  if ok then
    .next (if s.dev.awake then { s with dev := (f s.dev s.mem).1, mem := (f s.dev s.mem).2 } else s)
  else .fault .noSuchInstance

/-- The same for a host command. -/
def onHostMemIf (ok : Bool) (f : Dev → Mem → Dev × Mem) (s : State) : Out :=
  onDevMemIf ok (fun d m => if d.dstate = .boot then (d.barMiss, m) else f d m) s

/-- The segment header a task commits (03 Table 3.3). -/
def Cmpr.header (x : Cmpr) (payLen crc : Nat) : List Byte :=
  let b := bytesOf 4 0x47535844 ++ bytesOf 4 x.band ++ bytesOf 1 x.slice ++ bytesOf 1 x.plane ++
    bytesOf 1 (if x.effort = 0 then 1 else 0) ++ bytesOf 1 0 ++ bytesOf 2 x.colFirst ++ bytesOf 2 x.colCount ++
    bytesOf 4 payLen ++ bytesOf 4 x.rawLen ++ bytesOf 4 crc
  b ++ bytesOf 4 (crc32c b)

/-! ### Blocks (R140, R141, R143) -/

/-- `n` bits of a value, least significant first. -/
def bitsLsb (n v : Nat) : List Bool := (List.range n).map (fun i => v.testBit i)

/-- A Huffman code of `n` bits, most significant first (RFC 1951). -/
def codeBits (n v : Nat) : List Bool := (bitsLsb n v).reverse

/-- The value of bits, first bit least significant. -/
def bitsValue (l : List Bool) : Nat := l.foldr (fun b v => (if b then 1 else 0) + 2 * v) 0

/-- The whole bytes of a bit list, and the bits that are left. -/
def packBits (l : List Bool) : List Byte × List Bool :=
  ((List.range (l.length / 8)).map (fun i => BitVec.ofNat 8 (bitsValue ((l.drop (8 * i)).take 8))), l.drop (8 * (l.length / 8)))

/-- A stored form of a block that begins `t` bits into a byte: stored blocks of at most 65,535 bytes (RFC 1951). [DESIGN CHOICE, safe, log 47] -/
def storedBits : (fuel t : Nat) → List Byte → Bool → List Bool
  | 0, _, _, _ => []
  | f + 1, t, l, final =>
    let n := min 65535 l.length
    let rest := l.drop n
    [final && rest.isEmpty, false, false] ++ List.replicate ((16 - (t + 3) % 8) % 8) false ++ bitsLsb 16 n ++ bitsLsb 16 (65535 - n) ++
      (l.take n).flatMap (fun b => bitsLsb 8 b.toNat) ++ (if rest = [] then [] else storedBits f 0 rest final)

/-- The literals of a block as a fixed-Huffman block without a match. -/
def literalFixed (l : List Byte) (final : Bool) : List Bool :=
  [final, true, false] ++
    l.flatMap (fun b => if b.toNat < 144 then codeBits 8 (48 + b.toNat) else codeBits 9 (400 + (b.toNat - 144))) ++ codeBits 7 0

/-- The literals of a block as a dynamic-Huffman block without a match: lengths 8 for symbols 0–254, 9 for 255 and the end of the
block, no distance code. -/
def literalDynamic (l : List Byte) (final : Bool) : List Bool :=
  [final, false, true] ++ bitsLsb 5 0 ++ bitsLsb 5 0 ++ bitsLsb 4 3 ++
    [0, 0, 0, 2, 1, 0, 2].flatMap (bitsLsb 3) ++ List.replicate 255 false ++ [true, true, true, true, true, false] ++
    l.flatMap (fun b => if b.toNat < 255 then codeBits 8 b.toNat else codeBits 9 510) ++ codeBits 9 511

/-- The verifier's decoder: steps until the block that begins at the decoder's position ends. -/
def infBlock : Nat → Inf → Nat → Nat → Nat → Nat → Inf
  | 0, x, _, _, _, _ => x
  | f + 1, x, data, len, raw, hist =>
    let y := infStep x data len raw hist
    match y.phase with
    | .coded _ _ _ _ => infBlock f y data len raw hist
    | .stored _ _ => infBlock f y data len raw hist
    | _ => y

/-- The verifier (R143): the bits are one block of type `btype` that decodes, after the input `before` it, to exactly `block`, with no
match distance beyond `hist` or before the first byte (R140), BFINAL set on the last block only (R141). [DESIGN CHOICE, safe, log 47] -/
def cmprBlockOk (btype hist : Nat) (before block : List Byte) (final : Bool) (bits : List Bool) : Bool :=
  let len := if final then ceilDiv bits.length 8 * 8 else bits.length
  let raw := before.length + block.length
  let y := infBlock (bits.length + 1) { pos := 0, out := before.reverse, n := before.length, phase := .block, err := none }
    (bitsValue bits) len raw hist
  bits.take 3 == final :: bitsLsb 2 btype && y.err.isNone && y.pos == bits.length && y.n == raw &&
    y.out.take block.length == block.reverse

/-- The bits of a block (R141): its Huffman form, or stored where that is no longer. Where the match search proposes no form that the
verifier admits, the form without a match. [DESIGN CHOICE, safe, log 47] -/
def Cmpr.blockForm (x : Cmpr) (block : List Byte) (final : Bool) : List Bool :=
  let before := x.inp.take x.coded
  let huff :=
    if cmprBlockOk (if x.effort = 1 then 1 else 2) (2 ^ (8 + x.distLim)) before block final
        (Config.blockBits x.effort x.distLim before block final) then Config.blockBits x.effort x.distLim before block final
    else if x.effort = 1 then literalFixed block final else literalDynamic block final
  let stored := storedBits 3 x.tail.length block final
  if stored.length ≤ huff.length then stored else huff

/-- What a closed block adds to the payload: bytes, and the bits of its unfinished last byte; the last block fills that byte. -/
def Cmpr.blockPay (x : Cmpr) (block : List Byte) (final : Bool) : List Byte × List Bool :=
  if x.effort = 0 then (block, [])
  else
    let r := packBits (x.tail ++ x.blockForm block final)
    if final ∧ r.2 ≠ [] then (r.1 ++ [BitVec.ofNat 8 (bitsValue r.2)], []) else r

/-- A compressor task holds a well (R148: WELL_SEAL is refused with BUSY). [DEDUCED, unsafe, log 48] -/
def Dev.cmprOnWell (d : Dev) (w : Nat) : Bool :=
  (List.range 2).any (fun c => (d.cmpr c).busy && (d.cmpr c).started && (d.cmpr c).well == w)

end Sys2Proof.Machine
end

