-- ==== Sys2Proof/Machine/Lines.lean ====
section
/-! DEFINITION. Line assembly (07 R200–R225): nozzles and classes, the remap table, the cistern plan, records, spill and refill,
the sources of a port line, table validation, the hold output. -/

namespace Sys2Proof.Machine

/-! ## Nozzles (R200) -/

/-- Head row of nozzle `j` on port `p` under a profile's layout (R200). -/
def headRow (pr : SMap Word) (p j : Nat) : Nat :=
  let n := 2 ^ profGet pr (R.PORT_LAYOUT_ROWS p)
  if profGet pr (R.PORT_LAYOUT_ORDER p) = 0 then j % n else j / (8192 / n)

/-- The enabled row of a (port, head row), the lowest where a table not validated names it twice. -/
def rowAt (pr : SMap Word) (p h : Nat) : Option Nat :=
  (rowsOf pr).find? (fun r => rowPort pr r == p && profGet pr (R.ROW_HEAD_ROW r) == h)

/-- Class of each head row of a port. -/
def portClasses (pr : SMap Word) (p : Nat) : List (Option Nat) :=
  (List.range (2 ^ profGet pr (R.PORT_LAYOUT_ROWS p))).map (fun h => (rowAt pr p h).map (rowClass pr))

/-- The class of nozzle (p, j), none where its head row has no enabled row (R200). -/
def nozzleClass (pr : SMap Word) (p j : Nat) : Option Nat := (rowAt pr p (headRow pr p j)).map (rowClass pr)

/-- Ports that have a nozzle with a class. -/
def portsOf (pr : SMap Word) : List Nat :=
  (List.range 32).filter (fun p => (rowsOf pr).any (fun r => rowPort pr r == p &&
    decide (profGet pr (R.ROW_HEAD_ROW r) < 2 ^ profGet pr (R.PORT_LAYOUT_ROWS p))))

/-- The nozzles of port `p` have the same classes in two profiles. -/
def samePortClasses (a b : SMap Word) (p : Nat) : Bool :=
  (profWord a (R.PORT_LAYOUT_ROWS p).addr == profWord b (R.PORT_LAYOUT_ROWS p).addr && portClasses a p == portClasses b p) ||
    (List.range 8192).all (fun j => nozzleClass a p j == nozzleClass b p j)

/-- A swap from profile `a` to `b` changes a class delay or moves a nozzle to another class (01 R41). [DEDUCED, unsafe, log 120] -/
def classesMove (a b : SMap Word) : Bool :=
  !profSame (fun x => decide (0xC0400 ≤ x) && decide (x < 0xC0800)) a b || !(List.range 32).all (samePortClasses a b)

/-- Nozzles of class `c` on port `p`, ascending. -/
def classNozzles (pr : SMap Word) (p c : Nat) : List Nat :=
  let cl := portClasses pr p
  (List.range 8192).filter (fun j => ((cl.drop (headRow pr p j)).headD none) == some c)

/-- n_c: nozzles of class `c` (R209). -/
def classCount (pr : SMap Word) (c : Nat) : Nat :=
  ((portsOf pr).map (fun p => ((portClasses pr p).filter (· == some c)).length * (8192 /
    2 ^ profGet pr (R.PORT_LAYOUT_ROWS p)))).sum

/-! ## Remap entries (Table 7.1, R203, R204) -/

/-- Entry `n` of a remap half. -/
def remapEntry (m : SMap Word) (n : Nat) : Nat := bitsOf (m.get 0 (n / 2)).toNat (16 * (n % 2)) 16

/-- COLUMN of an entry. -/
def reColumn (e : Nat) : Nat := e % 8192

/-- MODE of an entry: 0 OFF, 1 DIRECT, 2 SUBST, 3 reserved. -/
def reMode (e : Nat) : Nat := bitsOf e 13 2

/-- A half of the remap store as reads deliver it (11 R315). -/
def Dev.remapRead (d : Dev) (active : Bool) : SMap Word :=
  d.readTable 3 (131072 * d.remapHalf active) 131072 1 (if active then d.las.remapA else d.las.remapS)

/-- The remap half that governs fire step `k` (01 R39), as reads deliver it. -/
def Dev.remapOf (d : Dev) (k : Nat) : SMap Word :=
  if d.swapGoverns k then d.remapRead false else if d.job.fireN ≤ k then d.remapRead true else d.las.remapR

/-- The level nozzle (p, j) fires from a raster line whose column levels are `lv slice column` (R203). -/
def nozzleLevel (m : SMap Word) (lv : Nat → Nat → Nat) (p j : Nat) : Nat :=
  let e := remapEntry m (8192 * p + j)
  match reMode e with
  | 1 => lv p (reColumn e)
  | 2 => max (lv p (reColumn e)) (lv p j)
  | _ => 0

/-! ## Packing (R209, R217) -/

/-- Levels packed `ds` bits each from bit 0 up. -/
def packLevels (ds : Nat) (l : List Nat) : List Byte :=
  bytesOf (ceilDiv (l.length * ds) 8) (l.foldr (fun v acc => v % 2 ^ ds + acc * 2 ^ ds) 0)

/-- Level `i` of packed levels. -/
def packedLevel (ds : Nat) (l : List Byte) (i : Nat) : Nat :=
  bitsOf ((l.drop (i * ds / 8)).headD 0).toNat (i * ds % 8) ds

/-- Storage depth D_s (R202): the plan in force was made for it (R214). -/
def Dev.depthS (d : Dev) : Nat := if d.las.planned then d.las.depth else d.get R.LAS_CFG_DEPTH

/-- Bytes padded with zeros to a length. -/
def padTo (n : Nat) (l : List Byte) : List Byte := l ++ List.replicate (n - l.length) 0

/-- The record of class `c` of a raster line (R209). -/
def Dev.recordOf (d : Dev) (c l : Nat) (lv : Nat → Nat → Nat) : List Byte :=
  let pr := d.active
  let m := d.remapOf (l + classDelay pr c)
  padTo (d.las.cis.get {} c).width
    (packLevels d.depthS ((portsOf pr).flatMap (fun p => (classNozzles pr p c).map (nozzleLevel m lv p))))

/-! ## Cistern plan (R212–R214, R216) -/

/-- B_c (R209) for storage depth `ds`. -/
def recWidth (pr : SMap Word) (ds c : Nat) : Nat := 64 * ceilDiv (classCount pr c * ds) 512

/-- C_c = d_c + W − F + 2. -/
def Dev.cisCap (d : Dev) (pr : SMap Word) (c : Nat) : Nat := classDelay pr c + d.job.workW - d.job.fetchF + 2

/-- The SRAM pool (R212). -/
def sramPool : Nat := 8355840

/-- A class taken through the plan: class, width, capacity, kind. -/
structure PlanRow where
  c : Nat
  width : Nat
  cap : Nat
  long : Bool
  deriving DecidableEq, Repr

/-- Inserts by ascending C_c × B_c, ties to the lower class. -/
def planInsert (x : PlanRow) : List PlanRow → List PlanRow
  | [] => [x]
  | y :: r =>
    if x.cap * x.width < y.cap * y.width ∨ (x.cap * x.width = y.cap * y.width ∧ x.c < y.c) then x :: y :: r
    else y :: planInsert x r

/-- Turns classes short while their ring fits the pool that remains (R212 step 4). -/
def planShort (hrtr : Nat) : Nat → List PlanRow → List PlanRow
  | _, [] => []
  | rest, x :: r =>
    let back := rest + hrtr * x.width
    if x.cap * x.width ≤ back then { x with long := false } :: planShort hrtr (back - x.cap * x.width) r
    else x :: planShort hrtr rest r

/-- The result of planning: the rows in class order, or a failure code of CISTERN_REGION. -/
def Dev.planRows (d : Dev) (pr : SMap Word) : Option (List PlanRow) :=
  let hrtr := d.get R.LAS_CFG_HR + d.get R.LAS_CFG_TR
  let rows := (classesOf pr).map (fun c => { c := c, width := recWidth pr (d.get R.LAS_CFG_DEPTH) c, cap := d.cisCap pr c, long := true : PlanRow })
  let sorted := rows.foldl (fun l x => planInsert x l) []
  let cost := (rows.map (fun x => hrtr * x.width)).sum
  if sramPool < cost then none
  else
    let done := planShort hrtr (sramPool - cost) sorted
    some ((List.range 256).filterMap (fun c => done.find? (fun x => x.c == c)))

/-- Middle offsets of the long classes in class order, each on a 4 KiB boundary, and the end of the last (R213). -/
def middles : Nat → List PlanRow → List (PlanRow × Nat) × Nat
  | o, [] => ([], o)
  | o, x :: r =>
    if x.long then
      let o1 := ceilDiv o 4096 * 4096
      let (l, e) := middles (o1 + x.cap * x.width) r
      ((x, o1) :: l, e)
    else
      let (l, e) := middles o r
      ((x, 0) :: l, e)

/-- Why a plan fails (CISTERN_REGION code): 0 SRAM pool, 1 size, 2 overlap, 3 channel. -/
def Dev.planFault (d : Dev) (need : Nat) : Option Nat :=
  let size := d.get64 R.LAS_REG_SIZE_LO
  let place := d.get R.LAS_REG_PLACE
  if size < need then some 1
  else if size ≠ 0 ∧ d.meetsWell none place (d.get64 R.LAS_REG_BASE_LO) size = true then some 2
  else if size ≠ 0 ∧ d.placeIn place = false then some 3
  else none

/-- A cistern after planning: contents stay where kind, width, capacity and place are as before. -/
def Dev.cisFor (d : Dev) (x : PlanRow) (ofs : Nat) : Cis :=
  let old := d.las.cis.get {} x.c
  let hrtr := d.get R.LAS_CFG_HR + d.get R.LAS_CFG_TR
  let new : Cis :=
    { inUse := true, long := x.long, width := x.width, cap := x.cap, ofs := ofs
      sram := if x.long then hrtr * x.width else x.cap * x.width }
  let stays := !x.long || (d.las.relocated.isNone && d.las.place == d.get R.LAS_REG_PLACE && d.las.base == d.get64 R.LAS_REG_BASE_LO)
  if old.inUse = true ∧ old.long = x.long ∧ old.width = x.width ∧ old.cap = x.cap ∧ old.ofs = ofs ∧
      d.las.depth = d.get R.LAS_CFG_DEPTH ∧ stays = true then
    { new with head := old.head, mid := old.mid, tail := old.tail }
  else new

/-- The head job against the storage depth (R202), once it is another than the one it was compared with. [DEDUCED, unsafe, log 61] -/
def Dev.reDepth (d : Dev) : Dev :=
  match d.headSlot with
  | none => d
  | some q =>
    let x := d.slot q
    let deep := decide (d.depthS < x.hdr.depth)
    if x.st = .queued ∨ deep = x.deep then d
    else
      let d1 := d.setSlot q { x with deep := deep }
      if deep then d1.raise Ev.DEPTH_EXCEEDED (q + 256 * x.hdr.depth + 4096 * d.depthS) else d1

/-- Makes the cistern plan of a profile with the values of LAS_CFG and the region registers that stand; the flag says whether it
succeeded (R212–R214). [DEDUCED, unsafe, log 60] -/
def Dev.plan (d : Dev) (pr : SMap Word) : Dev × Bool :=
  match d.planRows pr with
  | none => (d.raise Ev.CISTERN_REGION 0, false)
  | some rows =>
    let (ms, need) := middles 0 rows
    match d.planFault need with
    | some code => ((d.set64 R.LAS_NEED_LO need).raise Ev.CISTERN_REGION code, false)
    | none =>
      let cis := ms.map (fun e => (e.1.c, d.cisFor e.1 e.2))
      let spill := ((rows.filter (·.long)).map (·.width)).sum
      let d1 := { d with las := { d.las with
        cis := cis, planned := true, relocated := none, unplaced := false, depth := d.get R.LAS_CFG_DEPTH
        hr := d.get R.LAS_CFG_HR, tr := d.get R.LAS_CFG_TR, place := d.get R.LAS_REG_PLACE
        base := d.get64 R.LAS_REG_BASE_LO, size := d.get64 R.LAS_REG_SIZE_LO } }
      let d2 := ((d1.set64 R.LAS_NEED_LO need).set R.LAS_SRAM_USED ((cis.map (fun e => e.2.sram)).sum)).set
        R.LAS_SPILL_BYTES spill
      (d2.reSize.reDepth, true)

/-- LAS_CMD.PLAN, in IDLE only (R214). -/
def Dev.planCmd (d : Dev) : Dev := if d.dstate = .idle ∧ d.las.validating = false then (d.plan d.active).1 else d

/-- PLAN. -/
def execPlan (s : State) : Out := onHost Dev.planCmd s

/-! ## Records: intake, spill, refill (R209–R211, R215) -/

/-- Sets the ledger entry of a raster line (R210): two bits of a word, a partial write (11 R321, R322). -/
def Dev.setLedger (d : Dev) (l : Nat) (x : LineState) : Dev :=
  if d.sramKind 0 (ledgerWord l) = .clean then { d with las := { d.las with ledger := d.las.ledger.put (l % 131072) x } }
  else (d.sramPartial 0 (ledgerWord l) 9 (fun v => putBits v (2 * (l % 32)) 2 x.code)).2

/-- A headrace slot is free in every long cistern in use (R211). -/
def Dev.admits (d : Dev) : Bool :=
  d.las.cis.all (fun e => !e.2.long || decide (e.2.head.length < d.las.hr))

/-- The half of the remap store that governs fire step `k`, while the store holds it (01 R39). -/
def Dev.governingHalf (d : Dev) (k : Nat) : Option Nat :=
  if d.swapGoverns k then some (d.remapHalf false) else if d.job.fireN ≤ k then some (d.remapHalf true) else none

/-- Word of memory 8 with the scatter map entries of column `c`: the two maps fill the upper half of the memory, one after the
other. [DESIGN CHOICE, unsafe, log 115] -/
def scatterWord (half c : Nat) : Nat := 131072 + 65536 * half + c / 4

/-- The slot of nozzle (p, j) takes an entry of the remap half or of its scatter map that reads uncorrectable (11 Table 11.2). -/
def Dev.slotBad (d : Dev) (half : Nat) (m : SMap Word) (p j : Nat) : Bool :=
  let e := remapEntry m (8192 * p + j)
  d.sramBad 3 (131072 * half + (8192 * p + j) / 2) ||
    ((match reMode e with
      | 1 => [reColumn e]
      | 2 => [reColumn e, j]
      | _ => []).any (fun c => d.sramBad 8 (scatterWord half (8192 * p + c))))

/-- The 64-bit words of the record of class `c` that intake of line `l` writes poisoned (11 R317). -/
def Dev.badSlots (d : Dev) (c l : Nat) : List Nat :=
  let k := l + classDelay d.active c
  match d.governingHalf k with
  | none => []
  | some h =>
    if (inRange d.ecc.diffs (eccKey 3 0) (eccKey 4 0)).isEmpty && (inRange d.ecc.diffs (eccKey 8 0) (eccKey 9 0)).isEmpty then []
    else
      let slots := (portsOf d.active).flatMap (fun p => (classNozzles d.active p c).map (fun j => (p, j)))
      ((slots.zipIdx.filter (fun s => d.slotBad h (d.remapOf k) s.1.1 s.1.2)).map (fun s => s.2 * d.depthS / 64)).eraseDups

/-- The reads of the remap and scatter words at the intake of line `l`, with their counts. -/
def Dev.intakeReads (d : Dev) (l : Nat) : Dev :=
  let halves := (d.las.cis.filterMap (fun e => d.governingHalf (l + classDelay d.active e.1))).eraseDups
  forEach halves (fun (d : Dev) h =>
    (d.sramReads 3 (131072 * h) (131072 * (h + 1)) 9).sramReads 8 (scatterWord h 0) (scatterWord (h + 1) 0) 9) d

/-- A record enters its cistern, with the words of it that are poisoned. -/
def Cis.accept (x : Cis) (l : Nat) (r : List Byte) (bad : List Nat) : Cis :=
  if x.long then { x with head := x.head ++ [(l, r)], bad := if bad = [] then x.bad else x.bad ++ [(l, bad)] }
  else { x with tail := x.tail ++ [(l, if bad = [] then some r else none)] }

/-- A raster line has all its beats: its records enter every cistern and the ledger reads DATA, or MISSING while the long
cisterns have no middle (R209, R210, R225). [DEDUCED, unsafe, log 60] -/
def Dev.intake (d : Dev) (l : Nat) (lv : Nat → Nat → Nat) : Dev :=
  if d.las.unplaced && d.las.cis.any (fun e => e.2.long) then d.setLedger l .missing
  else
    let n := (d.las.cis.map (fun e => (d.badSlots e.1 l).length)).sum
    let d1 := { d with las := { d.las with cis := d.las.cis.map (fun (e : Nat × Cis) =>
      (e.1, e.2.accept l (d.recordOf e.1 l lv) (d.badSlots e.1 l))) } }
    ((d1.intakeReads l).bump (R.ECC_POISON_CNT 0) n).setLedger l .data

/-- Placement and base of the cistern middles: the region of the plan, or the fallback region in use (R213, R225). -/
def Dev.middleBase (d : Dev) : Nat × Nat := (d.las.place, d.las.base)

/-- Address of the record of line `l` in the middle of a cistern (R213). -/
def Dev.recordAddr (d : Dev) (x : Cis) (l : Nat) : Nat := d.middleBase.2 + x.ofs + (l % x.cap) * x.width

/-- Line `l` of class `c` has been fetched already. -/
def Dev.passedLine (d : Dev) (c l : Nat) : Bool := decide (l + classDelay d.active c < d.pos.nextFetch)

/-- Fire step `k` lies in a step range of an accepted RESUME (03 R112). -/
def Dev.inResume (d : Dev) (k : Nat) : Bool := d.job.resumeRanges.any (fun r => decide (r.1 ≤ k) && decide (k < r.2))

/-! ## Sources of a port line (R217–R219) -/

/-- What a class gives a port at a fire step (Table 7.4): a record, blank slots, or a dry cause bit of DRY_LINE. -/
inductive Source where
  | record (bytes : List Byte)
  | blank
  | dry (cause : Nat)
  deriving DecidableEq, Repr

/-- The ledger entry of a raster line as a read delivers it (11 R315). -/
def Dev.ledgerAs (d : Dev) (l : Nat) : LineState :=
  match d.sramKind 0 (ledgerWord l) with
  | .fixed (some j) => if j / 2 = l % 32 then lineStateOf ((d.ledgerAt l).code ^^^ 2 ^ (j % 2)) else d.ledgerAt l
  | _ => d.ledgerAt l

/-- The source of raster line k − d_c for class `c` (R219); an uncorrectable ledger word makes every line of it one whose read failed
(11 Table 11.2). -/
def Dev.source (d : Dev) (c dc k : Nat) : Source :=
  if k < dc then .blank
  else if d.sramBad 0 (ledgerWord (k - dc)) then .dry 2
  else
    match d.ledgerAs (k - dc) with
    | .zero => .blank
    | .dry => .dry 0
    | .missing => .dry 3
    | .data =>
      match (d.las.cis.get {} c).tail.find? (fun e => e.1 == k - dc) with
      | some (_, some r) => .record r
      | some (_, none) => .dry 2
      | none => .dry 1

/-- What the fetch of a port line reads of memory 0, with its counts: the ledger word of each class's line, a record of a short ring that intake
poisoned (11 R315–R317). -/
def Dev.fetchReads (d : Dev) (p k : Nat) : Dev :=
  let pr := d.fireProf k
  forEach (((portClasses pr p).filterMap id).eraseDups.filter (fun c => decide (classDelay pr c ≤ k))) (fun (d : Dev) c =>
    let l := k - classDelay pr c
    let x := d.las.cis.get {} c
    let d1 := d.sramReads 0 (ledgerWord l) (ledgerWord l + 1) 9
    if !x.long && d.ledgerAt l == .data && x.tail.any (fun e => e.1 == l && e.2.isNone) then d1.sramFault 0 9 else d1) d

/-- Nozzles of class `c` on ports below `p`: where port `p`'s slots begin in the record. -/
def slotBase (pr : SMap Word) (p c : Nat) : Nat :=
  (((portsOf pr).filter (· < p)).map (fun q => ((portClasses pr q).filter (· == some c)).length * (8192 /
    2 ^ profGet pr (R.PORT_LAYOUT_ROWS q)))).sum

/-- The port line of port `p` at step `k`: dry cause mask, and the packed levels (all zero when dry). -/
def Dev.portLine (d : Dev) (p k : Nat) : Nat × List Byte :=
  let pr := d.fireProf k
  let cls := portClasses pr p
  let src := (cls.filterMap id).eraseDups.map (fun c => (c, d.source c (classDelay pr c) k))
  let causes := src.foldl (fun m s => match s.2 with
    | .dry b => orBit m b
    | _ => m) 0
  let blank := List.replicate (1024 * d.depthS) (0 : Byte)
  if causes ≠ 0 then (causes, blank)
  else if src.all (fun s => s.2 == .blank) then (0, blank)
  else
    let lv := (List.range 8192).foldl (fun (st : SMap Nat × List Nat) j =>
      match (cls.drop (headRow pr p j)).headD none with
      | none => (st.1, 0 :: st.2)
      | some c =>
        let i := st.1.get 0 c
        let v := match src.find? (fun s => s.1 == c) with
          | some (_, .record r) => packedLevel d.depthS r (slotBase pr p c + i)
          | _ => 0
        (st.1.put c (i + 1), v :: st.2)) ([], [])
    (0, packLevels d.depthS lv.2.reverse)

/-- After the fetch of step `k` every cistern has advanced one line (R218, R219). -/
def Dev.advanceCisterns (d : Dev) (k : Nat) : Dev :=
  let pr := d.fireProf k
  { d with las := { d.las with cis := d.las.cis.map (fun e =>
      let dc := classDelay pr e.1
      (e.1, { e.2 with tail := e.2.tail.filter (fun t => decide (k < t.1 + dc)),
                       mid := e.2.mid.filter (fun l => decide (k < l + dc)) })) } }

/-- Every headrace, tailrace and short ring is emptied and every ledger entry is MISSING (01 R41, R224). -/
def Dev.emptyCisterns (d : Dev) : Dev :=
  let d1 : Dev := { d with las := { d.las with
      ledger := [], cis := d.las.cis.map (fun e => (e.1, { e.2 with head := [], mid := [], tail := [], bad := [] })) } }
  d1.freshWords 0 ledgerWord0 (eccSramWords 0)

/-! ## Remap commands (R204–R208) -/

/-- LAS_CMD.VALIDATE starts (R206); discarded while a command runs. -/
def Dev.lasValidate (d : Dev) : Dev :=
  if d.las.validating then d
  else { d with las := { d.las with validating := true } }.setB R.LAS_STATUS_BUSY true

/-- LAS_VALIDATE. -/
def execLasValidate (s : State) : Out := onHost Dev.lasValidate s

/-- Check 4 of Table 7.2 on the Shadow rows: the first failing row. -/
def Dev.rowCheck (d : Dev) : Option Nat :=
  let rows := rowsOf d.regs
  rows.find? (fun r =>
    decide (2 ^ profGet d.regs (R.PORT_LAYOUT_ROWS (rowPort d.regs r)) ≤ profGet d.regs (R.ROW_HEAD_ROW r)) ||
      rows.any (fun q => decide (q < r) && rowPort d.regs q == rowPort d.regs r &&
        profGet d.regs (R.ROW_HEAD_ROW q) == profGet d.regs (R.ROW_HEAD_ROW r)))

/-- Checks 1–3 of Table 7.2 on remap entries in ascending order; `named` lists (slice, column) already named. -/
def remapCheck (pr : SMap Word) : List (Nat × Nat) → List (Nat × Nat) → Option (Nat × Nat)
  | [], _ => none
  | (n, e) :: r, named =>
    let p := n / 8192
    let j := n % 8192
    let cols := match reMode e with
      | 1 => [reColumn e]
      | 2 => [reColumn e, j]
      | _ => []
    let keys := cols.map (fun c => (p, c))
    if reMode e = 3 ∨ hasBit e 15 = true then some (1, n)
    else if keys.any (fun k => named.contains k) || (cols.length == 2 && reColumn e == j) then some (2, n)
    else if reMode e ≠ 0 ∧ nozzleClass pr p j = none then some (3, n)
    else remapCheck pr r (keys ++ named)

/-- Entries of a remap half that were written, ascending. -/
def remapEntries (m : SMap Word) : List (Nat × Nat) :=
  m.flatMap (fun e => [(2 * e.1, bitsOf e.2.toNat 0 16), (2 * e.1 + 1, bitsOf e.2.toNat 16 16)])

/-- LAS_VALIDATE_DONE (R206): an entry that cannot be read fails check 1 where no other check fails. [DESIGN CHOICE, unsafe, log 115] -/
def Dev.lasValidated (d : Dev) : Dev :=
  if d.las.validating then
    let d1 := { d with las := { d.las with validating := false } }.setB R.LAS_STATUS_BUSY false
    let h := 131072 * d.remapHalf false
    let bad := (d.badIn 3 h (h + 131072)).map (fun w => 2 * (w - h))
    let d1 := d1.sramReads 3 h (h + 131072) 9
    let res := match d.rowCheck with
      | some r => some (4, r)
      | none => (remapCheck d.regs (remapEntries (d.remapRead false)) []).or (bad.head?.map (fun n => (1, n)))
    match res with
    | none => (d1.freshWords 8 (scatterWord (d.remapHalf false) 0) (scatterWord (d.remapHalf false + 1) 0)).setB
        R.LAS_STATUS_REMAP_VALID (!d.is R.LAS_STATUS_COPYING)
    | some (c, info) =>
      (((d1.setB R.LAS_STATUS_REMAP_VALID false).set R.LAS_STATUS_CHECK c).set R.LAS_CHECK_INFO info).raise
        Ev.REMAP_INVALID (c + 2 ^ 32 * info)
  else d

/-- LAS_VALIDATE_DONE. -/
def execLasValidateDone (s : State) : Out := onDev Dev.lasValidated s

/-- The Shadow remap half may be written: no copy in progress, no swap scheduled (R208, 01 R43). [DEDUCED, safe, log 106] -/
def Dev.remapWritable (d : Dev) : Bool := !d.is R.LAS_STATUS_COPYING && !d.shadowLocked

/-- Identity entries of a profile: DIRECT j where nozzle (p, j) has a class, OFF elsewhere (R204). -/
def identityMap (pr : SMap Word) : SMap Word :=
  (portsOf pr).flatMap (fun p =>
    let cls := portClasses pr p
    let ent := fun j => if ((cls.drop (headRow pr p j)).headD none).isSome then 8192 + j else 0
    (List.range 4096).map (fun i => (4096 * p + i, BitVec.ofNat 32 (ent (2 * i) + 65536 * ent (2 * i + 1)))))

/-- LAS_CMD.FILL_IDENTITY (R204, R206). [DEDUCED, safe, log 106] -/
def Dev.fillIdentity (d : Dev) : Dev :=
  if d.las.validating then d
  else if d.remapWritable then
    ({ d with las := { d.las with remapS := identityMap d.regs } }.freshWords 3 (131072 * d.remapHalf false)
      (131072 * (d.remapHalf false + 1))).setB R.LAS_STATUS_REMAP_VALID false
  else d.bump R.LAS_DISC_CNT 1

/-- FILL_IDENTITY. -/
def execFillIdentity (s : State) : Out := onHost Dev.fillIdentity s

/-- REMAP_COPY_DONE (R208): the other half equals the Active one and is valid. [DEDUCED, safe, log 106] -/
def Dev.remapCopied (d : Dev) : Dev :=
  if d.is R.LAS_STATUS_COPYING then
    let h := d.remapHalf false
    ((({ d with las := { d.las with remapS := d.remapRead true } }.copyMarks 3 (131072 * d.remapHalf true) (131072 * h) 131072 9).freshWords 8
      (scatterWord h 0) (scatterWord (h + 1) 0)).setB R.LAS_STATUS_COPYING false).setB R.LAS_STATUS_REMAP_VALID true
  else d

/-- REMAP_COPY_DONE. -/
def execRemapCopyDone (s : State) : Out := onDev Dev.remapCopied s

/-- d_r of R207: the largest delay among the nozzles whose entries a swap changes; none when it changes no entry. -/
def Dev.remapChange (d : Dev) : Option Nat :=
  let keys := (d.las.remapA ++ d.las.remapS).map (·.1) |>.eraseDups
  let ns := keys.flatMap (fun k => [2 * k, 2 * k + 1]) |>.filter
    (fun n => remapEntry d.las.remapA n != remapEntry d.las.remapS n)
  if ns = [] then none
  else some (ns.foldl (fun m n =>
    match nozzleClass d.active (n / 8192) (n % 8192) with
    | some c => max m (classDelay d.active c)
    | none => m) 0)

/-- Number of SUBST entries in the Active half (LAS_SUBST_CNT). -/
def Dev.substCount (d : Dev) : Nat := ((remapEntries d.las.remapA).filter (fun e => reMode e.2 == 2)).length

/-! ## Hold output (R223) -/

/-- LINE_HOLD_REQ driven low. -/
def Dev.holdClear (d : Dev) (byResume : Bool) : Dev :=
  if d.is R.LAS_STATUS_HOLD then
    (d.setB R.LAS_STATUS_HOLD false).raise Ev.HOLD_RELEASED (if byResume then 1 else 0)
  else d

/-- A dry port line with an enabled cause drives LINE_HOLD_REQ high, except in BASIC. -/
def Dev.holdAssert (d : Dev) (causes : Nat) : Dev :=
  let en := causes &&& d.get R.LAS_HOLD_CAUSE
  if d.is R.LAS_HOLD_EN && en != 0 && d.level != .basic && !d.is R.LAS_STATUS_HOLD then
    (d.setB R.LAS_STATUS_HOLD true).raise Ev.HOLD_ASSERTED en
  else d

/-- LAS_HOLD_CLR. -/
def execLasHoldClr (s : State) : Out := onHost (fun d => d.holdClear false) s

end Sys2Proof.Machine
end

