-- ==== Sys2Proof/Machine/Dose.lean ====
section
/-! DEFINITION. Dose mapping (06 R178–R199): base levels, correction, screening, field merge, the dual-rail beat, screen
validation, retention of the correction half. -/

namespace Sys2Proof.Machine

/-! ## Base level (R180–R186) -/

/-- Gain of a correction entry: bits [15:7], unit 1/256 (Table 6.3). -/
def corrGain (e : Nat) : Nat := bitsOf e 7 9

/-- Offset of a correction entry: bits [6:0], two's complement, unit 1/4 step (Table 6.3). -/
def corrOffset (e : Nat) : Int := toSigned 7 (e % 128)

/-- The corrected value of an expanded byte (R182). -/
def corrected (x e : Nat) : Nat :=
  (min 255 (max 0 (((x : Int) * corrGain e + corrOffset e * 64 + 128).fdiv 256))).toNat

/-- Correction half of the generation that governs a line (R182, R184): Active, or the half kept for the generation before. -/
def Dev.corrOf (d : Dev) (l : Nat) : SMap Word := if d.job.contN ≤ l then d.dos.corrA else d.dos.corrS

/-- Threshold indices a depth selects, in order (R185). -/
def thresholdSet (depth : Nat) : List Nat :=
  if depth = 4 then [1, 2, 3, 4, 5, 6, 7, 8, 9, 10, 11, 12, 13, 14, 15] else if depth = 2 then [5, 10, 15] else [8]

/-- Byte `i` of threshold cell `n` (Table 6.4). -/
def thrByte (m : SMap Word) (n i : Nat) : Nat := bitsOf (m.get 0 (4 * n + i / 4)).toNat (8 * (i % 4)) 8

/-- The cell that screens column `c` of raster line `L` on a plane (R186). -/
def screenCell (pr : SMap Word) (p l c : Nat) : Nat :=
  let w := profGet pr (R.SCR_WM1 p) + 1
  let h := profGet pr (R.SCR_HM1 p) + 1
  profGet pr (R.SCR_BASE p) + (l + profGet pr (R.SCR_YOFS p)) % h * w + (c + profGet pr (R.SCR_XOFS p)) % w

/-- The screened level of a corrected value: thresholds of the cell exceeded (R186). -/
def screened (cell depth y : Nat) : Nat :=
  ((thresholdSet depth).filter (fun t => decide (bitsOf cell (8 * (t - 1)) 8 < y))).length

/-- The 16 bytes of cell `n` as a read delivers them: two words of memory 5 (R315, R316). -/
def Dev.cellRead (d : Dev) (n : Nat) : Option Nat :=
  let half (i : Nat) : Option Nat := d.sramData 5 (2 * n + i)
    ((d.dos.thr.get 0 (4 * n + 2 * i)).toNat + 2 ^ 32 * (d.dos.thr.get 0 (4 * n + 2 * i + 1)).toNat)
  match half 0, half 1 with
  | some a, some b => some (a + 2 ^ 64 * b)
  | _, _ => none

/-- First cell of the screen row of raster line `L` on a plane, and its cells (R187). -/
def screenRow (pr : SMap Word) (p l : Nat) : Nat × Nat :=
  let w := profGet pr (R.SCR_WM1 p) + 1
  let h := profGet pr (R.SCR_HM1 p) + 1
  (profGet pr (R.SCR_BASE p) + (l + profGet pr (R.SCR_YOFS p)) % h * w, w)

/-- The cell of the row buffer that screens column `c` of raster line `L` on a plane; none where its read returned a bus error. -/
def Dev.rowCell (d : Dev) (pr : SMap Word) (p l c : Nat) : Option Nat :=
  ((d.dos.rowBuf.get [] p).drop (screenCell pr p l c - (screenRow pr p l).1)).headD none

/-- The contone planes of a line are loaded into their row buffers, with the counts of the words read (R187). -/
def Dev.loadRows (d : Dev) (x : RelLine) : Dev :=
  let pr := d.contProf x.line
  let h := (d.slot x.slot).hdr
  forEach ((List.range 8).filter (fun p => planeFormat h p == 1)) (fun (d : Dev) p =>
    let r := screenRow pr p x.line
    let d1 := { d with dos := { d.dos with rowBuf := d.dos.rowBuf.put p ((List.range r.2).map (fun i => d.cellRead (r.1 + i))) } }
    d1.sramReads 5 (2 * r.1) (2 * (r.1 + r.2)) 8) d

/-- The correction entry that governs column `c` of raster line `L`, as a read of its word delivers it (R181, R184). -/
def Dev.corrRead (d : Dev) (l c : Nat) : Option Nat :=
  if d.sramKind 4 c = .clean then some (corrEntry (d.corrOf l) c)
  else (d.sramData 4 c (d.corrWord c)).map (fun v => bitsOf v (16 * d.corrHalf (decide (d.job.contN ≤ l))) 16)

/-- The part of a staged line that covers column `k` of its slice. -/
def partAt (parts : List (Seg × List Byte)) (k : Nat) : Option (Seg × List Byte) :=
  parts.find? (fun p => decide (p.1.colFirst ≤ k) && decide (k < p.1.colFirst + p.1.colCount))

/-- Plane of a column: that of the segment that covers it (R179). -/
def planeAt (parts : List (Seg × List Byte)) (k : Nat) : Option Nat := (partAt parts k).map (fun p => p.1.plane)

/-- The base level of column `k` of slice `s` on raster line `L` (R180). -/
def Dev.baseLevel (d : Dev) (h : DxsHdr) (parts : List (Seg × List Byte)) (l s k : Nat) : Nat :=
  match partAt parts k with
  | none => 0
  | some (sg, bs) =>
    let i := k - sg.colFirst
    if sg.blank then 0
    else if planeFormat h sg.plane = 1 then
      let x := (bs.drop i).headD 0
      let pr := d.contProf l
      let y := if profGet pr (R.CORR_EN sg.plane) = 1 then corrected x.toNat ((d.corrRead l (8192 * s + k)).getD 0)
        else x.toNat
      screened ((d.rowCell pr sg.plane l (8192 * s + k)).getD 0) h.depth y
    else packedLevel h.depth bs i

/-! ## Field merge (R190–R192, 05 R174) -/

/-- Dot of a field at a column and raster line: none outside its area. -/
def FieldImg.dot (f : FieldImg) (col l : Nat) : Option Bool :=
  if f.col ≤ col ∧ col < f.col + f.img.w * f.mw ∧ f.line ≤ l ∧ l < f.line + f.img.h * f.mh then
    some (hasBit ((f.img.rows.drop ((l - f.line) / f.mh)).headD 0) ((col - f.col) / f.mw))
  else none

/-- One merge (Table 6.7): the new level from the current one. [DEDUCED, unsafe, log 58] -/
def merge (rule b v : Nat) (dot : Bool) : Nat :=
  match rule, dot with
  | 0, true => v
  | 0, false => 0
  | 1, true => b ||| v
  | 2, true => 0
  | 3, true => max b v
  | _, false => b
  | _, _ => b

/-- Items in ascending item number. -/
def insertItem (x : Item) : List Item → List Item
  | [] => [x]
  | y :: r => if x.num < y.num then x :: y :: r else y :: insertItem x r

/-- The fields stamped on raster line `L`, in stamping order: items by number, fields in descriptor order, each of the
generation that governs the line (05 R169, R174). -/
def Dev.fieldsOn (d : Dev) (l : Nat) : List (Nat × FieldImg) :=
  (d.items.foldl (fun s i => insertItem i s) []).flatMap (fun i =>
    ((i.rends.filter (fun r => r.gen == d.genOf l && r.st == .done)).flatMap (·.fields)).filterMap
      (fun f => if f.stamped && decide (f.line ≤ l) && decide (l < f.line + f.img.h * f.mh) then some (i.num, f) else none))

/-- The level of a column after its fields (R190, R192): a dot on a column of another plane is not merged. -/
def mergedLevel (depth : Nat) (plane : Option Nat) (base col l : Nat) (fs : List (Nat × FieldImg)) : Nat :=
  fs.foldl (fun b f =>
    match f.2.dot col l with
    | none => b
    | some dot =>
      if plane.isNone || plane == some f.2.plane then merge f.2.rule b (min f.2.ink (2 ^ depth - 1)) dot else b) base

/-- Fields of which a dot falls on a column of another plane among the given columns: item, field, that plane. [DEDUCED, unsafe, log 58] -/
def planeConflicts (cols : List (Nat × Option Nat)) (l : Nat) (fs : List (Nat × FieldImg)) : List (Nat × FieldImg × Nat) :=
  fs.filterMap (fun f =>
    (cols.filterMap (fun c => match c.2, f.2.dot c.1 l with
      | some p, some _ => if p ≠ f.2.plane then some (f.1, f.2, p) else none
      | _, _ => none)).getLast?)

/-- FIELD_PLANE once for each field of an item's rendering; the item receives FIELD (R192). [DEDUCED, unsafe, log 58] -/
def Dev.fieldPlane (d : Dev) (gen : Nat) (x : Nat × FieldImg × Nat) : Dev :=
  if x.2.1.planeRep then d
  else
    let d1 := d.updItem x.1 (fun i =>
      { i.receive .field with rends := i.rends.map (fun r =>
        if r.gen = gen then { r with fields := r.fields.map (fun f => if f.idx = x.2.1.idx then { f with planeRep := true } else f) }
        else r) })
    (d1.bump R.DOS_PLANE_CNT 1).raiseItem Ev.FIELD_PLANE (x.2.1.idx + 32 * x.2.1.plane + 256 * x.2.2) x.1

/-! ## Lines and beats (R193–R196) -/

/-- An item in flight waits for a rendering that raster line `L` needs while a resume re-expands (05 R175). -/
def Dev.waitsRendering (d : Dev) (l : Nat) : Bool :=
  d.job.resume.isSome && d.items.any (fun i => i.touchesLine l &&
    i.rends.any (fun r => r.gen == d.genOf l && (r.st == .waiting || r.st == .running)))

/-- DOSE_LINE_START (R187, R193, 07 R211): the next released line starts when no line is in progress and every long cistern has a
free headrace slot, and its row buffers are loaded; a wait is counted. [DEDUCED, unsafe, log 59] -/
def Dev.doseStart (d : Dev) : Dev :=
  match d.dos.line, d.dos.queue with
  | none, l :: _ =>
    if d.admits then
      if d.waitsRendering l.line then d
      else { d with dos := { d.dos with
        line := some l.line, rowBuf := [], taken := [], levels := [], memRaised := [], waited := false } }.loadRows l
    else if d.dos.waited then d
    else { d with dos := { d.dos with waited := true } }.bump R.LAS_ADMIT_WAIT 1
  | _, _ => d

/-- DOSE_LINE_START. -/
def execDoseLineStart (s : State) : Out := onDev Dev.doseStart s

/-- Parts of the line of a slice: none of them where the job's slice mask is clear, nothing while the slice has not
delivered. -/
def Dev.sliceParts (d : Dev) (x : RelLine) (s : Nat) : Option (List (Seg × List Byte)) :=
  if !hasBit (d.slot x.slot).hdr.sliceMask s then some []
  else ((d.eng s).staged.find? (fun y => y.line == x.line && y.slot == x.slot)).map (·.parts)

/-- The bytes of the columns `a` to `b` − 1 of a part stand in staging. -/
def partHolds (h : DxsHdr) (p : Seg × List Byte) (a b : Nat) : Bool :=
  let hi := min b (p.1.colFirst + p.1.colCount)
  decide (hi ≤ max a p.1.colFirst) || decide (lineLen (planeFormat h p.1.plane) h.depth (hi - p.1.colFirst) ≤ p.2.length)

/-- Beat `i` of a slice is complete in staging (R193): a line whose segment ended with a code holds the bytes before it. -/
def beatComplete (h : DxsHdr) (parts : List (Seg × List Byte)) (i : Nat) : Bool :=
  parts.all (fun p => partHolds h p (64 * i) (64 * i + 64))

/-- The slice the next beat is taken from: in ascending order after the one served last, wrapping, of those with a complete beat
waiting (R193). [DEDUCED, unsafe, log 59] -/
def Dev.nextSlice (d : Dev) (x : RelLine) : Option Nat :=
  ((List.range 32).map (fun i => (d.dos.lastSlice + 1 + i) % 32)).find? (fun s =>
    decide (d.dos.taken.get 0 s < 128) &&
      (d.sliceParts x s).any (fun p => beatComplete (d.slot x.slot).hdr p (d.dos.taken.get 0 s)))

/-- Bits of a level word set to 0 by a failing beat. [DEDUCED, unsafe, log 59] -/
def zeroBeat : List Nat := List.replicate 64 0

/-- Levels of beat `i` of slice `s`, and the columns with their planes. -/
def Dev.beatLevels (d : Dev) (h : DxsHdr) (parts : List (Seg × List Byte)) (l s i : Nat) : List Nat :=
  let fs := d.fieldsOn l
  (List.range 64).map (fun j =>
    let k := 64 * i + j
    mergedLevel h.depth (planeAt parts k) (d.baseLevel h parts l s k) (8192 * s + k) l fs)

/-- Level of column `k` of slice `s` in the line in progress. -/
def Dos.levelAt (x : Dos) (s k : Nat) : Nat := ((x.levels.get zeroBeat (128 * s + k / 64)).drop (k % 64)).headD 0

/-- Every beat of the line in progress has been taken. -/
def Dos.lineFull (x : Dos) : Bool := (List.range 32).all (fun s => x.taken.get 0 s == 128)

/-- The line in progress leaves dose mapping: its records enter the cisterns (01 R19). -/
def Dev.doseFinish (d : Dev) (l : Nat) : Dev :=
  if d.dos.lineFull then
    let d1 := d.intake l (fun s k => d.dos.levelAt s k)
    { d1 with
      dos := { d1.dos with line := none, taken := [], levels := [], queue := d1.dos.queue.drop 1 }
      exp := { d1.exp with engines := d1.exp.engines.map (fun e =>
        (e.1, { e.2 with staged := e.2.staged.filter (fun x => x.line != l) })) } }
  else d

/-- The sources of a beat of which a stored word reads uncorrectable: 1 a correction word of one of its columns, 2 a cell of its row
buffers (R196). -/
def Dev.beatFaults (d : Dev) (h : DxsHdr) (parts : List (Seg × List Byte)) (l s i : Nat) : List Nat :=
  let pr := d.contProf l
  let cols := (List.range 64).map (fun j => 64 * i + j)
  (if cols.any (fun k => d.sramBad 4 (8192 * s + k)) then [1] else []) ++
    (if cols.any (fun k => (partAt parts k).any (fun p =>
      !p.1.blank && planeFormat h p.1.plane == 1 && (d.rowCell pr p.1.plane l (8192 * s + k)).isNone)) then [2] else [])

/-- A source of the line's beats returned a bus error: the items touching the line receive DOSE, and DOSE_MEMORY once per line and
source (R196). -/
def Dev.doseMemory (d : Dev) (l s src : Nat) : Dev :=
  let d1 := d.causeItems .dose (fun it => it.touchesLine l)
  if d1.dos.memRaised.contains src then d1
  else ({ d1 with dos := { d1.dos with memRaised := src :: d1.dos.memRaised } }.raise Ev.DOSE_MEMORY (s + 32 * src + 65536 * l)).bump
    R.DOS_MEM_CNT 1

/-- DOSE_BEAT (R194–R196, R199): the next complete beat is computed on both rails; a difference of the rails (a fault, or the
waiting injection) or a bus error of a source writes it as level 0. `memErr` names the sources of which a word has just become
uncorrectable. [DEDUCED, unsafe, log 59] -/
def Dev.doseBeat (d : Dev) (railErr : Bool) (memErr : List Nat) : Dev :=
  match d.dos.line, d.dos.queue with
  | some l, x :: _ =>
    match d.nextSlice x with
    | none => d
    | some s =>
      let i := d.dos.taken.get 0 s
      let h := (d.slot x.slot).hdr
      let parts := (d.sliceParts x s).getD []
      let mism := railErr || d.dos.inject
      let faults := (d.beatFaults h parts l s i ++ memErr).eraseDups
      let lv := if mism || !faults.isEmpty then zeroBeat else d.beatLevels h parts l s i
      let d1 := { d with dos := { d.dos with
        taken := d.dos.taken.put s (i + 1), levels := d.dos.levels.put (128 * s + i) lv, lastSlice := s,
        inject := false } }
      let d2 := if mism then
          ((d1.raise Ev.DOSE_MISMATCH (s + 32 * i + 65536 * l)).bump R.DOS_MISMATCH_CNT 1).causeItems .dose
            (fun it => it.touchesLine l)
        else d1
      let d3 := forEach memErr (fun (d : Dev) src =>
        d.sramFault (if src = 1 then 4 else if src = 2 then 5 else if src = 3 then 6 else 1) 8)
        (d2.sramReads 4 (8192 * s + 64 * i) (8192 * s + 64 * i + 64) 8)
      let d4 := forEach faults (fun (d : Dev) src => d.doseMemory l s src) d3
      let cols := (List.range 64).map (fun j => (8192 * s + 64 * i + j, planeAt parts (64 * i + j)))
      let d5 := forEach (planeConflicts cols l (d.fieldsOn l)) (fun d c => d.fieldPlane (d.genOf l) c) d4
      d5.doseFinish l
  | _, _ => d

/-- DOSE_BEAT. -/
def execDoseBeat (railErr : Bool) (memErr : List Nat) (s : State) : Out :=
  onDevIf (memErr.all (fun x => decide (1 ≤ x ∧ x ≤ 4))) (fun d => d.doseBeat railErr memErr) s

/-- A line placed as DRY leaves dose mapping and whatever it has computed is discarded (01 R24); its wait is over (07 R211). -/
def Dev.doseDiscard (d : Dev) (l : Nat) : Dev :=
  { d with dos := { d.dos with
      line := if d.dos.line = some l then none else d.dos.line
      taken := if d.dos.line = some l then [] else d.dos.taken
      levels := if d.dos.line = some l then [] else d.dos.levels
      waited := d.dos.waited && d.dos.queue.head?.all (fun x => x.line != l)
      queue := d.dos.queue.filter (fun x => x.line != l) } }

/-- INJECT (R199). -/
def execInject (s : State) : Out := onHost (fun d => { d with dos := { d.dos with inject := true } }) s

/-! ## Screen validation (R189) -/

/-- DOS_CMD.VALIDATE starts; discarded while one runs. -/
def execDosValidate (s : State) : Out :=
  onHost (fun d => if d.dos.validating then d
    else { d with dos := { d.dos with validating := true } }.setB R.DOS_STATUS_BUSY true) s

/-- Checks 2 and 3 of Table 6.6 on one cell. -/
def cellCheck (thr : SMap Word) (n : Nat) : Option (Nat × Nat) :=
  if (List.range 14).any (fun k => decide (thrByte thr n (k + 1) < thrByte thr n k)) then some (2, n)
  else if thrByte thr n 15 ≠ 0 then some (3, n)
  else none

/-- Cells a descriptor covers. -/
def descCells (pr : SMap Word) (p : Nat) : Nat × Nat :=
  (profGet pr (R.SCR_BASE p), (profGet pr (R.SCR_WM1 p) + 1) * (profGet pr (R.SCR_HM1 p) + 1))

/-- A descriptor covers cell `n`. -/
def descCovers (pr : SMap Word) (n : Nat) : Bool :=
  (List.range 8).any (fun p => decide ((descCells pr p).1 ≤ n) && decide (n < (descCells pr p).1 + (descCells pr p).2))

/-- Cells of the threshold store that were written: an unwritten cell holds zeros and passes every check. -/
def writtenCells (thr : SMap Word) : List Nat := (thr.map (fun e => e.1 / 4)).eraseDups

/-- The first failing screen check in the order of R189, on the cells as reads deliver them (11 R315); a cell that cannot be read fails
check 2. [DESIGN CHOICE, unsafe, log 115] -/
def Dev.screenCheck (d : Dev) : Option (Nat × Nat) :=
  let thr := d.readTable 5 0 131072 2 d.dos.thr
  let bad := (d.badIn 5 0 131072).map (· / 2)
  ((List.range 8).filterMap (fun p =>
    let (b, n) := descCells d.regs p
    if 65536 < b + n then some (1, p)
    else (((writtenCells thr ++ bad).mergeSort.filter (fun c => decide (b ≤ c) && decide (c < b + n))).filterMap
      (fun c => if bad.contains c then some (2, c) else cellCheck thr c)).head?)).head?

/-- The reads of a screen validation, with their counts: the words of the cells the Shadow descriptors cover. -/
def Dev.screenReads (d : Dev) : Dev :=
  forEach (inRange d.ecc.diffs (eccKey 5 0) (eccKey 6 0)) (fun (d : Dev) e =>
    if descCovers d.regs ((e.1 - eccKey 5 0) / 2) then (d.eccRead 5 (e.1 - eccKey 5 0) 8 e.2).2 else d) d

/-- DOS_VALIDATE_DONE (R189). -/
def Dev.dosValidated (d : Dev) : Dev :=
  if d.dos.validating then
    let d1 := ({ d with dos := { d.dos with validating := false } }.setB R.DOS_STATUS_BUSY false).screenReads
    match d.screenCheck with
    | none => d1.setB R.DOS_STATUS_SCR_VALID true
    | some (c, info) =>
      (((d1.setB R.DOS_STATUS_SCR_VALID false).set R.DOS_STATUS_CHECK c).set R.DOS_CHECK_INFO info).raise Ev.SCREEN_INVALID
        (c + 65536 * info)
  else d

/-- DOS_VALIDATE_DONE. -/
def execDosValidateDone (s : State) : Out := onDev Dev.dosValidated s

/-! ## Retention of the correction half (R184) -/

/-- Every job slot is EMPTY. -/
def Dev.noJobs (d : Dev) : Bool := d.job.order.isEmpty

/-- Retention ends when the weir reaches its line or every slot is EMPTY; the copy of the correction half starts (R184). -/
def Dev.checkRetention (d : Dev) : Dev :=
  match d.dos.retireAt with
  | some n =>
    if n * 65536 ≤ d.pos.weir ∨ d.noJobs = true then
      ({ d with dos := { d.dos with retireAt := none } }.setB R.DOS_STATUS_COPYING true).set64 R.DOS_RETIRE_LO 0
    else d
  | none => d

/-- CORRECTION_COPY_DONE (R184): both halves are equal and the table is writable, unless a swap is scheduled meanwhile. The copy
writes half of each word (11 R321, R322). [DEDUCED, safe, log 106] -/
def Dev.corrCopied (d : Dev) : Dev :=
  if d.is R.DOS_STATUS_COPYING then
    ((d.corrLoad 0 (eccSramWords 4) 8 (fun d => d.dos.corrA)).setB R.DOS_STATUS_COPYING false).setB R.DOS_STATUS_CORR_VALID true
  else d

/-- CORRECTION_COPY_DONE. -/
def execCorrectionCopyDone (s : State) : Out := onDev Dev.corrCopied s

end Sys2Proof.Machine
end

