-- ==== Sys2Proof/Machine/Symbols.lean ====
section
/-! DEFINITION. Symbols and images (05 R164–R166, Tables 5.3, 5.10): module images, Data Matrix ECC 200, Code 128, DotCode. The
tables of the named standards stand here as PRESUMED. Content is a list of bytes and FNC1 marks (`none`). -/

namespace Sys2Proof.Machine

/-- Digits of `n` in a radix, most significant first, no leading zeros beyond a single digit; `fuel` bounds them. -/
def digitsOf (radix : Nat) : (fuel : Nat) → Nat → List Nat
  | 0, _ => []
  | f + 1, n => if n < radix then [n] else digitsOf radix f (n / radix) ++ [n % radix]

/-! ## Images -/

/-- The dot at row `r`, column `c`. -/
def Img.at_ (x : Img) (r c : Nat) : Bool := decide (c < x.w) && hasBit ((x.rows.drop r).headD 0) c

/-- An image from a dot function. -/
def Img.ofFn (w h : Nat) (f : Nat → Nat → Bool) : Img :=
  { w := w, h := h
    rows := (List.range h).map (fun r => (List.range w).foldr (fun c n => 2 * n + if f r c then 1 else 0) 0) }

/-- An image with every dot clear. -/
def Img.clear (w h : Nat) : Img := { w := w, h := h, rows := List.replicate h 0 }

/-- Rotation by quarter turns clockwise (Table 5.3). -/
def Img.rotate (x : Img) (quarter : Nat) : Img :=
  match quarter with
  | 1 => Img.ofFn x.h x.w (fun r c => x.at_ (x.h - 1 - c) r)
  | 2 => Img.ofFn x.w x.h (fun r c => x.at_ (x.h - 1 - r) (x.w - 1 - c))
  | 3 => Img.ofFn x.h x.w (fun r c => x.at_ c (x.w - 1 - r))
  | _ => x

/-! ## Reed–Solomon over GF(256), polynomial 0x12D -/

/-- Doubling in the field. -/
def gfTwice (x : Nat) : Nat := if x ≥ 128 then ((2 * x) % 256) ^^^ 0x2D else 2 * x

/-- Product in the field. -/
def gfMul (a b : Nat) : Nat :=
  ((List.range 8).foldl (fun (s : Nat × Nat) i => (if hasBit b i then s.1 ^^^ s.2 else s.1, gfTwice s.2)) (0, a)).1

/-- Coefficients of the generator of degree `n`, highest first, without the leading 1. -/
def rsGen (n : Nat) : List Nat :=
  (((List.range n).foldl (fun (s : List Nat × Nat) _ =>
    let root := gfTwice s.2
    (List.zipWith (fun x y => x ^^^ y) (s.1 ++ [0]) (0 :: s.1.map (gfMul root)), root)) ([1], 1)).1).drop 1

/-- Check codewords of one block. [PRESUMED, unsafe, log 56] -/
def rsEncode (n : Nat) (data : List Nat) : List Nat :=
  let g := rsGen n
  data.foldl (fun ecc x =>
    let k := x ^^^ ecc.headD 0
    List.zipWith (fun x y => x ^^^ gfMul k y) (ecc.drop 1 ++ [0]) g) (List.replicate n 0)

/-! ## Data Matrix (R164) -/

/-- A Data Matrix size: symbol, data region, codewords, interleaved blocks. -/
structure DmSize where
  rows : Nat
  cols : Nat
  rh : Nat
  rw : Nat
  data : Nat
  ecc : Nat
  blocks : Nat
  deriving DecidableEq, Repr

/-- Square sizes, ascending. -/
def dmSquares : List DmSize :=
  [⟨10, 10, 8, 8, 3, 5, 1⟩, ⟨12, 12, 10, 10, 5, 7, 1⟩, ⟨14, 14, 12, 12, 8, 10, 1⟩, ⟨16, 16, 14, 14, 12, 12, 1⟩,
   ⟨18, 18, 16, 16, 18, 14, 1⟩, ⟨20, 20, 18, 18, 22, 18, 1⟩, ⟨22, 22, 20, 20, 30, 20, 1⟩, ⟨24, 24, 22, 22, 36, 24, 1⟩,
   ⟨26, 26, 24, 24, 44, 28, 1⟩, ⟨32, 32, 14, 14, 62, 36, 1⟩, ⟨36, 36, 16, 16, 86, 42, 1⟩, ⟨40, 40, 18, 18, 114, 48, 1⟩,
   ⟨44, 44, 20, 20, 144, 56, 1⟩, ⟨48, 48, 22, 22, 174, 68, 1⟩, ⟨52, 52, 24, 24, 204, 84, 2⟩, ⟨64, 64, 14, 14, 280, 112, 2⟩,
   ⟨72, 72, 16, 16, 368, 144, 4⟩, ⟨80, 80, 18, 18, 456, 192, 4⟩, ⟨88, 88, 20, 20, 576, 224, 4⟩,
   ⟨96, 96, 22, 22, 696, 272, 4⟩, ⟨104, 104, 24, 24, 816, 336, 6⟩, ⟨120, 120, 18, 18, 1050, 408, 6⟩,
   ⟨132, 132, 20, 20, 1304, 496, 8⟩, ⟨144, 144, 22, 22, 1558, 620, 10⟩]

/-- Rectangular sizes, ascending. -/
def dmRects : List DmSize :=
  [⟨8, 18, 6, 16, 5, 7, 1⟩, ⟨8, 32, 6, 14, 10, 11, 1⟩, ⟨12, 26, 10, 24, 16, 14, 1⟩, ⟨12, 36, 10, 16, 22, 18, 1⟩,
   ⟨16, 36, 14, 16, 32, 24, 1⟩, ⟨16, 48, 14, 22, 49, 28, 1⟩]

/-- Every size that size A of a descriptor may fix. [PRESUMED, unsafe, log 56] -/
def dmSizes : List DmSize := dmSquares ++ dmRects

/-- The fixed size that size A names: rows in [15:8], columns in [7:0]. -/
def dmFixed (sizeA : Nat) : Option DmSize := dmSizes.find? (fun s => s.rows == sizeA / 256 && s.cols == sizeA % 256)

/-- The smaller symbol by modules, a square on a tie. -/
def dmSmaller (a b : DmSize) : DmSize := if b.rows * b.cols < a.rows * a.cols then b else a

/-- The size used for `n` data codewords: none when the content does not fit. -/
def dmPick (sizeA n : Nat) : Option DmSize :=
  let fits := fun (s : DmSize) => decide (n ≤ s.data)
  if sizeA = 0 then dmSquares.find? fits
  else if sizeA = 1 then
    match dmSquares.find? fits, dmRects.find? fits with
    | some a, some b => some (dmSmaller a b)
    | a, none => a
    | none, b => b
  else (dmFixed sizeA).filter fits

/-- A decimal digit. -/
def isDigit (b : Byte) : Bool := decide (48 ≤ b.toNat) && decide (b.toNat ≤ 57)

/-- ASCII encodation: digit pairs, Upper Shift, FNC1 as 232. -/
def dmAscii : List (Option Byte) → List Nat
  | [] => []
  | none :: r => 232 :: dmAscii r
  | [some b] => if b.toNat < 128 then [b.toNat + 1] else [235, b.toNat - 127]
  | some b :: some c :: r =>
    if isDigit b && isDigit c then (130 + 10 * (b.toNat - 48) + (c.toNat - 48)) :: dmAscii r
    else (if b.toNat < 128 then [b.toNat + 1] else [235, b.toNat - 127]) ++ dmAscii (some c :: r)
  | some b :: none :: r =>
    (if b.toNat < 128 then [b.toNat + 1] else [235, b.toNat - 127]) ++ 232 :: dmAscii r

/-- Pad codewords: 129, then 129 randomised by position. -/
def dmPad (n : Nat) (l : List Nat) : List Nat :=
  l ++ (List.range (n - l.length)).map (fun i =>
    if i = 0 then 129
    else
      let v := 129 + (149 * (l.length + i + 1)) % 253 + 1
      if v ≤ 254 then v else v - 254)

/-- Data and check codewords in symbol order: the interleaving of the blocks goes on from the data to the check codewords. -/
def dmCodewords (s : DmSize) (l : List Nat) : List Nat :=
  let data := dmPad s.data l
  let per := s.ecc / s.blocks
  let eccs := (List.range s.blocks).map (fun b =>
    rsEncode per ((data.zipIdx.filter (fun p => p.2 % s.blocks == b)).map (·.1)))
  data ++ (List.range s.ecc).map (fun i => (((eccs.drop ((s.data + i) % s.blocks)).headD []).drop (i / s.blocks)).headD 0)

/-- Placement grid: module index to 8 × codeword index + bit (bit 7 first) + 1. -/
abbrev DmGrid := SMap Nat

/-- Places one bit, wrapping at the borders. -/
def dmModule (nr nc : Nat) (g : DmGrid) (row col : Int) (chr bit : Nat) : DmGrid :=
  let (row, col) := if row < 0 then (row + nr, col + 4 - ((nr + 4) % 8 : Nat)) else (row, col)
  let (row, col) := if col < 0 then (row + 4 - ((nc + 4) % 8 : Nat), col + nc) else (row, col)
  g.put (row.toNat * nc + col.toNat) (8 * chr + bit + 1)

/-- Places the eight bits of a codeword, most significant first. -/
def dmPlace (nr nc : Nat) (g : DmGrid) (chr : Nat) (l : List (Int × Int)) : DmGrid :=
  l.zipIdx.foldl (fun g p => dmModule nr nc g p.1.1 p.1.2 chr (7 - p.2)) g

/-- The regular shape with its last module at (row, col). -/
def dmUtah (row col : Int) : List (Int × Int) :=
  [(row - 2, col - 2), (row - 2, col - 1), (row - 1, col - 2), (row - 1, col - 1), (row - 1, col), (row, col - 2),
   (row, col - 1), (row, col)]

/-- The four corner shapes. -/
def dmCorner (k : Nat) (nr nc : Int) : List (Int × Int) :=
  match k with
  | 1 => [(nr - 1, 0), (nr - 1, 1), (nr - 1, 2), (0, nc - 2), (0, nc - 1), (1, nc - 1), (2, nc - 1), (3, nc - 1)]
  | 2 => [(nr - 3, 0), (nr - 2, 0), (nr - 1, 0), (0, nc - 4), (0, nc - 3), (0, nc - 2), (0, nc - 1), (1, nc - 1)]
  | 3 => [(nr - 3, 0), (nr - 2, 0), (nr - 1, 0), (0, nc - 2), (0, nc - 1), (1, nc - 1), (2, nc - 1), (3, nc - 1)]
  | _ => [(nr - 1, 0), (nr - 1, nc - 1), (0, nc - 3), (0, nc - 2), (0, nc - 1), (1, nc - 3), (1, nc - 2), (1, nc - 1)]

/-- A placement in progress. -/
structure DmWalk where
  g : DmGrid := []
  chr : Nat := 0
  row : Int := 4
  col : Int := 0
  deriving DecidableEq, Repr

/-- Places the next codeword. -/
def DmWalk.place (w : DmWalk) (nr nc : Nat) (l : List (Int × Int)) : DmWalk :=
  { w with g := dmPlace nr nc w.g w.chr l, chr := w.chr + 1 }

/-- A corner shape where its condition holds. -/
def DmWalk.corner (w : DmWalk) (nr nc k : Nat) (c : Bool) : DmWalk := if c then w.place nr nc (dmCorner k nr nc) else w

/-- One diagonal: up and right (`up`) or down and left. -/
def dmSweep (nr nc : Nat) (up : Bool) : Nat → DmWalk → DmWalk
  | 0, w => w
  | f + 1, w =>
    let inside := decide (0 ≤ w.row ∧ w.row < nr ∧ 0 ≤ w.col ∧ w.col < nc)
    let w1 := if inside && (w.g.find? (w.row.toNat * nc + w.col.toNat)).isNone then w.place nr nc (dmUtah w.row w.col) else w
    let w2 := if up then { w1 with row := w1.row - 2, col := w1.col + 2 } else { w1 with row := w1.row + 2, col := w1.col - 2 }
    let go := if up then decide (0 ≤ w2.row ∧ w2.col < (nc : Int)) else decide (w2.row < (nr : Int) ∧ 0 ≤ w2.col)
    if go then dmSweep nr nc up f w2 else w2

/-- The placement of ECC 200. [PRESUMED, unsafe, log 56] -/
def dmPlacement (nr nc : Nat) : Nat → DmWalk → DmWalk
  | 0, w => w
  | f + 1, w =>
    let w1 := w.corner nr nc 1 (decide (w.row = nr ∧ w.col = 0))
    let w2 := w1.corner nr nc 2 (decide (w.row = nr - 2 ∧ w.col = 0 ∧ nc % 4 ≠ 0))
    let w3 := w2.corner nr nc 3 (decide (w.row = nr - 2 ∧ w.col = 0 ∧ nc % 8 = 4))
    let w4 := w3.corner nr nc 4 (decide (w.row = nr + 4 ∧ w.col = 2 ∧ nc % 8 = 0))
    let w5 := dmSweep nr nc true (nr + nc) w4
    let w6 := dmSweep nr nc false (nr + nc) { w5 with row := w5.row + 1, col := w5.col + 3 }
    let w7 := { w6 with row := w6.row + 3, col := w6.col + 1 }
    if w7.row < (nr : Int) ∨ w7.col < (nc : Int) then dmPlacement nr nc f w7 else w7

/-- The data modules: dark where the placed bit is 1; the two fixed modules of sizes with unused corners are dark. [PRESUMED, unsafe, log 56] -/
def dmData (nr nc : Nat) (cw : List Nat) : Nat → Nat → Bool :=
  let g := (dmPlacement nr nc (nr + nc) {}).g
  let open_ := (g.find? (nr * nc - 1)).isNone
  fun r c =>
    match g.find? (r * nc + c) with
    | some v => hasBit ((cw.drop ((v - 1) / 8)).headD 0) ((v - 1) % 8)
    | none => open_ && ((r == nr - 1 && c == nc - 1) || (r == nr - 2 && c == nc - 2))

/-- The symbol: regions with solid left and bottom borders and alternating top and right borders. -/
def dmImage (s : DmSize) (cw : List Nat) : Img :=
  let nr := s.rows / (s.rh + 2) * s.rh
  let nc := s.cols / (s.rw + 2) * s.rw
  let f := dmData nr nc cw
  Img.ofFn s.cols s.rows (fun r c =>
    let rr := r % (s.rh + 2)
    let cc := c % (s.rw + 2)
    if rr = s.rh + 1 ∨ cc = 0 then true
    else if rr = 0 then cc % 2 == 0
    else if cc = s.rw + 1 then rr % 2 == 1
    else f (r / (s.rh + 2) * s.rh + (rr - 1)) (c / (s.rw + 2) * s.rw + (cc - 1)))

/-! ## Code 128 (R166) -/

/-- Bar and space widths of the symbol characters 0–106. [PRESUMED, unsafe, log 56] -/
def c128Widths : List Nat :=
  [212222, 222122, 222221, 121223, 121322, 131222, 122213, 122312, 132212, 221213, 221312, 231212, 112232, 122132, 122231,
   113222, 123122, 123221, 223211, 221132, 221231, 213212, 223112, 312131, 311222, 321122, 321221, 312212, 322112, 322211,
   212123, 212321, 232121, 111323, 131123, 131321, 112313, 132113, 132311, 211313, 231113, 231311, 112133, 112331] ++
  [132131, 113123, 113321, 133121, 313121, 211331, 231131, 213113, 213311, 213131, 311123, 311321, 331121, 312113, 312311,
   332111, 314111, 221411, 431111, 111224, 111422, 121124, 121421, 141122, 141221, 112214, 112412, 122114, 122411, 142112,
   142211, 241211, 221114, 413111, 241112, 134111, 111242, 121142, 121241, 114212, 124112, 124211, 411212, 421112] ++
  [421211, 212141, 214121, 412121, 111143, 111341, 131141, 114113, 114311, 411113, 411311, 113141, 114131, 311141, 411131,
   211412, 211214, 211232, 2331112]

/-- Code sets. -/
inductive C128Set where
  | a | b | c
  deriving DecidableEq, Repr

/-- A byte lies within a set. -/
def C128Set.has (s : C128Set) (b : Byte) : Bool :=
  match s with
  | .a => decide (b.toNat < 96)
  | .b => decide (32 ≤ b.toNat) && decide (b.toNat < 128)
  | .c => false

/-- The value of a byte in set A or B. -/
def C128Set.value (s : C128Set) (b : Byte) : Nat :=
  if s = .a ∧ b.toNat < 32 then b.toNat + 64 else b.toNat - 32

/-- The other of A and B. -/
def C128Set.other (s : C128Set) : C128Set := if s = .a then .b else .a

/-- Start characters. -/
def C128Set.start : C128Set → Nat
  | .a => 103 | .b => 104 | .c => 105

/-- Set change characters. -/
def C128Set.change : C128Set → Nat
  | .a => 101 | .b => 100 | .c => 99

/-- Digits at the front. -/
def digitRun : List (Option Byte) → Nat
  | some b :: r => if isDigit b then digitRun r + 1 else 0
  | _ => 0

/-- A or B by rule 1: A if a byte 0–31 occurs before any lowercase letter. -/
def c128AB : List (Option Byte) → C128Set
  | [] => .b
  | none :: r => c128AB r
  | some b :: r =>
    if b.toNat < 32 then .a else if 97 ≤ b.toNat ∧ b.toNat ≤ 122 then .b else c128AB r

/-- Symbol characters of the data from set `s` on, by rules 2–4. [PRESUMED, unsafe, log 56] -/
def c128Go : Nat → C128Set → List (Option Byte) → List Nat
  | 0, _, _ => []
  | _, _, [] => []
  | f + 1, s, none :: r => 102 :: c128Go f s r
  | f + 1, .c, some b :: r =>
    match isDigit b, r with
    | true, some x :: r' =>
      if isDigit x then (10 * (b.toNat - 48) + (x.toNat - 48)) :: c128Go f .c r'
      else (c128AB (some b :: r)).change :: c128Go f (c128AB (some b :: r)) (some b :: r)
    | _, _ => (c128AB (some b :: r)).change :: c128Go f (c128AB (some b :: r)) (some b :: r)
  | f + 1, s, some b :: r =>
    let n := digitRun (some b :: r)
    if (6 ≤ n ∨ (4 ≤ n ∧ n = r.length + 1)) ∧ n % 2 = 0 then C128Set.c.change :: c128Go f .c (some b :: r)
    else if s.has b then s.value b :: c128Go f s r
    else if (match r with
      | some x :: _ => s.has x
      | none :: _ => true
      | [] => false) then 98 :: s.other.value b :: c128Go f s r
    else s.other.change :: c128Go f s.other (some b :: r)

/-- Start character by rule 1; a leading FNC1 follows the start character and is not data. -/
def c128Start (data : List (Option Byte)) : C128Set :=
  let n := digitRun data
  if 4 ≤ n ∨ (n = 2 ∧ data.length = 2) then .c else c128AB data

/-- Symbol characters with start and check, without the stop character. -/
def c128Chars (gs1 : Bool) (data : List (Option Byte)) : List Nat :=
  let s := c128Start data
  let body := (if gs1 then [102] else []) ++ c128Go (3 * data.length + 3) s data
  let sum := (body.zipIdx.map (fun p => p.1 * (p.2 + 1))).sum + s.start
  s.start :: body ++ [sum % 103]

/-- Modules of one symbol character, first a bar. -/
def c128Modules (v : Nat) : List Bool :=
  let w := (c128Widths.drop v).headD 0
  let ds := digitsOf 10 8 w
  ds.zipIdx.flatMap (fun p => List.replicate p.1 (p.2 % 2 == 0))

/-- The symbol `h` lines high, quiet zones not drawn. -/
def c128Image (chars : List Nat) (h : Nat) : Img :=
  let ms := (chars ++ [106]).flatMap c128Modules
  let row := ms.foldr (fun b n => 2 * n + if b then 1 else 0) 0
  { w := ms.length, h := h, rows := List.replicate h row }

end Sys2Proof.Machine
end

