-- ==== Sys2Proof/Machine/Template.lean ====
section
/-! DEFINITION. The template store and the glyph store as the device reads them (05 R150–R152, R162, Tables 5.1–5.5, 5.9–5.11). -/

namespace Sys2Proof.Machine

/-! ## Reading a store of words -/

/-- Byte `o` of a word store. -/
def stByte (m : SMap Word) (o : Nat) : Byte := BitVec.ofNat 8 (bitsOf (m.get 0 (o / 4)).toNat (8 * (o % 4)) 8)

/-- `n` bytes from offset `o`. -/
def stBytes (m : SMap Word) (o n : Nat) : List Byte := (List.range n).map (fun i => stByte m (o + i))

/-- Little-endian field of `n` bytes at offset `o`. -/
def stNum (m : SMap Word) (o n : Nat) : Nat := leOf (stBytes m o n)

/-! ## Templates -/

/-- A field descriptor (Table 5.3). -/
structure TplField where
  idx : Nat
  ofs : Nat
  type : Nat
  gs1 : Bool
  rot : Nat
  align : Nat
  flagsHigh : Nat
  plane : Nat
  ink : Nat
  rule : Nat
  mw : Nat
  mh : Nat
  font : Nat
  col : Nat
  line : Nat
  eFirst : Nat
  eCount : Nat
  sizeA : Nat
  sizeB : Nat
  track : Int
  reserved : Nat
  deriving DecidableEq, Repr

/-- Descriptor `i` of the template at `base`. -/
def tplField (m : SMap Word) (base i : Nat) : TplField :=
  let o := base + 32 + 32 * i
  let fl := stNum m (o + 1) 1
  { idx := i, ofs := o, type := stNum m o 1, gs1 := hasBit fl 0, rot := bitsOf fl 1 2, align := bitsOf fl 3 2,
    flagsHigh := bitsOf fl 5 3, plane := stNum m (o + 2) 1, ink := stNum m (o + 3) 1, rule := stNum m (o + 4) 1,
    mw := stNum m (o + 5) 1, mh := stNum m (o + 6) 1, font := stNum m (o + 7) 1, col := stNum m (o + 8) 4,
    line := stNum m (o + 0xC) 2, eFirst := stNum m (o + 0xE) 1, eCount := stNum m (o + 0xF) 1,
    sizeA := stNum m (o + 0x10) 2, sizeB := stNum m (o + 0x12) 2, track := toSigned 8 (stNum m (o + 0x14) 1),
    reserved := stNum m (o + 0x15) 11 }

/-- A template of a store: where it stands and its counts (Table 5.2). -/
structure Tpl where
  base : Nat
  nf : Nat
  ne : Nat
  slen : Nat
  deriving DecidableEq, Repr

/-- Offset a directory entry holds, in bytes; 0 = absent. -/
def tplOfs (m : SMap Word) (set idx : Nat) : Nat := 32 * stNum m (0x40 * set + 4 * idx) 2

/-- The template at a byte offset. -/
def tplAt (m : SMap Word) (base : Nat) : Tpl :=
  { base := base, nf := stNum m (base + 4) 1, ne := stNum m (base + 5) 1, slen := stNum m (base + 6) 2 }

/-- Template `idx` of set `set`, if present. -/
def tplFind (m : SMap Word) (set idx : Nat) : Option Tpl :=
  if set = 0 ∨ 15 < set ∨ 15 < idx ∨ tplOfs m set idx = 0 then none else some (tplAt m (tplOfs m set idx))

/-- The fields of a template. -/
def Tpl.fields (t : Tpl) (m : SMap Word) : List TplField := (List.range t.nf).map (tplField m t.base)

/-- Byte offset of element `i`. -/
def Tpl.elemOfs (t : Tpl) (i : Nat) : Nat := t.base + 32 + 32 * t.nf + 8 * i

/-- Byte offset of the string area. -/
def Tpl.strOfs (t : Tpl) : Nat := t.elemOfs t.ne

/-- One past the template. -/
def Tpl.stop (t : Tpl) : Nat := t.strOfs + t.slen

/-- Elements of a field, as their eight bytes. -/
def Tpl.elems (t : Tpl) (m : SMap Word) (f : TplField) : List (List Byte) :=
  (List.range f.eCount).map (fun i => stBytes m (t.elemOfs (f.eFirst + i)) 8)

/-- Kind of an element. -/
def elKind (e : List Byte) : Nat := leAt e 0 1

/-- The field holds a RECORD element. -/
def Tpl.usesRecord (t : Tpl) (m : SMap Word) (f : TplField) : Bool := (t.elems m f).any (fun e => elKind e == 2)

/-- Counters a template's content uses, ascending. -/
def Tpl.counters (t : Tpl) (m : SMap Word) : List Nat :=
  let used := (t.fields m).flatMap (fun f => ((t.elems m f).filter (fun e => elKind e == 3)).map (fun e => leAt e 1 1))
  (List.range 16).filter (fun n => used.contains n)

/-- The smallest line offset of a template's fields. -/
def Tpl.firstLine (t : Tpl) (m : SMap Word) : Nat :=
  match (t.fields m).map (·.line) with
  | [] => 0
  | x :: r => r.foldl min x

/-- Glyph slots a store's templates use (R162). -/
def tplFonts (m : SMap Word) : List Nat :=
  ((List.range 15).flatMap (fun s => (List.range 16).flatMap (fun i =>
    match tplFind m (s + 1) i with
    | none => []
    | some t => ((t.fields m).filter (fun f => f.type == 1)).map (·.font)))).eraseDups

/-! ## Tables of the store -/

/-- A GS1 AI table entry (Table 5.9). -/
structure AiEntry where
  ofs : Nat
  value : Nat
  digits : Nat
  flags : Nat
  minLen : Nat
  maxLen : Nat
  deriving DecidableEq, Repr

/-- The used AI entries. -/
def aiTable (m : SMap Word) : List AiEntry :=
  ((List.range 256).map (fun i =>
    let o := 0x400 + 16 * i
    ({ ofs := o, value := stNum m o 2, digits := stNum m (o + 2) 1, flags := stNum m (o + 3) 1,
       minLen := stNum m (o + 4) 1, maxLen := stNum m (o + 5) 1 } : AiEntry))).filter (fun e => e.digits != 0)

/-- The entry of an AI. -/
def aiFind (m : SMap Word) (digits value : Nat) : Option AiEntry :=
  (aiTable m).find? (fun e => e.digits == digits && e.value == value)

/-- Shift entry `i`: start minute, code length, characters (R161). -/
def shiftEntry (m : SMap Word) (i : Nat) : Nat × Nat × List Byte :=
  (stNum m (0x1400 + 16 * i) 2, stNum m (0x1402 + 16 * i) 1, stBytes m (0x1404 + 16 * i) 4)

/-- Civil offset entry `i`: effective second, offset, valid (R159). -/
def civilEntry (m : SMap Word) (i : Nat) : Nat × Int × Bool :=
  (stNum m (0x1480 + 16 * i) 8, toSigned 32 (stNum m (0x1488 + 16 * i) 4), hasBit (stNum m (0x148C + 16 * i) 1) 0)

/-! ## Glyph store (R162) -/

/-- Slot table entry: first page, page count, valid. -/
def glyphSlot (m : SMap Word) (n : Nat) : Nat × Nat × Bool :=
  (stNum m (8 * n) 2, stNum m (8 * n + 2) 2, hasBit (stNum m (8 * n + 4) 1) 0)

/-- A word of the glyph store belongs to slot `n`: its table entry or one of its pages. -/
def glyphOfSlot (g : SMap Word) (n w : Nat) : Bool :=
  w / 2 == n ||
    (let (p, c, _) := glyphSlot g n
     decide (1024 * p ≤ w) && decide (w < 1024 * (p + c)))

/-- A font: byte offset in the store, bytes, glyph count, height. -/
structure Font where
  ofs : Nat
  size : Nat
  count : Nat
  height : Nat
  deriving DecidableEq, Repr

/-- The font of a slot. -/
def fontOf (m : SMap Word) (n : Nat) : Font :=
  let (p, c, _) := glyphSlot m n
  { ofs := 4096 * p, size := 4096 * c, count := stNum m (4096 * p + 4) 2, height := stNum m (4096 * p + 6) 2 }

/-- A glyph: code point, bitmap width, advance, x-offset, bitmap offset in the store. -/
structure Glyph where
  cp : Nat
  width : Nat
  advance : Nat
  xofs : Int
  bmp : Nat
  deriving DecidableEq, Repr

/-- Glyph `i` of a font. -/
def glyphAt (m : SMap Word) (f : Font) (i : Nat) : Glyph :=
  let o := f.ofs + 32 + 12 * i
  { cp := stNum m o 4, width := stNum m (o + 4) 1, advance := stNum m (o + 5) 1, xofs := toSigned 8 (stNum m (o + 6) 1),
    bmp := stNum m (o + 8) 4 }

/-- The glyph of a code point. -/
def glyphFind (m : SMap Word) (f : Font) (cp : Nat) : Option Glyph :=
  ((List.range f.count).map (glyphAt m f)).find? (fun g => g.cp == cp)

/-- Header, ordering, bounds and CRC of the font in a slot (R162). [DEDUCED, unsafe, log 49] -/
def fontOk (m : SMap Word) (n : Nat) : Bool :=
  let (p, c, _) := glyphSlot m n
  let f := fontOf m n
  let gs := (List.range f.count).map (glyphAt m f)
  decide (1 ≤ p) && decide (1 ≤ c) && decide (p + c ≤ 512) && stNum m f.ofs 4 == 0x31465844 &&
    decide (1 ≤ f.height) && decide (f.height ≤ 256) && decide (32 + 12 * f.count ≤ f.size) &&
    gs.all (fun g => decide (g.cp ≤ 0x10FFFF) && decide (g.bmp + f.height * ceilDiv g.width 8 ≤ f.size)) &&
    (gs.zip (gs.drop 1)).all (fun p => decide (p.1.cp < p.2.cp)) &&
    crc32c (stBytes m f.ofs 28 ++ List.replicate 4 0 ++ stBytes m (f.ofs + 32) (f.size - 32)) == stNum m (f.ofs + 0x1C) 4

/-! ## Sizes and worst-case render time (R152, Table 5.11) -/

/-- Largest number of bytes an element can produce. -/
def elMax (e : List Byte) : Nat :=
  match elKind e with
  | 1 => leAt e 1 1
  | 2 => leAt e 3 1
  | 3 => leAt e 2 1
  | 4 => [0, 4, 2, 2, 2, 3, 2, 1, 2, 2, 2, 6, 6, 3, 1, 4].getD (leAt e 1 1) 0
  | 5 => 4
  | 6 => leAt e 1 1
  | _ => 0

/-- Characters of UTF-8 bytes: every byte but the continuation bytes begins one (R163). -/
def utf8Count (l : List Byte) : Nat := (l.filter (fun b => !(decide (128 ≤ b.toNat) && decide (b.toNat < 192)))).length

/-- The bytes of a LITERAL element. -/
def Tpl.literal (t : Tpl) (m : SMap Word) (e : List Byte) : List Byte := stBytes m (t.strOfs + leAt e 2 2) (leAt e 1 1)

/-- Largest content of a TEXT field in characters: those of its literals, and one for each byte another element can produce. -/
def Tpl.maxChars (t : Tpl) (m : SMap Word) (f : TplField) : Nat :=
  ((t.elems m f).map (fun e => if elKind e = 1 then utf8Count (t.literal m e) else elMax e)).sum

/-- `n` bytes that take the most Code 128 characters under R166: a control byte behind every lowercase letter, or letters alone in GS1
content, which has no control bytes. -/
def c128Filler (gs1 ctl : Bool) (n : Nat) : List (Option Byte) :=
  (List.range n).map (fun i => some (if !gs1 && (i % 2 == 1) != ctl then 1 else 97))

/-- The text of a decimal counter of `n` digits that takes the most Code 128 characters: with zeros all digits, with spaces any number of them
before the digits, with no padding any number of digits. -/
def counterMost (gs1 : Bool) (pad n : Nat) : List (Option Byte) :=
  let text := fun (k : Nat) => (if pad = 1 then List.replicate (n - k) (some 32) else []) ++ List.replicate k (some (48 : Byte))
  if pad = 0 then text n
  else ((List.range n).map (fun i => text (n - i))).foldl (fun best l =>
    if (c128Chars gs1 best).length < (c128Chars gs1 l).length then l else best) (text n)

/-- Data of a CODE128 field at its largest, for the count of symbol characters: literals and application identifiers as they stand,
for a decimal counter the text its padding allows that alone takes the most characters, digits for dates, the worst bytes for anything else; FNC1 behind each variable-length AI but the last. [DEDUCED, unsafe, log 50] -/
def Tpl.c128Data (t : Tpl) (m : SMap Word) (f : TplField) (ctl : Bool) : List (Option Byte) :=
  let digits := fun (n : Nat) => List.replicate n (some (48 : Byte))
  let els := t.elems m f
  let ais := (els.filter (fun e => elKind e == 6)).length
  (els.foldl (fun (x : Nat × Bool × List (Option Byte)) e =>
    match elKind e with
    | 1 => (x.1, x.2.1, x.2.2 ++ (t.literal m e).map some)
    | 3 => (x.1, x.2.1, x.2.2 ++ (if leAt e 4 1 = 10 then counterMost f.gs1 (leAt e 3 1) (elMax e)
        else List.replicate (elMax e) (some 65)))
    | 4 => (x.1, x.2.1, x.2.2 ++ (if leAt e 1 1 = 13 then List.replicate 3 (some 65) else digits (elMax e)))
    | 6 =>
      let var := (aiFind m (leAt e 1 1) (leAt e 2 2)).any (fun a => hasBit a.flags 0)
      (x.1 + 1, var && decide (x.1 + 1 < ais),
        x.2.2 ++ (if x.2.1 then [none] else []) ++
          ((digitsOf 10 8 (leAt e 2 2 % 10 ^ leAt e 1 1 + 10 ^ leAt e 1 1)).drop 1).map (fun v => some (BitVec.ofNat 8 (48 + v))))
    | _ => (x.1, x.2.1, x.2.2 ++ c128Filler f.gs1 ctl (elMax e))) (0, false, [])).2.2

/-- Symbol characters of a CODE128 field at its largest, at most 80 (Table 5.10). [DEDUCED, unsafe, log 50] -/
def Tpl.c128Most (t : Tpl) (m : SMap Word) (f : TplField) : Nat :=
  min 80 (max (c128Chars f.gs1 (t.c128Data m f false)).length (c128Chars f.gs1 (t.c128Data m f true)).length)

/-- Module image of a field before rotation, at its largest: width, height. -/
def Tpl.moduleSize (t : Tpl) (m : SMap Word) (f : TplField) : Nat × Nat :=
  match f.type with
  | 1 => (f.sizeA, f.sizeB)
  | 2 => if f.sizeA ≤ 1 then (144, 144) else (f.sizeA % 256, f.sizeA / 256)
  | 3 => (f.sizeA, f.sizeB)
  | _ => (11 * t.c128Most m f + 13, f.sizeA)

/-- Stamped size at its largest: columns, lines. [DEDUCED, unsafe, log 50] -/
def Tpl.stampSize (t : Tpl) (m : SMap Word) (f : TplField) : Nat × Nat :=
  let (w, h) := t.moduleSize m f
  if f.rot % 2 = 1 then (h * f.mw, w * f.mh) else (w * f.mw, h * f.mh)

/-- Worst-case clocks of one field: its elements, its content, its compare. [DEDUCED, unsafe, log 50] -/
def Tpl.fieldTime (t : Tpl) (m : SMap Word) (f : TplField) : Nat :=
  let (w, h) := t.moduleSize m f
  let body := match f.type with
    | 1 => 20 * t.maxChars m f + ceilDiv (w * h * f.mw * f.mh) 64
    | 2 =>
      let cw := match (if f.sizeA ≤ 1 then dmSquares.getLast? else dmFixed f.sizeA) with
        | some s => s.data + s.ecc
        | none => 0
      1000 + 4 * cw + ceilDiv (w * h) 16
    | 3 => 2000 + 40 * ((w * h / 2 - 2) / 9) + ceilDiv (w * h) 4
    | _ => 100 + 20 * t.c128Most m f
  50 * f.eCount + body + ceilDiv (w * h) 64

/-- T_tpl (R152). [DEDUCED, unsafe, log 50] -/
def Tpl.time (t : Tpl) (m : SMap Word) : Nat := 200 + ((t.fields m).map (t.fieldTime m)).sum

/-! ## Validation (R151, Table 5.5) -/

/-- Check 1: directory entries. -/
def checkDir (m : SMap Word) : List (Nat × Nat) :=
  (List.range 256).filterMap (fun i =>
    let o := 4 * i
    let v := stNum m o 2
    if i < 16 then (if stNum m o 4 ≠ 0 then some (1, o) else none)
    else if v = 0 ∨ (0x1500 ≤ 32 * v ∧ 32 * v < 0x20000) then none
    else some (1, o))

/-- Checks 2 and 3 of a template. [DEDUCED, unsafe, log 49] -/
def checkHead (m : SMap Word) (t : Tpl) : List (Nat × Nat) :=
  let inside := decide (t.stop ≤ 0x20000)
  let counts := decide (1 ≤ t.nf ∧ t.nf ≤ 32 ∧ 1 ≤ t.ne ∧ t.ne ≤ 128 ∧ t.slen ≤ 4096)
  let crc := crc32c (stBytes m t.base 28 ++ stBytes m (t.base + 32) (t.stop - (t.base + 32)))
  (if stNum m t.base 4 ≠ 0x31545844 then [(2, t.base)]
    else if counts && inside && crc != stNum m (t.base + 0x1C) 4 then [(2, t.base + 0x1C)] else []) ++
  (if 1 ≤ t.nf ∧ t.nf ≤ 32 then [] else [(3, t.base + 4)]) ++ (if 1 ≤ t.ne ∧ t.ne ≤ 128 then [] else [(3, t.base + 5)]) ++
  (if t.slen ≤ 4096 then [] else [(3, t.base + 6)]) ++ (if inside then [] else [(3, t.base)])

/-- Check 4: the rules of Table 5.3, each with the byte of the descriptor it is about. -/
def fieldRules (f : TplField) : List (Nat × Bool) :=
  [(0x00, decide (1 ≤ f.type ∧ f.type ≤ 4)),
   (0x01, (!f.gs1 || f.type != 1) && (if f.type = 1 then decide (f.align ≤ 2) else f.align == 0) && f.flagsHigh == 0),
   (0x02, decide (f.plane ≤ 7)), (0x03, decide (1 ≤ f.ink ∧ f.ink ≤ 15)), (0x04, decide (f.rule ≤ 3)),
   (0x05, decide (1 ≤ f.mw ∧ f.mw ≤ 32)), (0x06, decide (1 ≤ f.mh ∧ f.mh ≤ 32) && (f.type != 4 || f.mh == 1)),
   (0x07, if f.type = 1 then decide (f.font ≤ 31) else f.font == 0), (0x08, decide (f.col ≤ 262143)),
   (0x0E, decide (f.eFirst ≤ 127)), (0x0F, decide (1 ≤ f.eCount ∧ f.eCount ≤ 32)),
   (0x10, f.type != 4 || decide (1 ≤ f.sizeA ∧ f.sizeA ≤ 4096)), (0x12, f.type == 1 || f.type == 3 || f.sizeB == 0),
   (0x15, f.reserved == 0)]

/-- Check 5: an element against Table 5.4. -/
def elemOk (e : List Byte) : Bool :=
  let b := fun i => leAt e i 1
  match elKind e with
  | 1 => decide (1 ≤ b 1) && leAt e 4 4 == 0
  | 2 => decide (b 1 ≤ 31) && decide (1 ≤ b 3) && leAt e 4 4 == 0
  | 3 => decide (b 1 ≤ 15) && decide (1 ≤ b 2) && decide (b 2 ≤ 20) && decide (b 3 ≤ 2) && (b 4 == 10 || b 4 == 36) &&
    leAt e 5 3 == 0
  | 4 => decide (1 ≤ b 1) && decide (b 1 ≤ 15) && decide (b 2 ≤ 3) && b 3 == 0 && leAt e 6 2 == 0
  | 5 => leAt e 1 7 == 0
  | 6 => decide (2 ≤ b 1) && decide (b 1 ≤ 4) && leAt e 4 4 == 0
  | _ => false

/-- Checks 5 and 6 of a template's elements. [DEDUCED, unsafe, log 49] -/
def checkElems (m : SMap Word) (t : Tpl) : List (Nat × Nat) :=
  (List.range t.ne).flatMap (fun i =>
    let o := t.elemOfs i
    let e := stBytes m o 8
    (if elemOk e then [] else [(5, o)]) ++
      (if elKind e = 1 ∧ t.slen < leAt e 2 2 + leAt e 1 1 then [(6, o)] else []))

/-- Check 8: sizes of Table 5.10. -/
def sizeOk (f : TplField) : Bool :=
  match f.type with
  | 1 => decide (1 ≤ f.sizeA) && decide (f.sizeA ≤ 2048) && decide (1 ≤ f.sizeB) && decide (f.sizeB ≤ 256)
  | 2 => decide (f.sizeA ≤ 1) || (dmFixed f.sizeA).isSome
  | 3 => decide (5 ≤ f.sizeA) && decide (f.sizeA ≤ 200) && decide (5 ≤ f.sizeB) && decide (f.sizeB ≤ 200) &&
    (f.sizeA + f.sizeB) % 2 == 1
  | _ => true

/-- Checks 4–10 of one field. -/
def checkField (m g : SMap Word) (t : Tpl) (f : TplField) : List (Nat × Nat) :=
  let els := (t.elems m f).zipIdx
  let at_ := fun (i : Nat) => t.elemOfs (f.eFirst + i)
  let (sw, sh) := t.stampSize m f
  ((fieldRules f).filter (fun r => !r.2)).map (fun r => (4, f.ofs + r.1)) ++
    (if t.ne < f.eFirst + f.eCount then [(5, f.ofs + 0x0E)] else []) ++
    (if f.type ≠ 1 then []
      else if !(glyphSlot g f.font).2.2 then [(7, f.ofs + 7)]
      else if f.sizeB < (fontOf g f.font).height then [(7, f.ofs + 0x12)] else []) ++
    (if sizeOk f then [] else [(8, f.ofs + 0x10)]) ++
    (if 262144 < f.col + sw then [(9, f.ofs + 8)] else []) ++ (if 65536 < f.line + sh then [(9, f.ofs + 0xC)] else []) ++
    els.filterMap (fun e =>
      if elKind e.1 = 6 then
        (if f.gs1 = true ∧ (aiFind m (leAt e.1 1 1) (leAt e.1 2 2)).isSome = true then none else some (10, at_ e.2))
      else if f.gs1 = true ∧ e.2 = 0 then some (10, at_ 0) else none)

/-- Check 11: an AI entry with the AI of an earlier one. -/
def checkAis : List AiEntry → List AiEntry → List (Nat × Nat)
  | _, [] => []
  | before, e :: r =>
    if before.any (fun x => x.digits == e.digits && x.value == e.value) then [(11, e.ofs)] else checkAis (e :: before) r

/-- Check 12: shift and civil offset entries. -/
def checkTimes (m : SMap Word) : List (Nat × Nat) :=
  (List.range 8).flatMap (fun i =>
    let (st, n, cs) := shiftEntry m i
    if 4 < n ∨ (n ≠ 0 ∧ (1439 < st ∨ (cs.take n).any (fun b => decide (128 ≤ b.toNat)) = true)) then [(12, 0x1400 + 16 * i)]
    else []) ++
  (List.range 8).flatMap (fun i => if stNum m (0x148D + 16 * i) 3 ≠ 0 then [(12, 0x1480 + 16 * i)] else [])

/-- Every failure of the store, checks 2–10 template by template. [DEDUCED, unsafe, log 49] -/
def storeFailures (m g : SMap Word) : List (Nat × Nat) :=
  checkDir m ++
  ((List.range 15).flatMap (fun s => (List.range 16).flatMap (fun i =>
    match tplFind m (s + 1) i with
    | none => []
    | some t =>
      if t.base < 0x1500 ∨ 0x20000 ≤ t.base then []
      else match checkHead m t with
        | [] => (t.fields m).flatMap (checkField m g t) ++ checkElems m t
        | l => l))) ++
  checkAis [] (aiTable m) ++ checkTimes m

/-- The first failure: the lowest check, and within it the first in store order. [DEDUCED, unsafe, log 49] -/
def firstFailure (m g : SMap Word) : Option (Nat × Nat) :=
  let l := storeFailures m g
  (List.range 13).findSome? (fun c => l.find? (fun x => x.1 == c))

/-- The largest T_tpl of a store (R152). -/
def storeTime (m : SMap Word) : Nat :=
  (List.range 15).foldl (fun a s => (List.range 16).foldl (fun a i =>
    match tplFind m (s + 1) i with
    | none => a
    | some t => max a (t.time m)) a) 0

end Sys2Proof.Machine
end

