-- ==== Sys2Proof/Machine/Render.lean ====
section
/-! DEFINITION. What a renderer makes of one field of an item: dates, shifts, counters, GS1 strings, text, symbols (05 R156–R167,
Table 5.13). Both renderers follow these rules; the comparator stands in Compose.lean. -/

namespace Sys2Proof.Machine

/-! ## Field results (Table 5.13) -/

/-- Results a field can end with. -/
inductive FieldRes where
  | ok | dataLate | renderLate | mismatch | missing | fit | glyph | charset | gs1 | time | counterEnd | noTemplate | memory
  | noShift
  deriving DecidableEq, Repr

/-- Code of a result. -/
def FieldRes.code : FieldRes → Nat
  | .ok => 0 | .dataLate => 1 | .renderLate => 2 | .mismatch => 3 | .missing => 4 | .fit => 5 | .glyph => 6 | .charset => 7
  | .gs1 => 8 | .time => 9 | .counterEnd => 10 | .noTemplate => 11 | .memory => 12 | .noShift => 13

/-- A value, or the result that ends the field. -/
inductive FRes (α : Type) where
  | ok (a : α)
  | err (r : FieldRes)
  deriving DecidableEq, Repr

/-! ## Dates (R159, R160) -/

/-- A civil date from days since 1970-01-01. -/
def civilOf (days : Nat) : Nat × Nat × Nat :=
  let z := days + 719468
  let era := z / 146097
  let doe := z - era * 146097
  let yoe := (doe - doe / 1460 + doe / 36524 - doe / 146096) / 365
  let doy := doe - (365 * yoe + yoe / 4 - yoe / 100)
  let mp := (5 * doy + 2) / 153
  let d := doy - (153 * mp + 2) / 5 + 1
  let m := if mp < 10 then mp + 3 else mp - 9
  (era * 400 + yoe + (if m ≤ 2 then 1 else 0), m, d)

/-- Days since 1970-01-01 of a civil date from 1970 on. -/
def daysOf (y m d : Nat) : Nat :=
  let y' := if m ≤ 2 then y - 1 else y
  let era := y' / 400
  let yoe := y' - era * 400
  let doy := (153 * (if m > 2 then m - 3 else m + 9) + 2) / 5 + d - 1
  era * 146097 + (yoe * 365 + yoe / 4 - yoe / 100 + doy) - 719468

/-- Leap years of the Gregorian calendar. -/
def leapYear (y : Nat) : Bool := y % 4 == 0 && (y % 100 != 0 || y % 400 == 0)

/-- Length of a month. -/
def monthLen (y m : Nat) : Nat :=
  if m = 2 then (if leapYear y then 29 else 28) else if m = 4 ∨ m = 6 ∨ m = 9 ∨ m = 11 then 30 else 31

/-- Local seconds of a stamp: the valid civil entry with the largest effective second not above it (R159). -/
def localSeconds (m : SMap Word) (sec : Nat) : Option Int :=
  let es := ((List.range 8).map (civilEntry m)).filter (fun e => e.2.2 && decide (e.1 ≤ sec))
  match es with
  | [] => none
  | e :: r => some ((sec : Int) + (r.foldl (fun a b => if a.1 < b.1 then b else a) e).2.1)

/-- Days of 9999-12-31. -/
def lastDay : Int := 2932896

/-- Days after an adjustment: days, months clamped, months to month end (R160). -/
def adjustDays (days : Int) (kind : Nat) (amount : Int) : Option Nat :=
  if days < 0 ∨ lastDay < days then none
  else
    let r : Int := match kind with
      | 0 => days
      | 1 => days + amount
      | k =>
        let (y, m, d) := civilOf days.toNat
        let t := (12 * y + (m - 1) : Nat) + amount
        if t < 12 * 1970 ∨ 12 * 10000 ≤ t then -1
        else
          let y' := t.toNat / 12
          let m' := t.toNat % 12 + 1
          let last := monthLen y' m'
          (daysOf y' m' (if k = 2 then min d last else last) : Nat)
    if r < 0 ∨ lastDay < r then none else some r.toNat

/-- A number in `n` decimal digits, zeros in front. -/
def decimals : Nat → Nat → List Byte
  | 0, _ => []
  | n + 1, v => decimals n (v / 10) ++ [BitVec.ofNat 8 (48 + v % 10)]

/-- JAN–DEC. -/
def monthNames : List (List Byte) :=
  [[74, 65, 78], [70, 69, 66], [77, 65, 82], [65, 80, 82], [77, 65, 89], [74, 85, 78], [74, 85, 76], [65, 85, 71],
   [83, 69, 80], [79, 67, 84], [78, 79, 86], [68, 69, 67]]

/-- ISO 8601 weekday (Monday = 1), and week-year and week. -/
def isoWeek (days : Nat) : Nat × Nat × Nat :=
  let wd := (days + 3) % 7 + 1
  let th := days + 4 - wd
  let y := (civilOf th).1
  (wd, y, (th - daysOf y 1 1) / 7 + 1)

/-- A date component (Table 5.7) from adjusted days and the second of the day. -/
def dateText (comp days sod : Nat) : List Byte :=
  let (y, m, d) := civilOf days
  let (wd, wy, wk) := isoWeek days
  match comp with
  | 1 => decimals 4 y
  | 2 => decimals 2 (y % 100)
  | 3 => decimals 2 m
  | 4 => decimals 2 d
  | 5 => decimals 3 (days - daysOf y 1 1 + 1)
  | 6 => decimals 2 wk
  | 7 => decimals 1 wd
  | 8 => decimals 2 (sod / 3600)
  | 9 => decimals 2 (sod / 60 % 60)
  | 10 => decimals 2 (sod % 60)
  | 11 => decimals 2 (y % 100) ++ decimals 2 m ++ decimals 2 d
  | 12 => decimals 2 (y % 100) ++ decimals 2 m ++ decimals 2 0
  | 13 => (monthNames.drop (m - 1)).headD []
  | 14 => decimals 1 (y % 10)
  | _ => decimals 4 wy

/-- Local days and second of the day of an item's stamp; the item's TIME result otherwise (R159). -/
def itemLocal (m : SMap Word) (it : Item) : FRes (Nat × Nat) :=
  if it.timeInv then .err .time
  else match localSeconds m it.tsec with
    | none => .err .time
    | some s => if s < 0 ∨ lastDay < s / 86400 then .err .time else .ok (s.toNat / 86400, s.toNat % 86400)

/-- The text of a DATE element; an adjustment does not change the time of day (R160). -/
def dateElem (m : SMap Word) (it : Item) (e : List Byte) : FRes (List Byte) :=
  match itemLocal m it with
  | .err r => .err r
  | .ok (days, sod) =>
    let timeOfDay := [8, 9, 10].contains (leAt e 1 1)
    match (if timeOfDay then some days else adjustDays days (leAt e 2 1) (toSigned 16 (leAt e 4 2))) with
    | none => .err .time
    | some ds => .ok (dateText (leAt e 1 1) ds sod)

/-- The shift code at a minute of the day (R161). -/
def shiftCode (m : SMap Word) (minute : Nat) : Option (List Byte) :=
  let used := ((List.range 8).map (shiftEntry m)).filter (fun e => e.2.1 != 0)
  let best := fun (l : List (Nat × Nat × List Byte)) => (match l with
    | [] => none
    | e :: r => some (r.foldl (fun a b => if a.1 < b.1 then b else a) e) : Option (Nat × Nat × List Byte))
  let pick := match best (used.filter (fun e => decide (e.1 ≤ minute))) with
    | some e => some e
    | none => best used
  pick.map (fun e => e.2.2.take e.2.1)

/-- The text of a SHIFT element. -/
def shiftElem (m : SMap Word) (it : Item) : FRes (List Byte) :=
  match itemLocal m it with
  | .err r => .err r
  | .ok (_, sod) =>
    match shiftCode m (sod / 60) with
    | none => .err .noShift
    | some c => .ok c

/-! ## Elements and content -/

/-- The text of a COUNTER element from a snapshot (R157). -/
def counterText (digits pad radix v : Nat) : FRes (List Byte) :=
  let ds := (digitsOf radix 64 v).map (fun x => BitVec.ofNat 8 (if x < 10 then 48 + x else 55 + x))
  if digits < ds.length then .err .fit
  else match pad with
    | 0 => .ok (List.replicate (digits - ds.length) 48 ++ ds)
    | 1 => .ok (List.replicate (digits - ds.length) 32 ++ ds)
    | _ => .ok ds

/-- What the item's renderings take besides the template: the item, its record, whether it went without (R170). -/
structure RenderIn where
  store : SMap Word
  glyph : SMap Word
  item : Item
  record : Option Rec
  bad : List (Bool × Nat)
  deriving DecidableEq, Repr

/-- A word among `n` bytes from offset `o` of the glyph store, or else of the template store, reads uncorrectable: `bad` lists the words
that do, of 4 and of 8 bytes (11 Table 11.1). -/
def RenderIn.fails (x : RenderIn) (glyph : Bool) (r : Nat × Nat) : Bool :=
  let k := if glyph then 4 else 8
  x.bad.any (fun w => w.1 == glyph && decide (k * w.2 < r.1 + r.2) && decide (r.1 < k * w.2 + k) && decide (0 < r.2))

/-- Bytes of the template store that the content of a field is read from, as offsets and lengths: header, descriptor, elements, literals,
the AI table of a GS1 field, the shift and civil offset tables (R176). [DEDUCED, unsafe, log 53] -/
def templateReads (t : Tpl) (m : SMap Word) (f : TplField) : List (Nat × Nat) :=
  let els := t.elems m f
  [(t.base, 32), (f.ofs, 32), (t.elemOfs f.eFirst, 8 * f.eCount)] ++
    (els.filter (fun e => elKind e == 1)).map (fun e => (t.strOfs + leAt e 2 2, leAt e 1 1)) ++
    (if f.gs1 then [(0x400, 4096)] else []) ++
    (if els.any (fun e => elKind e == 5) then [(0x1400, 128)] else []) ++
    (if els.any (fun e => elKind e == 4 || elKind e == 5) then [(0x1480, 128)] else [])

/-- Bytes of the glyph store in which a font is looked up: slot entry, header and index. -/
def fontReads (g : SMap Word) (n : Nat) : List (Nat × Nat) :=
  [(8 * n, 8), ((fontOf g n).ofs, 32 + 12 * (fontOf g n).count)]

/-- Bytes of a glyph's bitmap. -/
def bitmapRead (font : Font) (x : Glyph) : Nat × Nat := (font.ofs + x.bmp, font.height * ceilDiv x.width 8)

/-- Content in the making: bytes, and AI boundaries (digits, value). -/
abbrev Piece := Byte ⊕ (Nat × Nat)

/-- The contribution of one element (Table 5.4). [DEDUCED, unsafe, log 53] -/
def elemPieces (x : RenderIn) (t : Tpl) (e : List Byte) : FRes (List Piece) :=
  let bytes := fun (l : List Byte) => l.map (fun b => (Sum.inl b : Piece))
  let lift := fun (r : FRes (List Byte)) => match r with
    | .ok l => FRes.ok (bytes l)
    | .err c => .err c
  match elKind e with
  | 1 => .ok (bytes (stBytes x.store (t.strOfs + leAt e 2 2) (leAt e 1 1)))
  | 2 =>
    match x.record with
    | none => if x.item.dataLate then .err .dataLate else .err .missing
    | some r =>
      match r.fields.find? (fun f => f.1 == leAt e 1 1) with
      | none => .err .missing
      | some f => if leAt e 2 1 ≤ f.2.length ∧ f.2.length ≤ leAt e 3 1 then .ok (bytes f.2) else .err .missing
  | 3 =>
    match x.item.snaps.find? (leAt e 1 1) with
    | none => .err .counterEnd
    | some v => lift (counterText (leAt e 2 1) (leAt e 3 1) (leAt e 4 1) v)
  | 4 => lift (dateElem x.store x.item e)
  | 5 => lift (shiftElem x.store x.item)
  | _ => .ok [Sum.inr (leAt e 1 1, leAt e 2 2)]

/-- The content of a field: its elements in order, ended by the first that fails. -/
def contentOf (x : RenderIn) (t : Tpl) : List (List Byte) → FRes (List Piece)
  | [] => .ok []
  | e :: r =>
    match elemPieces x t e with
    | .err c => .err c
    | .ok p =>
      match contentOf x t r with
      | .err c => .err c
      | .ok q => .ok (p ++ q)

/-! ## GS1 (R167, Table 5.9) -/

/-- GS1 character set 82. -/
def inSet82 (b : Byte) : Bool :=
  isDigit b || (decide (65 ≤ b.toNat) && decide (b.toNat ≤ 90)) || (decide (97 ≤ b.toNat) && decide (b.toNat ≤ 122)) ||
    [33, 34, 37, 38, 39, 40, 41, 42, 43, 44, 45, 46, 47, 58, 59, 60, 61, 62, 63, 95].contains b.toNat

/-- The modulo-10 check digit of digits: weights 3, 1, … from the right. [PRESUMED, unsafe, log 56] -/
def gs1Check (l : List Byte) : Nat :=
  (10 - ((l.reverse.zipIdx.map (fun p => (p.1.toNat - 48) * (if p.2 % 2 = 0 then 3 else 1))).sum % 10)) % 10

/-- A YYMMDD date, DD 00 allowed. [PRESUMED, unsafe, log 56] -/
def gs1Date (l : List Byte) : Bool :=
  let n := fun i => ((l.drop i).headD 0).toNat - 48
  let mm := 10 * n 2 + n 3
  let dd := 10 * n 4 + n 5
  l.length == 6 && l.all isDigit && decide (1 ≤ mm) && decide (mm ≤ 12) && decide (dd ≤ monthLen (2000 + 10 * n 0 + n 1) mm)

/-- An element string's data obeys its AI table entry. -/
def aiDataOk (e : AiEntry) (l : List Byte) : Bool :=
  decide (e.minLen ≤ l.length) && decide (l.length ≤ e.maxLen) &&
    (if hasBit e.flags 3 then l.all isDigit else l.all inSet82) &&
    (!hasBit e.flags 1 || (l.all isDigit && l != [] &&
      gs1Check (l.take (l.length - 1)) == ((l.getLastD 0).toNat - 48))) &&
    (!hasBit e.flags 2 || gs1Date l)

/-- The element strings of GS1 content, one per AI boundary; none when bytes stand before the first. -/
def gs1Strings : (fuel : Nat) → List Piece → Option (List ((Nat × Nat) × List Byte))
  | _, [] => some []
  | 0, _ => none
  | _, .inl _ :: _ => none
  | f + 1, .inr a :: r =>
    let data := (r.takeWhile (fun p => p.isLeft)).filterMap (fun p => match p with
      | .inl b => some b
      | .inr _ => none)
    (gs1Strings f (r.dropWhile (fun p => p.isLeft))).map (fun l => (a, data) :: l)

/-- Data encoded from checked element strings, without the first FNC1: FNC1 after a variable-length AI unless last. -/
def gs1Encode (m : SMap Word) : List ((Nat × Nat) × List Byte) → FRes (List (Option Byte))
  | [] => .ok []
  | (a, data) :: r =>
    match aiFind m a.1 a.2 with
    | none => .err .gs1
    | some e =>
      if aiDataOk e data then
        match gs1Encode m r with
        | .err c => .err c
        | .ok q =>
          .ok ((decimals a.1 a.2 ++ data).map some ++ (if hasBit e.flags 0 && !r.isEmpty then [none] else []) ++ q)
      else .err .gs1

/-- Symbol data of a field: bytes, or checked GS1 data without the leading FNC1. [PRESUMED, safe, log 57] -/
def symbolData (m : SMap Word) (gs1 : Bool) (p : List Piece) : FRes (List (Option Byte)) :=
  if gs1 then
    match gs1Strings p.length p with
    | none => .err .gs1
    | some l => gs1Encode m l
  else .ok (p.filterMap (fun q => match q with
    | .inl b => some (some b)
    | .inr _ => none))

/-! ## Text (R163) -/

/-- Code points of UTF-8 bytes; none where malformed. [DEDUCED, unsafe, log 54] -/
def utf8Points : Nat → List Byte → Option (List Nat)
  | _, [] => some []
  | 0, _ => none
  | f + 1, b :: r =>
    let n := b.toNat
    let cont := fun (k : Nat) => (r.take k).length == k && (r.take k).all (fun c => decide (128 ≤ c.toNat ∧ c.toNat < 192))
    let val := fun (k lead : Nat) => (r.take k).foldl (fun a c => 64 * a + c.toNat % 64) lead
    if n < 128 then (utf8Points f r).map (n :: ·)
    else if 0xC2 ≤ n ∧ n < 0xE0 ∧ cont 1 = true then (utf8Points f (r.drop 1)).map (val 1 (n % 32) :: ·)
    else if 0xE0 ≤ n ∧ n < 0xF0 ∧ cont 2 = true then
      let v := val 2 (n % 16)
      if v < 0x800 ∨ (0xD800 ≤ v ∧ v < 0xE000) then none else (utf8Points f (r.drop 2)).map (v :: ·)
    else if 0xF0 ≤ n ∧ n < 0xF5 ∧ cont 3 = true then
      let v := val 3 (n % 8)
      if v < 0x10000 ∨ 0x10FFFF < v then none else (utf8Points f (r.drop 3)).map (v :: ·)
    else none

/-- Glyphs with the pen position each is drawn at, and the final pen position. [DEDUCED, unsafe, log 54] -/
def setText (track : Int) : List Glyph → Int → List (Glyph × Int) × Int
  | [], pen => ([], pen)
  | g :: r, pen =>
    let (l, w) := setText track r (pen + g.advance + track)
    ((g, pen + g.xofs) :: l, w)

/-- The text box with its text. [DESIGN CHOICE, safe, log 55] -/
def textImage (x : RenderIn) (f : TplField) (content : List Byte) : FRes Img :=
  let font := fontOf x.glyph f.font
  match utf8Points content.length content with
  | none => .err .glyph
  | some cps =>
    if 128 < cps.length then .err .fit
    else if (fontReads x.glyph f.font).any (x.fails true) then .err .memory
    else match cps.mapM (glyphFind x.glyph font) with
    | none => .err .glyph
    | some gs =>
      let (placed, width) := setText f.track gs 0
      if (f.sizeA : Int) < width then .err .fit
      else if gs.any (fun g => x.fails true (bitmapRead font g)) then .err .memory
      else
        let room := (f.sizeA : Int) - width
        let dx : Int := match f.align with
          | 0 => 0
          | 1 => room.fdiv 2
          | _ => room
        let dy := Config.textTop f.sizeB font.height % (f.sizeB - font.height + 1)
        .ok (Img.ofFn f.sizeA f.sizeB (fun r c =>
          decide (dy ≤ r) && decide (r < dy + font.height) && placed.any (fun p =>
            let k := (c : Int) - (p.2 + dx)
            decide (0 ≤ k ∧ k < (p.1.width : Int)) &&
              hasBit (stByte x.glyph (font.ofs + p.1.bmp + (r - dy) * ceilDiv p.1.width 8 + k.toNat / 8)).toNat (k.toNat % 8))))

/-! ## One field -/

/-- The module image of a field before rotation. -/
def fieldImage (x : RenderIn) (t : Tpl) (f : TplField) : FRes Img :=
  match contentOf x t (t.elems x.store f) with
  | .err c => .err c
  | .ok p =>
    match symbolData x.store f.gs1 p with
    | .err c => .err c
    | .ok data =>
      match f.type with
      | 1 => textImage x f (data.filterMap id)
      | 2 =>
        let cw := dmAscii ((if f.gs1 then [none] else []) ++ data)
        (match dmPick f.sizeA cw.length with
        | none => .err .fit
        | some s => .ok (dmImage s (dmCodewords s cw)))
      | 3 =>
        (match Config.dotcode f.sizeA f.sizeB ((if f.gs1 then [none] else []) ++ data) with
        | none => .err .fit
        | some rows =>
          .ok { w := f.sizeA, h := f.sizeB
                rows := (List.range f.sizeB).map (fun r => ((rows.drop r).headD 0) % 2 ^ f.sizeA) })
      | _ =>
        if (data.filterMap id).any (fun b => decide (128 ≤ b.toNat)) then .err .charset
        else
          let cs := c128Chars f.gs1 data
          if 80 < cs.length then .err .fit else .ok (c128Image cs f.sizeA)

/-- Size of the area a field without an image keeps clear: its box or fixed symbol; no area where only the content gives the
size. -/
def blankImage (f : TplField) : Img :=
  let img := match f.type with
    | 2 => (match dmFixed f.sizeA with
      | some s => Img.clear s.cols s.rows
      | none => Img.clear 0 0)
    | 4 => Img.clear 0 f.sizeA
    | _ => Img.clear f.sizeA f.sizeB
  if f.rot % 2 = 1 then { img with w := img.h, h := img.w, rows := List.replicate img.w 0 } else img

/-- Bytes of the glyph store that a TEXT field reads (R163): its font's, and the bitmaps of its characters. [DEDUCED, unsafe, log 53] -/
def glyphReads (x : RenderIn) (t : Tpl) (f : TplField) : List (Nat × Nat) :=
  if f.type ≠ 1 then []
  else match contentOf x t (t.elems x.store f) with
  | .err _ => []
  | .ok p =>
    let content := p.filterMap (fun q => match q with
      | .inl b => some b
      | .inr _ => none)
    let font := fontOf x.glyph f.font
    fontReads x.glyph f.font ++
      (((utf8Points content.length content).getD []).filterMap (glyphFind x.glyph font)).map (bitmapRead font)

/-- A field as one renderer makes it: result and image; a word that reads uncorrectable ends it with MEMORY (R176). -/
def renderField (x : RenderIn) (t : Tpl) (f : TplField) : FieldRes × Img :=
  if (templateReads t x.store f).any (x.fails false) then (.memory, blankImage f)
  else if x.item.dataLate && t.usesRecord x.store f then (.dataLate, blankImage f)
  else match fieldImage x t f with
    | .ok img => (.ok, img.rotate f.rot)
    | .err c => (c, blankImage f)

/-- Bytes an image takes in the field image store. -/
def Img.size (x : Img) : Nat := ceilDiv (x.w * x.h) 8

end Sys2Proof.Machine
end

