-- ==== Sys2Proof/Machine/Compose.lean ====
section
/-! DEFINITION. The composition engine (05 R149–R177): records and their binding, counters, resolution of items, renderings and
their deadlines, the comparator, the engine's commands. -/

namespace Sys2Proof.Machine

/-! ## Generations (R169) -/

/-- First word in memory 6 of the template store of a generation; none for the copy kept for the generation before (log 115). -/
def Dev.tplWord (d : Dev) (gen : Nat) : Option Nat :=
  if gen = d.job.gen + 1 then some 0 else if gen = d.job.gen then some tplActiveWord else none

/-- The Shadow template store as reads deliver it. -/
def Dev.tplShadow (d : Dev) : SMap Word := d.readTable 6 0 tplActiveWord 2 d.cmp.tplS

/-- Template store of a generation, as reads deliver it. -/
def Dev.tplOf (d : Dev) (gen : Nat) : SMap Word :=
  if gen = d.job.gen + 1 then d.tplShadow
  else if gen = d.job.gen then d.readTable 6 tplActiveWord tplActiveWord 2 d.cmp.tplA else d.cmp.tplR

/-- The glyph store as reads deliver it. -/
def Dev.glyphStore (d : Dev) : SMap Word := d.readTable 2 0 524288 1 d.cmp.glyph

/-- Profile of a generation. -/
def Dev.genProf (d : Dev) (gen : Nat) : SMap Word :=
  if gen = d.job.gen + 1 then d.regs else if gen = d.job.gen then d.active
  else match d.older[d.job.gen - 1 - gen]? with
  | some g => g.2.2
  | none => d.retired

/-! ## The job and template of an item (R168) -/

/-- Raster lines of a slot: an ended job counts the lines it released, any other its full line count. -/
def Slot.lines (x : Slot) : Nat :=
  if x.st = .ended then x.released else x.hdr.lines - x.firstBand * x.hdr.bandLines

/-- The slot whose S is fixed and whose line range contains a line. -/
def Dev.jobAt (d : Dev) (l : Nat) : Option Nat :=
  d.job.order.find? (fun q => match (d.slot q).s with
    | some s => decide (s ≤ l) && decide (l < s + (d.slot q).lines)
    | none => false)

/-- The record bound to an item. -/
def Dev.recOf (d : Dev) (i : Item) : Option Rec := i.record.bind (fun k => d.cmp.recs.find? (fun r => r.id == k))

/-- Template index of an item under a profile: from the record, or else from the input. -/
def Dev.tplIndex (d : Dev) (i : Item) (pr : SMap Word) : Nat :=
  match d.recOf i with
  | some r => if r.tpl = 0xFF then profGet pr (R.IN_TEMPLATE i.tplInput) else r.tpl
  | none => profGet pr (R.IN_TEMPLATE i.tplInput)

/-- Job and template that would resolve an item now: slot, generation, template; the generation is that of T_i, T_i itself
taken under the generation that governs ⌊start⌋. -/
def Dev.prospect (d : Dev) (i : Item) : Option (Nat × Nat × Option Tpl) :=
  let l := floorLine i.start
  (d.jobAt l).map (fun q =>
    let set := (d.slot q).hdr.tset
    let find := fun g => tplFind (d.tplOf g) set (d.tplIndex i (d.genProf g))
    let g0 := d.genOf l
    let g := match find g0 with
      | some t => d.genOf (l + t.firstLine (d.tplOf g0))
      | none => g0
    (q, g, find g))

/-- T_i: the item's first field line, ⌊start⌋ while no template is known. [DEDUCED, unsafe, log 52] -/
def Dev.itemT (d : Dev) (i : Item) : Nat :=
  if i.resolved then i.tFirst
  else match d.prospect i with
    | some (_, g, some t) => floorLine i.start + t.firstLine (d.tplOf g)
    | _ => floorLine i.start

/-- The weir level has reached `back` lines before T_i (Table 5.12). -/
def Dev.reachedT (d : Dev) (i : Item) (back : Nat) : Bool := decide ((d.itemT i - back) * 65536 ≤ d.pos.weir)

/-- Past the bind deadline. -/
def Dev.pastBind (d : Dev) (i : Item) : Bool := i.dataLate || d.reachedT i (d.job.workW + d.get R.CMP_RES)

/-- Items in ascending T_i, then ascending number. -/
def insertByT (x : Nat × Item) : List (Nat × Item) → List (Nat × Item)
  | [] => [x]
  | y :: r => if x.1 < y.1 ∨ (x.1 = y.1 ∧ x.2.num < y.2.num) then x :: y :: r else y :: insertByT x r

/-- The items `q` selects, in the order of R168 and R170. [DEDUCED, unsafe, log 52] -/
def Dev.inOrder (d : Dev) (q : Item → Bool) : List Item :=
  (((d.items.filter q).map (fun i => (d.itemT i, i))).foldl (fun l x => insertByT x l) []).map (·.2)

/-! ## Records (R153–R155) -/

/-- Splits the fields of a record; none when they do not fill their place exactly, or an ID is above 31 or repeated. -/
def recFields : (count : Nat) → List Byte → List Nat → Option (List (Nat × List Byte))
  | 0, [], _ => some []
  | 0, _, _ => none
  | n + 1, l, seen =>
    match l with
    | id :: len :: r =>
      if 31 < id.toNat ∨ seen.contains id.toNat = true ∨ r.length < len.toNat then none
      else (recFields n (r.drop len.toNat) (id.toNat :: seen)).map (fun fs => (id.toNat, r.take len.toNat) :: fs)
    | _ => none

/-- A pushed record (Table 5.6), if its form is correct. -/
def parseRec (id : Nat) (l : List Byte) : Option Rec :=
  let n := l.length
  let bind := leAt l 2 1
  let tpl := leAt l 3 1
  if n < 20 ∨ 1024 < n ∨ leAt l 0 2 ≠ n ∨ 1 < bind ∨ (15 < tpl ∧ tpl ≠ 0xFF) ∨ (bind = 0 ∧ leAt l 4 4 ≠ 0) ∨
      32 < leAt l 0xC 1 ∨ leAt l 0xD 3 ≠ 0 ∨ crc32c (l.take (n - 4)) ≠ leAt l (n - 4) 4 then none
  else (recFields (leAt l 0xC 1) (sliceOf l 16 (n - 20)) []).map (fun fs =>
    { id := id, byNumber := bind == 1, tpl := tpl, num := leAt l 4 4, key := leAt l 8 4, fields := fs, len := n,
      bound := none })

/-- Bytes of records held. -/
def Dev.recBytes (d : Dev) : Nat := (d.cmp.recs.map (·.len)).sum

/-- A record binds to an item (R154). [DEDUCED, unsafe, log 51] -/
def Dev.bind (d : Dev) (r : Rec) (num : Nat) : Dev :=
  let d1 := { d with cmp := { d.cmp with recs := d.cmp.recs.map (fun (x : Rec) => if x.id = r.id then { x with bound := some num } else x) } }
  ((d1.updItem num (fun i => { i with record := some r.id })).set R.CMP_BIND_ITEM num).set R.CMP_BIND_KEY r.key

/-- Records bind to an item at its acceptance: a BY_NUMBER record for it first, else the oldest NEXT record when it takes
records (R154). -/
def Dev.bindAtAccept (d : Dev) (i : Item) : Dev :=
  match d.cmp.recs.find? (fun r => r.bound.isNone && r.byNumber && r.num == i.num) with
  | some r => d.bind r i.num
  | none =>
    if i.takesRec then
      match d.cmp.recs.find? (fun r => r.bound.isNone && !r.byNumber) with
      | some r => d.bind r i.num
      | none => d
    else d

/-- The item a NEXT record binds to at its push: the lowest number that takes records, is unbound and lies before its bind
deadline. -/
def Dev.nextUnbound (d : Dev) : Option Item :=
  (d.items.filter (fun i => i.takesRec && i.record.isNone && !d.pastBind i)).foldl (fun (m : Option Item) i =>
    match m with
    | some x => if i.num < x.num then some i else some x
    | none => some i) none

/-- An item number has been given already: it lies behind ITM_NEXT. -/
def Dev.numberPast (d : Dev) (n : Nat) : Bool := decide ((d.get R.ITM_NEXT + 2 ^ 32 - 1 - n) % 2 ^ 32 < 2 ^ 31)

/-- Push of a record (R153): result code of Table 5.8. [DEDUCED, unsafe, log 51] -/
def Dev.pushResult (d : Dev) (l : List Byte) : Nat × Option Rec :=
  if 1024 ≤ d.cmp.recs.length ∨ 524288 < d.recBytes + l.length then (1, none)
  else match parseRec d.cmp.nextRec l with
  | none => (2, none)
  | some r =>
    if r.byNumber then
      match d.item? r.num with
      | none => if d.numberPast r.num then (3, none) else (0, some r)
      | some i => if i.record.isSome then (4, none) else if d.pastBind i then (3, none) else (0, some r)
    else (0, some r)

/-- A record its push binds to an item. -/
def Dev.bindNow (d : Dev) (r : Rec) (num : Nat) : Dev :=
  let d1 := d.bind r num
  { d1 with cmp := { d1.cmp with recs := d1.cmp.recs.map (fun (x : Rec) => if x.id = r.id then { x with boundAt := some d.now } else x) } }

/-- A NEXT record binds where it can. -/
def Dev.bindNext (d : Dev) (r : Rec) : Dev :=
  match d.nextUnbound with
  | some i => d.bindNow r i.num
  | none => d

/-- The record joins the queue and binds where it can. -/
def Dev.queueRec (d : Dev) (r : Rec) : Dev :=
  let d1 := { d with cmp := { d.cmp with recs := d.cmp.recs ++ [r], nextRec := d.cmp.nextRec + 1 } }
  if r.byNumber then (if (d1.item? r.num).isSome then d1.bindNow r r.num else d1) else d1.bindNext r

/-- A whole record is pushed, from whichever source (R153). [DEDUCED, unsafe, log 51] -/
def Dev.pushRec (d : Dev) (l : List Byte) : Dev :=
  let (code, r) := d.pushResult l
  let d1 := (d.set R.CMP_REC_RESULT_CODE code).wrap R.CMP_REC_RESULT_SEQ 1
  match r with
  | some r => d1.queueRec r
  | none => d1.bump R.CMP_REC_REF_CNT 1

/-- REC_PUSH: the first `len` bytes of CMP_REC_WIN. -/
def execRecPush (len : Nat) (s : State) : Out :=
  onHost (fun d => d.pushRec ((bytesOfWords ((List.range 256).map (fun i => d.reg (R.CMP_REC_WIN i).addr))).take (len % 2048) ++
    List.replicate (len % 2048 - 1024) 0)) s

/-- FLUSH (R155): every unbound NEXT record is discarded. -/
def Dev.flushRecs (d : Dev) : Dev :=
  if d.cmp.validating then d
  else
    let gone := d.cmp.recs.filter (fun r => r.bound.isNone && !r.byNumber)
    ({ d with cmp := { d.cmp with recs := d.cmp.recs.filter (fun r => !(r.bound.isNone && !r.byNumber)) } }.set
      R.CMP_STATUS_RESULT 0).raise Ev.REC_FLUSHED gone.length

/-- FLUSH. -/
def execFlush (s : State) : Out := onHost Dev.flushRecs s

/-! ## Counters (R156–R158) -/

/-- A counter. -/
def Dev.ctr (d : Dev) (n : Nat) : Ctr := d.cmp.ctrs.get {} n

/-- Replaces a counter. -/
def Dev.setCtr (d : Dev) (n : Nat) (c : Ctr) : Dev := { d with cmp := { d.cmp with ctrs := d.cmp.ctrs.put n c } }

/-- next[n] takes a start value and the counter becomes loaded (R157, R158). -/
def Dev.loadCtr (d : Dev) (n start : Nat) : Dev := d.setCtr n { next := start, loaded := true, wrapped := false }

/-- CNT_LOAD: from the Shadow start of the selected counter, refused in RUN (R157). -/
def Dev.cntLoad (d : Dev) : Dev :=
  if d.cmp.validating then d
  else if d.dstate = .run then d.set R.CMP_STATUS_RESULT 3
  else
    let n := d.get R.CMP_CNT_SEL
    (d.loadCtr n (d.get64 (R.CNT_START_LO n))).set R.CMP_STATUS_RESULT 0

/-- CNT_LOAD. -/
def execCntLoad (s : State) : Out := onHost Dev.cntLoad s

/-- A swap whose new profile has LOAD_ON_SWAP set loads those counters (R157). -/
def Dev.loadOnSwap (d : Dev) (pr : SMap Word) : Dev :=
  forEach (List.range 16) (fun d n =>
    if profGet pr (R.CNT_MODE_LOAD_ON_SWAP n) = 1 then d.loadCtr n (profGet64 pr (R.CNT_START_LO n)) else d) d

/-- One counter advances for an item (R156). -/
def Dev.advanceCtr (d : Dev) (pr : SMap Word) (num n : Nat) : Dev :=
  let c := d.ctr n
  let start := profGet64 pr (R.CNT_START_LO n)
  let limit := profGet64 pr (R.CNT_LIMIT_LO n)
  let step := profGet pr (R.CNT_STEP n)
  let ended := fun (detail : Nat) =>
    (d.updItem num (fun i => { i with ctrEnd := true })).raiseItem Ev.COUNTER_END detail num
  if !c.loaded then ended (n + 256)
  else if (c.wrapped || decide (limit < c.next)) && profGet pr (R.CNT_MODE_STOP n) == 1 then ended n
  else
    let v := if c.wrapped || decide (limit < c.next) then start else c.next
    (d.updItem num (fun i => { i with snaps := i.snaps.put n v })).setCtr n
      { c with wrapped := decide (0xFFFFFFFFFFFFFFFF - step < v), next := (v + step) % 2 ^ 64 }

/-! ## Renderings (R169) -/

/-- Places for the fields of a rendering that is still to be made: nothing stamped, areas at their largest. -/
def placeholders (t : Tpl) (m : SMap Word) (base : Nat) : List FieldImg :=
  (t.fields m).map (fun f =>
    let (w, h) := t.moduleSize m f
    { idx := f.idx, plane := f.plane, ink := f.ink, rule := f.rule, mw := f.mw, mh := f.mh, col := f.col, line := base + f.line,
      img := if f.rot % 2 = 1 then { w := h, h := w } else { w := w, h := h }, res := 0, resB := 0, stamped := false,
      planeRep := false })

/-- A new rendering of an item under a generation; one without a template has no fields and nothing to do. -/
def Dev.newRend (d : Dev) (i : Item) (gen : Nat) : Rend :=
  match tplFind (d.tplOf gen) i.tset i.tidx with
  | some t => { gen := gen, st := .waiting, fields := placeholders t (d.tplOf gen) (floorLine i.start) }
  | none => { gen := gen, st := .done, fields := [] }

/-- Generations that govern the field lines of a resolved item. -/
def Dev.gensOf (d : Dev) (i : Item) : List Nat :=
  let hi := i.rends.foldl (fun m r => max m r.lineEnd) (i.tFirst + 1)
  let a := d.genOf i.tFirst
  (List.range (d.genOf (hi - 1) + 1 - a)).map (fun k => a + k)

/-- The renderings of a resolved item brought in line with the generations that govern its lines: kept where the generation
stays, new ones waiting; a template absent under a new generation is NO_TEMPLATE (R168, R169). -/
def Dev.planRends (d : Dev) (num : Nat) : Dev :=
  match d.item? num with
  | none => d
  | some i =>
    if !i.resolved || i.noTemplate then d
    else
      let gens := d.gensOf i
      let rends := gens.map (fun g => (i.rends.find? (fun r => r.gen == g)).getD (d.newRend i g))
      let lost := gens.filter (fun g => (i.rends.find? (fun r => r.gen == g)).isNone && (tplFind (d.tplOf g) i.tset i.tidx).isNone)
      let d1 := d.updItem num (fun i => { i with rends := rends })
      forEach lost (fun d _ => ((d.updItem num (fun i => i.receive .field)).bump R.CMP_FIELD_ERR_CNT 1).raiseItem
        Ev.ITEM_NO_TEMPLATE (i.tset % 16 + 256 * i.tidx) num) d1

/-- Every item's renderings after a change of what governs its lines (R169). -/
def Dev.replanAll (d : Dev) : Dev := forEach (d.items.map (·.num)) Dev.planRends d

/-- A (row, step) the item touches was issued or reported fired before (13 R353). [DESIGN CHOICE, unsafe, log 35] -/
def Dev.issuedBefore (d : Dev) (i : Item) : Bool :=
  let lo := floorLine i.start
  d.pos.rows.any (fun e => e.2.issued.any (fun ab =>
    let a := max ab.1 lo
    (List.range (min ab.2 (i.extentEnd + 65535) + 1 - a)).any (fun n => d.touchesRow i e.1 (a + n))))

/-- What has already passed of an item's extent: a line released as ZERO gives NO_JOB, a reported unproven band-slice gives BAND, a row issued
makes the item attempted (R135, 03 R102, 13 R351, R353). [DESIGN CHOICE, unsafe, log 35] -/
def Dev.pastCauses (d : Dev) (num : Nat) : Dev :=
  match d.item? num with
  | none => d
  | some i =>
    let lo := floorLine i.start
    let zero := (List.range (i.extentEnd - lo)).any (fun n =>
      decide (lo + n < d.pos.nextRel) && decide (d.pos.nextRel ≤ lo + n + 131072) && d.ledgerAt (lo + n) == .zero)
    let bad := d.exp.reported.any (fun r => !r.proven && d.touchesBand i r.slot r.band r.slice)
    let fired := d.issuedBefore i
    d.updItem num (fun i =>
      let i1 := if zero then i.receive .noJob else i
      let i2 := if bad then i1.receive .band else i1
      { i2 with attempted := i2.attempted || fired })

/-- An item is resolved (R168): its end is fixed, its counters advance, its renderings wait. [DEDUCED, unsafe, log 52] -/
def Dev.resolve (d : Dev) (num : Nat) : Dev :=
  match d.item? num with
  | none => d
  | some i =>
    match d.prospect i with
    | some (q, g, some t) =>
      let m := d.tplOf g
      let pr := d.genProf g
      let i1 := { i with resolved := true, slot := some q, stop := satPos (i.start + (d.slot q).hdr.itemLen),
                         tset := (d.slot q).hdr.tset, tidx := d.tplIndex i pr, tFirst := floorLine i.start + t.firstLine m }
      let i2 := { i1 with rends := [d.newRend i1 g] }
      let d1 := d.updItem num (fun _ => i2)
      ((forEach (t.counters m) (fun d n => d.advanceCtr pr num n) d1).planRends num).pastCauses num
    | o =>
      let (q, stop) := match o with
        | some (q, _, _) => (some q, satPos (i.start + (d.slot q).hdr.itemLen))
        | none => (none, i.start)
      let set := match q with
        | some q => (d.slot q).hdr.tset
        | none => 0
      let idx := d.tplIndex i (d.contProf (floorLine i.start))
      let i1 := { i with resolved := true, noTemplate := true, slot := q, stop := stop, tset := set, tidx := idx,
                         tFirst := floorLine i.start }
      (((d.updItem num (fun _ => i1.receive .field)).bump R.CMP_FIELD_ERR_CNT 1).raiseItem Ev.ITEM_NO_TEMPLATE
        (set % 16 + 256 * idx) num).pastCauses num

/-- An item that takes records is unbound at its bind deadline (R170): DATA_LATE. -/
def Dev.itemDataLate (d : Dev) (num : Nat) : Dev :=
  match d.item? num with
  | none => d
  | some i =>
    let n := match i.rends with
      | [] => 0
      | r :: _ =>
        let m := d.tplOf r.gen
        match tplFind m i.tset i.tidx with
        | some t => ((t.fields m).filter (t.usesRecord m)).length
        | none => 0
    ((d.updItem num (fun i => { i.receive .dataLate with dataLate := true })).bump R.CMP_DLATE_CNT 1).raiseItem Ev.DATA_LATE
      n num

/-- Renderings of an item not complete at its render deadline (R173): RENDER_LATE for each generation. [DEDUCED, unsafe, log 53] -/
def Dev.itemRenderLate (d : Dev) (num : Nat) : Dev :=
  match d.item? num with
  | none => d
  | some i =>
    let late := i.rends.filter (fun r => (r.st == .waiting || r.st == .running) && !r.again)
    if late = [] then d
    else
      let d1 := d.updItem num (fun i => { i.receive .renderLate with rends := i.rends.map (fun r =>
        if (r.st == .waiting || r.st == .running) && !r.again then { r with st := .late } else r) })
      forEach late (fun d r => (d.bump R.CMP_RLATE_CNT 1).raiseItem Ev.RENDER_LATE r.gen num) d1

/-- The record that its push on this clock bound to an item. -/
def Dev.pushedNow (d : Dev) (i : Item) : Option Rec :=
  i.record.bind (fun id => d.cmp.recs.find? (fun r => r.id == id && r.boundAt == some d.now))

/-- A bind deadline that falls on the clock of the push that bound the item comes first (R154): the item loses a NEXT record, which then binds
anew. -/
def Dev.unbindLate (d : Dev) (num : Nat) : Dev :=
  match (d.item? num).bind d.pushedNow with
  | some r =>
    if r.byNumber then d
    else
      let d1 := { d with cmp := { d.cmp with recs := d.cmp.recs.map (fun (x : Rec) =>
        if x.id = r.id then { x with bound := none, boundAt := none } else x) } }
      d1.updItem num (fun i => { i with record := none })
  | none => d

/-- The bind deadlines that fall due (R154, R170): those items lose a NEXT record pushed on this clock, get DATA_LATE, and the records bind anew. [DEDUCED, unsafe, log 51] -/
def Dev.bindDeadlines (d : Dev) : Dev :=
  let due := d.inOrder (fun i => i.takesRec && (i.record.isNone || (d.pushedNow i).isSome) && !i.dataLate && d.pastBind i)
  let again := (due.filterMap d.pushedNow).filter (fun r => !r.byNumber)
  let d1 := forEach (due.map (·.num)) (fun d n => (d.unbindLate n).itemDataLate n) d
  forEach again Dev.bindNext d1

/-- What composition does when the weir has risen: horizon entries, bind deadlines, render deadlines (Table 5.12). -/
def Dev.composeAt (d : Dev) : Dev :=
  let d1 := forEach ((d.inOrder (fun i => !i.resolved && d.reachedT i (d.job.workW + d.get R.CMP_HORIZON))).map (·.num))
    Dev.resolve d
  let d2 := d1.bindDeadlines
  forEach ((d2.inOrder (fun i => i.resolved && d2.reachedT i d2.job.workW)).map (·.num)) Dev.itemRenderLate d2

/-- What composition does at an item's acceptance (R171): records bind, the item is resolved where horizon entry is past, and
only then a passed bind deadline is applied. [DEDUCED, unsafe, log 51] -/
def Dev.composeAccept (d : Dev) (num : Nat) : Dev :=
  match d.item? num with
  | none => d
  | some i =>
    let d1 := d.bindAtAccept i
    let d2 := match d1.item? num with
      | some i => if d1.reachedT i (d1.job.workW + d1.get R.CMP_HORIZON) then d1.resolve num else d1
      | none => d1
    match d2.item? num with
    | some i => if i.takesRec && i.record.isNone && d2.pastBind i then d2.itemDataLate num else d2
    | none => d2

/-! ## The engine (R170, R172, R173) -/

/-- Bytes of one renderer's images of a rendering. -/
def Rend.size (r : Rend) : Nat := (r.fields.map (fun f => f.img.size)).sum

/-- Bytes in the field image store: A's images until the last field line is released, B's until the compare (R172). -/
def Dev.imageUse (d : Dev) : Nat :=
  (d.items.map (fun i => (i.rends.map (fun r =>
    match r.st with
    | .running => 2 * r.size
    | .done => if d.pos.nextRel < r.lineEnd then r.size else 0
    | _ => 0)).sum)).sum

/-- The words of the template and glyph stores that read uncorrectable: of the glyph store by index, of the template store of a
generation by index in its half. -/
def Dev.badWords (d : Dev) (gen : Nat) : List (Bool × Nat) :=
  let of := fun (m lo n : Nat) => ((inRange d.ecc.diffs (eccKey m lo) (eccKey m (lo + n))).map (fun e => e.1 - eccKey m lo)).filter
    (fun w => d.sramBad m (lo + w))
  (of 2 0 524288).map (fun w => (true, w)) ++
    (match d.tplWord gen with
    | some lo => (of 6 lo tplActiveWord).map (fun w => (false, w))
    | none => [])

/-- What the renderers take for an item under a generation. -/
def Dev.renderIn (d : Dev) (i : Item) (gen : Nat) : RenderIn :=
  { store := d.tplOf gen, glyph := d.glyphStore, item := i, record := d.recOf i, bad := d.badWords gen }

/-- The counts of the words a rendering reads from the template and glyph stores (11 R315, R316). -/
def Dev.renderReads (d : Dev) (i : Item) (gen : Nat) : Dev :=
  let x := d.renderIn i gen
  match tplFind x.store i.tset i.tidx with
  | none => d
  | some t =>
    forEach (t.fields x.store) (fun d f =>
      let d1 := match d.tplWord gen with
        | some lo => forEach (templateReads t x.store f) (fun (d : Dev) r =>
            d.sramReads 6 (lo + r.1 / 8) (lo + (r.1 + r.2 + 7) / 8) 11) d
        | none => d
      forEach (glyphReads x t f) (fun (d : Dev) r => d.sramReads 2 (r.1 / 4) ((r.1 + r.2 + 3) / 4) 11) d1) d

/-- The images a rendering takes: every field as a renderer makes it. -/
def Dev.renderAll (d : Dev) (i : Item) (gen : Nat) : List FieldImg :=
  let m := d.tplOf gen
  match tplFind m i.tset i.tidx with
  | none => []
  | some t =>
    let x := d.renderIn i gen
    (t.fields m).map (fun f =>
      let (res, img) := renderField x t f
      { idx := f.idx, plane := f.plane, ink := f.ink, rule := f.rule, mw := f.mw, mh := f.mh, col := f.col,
        line := floorLine i.start + f.line, img := img, res := res.code, resB := res.code, stamped := true, planeRep := false })

/-- Replaces the rendering of a generation. -/
def Item.setRend (i : Item) (gen : Nat) (f : Rend → Rend) : Item :=
  { i with rends := i.rends.map (fun r => if r.gen = gen then f r else r) }

/-- RENDER_START (R170): the first item in order whose rendering waits starts, when it is bound, takes no records or is past its
bind deadline, and the image store has room for both renderers. -/
def Dev.renderStart (d : Dev) : Dev :=
  match d.cmp.rendering, d.inOrder (fun i => i.rends.any (fun r => r.st == .waiting)) with
  | none, i :: _ =>
    if i.takesRec && i.record.isNone && !i.dataLate then d
    else match i.rends.find? (fun r => r.st == .waiting) with
    | none => d
    | some r =>
      let fs := d.renderAll i r.gen
      let size := 2 * (fs.map (fun f => f.img.size)).sum
      if 1310720 < d.imageUse + size then d
      else
        let d0 := d.renderReads i r.gen
        let d1 := { d0 with cmp := { d0.cmp with rendering := some (i.num, r.gen) } }.updItem i.num
          (fun i => i.setRend r.gen (fun r => { r with st := .running, fields := fs.map (fun (f : FieldImg) => { f with stamped := false }) }))
        d1.keepMax R.CMP_IMG_PEAK d1.imageUse
  | _, _ => d

/-- RENDER_START. -/
def execRenderStart (s : State) : Out := onDev Dev.renderStart s

/-- One compared field: MISMATCH where the renderers differ, MEMORY after a bus error, else the result both reached. -/
def comparedField (act : Nat) (memErr : List Nat) (differ : List (Nat × Nat)) (f : FieldImg) : FieldImg :=
  let a := if memErr.contains f.idx then FieldRes.memory.code else f.res
  let img := if memErr.contains f.idx then Img.clear f.img.w f.img.h else f.img
  match differ.find? (fun x => x.1 == f.idx) with
  | some (_, b) =>
    { f with res := a, resB := b, img := if a = 0 then img else Img.clear img.w img.h, stamped := act == 1 }
  | none => { f with res := a, resB := a, img := img, stamped := true }

/-- The result of a field is reported (R176, R177): event, counter and cause of the item. [DEDUCED, unsafe, log 53] -/
def Dev.fieldReport (d : Dev) (num act : Nat) (differ : List (Nat × Nat)) (f : FieldImg) : Dev :=
  if differ.any (fun x => x.1 == f.idx) then
    ((d.updItem num (fun i => i.receive .mismatch)).bump R.CMP_MISMATCH_CNT 1).raiseItem Ev.TWIN_MISMATCH
      (f.idx + 256 * f.res + 65536 * f.resB + 2 ^ 24 * act) num
  else if f.res = 12 then
    ((d.updItem num (fun i => i.receive .memory)).bump R.CMP_FIELD_ERR_CNT 1).raiseItem Ev.FIELD_MEMORY f.idx num
  else if f.res = 10 then (d.updItem num (fun i => i.receive .field)).bump R.CMP_FIELD_ERR_CNT 1
  else if 4 ≤ f.res then
    let (ofs, d1) := ((d.updItem num (fun i => i.receive .field)).bump R.CMP_FIELD_ERR_CNT 1).fresh 0x05 16
    d1.raiseItem Ev.FIELD_ERROR (f.idx + 256 * f.res + 65536 * ofs) num
  else if f.res = 1 then d.updItem num (fun i => i.receive .dataLate)
  else d

/-- RENDER_COMPARE_DONE (R172): `memErr` names the fields a bus error ended, with the memory it came from (2 or 6), `differ` the
fields in which renderer B differs, with B's result. A compare after the render deadline has no effect (R173). [DEDUCED, unsafe, log 53] -/
def Dev.compareDone (d : Dev) (memErr : List (Nat × Nat)) (differ : List (Nat × Nat)) : Dev :=
  match d.cmp.rendering with
  | none => d
  | some (num, gen) =>
    let d1 := { d with cmp := { d.cmp with rendering := none } }
    match (d.item? num).bind (fun i => i.rends.find? (fun r => r.gen == gen)) with
    | none => d1
    | some r =>
      if r.st = .running then
        let act := profGet (d.genProf gen) R.CMP_MISMATCH_ACT
        let fs := r.fields.map (comparedField act (memErr.map (·.1)) differ)
        let d2 := forEach memErr (fun (d : Dev) e => d.sramFault e.2 11) d1
        forEach fs (fun d f => d.fieldReport num act differ f)
          (d2.updItem num (fun i => i.setRend gen (fun r => { r with st := .done, fields := fs, again := false })))
      else d1

/-- RENDER_COMPARE_DONE. -/
def execRenderCompareDone (memErr : List (Nat × Nat)) (differ : List (Nat × Nat)) (s : State) : Out :=
  onDevIf (memErr.all (fun e => e.2 == 2 || e.2 == 6)) (fun d => d.compareDone memErr differ) s

/-! ## Template validation and fonts (R151, R152, R162) -/

/-- CMP_VALIDATE starts; discarded while one runs. -/
def Dev.cmpValidate (d : Dev) : Dev :=
  if d.cmp.validating then d else { d with cmp := { d.cmp with validating := true } }.setB R.CMP_STATUS_BUSY true

/-- CMP_VALIDATE. -/
def execCmpValidate (s : State) : Out := onHost Dev.cmpValidate s

/-- CMP_RATE_LIM from a T_tpl (R152). [DEDUCED, unsafe, log 50] -/
def Dev.renderRate (d : Dev) (t : Nat) : Nat := if t = 0 then 120000 else min 120000 (d.get R.CMP_RES * 1000000000 / t)

/-- Words of the font in a slot that are not clean: its table entry and its pages. -/
def Dev.fontMarks (d : Dev) (n : Nat) : List Nat :=
  ((inRange d.ecc.diffs (eccKey 2 0) (eccKey 3 0)).map (fun e => e.1 - eccKey 2 0)).filter (glyphOfSlot d.cmp.glyph n)

/-- Words of the font in a slot that read uncorrectable. -/
def Dev.fontBad (d : Dev) (n : Nat) : List Nat := (d.fontMarks n).filter (d.sramBad 2)

/-- The words of the font in a slot are read, with their counts. -/
def Dev.fontReads (d : Dev) (n : Nat) : Dev := forEach (d.fontMarks n) (fun (d : Dev) w => d.sramReads 2 w (w + 1) 11) d

/-- The first failing check of the Shadow templates; where none fails, a template word or a word of a font in use that cannot be read fails check 1
at its offset. [DESIGN CHOICE, unsafe, log 115] -/
def Dev.tplFailure (d : Dev) : Option (Nat × Nat) :=
  ((firstFailure d.tplShadow d.glyphStore).or ((d.badIn 6 0 tplActiveWord).head?.map (fun w => (1, 8 * w)))).or
    (((tplFonts d.tplShadow).flatMap d.fontBad).head?.map (fun w => (1, 4 * w)))

/-- CMP_VALIDATE_DONE (R151, R152): the store is read with its counts (11 R315, R316). -/
def Dev.cmpValidated (d : Dev) : Dev :=
  if d.cmp.validating then
    let t := storeTime d.tplShadow
    let d1 := ((({ d with cmp := { d.cmp with validating := false } }.setB R.CMP_STATUS_BUSY false).set R.CMP_TMAX t).set
      R.CMP_RATE_LIM (d.renderRate t))
    let d1 := forEach (tplFonts d.tplShadow) Dev.fontReads (d1.sramReads 6 0 tplActiveWord 11)
    match d.tplFailure with
    | none => (d1.setB R.CMP_STATUS_TPL_VALID true).set R.CMP_STATUS_RESULT 0
    | some (c, ofs) =>
      ((((d1.setB R.CMP_STATUS_TPL_VALID false).set R.CMP_STATUS_RESULT 1).set R.CMP_STATUS_CHECK c).set R.CMP_CHECK_OFS
        ofs).raise Ev.VALIDATE_FAIL (c + 2 ^ 32 * ofs)
  else d

/-- CMP_VALIDATE_DONE. -/
def execCmpValidateDone (s : State) : Out := onDev Dev.cmpValidated s

/-- A font slot is locked: a template of the Active or Shadow profile uses it (R162). -/
def Dev.fontLocked (d : Dev) (n : Nat) : Bool := (tplFonts d.cmp.tplA).contains n || (tplFonts d.cmp.tplS).contains n

/-- GLYPH_COMMIT (R162): the font in the selected slot is checked; its VALID bit is set only if the check passes, by a partial write of its word
(11 R321, R322). A font of which a word cannot be read fails. [DESIGN CHOICE, unsafe, log 115] -/
def Dev.glyphCommit (d : Dev) : Dev :=
  let n := d.get R.CMP_GLYPH_SEL
  if d.cmp.validating then d
  else if d.fontLocked n then d.set R.CMP_STATUS_RESULT 2
  else
    let d1 := d.fontReads n
    let ok := fontOk d.glyphStore n && (d.fontBad n).isEmpty
    let r := d1.sramPartial 2 (2 * n + 1) 11 (fun w => putBits w 0 1 (if ok then 1 else 0))
    r.2.set R.CMP_STATUS_RESULT (if ok then 0 else 1)

/-- GLYPH_COMMIT. -/
def execGlyphCommit (s : State) : Out := onHost Dev.glyphCommit s

end Sys2Proof.Machine
end

