-- ==== Sys2Proof/Machine/Jobs.lean ====
section
/-! DEFINITION. Jobs, wells, swaps, resume (03 R84–R116, R519, 01 R37–R45): the commands of the JOB block and what the sequencer does
with its slots. The release loop itself stands in Pipeline.lean. -/

namespace Sys2Proof.Machine

/-! ## Commands of the block (R116) -/

/-- Result codes of Table 3.10. -/
inductive JobCode where
  | ok | busy | badArg | queueFull | wellState | wellOverlap | wellPlace | wellInUse | overlap | posRange | swapPending
  | swapDelay | swapPassed | swapFabric | swapCancelLate | itemOffsetShort | abortLate | resumeState | resumeLevel
  | resumePassed | sealFail | swapIncomplete
  deriving DecidableEq, Repr

/-- Number of a result code. -/
def JobCode.num : JobCode → Nat
  | .ok => 0 | .busy => 1 | .badArg => 2 | .queueFull => 3 | .wellState => 4 | .wellOverlap => 5 | .wellPlace => 6
  | .wellInUse => 7 | .overlap => 8 | .posRange => 9 | .swapPending => 10 | .swapDelay => 11 | .swapPassed => 12
  | .swapFabric => 13 | .swapCancelLate => 14 | .itemOffsetShort => 15 | .abortLate => 16 | .resumeState => 17
  | .resumeLevel => 18 | .resumePassed => 19 | .sealFail => 20 | .swapIncomplete => 21

/-- The result code of a command is written when it completes: not while it leaves BUSY set (R116). -/
def jobEnd (r : Dev × JobCode) : Dev := if r.1.is R.JOB_RESULT_BUSY then r.1 else r.1.set R.JOB_RESULT_CODE r.2.num

/-- A command: discarded with OVR while one is in progress, else counted as accepted, whatever its result code (R116). [DESIGN CHOICE, unsafe, log 118] -/
def Dev.jobCmd (d : Dev) (f : Dev → Dev × JobCode) : Dev :=
  if d.is R.JOB_RESULT_BUSY then d.setB R.JOB_RESULT_OVR true else jobEnd (f (d.wrap R.JOB_RESULT_SEQ 1))

/-! ## Wells (R89–R91, R148) -/

/-- A job slot that is not EMPTY references a well. -/
def Dev.wellInUse (d : Dev) (w : Nat) : Bool := d.job.order.any (fun q => (d.slot q).well == w)

/-- Largest size a placement admits. -/
def Dev.placeCapacity (d : Dev) (place : Nat) : Nat :=
  if place = 0 then 2 * min (d.usable 0) (d.usable 1) else d.usable (place - 1)

/-- WELL_DEFINE (R89). [DESIGN CHOICE, unsafe, log 118] -/
def Dev.wellDefine (d : Dev) (w place base size : Nat) : Dev × JobCode :=
  if 15 < w ∨ 2 < place then (d, .badArg)
  else if (d.well w).st ≠ .free then (d, .wellState)
  else if base % 2 ^ 20 ≠ 0 ∨ size % 2 ^ 20 ≠ 0 ∨ size = 0 ∨ d.placeCapacity place < base + size
    then (d, .badArg)
  else if d.meetsWell (some w) place base size ∨ regionsOverlap place base size (d.get R.LAS_REG_PLACE)
      (d.get64 R.LAS_REG_BASE_LO) (d.get64 R.LAS_REG_SIZE_LO) = true then (d, .wellOverlap)
  else if !d.placeIn place then (d, .wellPlace)
  else (d.setWell w { st := .closed, place := place, base := base, size := size }, .ok)

/-- WELL_DEFINE. -/
def execWellDefine (well place base size : Nat) (s : State) : Out :=
  onHost (fun d => d.jobCmd (fun d => d.wellDefine well place base size)) s

/-- WELL_OPEN (R90, Table 3.4). [DESIGN CHOICE, unsafe, log 118] -/
def Dev.wellOpen (d : Dev) (w : Nat) : Dev × JobCode :=
  if 15 < w then (d, .badArg)
  else if d.wellInUse w then (d, .wellInUse)
  else if (d.well w).st = .closed ∨ (d.well w).st = .sealed then (d.setWell w { d.well w with st := .loading }, .ok)
  else (d, .wellState)

/-- WELL_OPEN. -/
def execWellOpen (well : Nat) (s : State) : Out := onHost (fun d => d.jobCmd (fun d => d.wellOpen well)) s

/-- WELL_RELEASE (R90, Table 3.4). -/
def Dev.wellRelease (d : Dev) (w : Nat) : Dev × JobCode :=
  if 15 < w then (d, .badArg)
  else if d.wellInUse w then (d, .wellInUse)
  else if (d.well w).st = .closed ∨ (d.well w).st = .sealed then (d.setWell w {}, .ok)
  else (d, .wellState)

/-- WELL_RELEASE. -/
def execWellRelease (well : Nat) (s : State) : Out := onHost (fun d => d.jobCmd (fun d => d.wellRelease well)) s

/-- WELL_SEAL: the structure check starts (R91); refused with BUSY while a compressor task writes the well (04 R148). -/
def Dev.wellSeal (d : Dev) (w : Nat) : Dev × JobCode :=
  if 15 < w then (d, .badArg)
  else if (d.well w).st ≠ .loading then (d, .wellState)
  else if d.cmprOnWell w then (d, .busy)
  else
    let d1 := d.setWell w { d.well w with st := .sealing }
    ({ d1 with job := { d1.job with sealing := some w } }.setB R.JOB_RESULT_BUSY true, .ok)

/-- WELL_SEAL. -/
def execWellSeal (well : Nat) (s : State) : Out := onHost (fun d => d.jobCmd (fun d => d.wellSeal well)) s

/-! ### Seal checks (R519, Table 3.14) -/

/-- Outcome of the structure check: the failed check and offset, or the header and J_w. -/
inductive SealRes where
  | fail (check ofs : Nat)
  | pass (hdr : DxsHdr) (jmax : Nat)
  deriving DecidableEq, Repr

/-- Check 3: every header field by Table 3.1. -/
def hdrFieldsOk (h : DxsHdr) (reserved : Nat) : Bool :=
  decide (1 ≤ h.lines) && decide (16 ≤ h.bandLines) && decide (h.bandLines ≤ 4096) && [1, 2, 4].contains h.depth &&
    reserved == 0 && (List.range 8).all (fun p => planeFormat h p != 3) && decide (h.tset ≤ 15) &&
    h.bandCount == ceilDiv h.lines h.bandLines && decide (1 ≤ h.segs) && decide (h.segs ≤ 256)

/-- Check 8 on one segment of band `b`; `before` are the segments of the band so far, newest first, `lay` the first band's
segment at this place. -/
def segFieldsOk (h : DxsHdr) (b o stop : Nat) (r : SegRaw) (before : List Seg) (lay : Option Seg) : Bool :=
  let s := r.seg
  let raw := bandLinesOf h b * lineLen (planeFormat h s.plane) h.depth s.colCount
  r.band == b && decide (s.slice < 32) && hasBit h.sliceMask s.slice && decide (s.plane < 8) && planeFormat h s.plane != 0 &&
    decide (r.flags < 3) && r.rsv == 0 && decide (s.colFirst ≤ 8191) && decide (1 ≤ s.colCount) &&
    decide (s.colFirst + s.colCount ≤ 8192) && s.rawLen == raw &&
    (if s.raw then s.payLen == raw else if s.blank then s.payLen == 0 && s.crc == 0 else decide (s.payLen ≤ raw)) &&
    (before.head?.map (fun p => segBefore p s)).getD true && !before.any (fun p => segOverlap p s) &&
    (lay.map (fun x => sameLayout x s)).getD true && decide (o + 32 + s.payLen ≤ stop)

/-- Checks 7 and 8 on the segment headers of a band from offset `o`, and the end of the last segment's padding. -/
def sealSegs (rd : Nat → Nat → Option (List Byte)) (size : Nat) (h : DxsHdr) (b stop : Nat) (lay : Option (List Seg)) :
    (left o : Nat) → List Seg → (Nat × Nat) ⊕ (List Seg × Nat)
  | 0, o, acc => .inr (acc.reverse, o)
  | left + 1, o, acc =>
    if size < o + 32 then .inl (8, o)
    else
      match rd o 32 with
      | none => .inl (7, o)
      | some bs =>
        let r := parseSeg bs o
        let x := lay.bind (fun l => (l.drop acc.length).head?)
        if r.magic ≠ 0x47535844 ∨ r.hdrCrc ≠ crc32c (bs.take 28) then .inl (7, o)
        else if segFieldsOk h b o stop r acc x then
          sealSegs rd size h b stop lay left (o + 32 + pad8 r.seg.payLen) (r.seg :: acc)
        else .inl (8, o)

/-- Checks 6–9 on bands `b` on; the first band's layout once known, the largest bytes per line so far. -/
def sealBands (rd : Nat → Nat → Option (List Byte)) (size : Nat) (h : DxsHdr) :
    (left b : Nat) → Option (List Seg) → (jmax : Nat) → SealRes
  | 0, _, _, j => .pass h j
  | left + 1, b, lay, j =>
    let eo := h.tableOfs + 16 * b
    match rd eo 16 with
    | none => .fail 6 eo
    | some bs =>
      let e := parseBandEntry bs
      let tEnd := h.tableOfs + 16 * h.bandCount
      if e.ofs % 8 ≠ 0 ∨ size < e.ofs + e.len ∨ e.ofs < 64 ∨ (e.ofs < tEnd ∧ h.tableOfs < e.ofs + e.len) ∨ e.count ≠ h.segs ∨
          e.rsv ≠ 0 then .fail 6 eo
      else
        match sealSegs rd size h b (e.ofs + e.len) lay h.segs e.ofs [] with
        | .inl (c, o) => .fail c o
        | .inr (segs, last) =>
          if last ≠ e.ofs + e.len then .fail 9 e.ofs
          else sealBands rd size h left (b + 1) (some (lay.getD segs)) (max j (ceilDiv e.len (bandLinesOf h b)))

/-- The whole check (R519); a structure that cannot be read fails the check that reads it. [DEDUCED, unsafe, log 41] -/
def sealCheck (rd : Nat → Nat → Option (List Byte)) (size : Nat) : SealRes :=
  match rd 0 64 with
  | none => .fail 1 0
  | some bs =>
    let h := parseHdr bs
    if leAt bs 0 4 ≠ 0x31535844 ∨ leAt bs 4 2 ≠ 0x0100 ∨ leAt bs 6 2 ≠ 64 then .fail 1 0
    else if leAt bs 0x3C 4 ≠ crc32c (bs.take 0x3C) then .fail 2 0
    else if !hdrFieldsOk h (leAt bs 0x17 1) then .fail 3 0
    else if h.tableOfs < 64 ∨ h.tableOfs % 8 ≠ 0 ∨ size < h.tableOfs + 16 * h.bandCount then .fail 4 h.tableOfs
    else match rd h.tableOfs (16 * h.bandCount) with
    | none => .fail 5 h.tableOfs
    | some t =>
      if crc32c t ≠ leAt bs 0x38 4 then .fail 5 h.tableOfs else sealBands rd size h h.bandCount 0 none 0

/-- SEAL_COMPLETE (R91, R519). [DEDUCED, unsafe, log 41] -/
def Dev.sealComplete (d : Dev) (m : Mem) : Dev :=
  match d.job.sealing with
  | none => d
  | some w =>
    let x := d.well w
    let d1 := { d with job := { d.job with sealing := none } }.setB R.JOB_RESULT_BUSY false
    match sealCheck (fun o n => d.wellRead m w o n) x.size with
    | .pass h j => (d1.setWell w { x with st := .sealed, hdr := h, jmax := j }).set R.JOB_RESULT_CODE JobCode.ok.num
    | .fail c o =>
      ((((d1.setWell w { x with st := .closed, sealErr := c, sealOfs := o % 2 ^ 32 }).set R.JOB_RESULT_CODE
        JobCode.sealFail.num).set R.SEAL_LAST_WELL w).set64 R.SEAL_LAST_OFS_LO o).raise Ev.SEAL_FAIL
        (w + 256 * c + 65536 * (o % 2 ^ 48))

/-! ## The queue (R97–R105) -/

/-- The slot before `q` in queue order. -/
def slotBefore : List Nat → Nat → Option Nat
  | a :: b :: r, q => if b = q then some a else slotBefore (b :: r) q
  | _, _ => none

/-- End line of a slot: of an ended job the lines it released, otherwise planned; none while S is not fixed (Table 3.5). -/
def Slot.endLine (x : Slot) : Option Nat := x.s.map (fun s => s + x.lines)

/-- E for the job behind slot `p`; the weir level rounded up where no job stands before. [DEDUCED, unsafe, log 40] -/
def Dev.endBefore (d : Dev) (p : Option Nat) : Option Nat :=
  match p with
  | some q => (d.slot q).endLine
  | none => some (ceilLine d.pos.weir)

/-- The last fire point of a job starting at `s` lies within 48-bit lines (R98). -/
def posFits (s lines : Nat) : Bool := decide (s + lines + 65535 + 256 ≤ 2 ^ 48 - 1)

/-- The words of a history record (R104, Table 3.11). -/
def Slot.words (x : Slot) : List Nat :=
  let st := match x.st with
    | .empty => 0 | .queued => 1 | .head => 2 | .active => 3 | .ended => 4
  let s := x.s.getD 0
  [st + 16 * x.outcome + 256 * (if x.abortLate then 1 else 0) + 4096 * x.well + 65536 * x.mode, s % 2 ^ 32, s / 2 ^ 32,
   x.released, x.firstBand, x.hdr.jobId % 2 ^ 32, x.hdr.jobId / 2 ^ 32, x.hdr.lines]

/-- What the engines hold of a slot goes on under another number. -/
def Exp.rename (x : Exp) (q k : Nat) : Exp :=
  let n := fun (i : Nat) => if i = q then k else i
  { x with
    engines := x.engines.map (fun (e : Nat × Engine) => (e.1, { e.2 with
      pend := e.2.pend.map (fun l => { l with slot := n l.slot }), haltBand := e.2.haltBand.map (fun b => (n b.1, b.2))
      ctxAt := e.2.ctxAt.map (fun b => (n b.1, b.2)) }))
    walkPend := x.walkPend.map (fun w => (n w.1, w.2)), walks := x.walks.map (fun w => { w with slot := n w.slot })
    lays := match x.lays.find? q with
      | some l => (x.lays.drop q).put k l
      | none => x.lays
    reported := x.reported.map (fun r => { r with slot := n r.slot }) }

/-- Everything the engines hold of a slot goes. -/
def Exp.forget (x : Exp) (q : Nat) : Exp :=
  { x with
    walkPend := x.walkPend.filter (fun w => w.1 != q), walks := x.walks.filter (fun w => w.slot != q)
    lays := x.lays.drop q, reported := x.reported.filter (fun r => r.slot != q)
    engines := x.engines.map (fun (e : Nat × Engine) =>
      (e.1, { e.2 with haltBand := e.2.haltBand.filter (fun b => b.1 != q), ctxAt := e.2.ctxAt.filter (fun b => b.1 != q) })) }

/-- The number a drained job of slot `q` goes on under while late engines still expand it: the next above 15 that is `q` modulo 16. [DESIGN CHOICE, unsafe, log 122] -/
def Dev.lateKey (d : Dev) (q : Nat) : Nat := 16 * ((d.job.slots.map (fun x => x.1 / 16)).foldl max 0 + 1) + q

/-- A slot leaves the queue: its record enters the history of 16, its walks, layout and results go, no engine stays abandoned in one of
its bands, the slot is EMPTY (R104, R105). Lines an engine has not finished stay with it, with what it needs for them (04 R125, R135). [DESIGN CHOICE, unsafe, log 122] -/
def Dev.dropSlot (d : Dev) (q : Nat) : Dev :=
  let d1 := { d with job := { d.job with hist := ((d.slot q).words :: d.job.hist).take 16, order := d.job.order.filter (· != q) } }
  let d2 := if d.exp.engines.any (fun e => e.2.pend.any (fun l => l.slot == q)) then
      { d1 with exp := d1.exp.rename q (d.lateKey q) }.setSlot (d.lateKey q) (d.slot q)
    else { d1 with exp := d1.exp.forget q }
  ((d2.setSlot q {}).settleAll).checkRetention

/-- A job that released no line ends: JOB_MISSED where missed, JOB_ENDED, history, EMPTY (R105). [DESIGN CHOICE, unsafe, log 118] -/
def Dev.endUnstarted (d : Dev) (q outcome : Nat) : Dev :=
  let x := { d.slot q with outcome := outcome }
  let d1 := d.setSlot q x
  let d2 := if outcome = 3 then d1.raise Ev.JOB_MISSED (q + 65536 * (x.s.getD 0 % 2 ^ 48)) else d1
  (d2.raise Ev.JOB_ENDED (q + 16 * outcome)).dropSlot q

/-- An ACTIVE job ends with an outcome (R101, R102). -/
def Dev.endActive (d : Dev) (q outcome : Nat) : Dev :=
  let x := { d.slot q with outcome := outcome, st := .ended }
  (d.setSlot q x).raise Ev.JOB_ENDED (q + 16 * outcome + 2 ^ 32 * (x.released % 2 ^ 32))

/-- The first release point of a job starting at `s` has been reached (R99). -/
def Dev.releasePassed (d : Dev) (s : Nat) : Bool := decide (s * 65536 ≤ d.pos.weir + d.job.workW * 65536)

/-! ### Swap conversion (Table 3.7, R107, R207) -/

/-- A known N is far enough ahead (R107, R207). -/
def Dev.swapAhead (d : Dev) (n : Nat) : Bool :=
  decide (floorLine d.pos.weir + d.job.workW + 1 + d.remapChange.getD 0 ≤ n)

/-- A scheduled swap converts to N, or is dropped because N is passed. -/
def Dev.convertSwap (d : Dev) (n : Nat) : Dev :=
  match d.job.swap with
  | none => d
  | some q =>
    if d.swapAhead n then
      ({ d with job := { d.job with swap := some { q with n := some n } } }.set64 R.SWAP_LINE_LO n).replanAll
    else
      ({ d with job := { d.job with swap := none } }.raise Ev.SWAP_REFUSED JobCode.swapPassed.num).replanAll

/-- A scheduled swap of a form and argument that waits for its N converts. -/
def Dev.convertOn (d : Dev) (form arg n : Nat) : Dev :=
  match d.job.swap with
  | some q => if q.form = form ∧ q.arg = arg ∧ q.n.isNone then d.convertSwap n else d
  | none => d

/-! ### Becoming head, fixing S (R99) -/

/-- S of the head job is fixed: a swap that waits for it converts, and a job that cannot start ends MISSED (R99, R107). The flag says
whether it stays. -/
def Dev.fixS (d : Dev) (q s : Nat) : Dev × Bool :=
  let x := { d.slot q with s := some s }
  let d1 := (d.setSlot q x).convertOn 2 q s
  if d.releasePassed s || !posFits s x.hdr.lines || (x.mode == 0 && decide (s < x.eHead)) then (d1.endUnstarted q 3, false)
  else (d1, true)

/-- A job becomes head: E, S where the mode allows, the depth check, the walk of its first band while ARMED or RUN (R100), the line
rate (R97, R99, 07 R202, 04 R127, 01 R31). [DEDUCED, unsafe, log 40] -/
def Dev.becomeHead (d : Dev) (q : Nat) : Dev × Bool :=
  let e := (d.endBefore (slotBefore d.job.order q)).getD 0
  let x := { d.slot q with st := .head, eHead := e }
  let d1 := (d.setSlot q x).reRate
  let r := if x.mode = 0 then d1.fixS q x.argS else if x.mode = 2 then d1.fixS q (e + x.gap) else (d1, true)
  if r.2 then
    let deep := decide (d.depthS < x.hdr.depth)
    let d2 := if deep then (r.1.setSlot q { r.1.slot q with deep := true }).raise Ev.DEPTH_EXCEEDED (q + 256 * x.hdr.depth + 4096 * d.depthS) else r.1
    ((when (d2.dstate == .armed || d2.dstate == .run) (fun d => d.askWalk q x.firstBand) d2), true)
  else r

/-- The front of the queue becomes head; a job that ends MISSED gives way to the next. -/
def Dev.advanceQueue : Nat → Dev → Dev
  | 0, d => d
  | f + 1, d =>
    match d.headSlot with
    | none => d
    | some q =>
      if (d.slot q).st = .queued then
        let r := d.becomeHead q
        if r.2 then r.1 else Dev.advanceQueue f r.1
      else d

/-- The queue advances as far as it can. -/
def Dev.advance (d : Dev) : Dev := d.advanceQueue 17

/-- ENQUEUE (R97, R98). [DESIGN CHOICE, unsafe, log 118] -/
def Dev.enqueue (d : Dev) (w mode input gap line band : Nat) : Dev × JobCode :=
  match (List.range 16).find? (fun q => (d.slot q).st == .empty) with
  | none => (d, .queueFull)
  | some q =>
    if 15 < w then (d, .badArg)
    else
      let x := d.well w
      if x.st ≠ .sealed then (d, .wellState)
      else if 2 < mode ∨ 7 < input ∨ 65535 < gap ∨ x.hdr.bandCount ≤ band then (d, .badArg)
      else
        let e := d.endBefore d.job.order.getLast?
        if mode = 0 ∧ (e.map (fun e => decide (line < e))).getD false then (d, .overlap)
        else if !posFits (if mode = 0 then line else e.getD (ceilLine d.pos.weir)) x.hdr.lines then (d, .posRange)
        else
          let y : Slot := { st := .queued, well := w, mode := mode, input := input, gap := gap, argS := line, firstBand := band,
                            hdr := x.hdr, jmax := x.jmax }
          let d1 := d.setSlot q y
          ({ d1 with job := { d1.job with order := d1.job.order ++ [q] } }.advance, .ok)

/-- ENQUEUE. -/
def execEnqueue (well mode input gap line band : Nat) (s : State) : Out :=
  onHost (fun d => d.jobCmd (fun d => d.enqueue well mode input gap line band)) s

/-- ABORT (R102, R103). [DESIGN CHOICE, unsafe, log 118] -/
def Dev.abort (d : Dev) (q : Nat) : Dev × JobCode :=
  if 15 < q then (d, .badArg)
  else match (d.slot q).st with
  | .empty => (d, .badArg)
  | .ended => ((d.setSlot q { d.slot q with abortLate := true }).raise Ev.ABORT_LATE q, .abortLate)
  | .active => ((d.endActive q 2).advance, .ok)
  | _ => ((d.endUnstarted q 2).advance, .ok)

/-- ABORT. -/
def execAbort (slot : Nat) (s : State) : Out := onHost (fun d => d.jobCmd (fun d => d.abort slot)) s

/-- Slots whose last line the weir has passed by d_max are drained (R104). -/
def Dev.drain (d : Dev) : Dev :=
  forEach (d.job.order.filter (fun q =>
    let x := d.slot q
    x.st == .ended && decide ((x.s.getD 0 + x.released - 1 + d.dMax) * 65536 < d.pos.weir))) Dev.dropSlot d

/-- The job waiting for an item of input `input` takes its start line from an accepted trigger (Table 3.5 AT_ITEM). [DEDUCED, unsafe, log 37] -/
def Dev.jobAtItem (d : Dev) (input start : Nat) : Dev :=
  match d.headSlot with
  | none => d
  | some q =>
    let x := d.slot q
    if x.st = .head ∧ x.mode = 1 ∧ x.s.isNone ∧ x.input = input ∧ x.eHead * 65536 ≤ start then
      let r := d.fixS q (ceilLine start)
      if r.2 then r.1 else r.1.advance
    else d

/-- RUN is reached: a head job whose first release point has passed is MISSED (R99, R100). -/
def Dev.jobsAtRun (d : Dev) : Dev :=
  match d.headSlot with
  | none => d
  | some q =>
    match (d.slot q).st, (d.slot q).s with
    | .head, some s => if d.releasePassed s then (d.endUnstarted q 3).advance else d
    | _, _ => d

/-! ## Profile swaps (01 R37–R45, R107–R110) -/

/-- The lowest enabled input whose item offset in a profile is below W + 1 lines (02 R71). -/
def Dev.shortInput (d : Dev) (pr : SMap Word) : Option Nat :=
  (List.range 8).find? (fun i => d.is (R.TRG_CFG_EN i) &&
    decide (profGet64 pr (R.TRG_OFS_LO i) < (d.job.workW + 1) * 65536))

/-- Rows that a swap enables take the first step from `k` on whose fetch has not started (01 R39). -/
def Dev.enableRows (d : Dev) (old new : SMap Word) (k : Nat) : Dev :=
  let fresh := (rowsOf new).filter (fun r => !rowOn old r)
  let rows := fresh.foldl (fun (m : SMap RowSt) r => m.put r { m.get {} r with next := max k d.pos.nextFetch }) d.pos.rows
  { d with pos := { d.pos with rows := rows } }

/-- The marks of memory 6 after the Shadow template words stand in the Active half: each goes with its word, those of the words before are
gone (11 R320). -/
def Dev.tplMarks (d : Dev) : SMap Nat :=
  (inRange d.ecc.diffs (eccKey 6 0) (eccKey 6 tplActiveWord)).foldl (fun l e => l.put (e.1 + tplActiveWord) e.2)
    (outRange d.ecc.diffs (eccKey 6 tplActiveWord) (eccKey 6 (2 * tplActiveWord)))

/-- The tables change over: correction half retired and retained (06 R184), remap half copied (07 R208), template store with the marks of its
words. [DESIGN CHOICE, unsafe, log 115] -/
def Dev.swapTables (d : Dev) (n : Nat) : Dev :=
  let stop := n + d.dMax - d.job.workW
  let d1 := { d with
    ecc := { d.ecc with diffs := d.tplMarks }
    cmp := { d.cmp with tplR := d.tplOf d.job.gen, tplA := d.cmp.tplS }
    dos := { d.dos with corrA := d.dos.corrS, corrS := d.dos.corrA, retireAt := some stop }
    las := { d.las with remapR := d.remapRead true, remapA := d.las.remapS } }
  ((((((d1.setB R.DOS_STATUS_CORR_VALID false).wrap R.DOS_STATUS_HALF 1).set64 R.DOS_RETIRE_LO stop).setB
    R.LAS_STATUS_REMAP_VALID false).setB R.LAS_STATUS_COPYING true).wrap R.LAS_STATUS_HALF 1).checkRetention

/-- A swap takes effect for raster lines from `n` and fire steps from `k` (01 R39, R44, R109); a swap that changes a delay class or
moves a nozzle to another empties every cistern and makes the plan again (01 R41). [DEDUCED, unsafe, log 31; DEDUCED, unsafe, log 120] -/
def Dev.applySwap (d : Dev) (n k : Nat) : Dev :=
  let old := d.active
  let new := d.shadow
  let d1 := { d with
    active := new, retired := old, older := (d.job.contN, d.job.fireN, old) :: d.older
    job := { d.job with swap := none, swapped := true, gen := (d.job.gen + 1) % 2 ^ 32, contN := n, fireN := k } }
  let d2 := ((d1.swapTables n).loadOnSwap new).enableRows old new k
  let d3 := if classesMove old new then (d2.emptyCisterns.plan new).1.reRate else d2
  (d3.raise Ev.SWAP_DONE d3.job.gen).replanAll

/-- A swap in IDLE takes effect on its clock, for what is not yet released or fetched (01 R41). [DEDUCED, unsafe, log 31] -/
def Dev.swapNow (d : Dev) : Dev :=
  (d.set64 R.SWAP_LINE_LO d.pos.nextRel).applySwap d.pos.nextRel d.pos.nextFetch

/-- A swap accepted in IDLE: the cistern plan is made whatever it changes (07 R214). -/
def Dev.swapAccepted (d : Dev) : Dev :=
  let d1 := d.swapNow
  if classesMove d.active d.shadow then d1 else (d1.plan d1.active).1.reRate

/-- ARMED or RUN. -/
def Dev.printing (d : Dev) : Bool := d.dstate == .armed || d.dstate == .run

/-- N of a swap form, if known (Table 3.7). [DESIGN CHOICE, unsafe, log 118] -/
def Dev.swapLine (d : Dev) (form arg line : Nat) : Option Nat :=
  match form with
  | 0 => some line
  | 1 => (d.item? arg).map (fun i => ceilLine i.start)
  | _ => (d.slot arg).s

/-- The checks of R107 common to local and fabric swaps, in its order. -/
def Dev.swapRefused (d : Dev) (n : Option Nat) : Option JobCode :=
  if d.job.swap.isSome then some .swapPending
  else if !d.profileComplete then some .swapIncomplete
  else if d.printing && d.swapChangesClasses then some .swapDelay
  else if (d.shortInput d.shadow).isSome then some .itemOffsetShort
  else if d.printing && (n.map (fun n => !d.swapAhead n)).getD false then some .swapPassed
  else none

/-- ITEM_OFFSET_SHORT is raised where that is the refusal (02 R71). -/
def Dev.offsetEvent (d : Dev) (pr : SMap Word) (c : JobCode) : Dev :=
  if c = .itemOffsetShort then d.raise Ev.ITEM_OFFSET_SHORT ((d.shortInput pr).getD 0) else d

/-- SWAP without FABRIC (R107, R109). -/
def Dev.swapLocal (d : Dev) (form arg line : Nat) : Dev × JobCode :=
  if 2 < form ∨ (form = 2 ∧ (15 < arg ∨ (d.slot arg).st = .empty ∨ (d.slot arg).st = .ended)) then (d, .badArg)
  else
    let n := d.swapLine form arg line
    match d.swapRefused n with
    | some c => (d.offsetEvent d.shadow c, c)
    | none =>
      let q : SwapReq := { form := form, arg := arg, n := none, fabric := false, granted := false }
      let d1 := { d with job := { d.job with swap := some q } }.raise Ev.SWAP_SCHEDULED (65536 * (n.getD 0 % 2 ^ 48))
      if !d.printing then (d1.swapAccepted, .ok)
      else match n with
      | some n => (d1.convertSwap n, .ok)
      | none => (d1, .ok)

/-- SWAP_CANCEL (R109). Records already filled for the new remap half keep their slots. [DESIGN CHOICE, unsafe, log 118] -/
def Dev.swapCancel (d : Dev) : Dev × JobCode :=
  if d.job.swap.isSome then ({ d with job := { d.job with swap := none } }.replanAll, .ok)
  else (d.raise Ev.SWAP_CANCEL_LATE 0, .swapCancelLate)

/-- SWAP_CANCEL. -/
def execSwapCancel (s : State) : Out := onHost (fun d => d.jobCmd Dev.swapCancel) s

/-! ## Resume-at-line (R111–R115) -/

/-- Of slots `l`, the one that released a raster line, and its job line. -/
def Dev.releasedAmong (d : Dev) (qs : List Nat) (l : Nat) : Option (Nat × Nat) :=
  (qs.find? (fun q => match (d.slot q).s with
    | some s => decide (s ≤ l) && decide (l < s + (d.slot q).released)
    | none => false)).map (fun q =>
      let x := d.slot q
      (q, x.firstBand * x.hdr.bandLines + (l - x.s.getD 0)))

/-- The slot that released a raster line, and its job line. -/
def Dev.releasedBy (d : Dev) (l : Nat) : Option (Nat × Nat) := d.releasedAmong d.job.order l

/-- First raster line of the band that holds a released line: the seek point (R113). -/
def Dev.seekLine (d : Dev) (l : Nat) : Nat :=
  match d.releasedBy l with
  | none => l
  | some (q, j) =>
    let x := d.slot q
    max (l - j % x.hdr.bandLines) (x.s.getD 0)

/-- One line re-expanded: handed to the engines and to dose mapping, or ZERO where no job released it (R113, 07 R224). -/
def Dev.reexpand (d : Dev) (keep l : Nat) : Dev :=
  match d.releasedBy l with
  | some (q, j) =>
    let d1 := d.feedEngines q l j (decide (keep ≤ l) && !(d.slot q).deep)
    if keep ≤ l ∧ (d.slot q).deep = false then
      { d1 with dos := { d1.dos with queue := d1.dos.queue ++ [{ line := l, slot := q, jline := j, toStage := true }] } }
    else d1
  | none => if keep ≤ l then d.setLedger l .zero else d

/-- Renderings whose fields touch the lines being re-expanded are made again (05 R175). [DEDUCED, unsafe, log 42] -/
def Dev.renderAgain (d : Dev) (keep : Nat) : Dev :=
  { d with items := d.items.map (fun i =>
      { i with rends := i.rends.map (fun r =>
        if r.st = .done ∧ r.fields ≠ [] ∧ keep < r.lineEnd ∧ i.tFirst < d.pos.nextRel then { r with st := .waiting, again := true } else r) }) }

/-- The step ranges withheld by earlier resumes, without the steps a new one covers or prints from `k0` on (R112). -/
def trimRanges (k0 : Nat) (l : List (Nat × Nat)) : List (Nat × Nat) :=
  (l.map (fun r => (r.1, min r.2 k0))).filter (fun r => decide (r.1 < r.2))

/-- Cistern middles that had no place look for one again at a RESUME: the region itself once its channels are back, else the fallback
region the host has defined (07 R225). -/
def Dev.placeAgain (d : Dev) : Dev :=
  if !d.las.unplaced then d
  else if d.placeIn d.las.place then { d with las := { d.las with unplaced := false } }
  else d.relocate

/-- A slot has released a line at or above `l`. -/
def Dev.releasedFrom (d : Dev) (l q : Nat) : Bool :=
  decide (0 < (d.slot q).released) && decide (l < (d.slot q).s.getD 0 + (d.slot q).released)

/-- An accepted RESUME (R112–R114, 07 R222–R224). The bands it expands again are walked again; a job that has released none of those
lines keeps its walk. -/
def Dev.resumeAt (d : Dev) (n : Nat) : Dev :=
  let k0 := d.pos.nextFetch
  let keep := n - d.dMax
  let seek := d.seekLine keep
  let d1 := ((d.emptyCisterns.placeAgain.dropEngines.holdClear true).set64 R.LAS_K0_LO k0).set64 R.RESUME_LINE_LO n
  let d2 := { d1 with
    job := { d1.job with resume := some { n := n, keep := keep, frontier := d.pos.nextRel - 1, lateRaised := false },
                         resumeReady := false, resumeRanges := (k0, n) :: trimRanges k0 d1.job.resumeRanges }
    exp := { d1.exp with walks := d1.exp.walks.filter (fun w => !d.releasedFrom seek w.slot)
                         walkPend := d1.exp.walkPend.filter (fun w => !d.releasedFrom seek w.1)
                         reported := d1.exp.reported.map (fun (r : BandRes) =>
                            if seek < (d.bandSpan r.slot r.band).2 then { r with again := true } else r) }
    dos := { d1.dos with line := none, taken := [], levels := [], queue := [], waited := false } }
  let d3 := forEach ((List.range (d.pos.nextRel - seek)).map (fun i => seek + i)) (fun d l => d.reexpand keep l) d2
  (d3.renderAgain keep).raise Ev.RESUME_STARTED (65536 * (n % 2 ^ 48))

/-- RESUME (R111). [DEDUCED, unsafe, log 42; DEDUCED, unsafe, log 43] -/
def Dev.resume (d : Dev) (n : Nat) : Dev × JobCode :=
  if d.dstate ≠ .run then (d, .resumeState)
  else if d.level = .basic then (d, .resumeLevel)
  else if d.job.resume.isSome then (d, .busy)
  else if n < floorLine d.pos.weir + d.job.workW + 1 then (d, .resumePassed)
  else (d.resumeAt n, .ok)

/-- RESUME. -/
def execResume (line : Nat) (s : State) : Out := onHost (fun d => d.jobCmd (fun d => d.resume line)) s

/-- Every re-expanded line has reached the headraces or a placeholder (R115). -/
def Dev.refilled (d : Dev) (r : Resume) : Bool :=
  (List.range (r.frontier + 1 - r.keep)).all (fun i => d.ledgerAt (r.keep + i) != .missing)

/-- A resume ends without RESUME_READY when the device leaves RUN (R115), and one that is required is no longer (13 R370). -/
def Dev.resumeLeft (d : Dev) : Dev := { d with job := { d.job with resume := none }, evt := { d.evt with resumeReq := false } }

/-- RESUME_READY (R115). -/
def Dev.resumeDone (d : Dev) : Dev :=
  match d.job.resume with
  | none => d
  | some r =>
    if d.refilled r then
      ({ d with job := { d.job with resume := none, resumeReady := true } }).raise Ev.RESUME_READY (65536 * (r.n % 2 ^ 48))
    else d

/-- RESUME_READY. -/
def execResumeReady (s : State) : Out := onDev Dev.resumeDone s

end Sys2Proof.Machine
end

