-- ==== Sys2Proof/Machine/Frames.lean ====
section
/-! DEFINITION. The frame layer of the head ports (09 R254–R280): readiness, sluice credits, echo comparison and deadlines, head
status, loss of the link, commands and element checks. -/

namespace Sys2Proof.Machine

/-! ## Ports and their links -/

/-- A head port. -/
def Dev.port (d : Dev) (p : Nat) : Port := d.ports.get {} p

/-- Replaces a head port. -/
def Dev.setPort (d : Dev) (p : Nat) (x : Port) : Dev := { d with ports := d.ports.put p x }

/-- A link by its first lane. -/
def Dev.link (d : Dev) (l : Nat) : Link := d.links.get {} l

/-- Replaces a link. -/
def Dev.setLink (d : Dev) (l : Nat) (x : Link) : Dev := { d with links := d.links.put l x }

/-- The link a lane belongs to: lanes of a fabric port and of a bonded pair belong to the even lane's link (08 R235, 14
R372). -/
def Dev.linkOf (d : Dev) (p : Nat) : Nat :=
  if p % 2 = 1 ∧ (32 ≤ p ∨ (d.link (p - 1)).bonded = true) then p - 1 else p

/-- The lanes, or head ports, of a link. -/
def Dev.linkLanes (d : Dev) (l : Nat) : List Nat := if 32 ≤ l ∨ (d.link l).bonded = true then [l, l + 1] else [l]

/-- The link of a head port is UP. -/
def Dev.portUp (d : Dev) (p : Nat) : Bool := (d.link (d.linkOf p)).st == .up

/-- A port is live: ARMED or RUN, and an enabled row of the Active fire row table names it or its bonded partner (08 R246). -/
def Dev.live (d : Dev) (p : Nat) : Bool :=
  d.printing && (rowsOf d.active).any (fun r => (d.linkLanes (d.linkOf p)).contains (rowPort d.active r))

/-- Frame states (Table 9.4). -/
def Dev.fstate (d : Dev) (p : Nat) : Nat := d.get (R.HPF_STATUS_FSTATE p)

/-- The port is READY. -/
def Dev.portReady (d : Dev) (p : Nat) : Bool := d.fstate p == 3

/-- Block time of a rate code in 1/100 ns (08 Table 8.4). -/
def blockTime (rate : Nat) : Nat := if rate = 1 then 2800 else if rate = 2 then 1400 else 875

/-- A frame or block is discarded and counted (R257). -/
def Dev.frameErr (d : Dev) (p : Nat) : Dev := (d.bump (R.HPF_FRAME_ERR_CNT p) 1).occur Ev.FRAME_ERROR p 1

/-! ## Sluice rate (R266) -/

/-- Throw time plus credit round trip of a row, in ns: the slope of its buffer need. -/
def Dev.rowSlope (d : Dev) (p r : Nat) : Int :=
  toSigned 32 (profGet d.active (R.ROW_TFLIGHT r)) + d.get (R.HPF_TRT p)

/-- HPF_SLUICE_RATE: the largest r ≤ 120,000 with N_p(r') ≤ H_p for every r' from 0 to r (R266). [DEDUCED, unsafe, log 34] -/
def Dev.sluiceRate (d : Dev) (p : Nat) : Nat :=
  let h := d.get (R.HPF_HP p)
  let f := d.job.fetchF
  if h < f then 0
  else
    let room : Nat := (h - f) * 65536 * 1000000000
    ((rowsOf d.active).filter (fun r => rowPort d.active r == p)).foldl (fun m r =>
      let phi := profGet d.active (R.ROW_PHASE r) * 1000000000
      let slope := d.rowSlope p r * 65536
      if room < phi then 0
      else if slope ≤ 0 then m
      else min m ((room - phi) / slope.toNat)) 120000

/-- Recomputes HPF_SLUICE_RATE of a READY port and raises SLUICE_RATE when it falls below 120,000 (R266). [DEDUCED, safe, log 66] -/
def Dev.reSluice (d : Dev) (p : Nat) : Dev :=
  let v := d.sluiceRate p
  let d1 := (d.set (R.HPF_SLUICE_RATE p) v).setPort p { d.port p with sluiceLow := decide (v < 120000) }
  if v < 120000 ∧ (d.port p).sluiceLow = false then d1.raise Ev.SLUICE_RATE (p + 2 ^ 32 * v) else d1

/-- Recomputes the sluice rate of every READY port: at a swap and at a change of F (R266). -/
def Dev.reSluiceAll (d : Dev) : Dev := forEach ((List.range 32).filter d.portReady) (fun d p => d.reSluice p) d

/-! ## Commands on the wire (R278) -/

/-- Sends a CMD frame with a new tag (R278). [DEDUCED, unsafe, log 63; DEDUCED, unsafe, log 67] -/
def Dev.sendCmd (d : Dev) (p op : Nat) (args : List Byte) (auto : Bool) : Dev :=
  let x := d.port p
  let d1 := d.setPort p { x with cmd := some { op := op, tag := x.nextTag, at_ := d.now, auto := auto },
                                 nextTag := (x.nextTag + 1) % 256, seqCmd := (x.seqCmd + 1) % 256 }
  let d2 := (d1.setB (R.HPF_CMD_RESULT_BUSY p) true).emit (.cmd p op x.nextTag args)
  if op = 3 then d2.setB (R.HPF_STATUS_ELEM_RUN p) true else d2

/-- The outstanding command ends; a command of the host gets a result (Table 9.10). -/
def Dev.endCmd (d : Dev) (p code : Nat) : Dev :=
  let x := d.port p
  match x.cmd with
  | none => d
  | some c =>
    let d1 := ((d.setPort p { x with cmd := none }).setB (R.HPF_CMD_RESULT_BUSY p) false).setB (R.HPF_STATUS_ELEM_RUN p) false
    if c.auto then d1 else d1.set (R.HPF_CMD_RESULT_CODE p) code

/-! ## Readiness (R259, R260) -/

/-- The link of port `p` enters UP: counts and sequences restart, STATUS_REQ is sent (R259, R263). -/
def Dev.frameUp (d : Dev) (p : Nat) : Dev :=
  let x := d.port p
  ((d.setPort p { x with sentCnt := 0, freed := 0, seqLine := 0, seqCmd := 0, runs := [], steps := [], cmd := none,
                         statusAt := d.now }).set (R.HPF_STATUS_FSTATE p) 1).sendCmd p 2 [] true

/-- The port enters UNFIT with a cause (R260). -/
def Dev.unfit (d : Dev) (p cause : Nat) : Dev :=
  ((d.set (R.HPF_STATUS_FSTATE p) 4).set (R.HPF_STATUS_UNFIT_CAUSE p) cause).raise Ev.PORT_UNFIT (p + 256 * cause)

/-- Duration of a LINE frame at the lane rate in use, rounded up to a whole ns (R259). -/
def Dev.tLine (d : Dev) (p : Nat) : Nat :=
  ceilDiv ((2 + 128 * d.depthS) * blockTime (d.link (d.linkOf p)).rate) 100

/-- The PING of bring-up is answered: T_ow, D_p, T_rt, then READY or UNFIT (R259, R260). Causes 3–5 in their order. [DEDUCED, unsafe, log 64] -/
def Dev.pinged (d : Dev) (p tPing tTurn : Nat) (depths rowExp hp : Nat) : Dev :=
  let tow := (tPing - tTurn) / 2
  let dp := if d.is (R.HPF_DP_OVR_EN p) then d.get (R.HPF_DP_OVR_VALUE p) else tow + d.get (R.HPF_TH p)
  let trt := 160 + dp + d.get (R.HPF_TFREE p) + tow + d.tLine p
  let d1 := (d.set (R.HPF_TPING p) tPing).set (R.HPF_TRT p) trt
  let bit := if d.depthS = 1 then 0 else if d.depthS = 2 then 1 else 2
  if !hasBit depths bit then d1.unfit p 3
  else if rowExp < d.aget (R.PORT_LAYOUT_ROWS p) then d1.unfit p 4
  else if hp < 2 then d1.unfit p 5
  else
    let x := d1.port p
    let d2 := ((d1.setPort p { x with lostRaised := false }).set (R.HPF_DP p) dp).set (R.HPF_STATUS_FSTATE p) 3
    (d2.raise Ev.PORT_READY (p + 256 * hp + 65536 * (dp % 65536))).reSluice p

/-! ## LINE frames and credits (R261, R263) -/

/-- Credit of a port: H_p − ((SENT − FREED) mod 65,536) (R263). -/
def Dev.credit (d : Dev) (p : Nat) : Nat :=
  d.get (R.HPF_HP p) - ((d.port p).sentCnt + 65536 - (d.port p).freed) % 65536

/-- Marks a staged step as sent; a step whose verdict is out already leaves. -/
def sendStep (k seq : Nat) (l : List StepRec) : List StepRec :=
  (l.filter (fun r => !(r.k == k && r.lapsed))).map
    (fun r => if r.k = k then { r with sent := true, seq := seq, bytes := [] } else r)

/-- The port line of step `k` as read from staging (11 R315, Table 11.2): its bytes corrected, the words that read uncorrectable, the counts. -/
def Dev.stagingRead (d : Dev) (p k : Nat) (bytes : List Byte) : List Byte × List Nat × Dev :=
  let a := stagingWord p k
  let n := ceilDiv bytes.length 8
  let l := inRange d.ecc.diffs (eccKey 8 a) (eccKey 8 (a + n))
  if l = [] then (bytes, [], d)
  else
    let fixed := l.foldl (fun (b : List Byte) e =>
      let o := 8 * (e.1 - eccKey 8 a)
      match d.sramData 8 (e.1 - eccKey 8 0) (leAt b o 8) with
      | some v => b.take o ++ (bytesOf 8 v).take (b.length - o) ++ b.drop (o + 8)
      | none => b) bytes
    (fixed, (d.badIn 8 a (a + n)).map (· - a), d.sramReads 8 a (a + n) 13)

/-- LINE_FRAME_SEND: the oldest staged line leaves while the port is READY and its credit is at least 1 (R263). [DEDUCED, unsafe, log 105] -/
def Dev.lineSend (d : Dev) (p : Nat) : Dev :=
  let x := d.port p
  if d.portReady p && decide (1 ≤ d.credit p) then
    match x.steps.find? (fun r => !r.sent) with
    | none => d
    | some r =>
      let (bytes, bad, d) := d.stagingRead p r.k r.bytes
      ((d.setPort p { x with sentCnt := (x.sentCnt + 1) % 65536, seqLine := (x.seqLine + 1) % 256,
                             steps := sendStep r.k x.seqLine x.steps }).wrap (R.HPF_LINE_CNT p) 1).emit
        (.line p r.k r.dry x.seqLine r.check d.depthS bytes bad)
  else d

/-- LINE_FRAME_SEND. [DEDUCED, unsafe, log 105] -/
def execLineFrameSend (port : Nat) (s : State) : Out := onDevIf (decide (port < 32)) (fun d => d.lineSend port) s

/-- CREDIT (R263): FREED is taken, unless the credit would exceed H_p. [DEDUCED, unsafe, log 63] -/
def Dev.creditIn (d : Dev) (p : Nat) (b : List Byte) (errored : Bool) : Dev :=
  if d.portUp p then
    let x := d.port p
    let f := leAt b 2 2
    if errored || !blockOk b then d.frameErr p
    else if 32768 ≤ (x.sentCnt + 65536 - f) % 65536 then d.frameErr p
    else d.setPort p { x with freed := f }
  else d

/-- CREDIT. [DEDUCED, unsafe, log 62] -/
def execCredit (port : Nat) (block : List Byte) (errored : Bool) (s : State) : Out :=
  onDevIf (decide (port < 32)) (fun d => d.creditIn port block errored) s

/-! ## Echoes (R272–R274) -/

/-- Rows of port `p` at step `k` whose head row is in a mask. -/
def Dev.maskRows (d : Dev) (p k mask : Nat) : List Nat :=
  ((List.range 16).filter (hasBit mask)).filterMap (rowAt (d.fireProf k) p)

/-- Items that touch one of the rows at step `k` receive a cause. -/
def Dev.causeRows (d : Dev) (c : Cause) (k : Nat) (rows : List Nat) : Dev :=
  d.causeItems c (fun i => rows.any (fun r => d.touchesRow i r k))

/-- Raises an event of a step of port `p` at the first of a run of consecutive steps with its code and cause (R274). -/
def Dev.runEvent (d : Dev) (p code cause k detail : Nat) : Dev :=
  let x := d.port p
  let seen := x.runs.any (fun r => r.1 == code && r.2.1 == cause && r.2.2 + 1 == k)
  let rest := x.runs.filter (fun r => !(r.1 == code && r.2.1 == cause))
  let d1 := d.setPort p { x with runs := (code, cause, k) :: rest }
  if seen then d1 else d1.raiseAt code detail k

/-- A step of the port ends without its ECHO (R273, R277). -/
def Dev.echoMissing (d : Dev) (p : Nat) (r : StepRec) (lost : Bool) : Dev :=
  let c := if lost then 1 else 0
  ((d.bump (R.HPF_ECHO_MISS_CNT p) 1).runEvent p Ev.ECHO_MISSING c r.k (p + 256 * c)).causeRows .echoMissing r.k
    (d.maskRows p r.k r.mask)

/-- Steps whose echo deadline the weir level has reached (R273), at the end of a clock: an ECHO of the deadline clock is still accepted. -/
def Dev.echoDeadlines (d : Dev) (p : Nat) : Dev :=
  let due := fun (r : StepRec) => !r.lapsed && (r.deadline.map (fun x => decide (x ≤ d.pos.weir))).getD false
  let x := d.port p
  let late := x.steps.filter due
  if late.isEmpty then d
  else
    let left := (x.steps.filter (fun r => !(due r && r.sent))).map (fun r => if due r then { r with lapsed := true } else r)
    let d1 := d.setPort p { x with steps := left }
    forEach late (fun d r => d.echoMissing p r false) d1

/-- Every port's steps past their echo deadline. -/
def Dev.echoesLapse (d : Dev) : Dev := forEach (List.range 32) (fun d p => d.echoDeadlines p) d

/-- Refusal cause of head row `h` in an ECHO body (Table 9.5). -/
def refusalCause (body : List Byte) (h : Nat) : Nat := bitsOf (leAt body 8 8) (4 * h) 4

/-- Rows with a TRIG that did not fire: one event for each cause (Table 9.7). [DEDUCED, safe, log 66] -/
def Dev.echoNotFired (d : Dev) (p k nf : Nat) (body : List Byte) : Dev :=
  forEach (List.range 16) (fun d c =>
    let m := (List.range 16).foldl (fun m h => if hasBit nf h && refusalCause body h == c then orBit m h else m) 0
    if m = 0 then d else d.runEvent p Ev.ECHO_NOT_FIRED c k (p + 32 * m + 2 ^ 24 * c)) d

/-- The comparison of an ECHO with its step (Table 9.7). -/
def Dev.echoCompare (d : Dev) (p : Nat) (r : StepRec) (body : List Byte) : Dev :=
  let fired := leAt body 4 2
  let readback := leAt body 0x10 4
  let nf := r.mask - (r.mask &&& fired)
  let ux := fired - (fired &&& r.mask)
  let allRows := d.maskRows p r.k 0xFFFF
  let d1 := if nf = 0 then d else
    ((d.bump (R.HPF_NOT_FIRED_CNT p) 1).echoNotFired p r.k nf body).causeRows .notFired r.k (d.maskRows p r.k nf)
  let d2 := if ux = 0 then d1 else
    ((d1.bump (R.HPF_UNEXP_CNT p) 1).runEvent p Ev.ECHO_UNEXPECTED 0 r.k (p + 32 * fired)).causeRows .unexpected r.k allRows
  let d3 := if fired = 0 ∨ readback = r.check then d2 else
    ((d2.bump (R.HPF_ECHO_CHK_CNT p) 1).runEvent p Ev.ECHO_CHECK 0 r.k (p + 2 ^ 32 * readback)).causeRows .check r.k
      (d.maskRows p r.k fired)
  let d4 := d3.attempt (d.maskRows p r.k fired) r.k
  if fired = 0 then d4 else d4.set (R.HPF_DELAY_LAST p) (leAt body 0x14 2)

/-- ECHO: compared with its step; one that matches no step in flight is counted as late (R271–R273). [DEDUCED, unsafe, log 63] -/
def Dev.echoIn (d : Dev) (p : Nat) (f : HFrame) : Dev :=
  if d.portUp p then
    if !frameOk f || f.body.length != 32 then d.frameErr p
    else
      let x := d.port p
      match x.steps.find? (fun r => r.sent && r.k % 65536 == frameTag f) with
      | none => d.bump (R.HPF_ECHO_LATE_CNT p) 1
      | some r => (d.setPort p { x with steps := x.steps.filter (fun y => y.k != r.k) }).echoCompare p r f.body
  else d

/-- ECHO. [DEDUCED, unsafe, log 62] -/
def execEcho (port : Nat) (frame : HFrame) (s : State) : Out :=
  onDevIf (decide (port < 32)) (fun d => d.echoIn port frame) s

/-! ## Status (R275, R276) -/

/-- The registers a STATUS fills (Table 9.8). -/
def Dev.statusRegs (d : Dev) (p : Nat) (b : List Byte) : Dev :=
  let fl := leAt b 2 1
  let d1 := ((d.setB (R.HPF_STATUS_TEMP_WARN p) (hasBit fl 1)).setB (R.HPF_STATUS_TEMP_LIMIT p) (hasBit fl 2)).setB
    (R.HPF_STATUS_FAULT p) (hasBit fl 3)
  let d2 := ((d1.set (R.HPF_HP p) (leAt b 3 1)).set (R.HPF_TEMP p) (leAt b 4 2)).set (R.HPF_TH p) (leAt b 6 2)
  ((((d2.set (R.HPF_TFREE p) (leAt b 8 2)).set (R.HPF_TEC p) (leAt b 0xC 2)).set (R.HPF_HEAD_FAULT p) (leAt b 0xE 2)).set
    (R.HPF_HEAD_ID_LO p) (leAt b 0x10 4)).set (R.HPF_HEAD_ID_HI p) (leAt b 0x14 4)

/-- The events of the head's flags (R276). [DEDUCED, safe, log 66] -/
def Dev.statusEvents (d : Dev) (p : Nat) (warn limit fault : Bool) (b : List Byte) : Dev :=
  let fl := leAt b 2 1
  let t := p + 65536 * leAt b 4 2
  let d1 := if hasBit fl 2 && !limit then d.raise Ev.HEAD_TEMP_LIMIT t
    else if !hasBit fl 2 && limit then d.raise Ev.HEAD_TEMP_CLEAR t else d
  let d2 := when (hasBit fl 1 && !warn) (fun d => d.raise Ev.HEAD_TEMP_WARN t) d1
  when (hasBit fl 3 && !fault) (fun d => d.raise Ev.HEAD_FAULT (p + 65536 * leAt b 0xE 2)) d2

/-- STATUS (R259, R275, R276): registers and flags; in WAIT_STATUS it is the answer to STATUS_REQ and PING is sent. [DEDUCED, unsafe, log 63] -/
def Dev.statusIn (d : Dev) (p : Nat) (f : HFrame) : Dev :=
  if d.portUp p then
    if !frameOk f || f.body.length != 32 then d.frameErr p
    else
      let d1 := (d.statusRegs p f.body).statusEvents p (d.is (R.HPF_STATUS_TEMP_WARN p))
        (d.is (R.HPF_STATUS_TEMP_LIMIT p)) (d.is (R.HPF_STATUS_FAULT p)) f.body
      let d2 := d1.setPort p { d1.port p with statusAt := d.now, depths := leAt f.body 0xA 1, rowExp := leAt f.body 0xB 1 }
      if d.fstate p = 1 then ((d2.endCmd p 0).set (R.HPF_STATUS_FSTATE p) 2).sendCmd p 1 [] true else d2
  else d

/-- STATUS. [DEDUCED, unsafe, log 62] -/
def execStatus (port : Nat) (frame : HFrame) (s : State) : Out :=
  onDevIf (decide (port < 32)) (fun d => d.statusIn port frame) s

/-- STATUS_TIMEOUT: no STATUS within HPF_STATUS_TMO; no other action (R275). -/
def execStatusTimeout (port : Nat) (s : State) : Out :=
  onDevIf (decide (port < 32)) (fun d => if d.portUp port then d.raise Ev.STATUS_TIMEOUT port else d) s

/-! ## Command answers and timeouts (R278, R280) -/

/-- Stores response data in HPF_RSP_BUF. -/
def Dev.storeRsp (d : Dev) (p : Nat) (data : List Byte) : Dev :=
  let d1 := d.set (R.HPF_RSP_LEN p) data.length
  (List.range (ceilDiv data.length 4)).foldl (fun d i => d.set (R.HPF_RSP_BUF p i) (leAt data (4 * i) 4)) d1

/-- CMD_RSP (R278): an answer to the outstanding command; any other is discarded. `tPing` is T_ping measured at the pins. [DEDUCED, unsafe, log 63] -/
def Dev.cmdRsp (d : Dev) (p tPing : Nat) (f : HFrame) : Dev :=
  if d.portUp p then
    if !frameOk f then d.frameErr p
    else
      let x := d.port p
      match x.cmd with
      | none => d
      | some c =>
        if c.op = leAt f.body 0 1 ∧ c.tag = leAt f.body 1 1 then
          let res := leAt f.body 2 1
          let data := (sliceOf f.body 8 (f.body.length - 16)).take (min 1024 (leAt f.body 4 2))
          let code := if res = 0 then 0 else 5
          if c.auto then
            if c.op = 1 ∧ res = 0 then (d.endCmd p 0).pinged p tPing (leAt data 0 4) x.depths x.rowExp (d.get (R.HPF_HP p))
            else if res = 0 then d.endCmd p 0 else d
          else
            let d1 := ((d.endCmd p code).set (R.HPF_CMD_RESULT_HEAD_RESULT p) res).storeRsp p data
            if c.op = 1 then d1.set (R.HPF_TPING p) tPing
            else if c.op = 3 then d1.raise Ev.ELEM_DONE (p + 256 * (data.length / 4 % 256) + 65536 * code)
            else d1
        else d
  else d

/-- CMD_RSP. -/
def execCmdRsp (port tPing : Nat) (frame : HFrame) (s : State) : Out :=
  onDevIf (decide (port < 32)) (fun d => d.cmdRsp port tPing frame) s

/-- CMD_TIMEOUT (R260, R278): TIMEOUT, and UNFIT while the port is being made ready. -/
def Dev.cmdTimeout (d : Dev) (p : Nat) : Dev :=
  let st := d.fstate p
  let d1 := d.endCmd p 4
  if st = 1 then d1.unfit p 1 else if st = 2 then d1.unfit p 2 else d1

/-- CMD_TIMEOUT. -/
def execCmdTimeout (port : Nat) (s : State) : Out := onDevIf (decide (port < 32)) (fun d => d.cmdTimeout port) s

/-! ## Host commands (R278–R280) -/

/-- The arguments in HPF_CMD_BUF. -/
def Dev.cmdArgs (d : Dev) (p : Nat) : List Byte :=
  ((List.range 256).flatMap (fun i => bytesOf 4 (d.get (R.HPF_CMD_BUF p i)))).take (d.get (R.HPF_CMD_LEN p))

/-- Refusals common to the commands (Table 9.10). -/
def Dev.cmdRefused (d : Dev) (p : Nat) : Option Nat :=
  if 1024 < d.get (R.HPF_CMD_LEN p) then some 3
  else if !d.portReady p then some 2
  else if (d.port p).cmd.isSome then some 1
  else none

/-- A command of the host (R278). [DEDUCED, unsafe, log 64] -/
def Dev.hostCmd (d : Dev) (p op : Nat) : Dev :=
  d.inDomain (headDomain p) (fun d =>
    match d.cmdRefused p with
    | some c => d.set (R.HPF_CMD_RESULT_CODE p) c
    | none => d.sendCmd p op (d.cmdArgs p) false)

/-- PING. -/
def execPing (port : Nat) (s : State) : Out := onHostIf (decide (port < 32)) (fun d => d.hostCmd port 1) s

/-- STATUS_REQ. -/
def execStatusReq (port : Nat) (s : State) : Out := onHostIf (decide (port < 32)) (fun d => d.hostCmd port 2) s

/-- ELEM_CHECK: sent at once where the port is not live, else pending (R279). -/
def Dev.elemCheck (d : Dev) (p : Nat) : Dev :=
  if !d.domOn (headDomain p) then d.barMiss
  else if (d.port p).elemPend.isSome then d.set (R.HPF_CMD_RESULT_CODE p) 1
  else if d.live p then
    match d.cmdRefused p with
    | some c => d.set (R.HPF_CMD_RESULT_CODE p) c
    | none =>
      ((d.setPort p { d.port p with elemPend := some (d.cmdArgs p) }).set (R.HPF_CMD_RESULT_CODE p) 8).setB
        (R.HPF_STATUS_ELEM_PENDING p) true
  else d.hostCmd p 3

/-- ELEM_CHECK. -/
def execElemCheck (port : Nat) (s : State) : Out := onHostIf (decide (port < 32)) (fun d => d.elemCheck port) s

/-- SET_PARAM. -/
def execSetParam (port : Nat) (s : State) : Out := onHostIf (decide (port < 32)) (fun d => d.hostCmd port 4) s

/-- GET_PARAM. -/
def execGetParam (port : Nat) (s : State) : Out := onHostIf (decide (port < 32)) (fun d => d.hostCmd port 5) s

/-- CLEAR_FAULT. -/
def execClearFault (port : Nat) (s : State) : Out := onHostIf (decide (port < 32)) (fun d => d.hostCmd port 6) s

/-- ELEM_CANCEL removes a pending check; without one it comes too late (R280). [DEDUCED, unsafe, log 64] -/
def Dev.elemCancel (d : Dev) (p : Nat) : Dev :=
  if (d.port p).elemPend.isSome then
    ((d.setPort p { d.port p with elemPend := none }).set (R.HPF_CMD_RESULT_CODE p) 0).setB (R.HPF_STATUS_ELEM_PENDING p) false
  else d.inDomain (headDomain p) (fun d => d.set (R.HPF_CMD_RESULT_CODE p) 7)

/-- ELEM_CANCEL. -/
def execElemCancel (port : Nat) (s : State) : Out := onHostIf (decide (port < 32)) (fun d => d.elemCancel port) s

/-- A line belongs to one of the jobs of a queue, the first of which follows line `e`: a fixed start, the argument of an AT_LINE job, the planned end of
the job before for FOLLOW, every line from there on while an AT_ITEM job waits (R279, 03 Table 3.5). [DEDUCED, unsafe, log 124] -/
def Dev.queueLine (d : Dev) (l : Nat) : List Nat → Nat → Bool
  | [], _ => false
  | q :: r, e =>
    let x := d.slot q
    match x.s, x.mode with
    | none, 1 => decide (e ≤ l) || d.queueLine l r e
    | s, n =>
      let a := s.getD (if n = 0 then x.argS else e + x.gap)
      let b := x.endLine.getD (a + x.lines)
      decide (a ≤ l) && decide (l < b) || d.queueLine l r b

/-- A raster line belongs to a job: by the ledger once released, by the job queue before (R279). [DEDUCED, unsafe, log 124] -/
def Dev.lineOfJob (d : Dev) (l : Nat) : Bool :=
  if l < d.pos.nextRel then d.ledgerAt l != .zero
  else d.queueLine l d.job.order (ceilLine d.pos.weir)

/-- The port has an idle gap at fire step `k` (R279). -/
def Dev.idleGap (d : Dev) (p k : Nat) : Bool :=
  let pr := d.fireProf k
  (((portClasses pr p).filterMap id).eraseDups).all (fun c =>
    (List.range (d.get (R.HPF_ELEM_GAP p))).all (fun i => decide (k + i < classDelay pr c) || !d.lineOfJob (k + i - classDelay pr c)))

/-- A pending element check is sent at the first fetch start with an idle gap (R279). -/
def Dev.elemSend (d : Dev) (p k : Nat) : Dev :=
  match (d.port p).elemPend with
  | some args =>
    if d.portReady p && (d.port p).cmd.isNone && d.idleGap p k then
      ((d.setPort p { d.port p with elemPend := none }).setB (R.HPF_STATUS_ELEM_PENDING p) false).sendCmd p 3 args false
    else d
  | none => d

/-! ## Loss of the link (R277) -/

/-- The frame layer of port `p` ends: DOWN, staged lines discarded, sent steps missing with cause LINK, the outstanding
command ends with LINK (R277). [DEDUCED, unsafe, log 65] -/
def Dev.frameDown (d : Dev) (p : Nat) : Dev :=
  let x := d.port p
  let sent := x.steps.filter (fun r => r.sent)
  let d1 := ((d.setPort p { x with steps := [] }).set (R.HPF_STATUS_FSTATE p) 0).endCmd p 6
  forEach sent (fun d r => d.echoMissing p r true) d1

/-- STEPS_LOST, once for each period in which the port is not READY (R277). -/
def Dev.stepsLost (d : Dev) (p k : Nat) : Dev :=
  let x := d.port p
  if x.lostRaised then d else (d.setPort p { x with lostRaised := true }).raiseAt Ev.STEPS_LOST p k

end Sys2Proof.Machine
end

