-- ==== Sys2Proof/Machine/Time.lean ====
section
/-! DEFINITION. Device time (15 R400–R411): the clock, its owner, SET and STEP, TIM_ADJ, the latched read, the keeper counters. -/

namespace Sys2Proof.Machine

/-! ## The clock (R400, R401) -/

/-- Device time takes a value in ns since the epoch. -/
def Dev.setTime (d : Dev) (t : Nat) : Dev :=
  { d with tim := { d.tim with sec := t / nsPerSec % 2 ^ 64, ns := t % nsPerSec } }

/-- A time in the form of Table 2.2: seconds, then nanoseconds. -/
def timeBytes (t : Nat) : List Byte := bytesOf 8 (t / nsPerSec) ++ bytesOf 4 (t % nsPerSec)

/-- A time of Table 2.2 at offset `o`. -/
def timeAt (l : List Byte) (o : Nat) : Nat := leAt l o 8 * nsPerSec + leAt l (o + 8) 4

/-- One 1.0 GHz clock: device time advances by 1 + TIM_ADJ × 2^−40 ns (R401). [DESIGN CHOICE, unsafe, log 3] -/
def Dev.tickTime (d : Dev) : Dev :=
  let t := ((d.tim.acc : Int) + 2 ^ 40 + toSigned 32 (d.get R.TIM_ADJ)).toNat
  let n := d.tim.ns + t / 2 ^ 40
  { d with tim := { d.tim with acc := t % 2 ^ 40, ns := n % nsPerSec, sec := (d.tim.sec + n / nsPerSec) % 2 ^ 64 } }

/-! ## Owner (Table 15.1) -/

/-- This device is the anchor of its fabric. -/
def Dev.isAnchor (d : Dev) : Bool := d.get R.FAB_ANCHOR_ADDR == d.get R.FAB_STATUS_ADDR

/-- The fabric servo owns device time. -/
def Dev.fabOwns (d : Dev) : Bool :=
  d.is R.FAB_CFG_EN && (d.fab.st == .joined || d.fab.st == .ready || d.fab.st == .noQuorum) && !d.isAnchor

/-- While the fabric owns device time the servo's stored state is FREE, and no offsets in a row are counted (Table 15.3, R415). [DEDUCED, unsafe, log 74] -/
def Dev.disowned (d : Dev) : Dev :=
  if d.fabOwns then { d with ptp := { d.ptp with within := 0 } }.set R.TIM_STATUS_SYNC 0 else d

/-- TIM_STATUS.SYNC (15 Table 15.3): FABRIC while the fabric servo owns device time; the stored state is FREE when that ends. [DEDUCED, unsafe, log 74] -/
def Dev.sync (d : Dev) : Nat := if d.fabOwns then 5 else d.get R.TIM_STATUS_SYNC

/-- A source of time commands owns device time: the fabric owns it first, then firmware or host by TIM_CTRL.OWNER. -/
def Dev.owns (d : Dev) (servo : Bool) : Bool := !d.fabOwns && d.is R.TIM_CTRL_OWNER == !servo

/-- Results of time commands. -/
inductive TimeCode where
  | ok | busy | state | badArg | limit | fabric | owner
  deriving DecidableEq, Repr

/-- Number of a result code. -/
def TimeCode.num : TimeCode → Nat
  | .ok => 0 | .busy => 1 | .state => 2 | .badArg => 3 | .limit => 4 | .fabric => 5 | .owner => 6

/-- A host command's result: discarded with OVR while one runs; the accepted ones are counted (R407). [DEDUCED, unsafe, log 74] -/
def Dev.timeResult (d : Dev) (servo : Bool) (c : TimeCode) : Dev :=
  if servo then d
  else
    let d1 := d.set R.TIM_RESULT_CODE c.num
    if c = .ok then d1.wrap R.TIM_RESULT_SEQ 1 else d1

/-! ## SET and STEP (R405–R407) -/

/-- REFUSED is left for ACQUIRING when a SET or STEP is accepted (Table 15.3). -/
def Dev.leaveRefused (d : Dev) : Dev := if d.get R.TIM_STATUS_SYNC = 4 then d.set R.TIM_STATUS_SYNC 1 else d

/-- The keeper counters take device time, rounded down to a whole tick (R409). -/
def Keep.load (k : Keep) (sec ns : Nat) : Keep := { k with sec := sec, sub := ns * 32768 / nsPerSec, frac := 0 }

/-- Result of SET, in the order of R405. -/
def Dev.setCode (d : Dev) (servo : Bool) (ns : Nat) : TimeCode :=
  if d.fabOwns then .fabric
  else if !d.owns servo && (servo || d.is R.TIM_STATUS_VALID) then .owner
  else if nsPerSec ≤ ns then .badArg
  else if d.is R.TIM_STATUS_VALID ∧ d.dstate ≠ .idle then .state
  else .ok

/-- An accepted SET (R405, R410). -/
def Dev.setDone (d : Dev) (sec ns : Nat) : Dev :=
  ((({ d with tim := { d.tim with sec := sec % 2 ^ 64, ns := ns } }.setB R.TIM_STATUS_VALID true).setB
    R.TIM_STATUS_KEEPER false).leaveRefused).raise Ev.TIME_SET sec

/-- The first accepted SET clears the power-fail flag and writes the keeper counters (R411). -/
def Keep.onSet (k : Keep) (sec ns : Nat) : Keep := if k.pwrFail then { k.load sec ns with pwrFail := false } else k

/-- A host command while one runs is discarded and sets OVR (R407). [DEDUCED, unsafe, log 74] -/
def Dev.timeBusy (d : Dev) (servo : Bool) : Bool := !servo && d.is R.TIM_RESULT_BUSY

/-- SET; `servo` marks the PTP servo's own command. -/
def execSet (servo : Bool) (sec ns : Nat) (s : State) : Out :=
  let c := s.dev.setCode servo ns
  if !s.dev.awake then .next s
  else if s.dev.dstate = .boot then .next { s with dev := if servo then s.dev else s.dev.barMiss }
  else if s.dev.timeBusy servo then .next { s with dev := s.dev.setB R.TIM_RESULT_OVR true }
  else if c = .ok then
    .next { s with dev := (s.dev.setDone sec ns).timeResult servo c, nv := { s.nv with keep := s.nv.keep.onSet sec ns } }
  else .next { s with dev := s.dev.timeResult servo c }

/-- Result of STEP, in the order of R406. -/
def Dev.stepCode (d : Dev) (servo : Bool) (ofs : Int) : TimeCode :=
  if d.fabOwns then .fabric
  else if !d.owns servo then .owner
  else if !d.is R.TIM_STATUS_VALID then .badArg
  else if d.get R.TIM_STEP_LIM < ofs.natAbs then .limit
  else if d.isAnchor && d.is R.FAB_CFG_EN && d.fab.st == .ready && d.printing then .fabric
  else .ok

/-- A signed value as a 48-bit field, saturating. -/
def sat48 (x : Int) : Nat := ofSigned 48 (max (-(2 ^ 47 : Int)) (min (2 ^ 47 - 1) x))

/-- STEP by a source (R406). -/
def Dev.stepTime (d : Dev) (servo : Bool) (ofs : Int) : Dev :=
  let c := d.stepCode servo ofs
  if c = .ok then
    ((((((d.setTime ((d.timeNs : Int) + ofs).toNat).set64 R.TIM_LAST_STEP_LO (ofSigned 64 ofs)).bump R.TIM_STEP_CNT 1).setB
      R.TIM_STATUS_KEEPER false).leaveRefused).raise Ev.TIME_STEPPED (ofSigned 64 ofs)).timeResult servo c
  else
    ((d.bump R.TIM_REFUSE_CNT 1).raise Ev.TIME_STEP_REFUSED (c.num + 65536 * sat48 ofs)).timeResult servo c

/-- STEP. -/
def execStep (servo : Bool) (ofs : Int) (s : State) : Out :=
  if servo then onDev (fun d => d.stepTime servo ofs) s
  else onHost (fun d => if d.timeBusy servo then d.setB R.TIM_RESULT_OVR true else d.stepTime servo ofs) s

/-! ## TIM_ADJ (R404) -/

/-- ±500 ppm. -/
def adjLimit : Int := 549755814

/-- TIM_ADJ is written by its owner, clamped to ±500 ppm. -/
def Dev.putAdj (d : Dev) (v : Int) : Dev :=
  if adjLimit < v then (d.set R.TIM_ADJ (ofSigned 32 adjLimit)).setB R.TIM_STATUS_CLAMP true
  else if v < -adjLimit then (d.set R.TIM_ADJ (ofSigned 32 (-adjLimit))).setB R.TIM_STATUS_CLAMP true
  else d.set R.TIM_ADJ (ofSigned 32 v)

/-- A write of TIM_ADJ by host or servo; a write from any other than the owner is discarded and counted. -/
def Dev.writeAdj (d : Dev) (servo : Bool) (v : Int) : Dev := if d.owns servo then d.putAdj v else d.bump R.TIM_DISC_CNT 1

/-- TIM_ADJ_WRITE. -/
def execTimAdjWrite (servo : Bool) (val : Word) (s : State) : Out :=
  if servo then onDev (fun d => d.writeAdj servo val.toInt) s else onHost (fun d => d.writeAdj servo val.toInt) s

/-! ## Reads and the keeper (R402, R409) -/

/-- A read of TIM_NOW_NS latches the seconds (R402). -/
def Dev.readNow (d : Dev) : Dev :=
  { d with tim := { d.tim with latch := d.tim.sec }, latch := d.latch.drop R.TIM_NOW_SEC_HI.addr, resp := [BitVec.ofNat 32 d.tim.ns] }

/-- TIM_NOW_READ. -/
def execTimNowRead (s : State) : Out :=
  onDev (fun d => if d.dstate = .boot then { d.barMiss with resp := [0] } else d.readNow) s

/-- KEEPER_WRITE: once per second while VALID is 1 (R409). -/
def execKeeperWrite (s : State) : Out :=
  .next { s with nv := if s.dev.awake && s.dev.is R.TIM_STATUS_VALID
    then { s.nv with keep := s.nv.keep.load s.dev.tim.sec s.dev.tim.ns } else s.nv }

/-- The keeper counters advance by one ns of the 32.768 kHz crystal. [DESIGN CHOICE, unsafe, log 3] -/
def Keep.tick (k : Keep) : Keep :=
  let f := k.frac + 32768
  if f < nsPerSec then { k with frac := f }
  else if k.sub + 1 < 32768 then { k with frac := f - nsPerSec, sub := k.sub + 1 }
  else { k with frac := f - nsPerSec, sub := 0, sec := (k.sec + 1) % 2 ^ 64 }

end Sys2Proof.Machine
end

