-- ==== Sys2Proof/Machine/Fabric.lean ====
section
/-! DEFINITION. The Wonyx fabric (14): messages and forwarding, database, election, roster, ditch map, quorum, formation,
fabric-wide swaps, loss of ports. The messages that reach items and position stand in FabricIn.lean. -/

namespace Sys2Proof.Machine

/-! ## Ports and messages (R372–R376) -/

/-- First lane of the link of fabric port `n`. -/
def fabLink (n : Nat) : Nat := 32 + 2 * n

/-- The lane link of fabric port `n` is UP. -/
def Dev.fabUp (d : Dev) (n : Nat) : Bool := (d.link (fabLink n)).st == .up

/-- Fabric port `n` beside its registers. -/
def Dev.fport (d : Dev) (n : Nat) : FPort := d.fab.fports.get {} n

/-- Replaces a fabric port. -/
def Dev.setFport (d : Dev) (n : Nat) (x : FPort) : Dev := { d with fab := { d.fab with fports := d.fab.fports.put n x } }

/-- Fabric port `n` is MEMBER. -/
def Dev.fmember (d : Dev) (n : Nat) : Bool := d.get (R.FP_STATUS_FSTATE n) == 2

/-- The MEMBER ports. -/
def Dev.fmembers (d : Dev) : List Nat := (List.range 8).filter d.fmember

/-- The fabric is in use here. -/
def Dev.fabOn (d : Dev) : Bool := d.is R.FAB_CFG_EN

/-- This device's ID. -/
def ownId : Nat := Config.deviceId.toNat

/-- Own address, 0xFF before assignment. -/
def Dev.ownAddr (d : Dev) : Nat := if d.fab.st = .off ∨ d.fab.st = .forming then 0xFF else d.get R.FAB_STATUS_ADDR

/-- Header fields of a message (Table 14.1). -/
structure FabHdr where
  dest : Nat
  src : Nat
  hops : Nat
  type : Nat
  seq : Nat
  id : Nat
  deriving DecidableEq, Repr

/-- The header of a message body. -/
def parseFab (b : List Byte) : FabHdr :=
  { dest := leAt b 0 1, src := leAt b 1 1, hops := leAt b 2 1, type := leAt b 3 1, seq := leAt b 4 2, id := leAt b 8 8 }

/-- A message body with its header and CRC-32C (R374), zeros before the CRC filling its last body block (09 R256). [DEDUCED, unsafe, log 126] -/
def fabBody (h : FabHdr) (payload : List Byte) : List Byte :=
  let b := bytesOf 1 h.dest ++ bytesOf 1 h.src ++ bytesOf 1 h.hops ++ bytesOf 1 h.type ++ bytesOf 2 h.seq ++ bytesOf 2 0 ++
    bytesOf 8 h.id ++ payload ++ List.replicate ((12 - payload.length % 8) % 8) 0
  b ++ bytesOf 4 (crc32c b)

/-- A neighbour message leaves on a port. -/
def Dev.sendNbr (d : Dev) (n type : Nat) (payload : List Byte) : Dev :=
  d.emit (.fab n type (fabBody { dest := 0xFE, src := d.ownAddr, hops := 0, type := type, seq := 0, id := ownId } payload))

/-- A flood leaves on every MEMBER port with the next own flood sequence (R376); none while the device stands alone (R386). -/
def Dev.flood (d : Dev) (type : Nat) (payload : List Byte) : Dev :=
  if !d.fabOn then d else
  let q := (d.fab.seqOut + 1) % 65536
  let b := fabBody { dest := 0xFF, src := d.ownAddr, hops := 0, type := type, seq := q, id := ownId } payload
  forEach d.fmembers (fun d n => d.emit (.fab n type b)) { d with fab := { d.fab with seqOut := q } }

/-! ## Database, component, ditch map (R379, R388) -/

/-- The LSA of a source. -/
def Dev.lsa (d : Dev) (id : Nat) : Option Lsa := d.fab.db.find? (fun x => x.id == id)

/-- Sources linked to a source: both ends name each other and mark the port MEMBER (R379). -/
def Dev.linked (d : Dev) (id : Nat) : List (Nat × Nat) :=
  match d.lsa id with
  | none => []
  | some x =>
    ((List.range 8).zip x.ports).filterMap (fun e =>
      if e.2.member then
        match d.lsa e.2.nbr with
        | some y =>
          let back := (y.ports.drop e.2.nport).headD {}
          if back.member && back.nbr == id && back.nport == e.1 then some (e.1, e.2.nbr) else none
        | none => none
      else none)

/-- Sources within `k` hops of the given ones. -/
def Dev.within (d : Dev) : Nat → List Nat → List Nat
  | 0, l => l
  | k + 1, l => Dev.within d k ((l ++ l.flatMap (fun x => (d.linked x).map (·.2))).eraseDups)

/-- Hops between two sources over the links of the database, up to 64. -/
def Dev.hops (d : Dev) (a b : Nat) : Option Nat := (List.range 65).find? (fun k => (d.within k [a]).contains b)

/-- Inserts a number in ascending order. -/
def insertNat (x : Nat) : List Nat → List Nat
  | [] => [x]
  | y :: r => if x ≤ y then x :: y :: r else y :: insertNat x r

/-- The component of this device: the sources it reaches, ascending (R379). -/
def Dev.component (d : Dev) : List Nat := (d.within 64 [ownId]).foldl (fun l x => insertNat x l) []

/-- LSA payload of a source (Table 14.2). -/
def Lsa.payload (x : Lsa) : List Byte :=
  bytesOf 1 x.ncfg ++ bytesOf 1 ((if x.anchor then 1 else 0) + (if x.fresh then 2 else 0)) ++ bytesOf 1 x.addr ++ bytesOf 1 0 ++
    bytesOf 4 x.formation ++ x.ports.flatMap (fun p =>
      bytesOf 8 p.nbr ++ bytesOf 1 p.nport ++ bytesOf 1 (if p.member then 1 else 0) ++ bytesOf 2 0 ++ bytesOf 4 p.delay)

/-- An LSA from its payload. -/
def parseLsa (id : Nat) (b : List Byte) : Lsa :=
  { id := id, ncfg := leAt b 0 1, anchor := hasBit (leAt b 1 1) 0, fresh := hasBit (leAt b 1 1) 1, addr := leAt b 2 1,
    formation := leAt b 4 4
    ports := (List.range 8).map (fun p =>
      { nbr := leAt b (8 + 16 * p) 8, nport := leAt b (16 + 16 * p) 1, member := hasBit (leAt b (17 + 16 * p) 1) 0
        delay := leAt b (20 + 16 * p) 4 }) }

/-- Digest of the component (R379). -/
def Dev.digest (d : Dev) : Nat := crc32c ((d.fab.comp.filterMap d.lsa).flatMap Lsa.payload)

/-- The ID at a roster address; 0 = free. -/
def Dev.rosterAt (d : Dev) (a : Nat) : Nat := d.fab.roster.get 0 a

/-- Address of an ID in the roster. -/
def Dev.addrOf (d : Dev) (id : Nat) : Option Nat := d.fab.roster.keyOf (· == id)

/-- The ditch map entry of an address: output port and hops (R388). -/
def Dev.ditch (d : Dev) (a : Nat) : Option (Nat × Nat) :=
  let id := d.rosterAt a
  if id = 0 ∨ id = ownId ∨ d.fab.comp.contains id = false then none
  else
    match d.hops ownId id with
    | none => none
    | some k => (((d.linked ownId).find? (fun e => d.fmember e.1 && d.hops e.2 id == some (k - 1))).map (·.1)).map (fun p => (p, k))

/-- A routed message leaves by the ditch map, or is discarded and counted (R376); none while the device stands alone (R386). -/
def Dev.route (d : Dev) (b : List Byte) : Dev :=
  let h := parseFab b
  if !d.fabOn then d else
  match d.ditch h.dest with
  | some (p, _) => d.emit (.fab p h.type b)
  | none => (d.bump R.FAB_ROUTE_DISC_CNT 1).occur Ev.ROUTE_DISCARD 0 1

/-- A routed message of this device. -/
def Dev.sendTo (d : Dev) (dest type : Nat) (payload : List Byte) : Dev :=
  d.route (fabBody { dest := dest, src := d.ownAddr, hops := 0, type := type, seq := 0, id := ownId } payload)

/-! ## Own LSA, election, quorum (R379, R380, R395) -/

/-- The own LSA now. -/
def Dev.ownLsa (d : Dev) : Lsa :=
  { id := ownId, ncfg := d.get R.FAB_CFG_COUNT, anchor := d.is R.FAB_CFG_ANCHOR, fresh := d.fab.fresh, addr := d.ownAddr,
    formation := d.get R.FAB_FORMATION,
    ports := (List.range 8).map (fun p =>
      if d.is (R.FP_STATUS_ADJ p) then
        { nbr := d.get64 (R.FP_NBR_ID_LO p), nport := d.get (R.FP_NBR_PORT p), member := d.fmember p, delay := d.get (R.FP_DELAY p) }
      else {}) }

/-- An LSA enters the database in place of the source's former one; a formation refused so far is due again (R382). -/
def Dev.putLsa (d : Dev) (x : Lsa) : Dev :=
  { d with fab := { d.fab with
      db := x :: d.fab.db.filter (fun y => y.id != x.id), owed := d.fab.owed || d.fab.refused, refused := false } }

/-- Roster members in the component. -/
def Dev.membersIn (d : Dev) : Nat := (d.fab.roster.filter (fun e => d.fab.comp.contains e.2)).length

/-- `m` of `n` devices are a quorum (R395). -/
def quorate (m n : Nat) (anchorIn : Bool) : Bool := decide (n < 2 * m) || (decide (2 * m = n) && anchorIn)

/-- The anchor lies in the component. -/
def Dev.anchorIn (d : Dev) : Bool := d.fab.comp.contains (d.rosterAt (d.get R.FAB_ANCHOR_ADDR))

/-- This device holds quorum (R395). -/
def Dev.hasQuorum (d : Dev) : Bool := quorate d.membersIn (d.get R.FAB_CFG_COUNT) d.anchorIn

/-- The roster with what the LSAs of the component say of addresses given by earlier formations: with them a root knows the rosters that joined
(R399), also one that itself is a late joiner (R387). [DEDUCED, unsafe, log 70] -/
def Dev.knownRoster (d : Dev) : SMap Nat :=
  ((d.fab.comp.filterMap d.lsa).filter (fun x => decide (x.addr < 64))).foldl (fun (m : SMap Nat) x =>
    if (m.find? x.addr).isSome || m.any (fun e => e.2 == x.id) then m else m.put x.addr x.id) d.fab.roster

/-- The root of the component (R380): its member with the lowest ID; before any is a member, its source with the lowest ID. A FRESH device is no
member before its admission (R387). [DEDUCED, unsafe, log 70] -/
def Dev.rootId (d : Dev) : Nat :=
  let r := d.knownRoster
  (d.fab.comp.find? (fun id => r.any (fun e => e.2 == id))).getD (d.fab.comp.headD ownId)

/-- A source is the root of this device's component. -/
def Dev.isRootId (d : Dev) (id : Nat) : Bool := !d.fab.comp.isEmpty && d.rootId == id

/-- Registers that report the component. -/
def Dev.fabRegs (d : Dev) : Dev :=
  let root := d.rootId
  (((d.setB R.FAB_STATUS_ROOT (root == ownId)).setB R.FAB_STATUS_QUORUM d.hasQuorum).set R.FAB_STATUS_MEMBERS
    d.membersIn).set R.FAB_STATUS_ROOT_ADDR ((d.addrOf root).getD 0)

/-- The anchor is not heard while it lies outside the component (R384). [DEDUCED, unsafe, log 70] -/
def Dev.anchorLost (d : Dev) : Dev := if d.anchorIn then d else { d with fab := { d.fab with heard := false } }

/-- The QUORUM cause is active while a device that has been READY since reset does not hold quorum (R395). -/
def Dev.quorumCause (d : Dev) : Dev :=
  let on := d.fab.everReady && !d.hasQuorum
  if on == hasBit d.evt.lvlActive 1 then d else if on then d.causeOn 1 else d.causeOff 1

/-- Quorum is lost or held again (R395, R398, R399). -/
def Dev.quorumCheck (d : Dev) : Dev :=
  if d.fab.st = .ready ∧ d.hasQuorum = false then
    ({ d with fab := { d.fab with st := .noQuorum } }.raise Ev.QUORUM_LOST
      (d.membersIn + 256 * d.get R.FAB_CFG_COUNT + (if d.anchorIn then 65536 else 0))).causeOn 1
  else if d.fab.st = .noQuorum ∧ d.hasQuorum = true then
    ({ d with fab := { d.fab with st := .ready } }.causeOff 1).raise Ev.QUORUM_HELD d.membersIn
  else d.quorumCause

/-! ## Reports and READY (R384) -/

/-- Flags of the own REPORT. -/
def Dev.reportFlags (d : Dev) : Nat :=
  (if d.fab.heard || d.isAnchor then 1 else 0) + (if d.is R.FAB_STATUS_LOCKED || d.isAnchor then 2 else 0) + 4 * d.dstate.code

/-- READY is entered (R384). -/
def Dev.enterReady (d : Dev) (members : Nat) : Dev :=
  if d.fab.st = .joined then
    ({ d with fab := { d.fab with st := .ready, everReady := true } }.set R.FAB_FORM_TIME
      ((d.now - d.fab.idleAt) / 1000000)).raise Ev.FAB_READY
      (d.get R.FAB_STATUS_ADDR + 256 * members + 2 ^ 32 * d.get R.FAB_FORMATION)
  else d

/-- The root floods READY once every member's REPORT shows its formation and digest, the anchor heard and time locked. [DEDUCED, unsafe, log 70] -/
def Dev.readyCheck (d : Dev) : Dev :=
  let rep := (d.get R.FAB_FORMATION, d.digest, d.reportFlags)
  let good := fun (r : Nat × Nat × Nat) => r.1 == rep.1 && r.2.1 == rep.2.1 && r.2.2 % 4 == 3
  if d.is R.FAB_STATUS_ROOT && !d.fab.readySent && (d.fab.st == .joined || d.fab.st == .ready) && good rep &&
      (d.fab.roster.filter (fun e => d.fab.comp.contains e.2)).all (fun e =>
        e.2 == ownId || ((d.fab.reports.find? e.1).map good).getD false) then
    ({ d with fab := { d.fab with readySent := true } }.flood 5
      (bytesOf 4 (d.get R.FAB_FORMATION) ++ bytesOf 4 d.membersIn)).enterReady d.membersIn
  else d

/-- REPORT is sent to the root when it changes; at the root itself READY is tested (R384). -/
def Dev.report (d : Dev) : Dev :=
  let rep := (d.get R.FAB_FORMATION, d.digest, d.reportFlags)
  if d.fab.st = .off ∨ d.fab.st = .forming then d
  else if d.is R.FAB_STATUS_ROOT then d.readyCheck
  else if d.fab.lastReport = some rep then d
  else
    { d with fab := { d.fab with lastReport := some rep } }.sendTo (d.get R.FAB_STATUS_ROOT_ADDR) 4
      (bytesOf 4 rep.1 ++ bytesOf 4 rep.2.1 ++ bytesOf 4 rep.2.2)

/-! ## Formation (R380–R384, R387) -/

/-- ASSIGN payload (Table 14.2). -/
def Dev.assignPayload (d : Dev) (formation anchor : Nat) (roster : SMap Nat) : List Byte :=
  bytesOf 4 formation ++ bytesOf 4 d.digest ++ bytesOf 1 anchor ++ bytesOf 1 (d.get R.FAB_CFG_COUNT) ++
    bytesOf 1 roster.length ++ bytesOf 5 0 ++ (List.range 64).flatMap (fun a => bytesOf 8 (roster.get 0 a))

/-- An ASSIGN is taken: address, roster, anchor, formation; a device it does not name stays FORMING (R381, R384). -/
def Dev.takeAssign (d : Dev) (formation anchor rootAddr : Nat) (roster : SMap Nat) : Dev :=
  let d1 := { d with fab := { d.fab with roster := roster, maxForm := max d.fab.maxForm formation, readySent := false } }.bump
    R.FAB_REFORM_CNT 1
  match d1.addrOf ownId with
  | none => d1.raise Ev.DEVICE_NOT_ADMITTED (65536 * (ownId % 2 ^ 48))
  | some a =>
    let first := d.fab.st == .forming
    let d2 := { d1 with fab := { d1.fab with
      st := if first then .joined else d1.fab.st, fresh := false, stepDue := true,
      lastReport := none } }
    let d3 := (((d2.set R.FAB_STATUS_ADDR a).set R.FAB_ANCHOR_ADDR anchor).set R.FAB_FORMATION formation).set
      R.FAB_STATUS_ROOT_ADDR rootAddr
    d3.disowned.raise Ev.FAB_REFORMED (rootAddr + 256 * (roster.length % 64) + 2 ^ 32 * formation)

/-- The longest shortest path of the component exceeds 16 hops. -/
def Dev.tooWide (d : Dev) : Bool := d.fab.comp.any (fun a => d.fab.comp.any (fun b => !(d.within 16 [a]).contains b))

/-- The root refuses a formation until the database changes (R382). -/
def Dev.refuseForm (d : Dev) (cause : Nat) : Dev :=
  { d with fab := { d.fab with refused := true, owed := false } }.raise Ev.FORM_REFUSED cause

/-- Why the root refuses a formation (R382); `first` while there is no roster. No message carries POS_CTRL.SRC: that of an anchor that is another device is
a free value. [DEDUCED, unsafe, log 70] -/
def Dev.formRefused (d : Dev) (first : Bool) : Option Nat :=
  let src := d.fab.comp.filterMap d.lsa
  let anchors := src.filter (·.anchor)
  if src.any (fun x => x.ncfg != d.get R.FAB_CFG_COUNT) then some 1
  else if 1 < anchors.length then some 2
  else if first ∧ anchors = [] then some 3
  else if d.tooWide then some 4
  else if (if (if first then d.is R.FAB_CFG_ANCHOR else d.isAnchor) then d.get R.POS_CTRL_SRC
      else Config.freeValue 0x382 d.free % 5) = 4 then some 5
  else none

/-- The root floods ASSIGN with the next formation number and takes it itself (R380). -/
def Dev.assign (d : Dev) (anchor : Nat) (roster : SMap Nat) : Dev :=
  let f := (max d.fab.maxForm (d.get R.FAB_FORMATION) + 1) % 2 ^ 32
  let me := (roster.keyOf (· == ownId)).getD 0
  (({ d with fab := { d.fab with owed := false } }.flood 3 (d.assignPayload f anchor roster)).takeAssign f anchor me roster)

/-- Numbers a list of IDs as addresses 0, 1, 2, … -/
def numbered (l : List Nat) : SMap Nat := (List.range l.length).zip l

/-- Sources left out raise DEVICE_NOT_ADMITTED at the root (R381). [DEDUCED, unsafe, log 70] -/
def Dev.notAdmitted (d : Dev) (l : List Nat) : Dev :=
  forEach l (fun d id => d.raise Ev.DEVICE_NOT_ADMITTED (65536 * (id % 2 ^ 48))) d

/-- The first formation, when due (R381–R383). -/
def Dev.firstForm (d : Dev) : Dev :=
  let n := d.get R.FAB_CFG_COUNT
  let taken := d.fab.comp.take n
  let anchorId := (((d.fab.comp.filterMap d.lsa).find? (·.anchor)).map (·.id)).getD 0
  let due := decide (n ≤ d.fab.comp.length) || (d.fab.formTmo && quorate taken.length n (taken.contains anchorId))
  if due && !d.fab.refused then
    match d.formRefused true with
    | some c => d.refuseForm c
    | none =>
      let roster := numbered taken
      let a := (roster.keyOf (· == anchorId)).getD 0
      (d.notAdmitted (d.fab.comp.drop n)).assign a roster
  else d

/-- A late joiner keeps its address, takes the lowest free one, or is not admitted (R387). -/
def Dev.admitMember (d : Dev) (roster : SMap Nat) (id : Nat) : SMap Nat × Dev :=
  if roster.any (fun e => e.2 == id) then (roster, d)
  else if roster.length < d.get R.FAB_CFG_COUNT then
    let a := ((List.range 64).find? (fun a => (roster.find? a).isNone)).getD 0
    (roster.put a id, d.raise Ev.DEVICE_ADMITTED (a + 65536 * (id % 2 ^ 48)))
  else (roster, d.notAdmitted [id])

/-- A root whose component changed floods ASSIGN anew, with late joiners while it holds quorum (R380, R387, R398). -/
def Dev.reform (d : Dev) : Dev :=
  match d.formRefused false with
  | some c => d.refuseForm c
  | none =>
    let fresh := (d.fab.comp.filterMap d.lsa).filter (·.fresh) |>.map (·.id)
    let r := if d.hasQuorum then fresh.foldl (fun (x : SMap Nat × Dev) id => x.2.admitMember x.1 id) (d.fab.roster, d) else (d.fab.roster, d)
    r.2.assign (d.get R.FAB_ANCHOR_ADDR) r.1

/-- The root takes what the LSAs say into its roster. [DEDUCED, unsafe, log 70] -/
def Dev.learnRoster (d : Dev) : Dev :=
  let known := (d.fab.comp.filterMap d.lsa).filter (fun x => decide (x.addr < 64))
  let d1 := { d with fab := { d.fab with roster := d.knownRoster } }
  if d.fab.roster = [] ∧ known ≠ [] then
    d1.set R.FAB_ANCHOR_ADDR (((known.find? (·.anchor)).map (·.addr)).getD 0)
  else d1

/-- Formation work of the root when its database changed or it takes office (R380, R383). [DEDUCED, unsafe, log 70] -/
def Dev.rootWork (d : Dev) (changed : Bool) : Dev :=
  if d.is R.FAB_STATUS_ROOT then
    let d1 := d.learnRoster
    if d1.fab.roster = [] then d1.firstForm
    else if changed || d1.fab.owed then d1.reform else d1
  else { d with fab := { d.fab with formTmo := false } }

/-- The database or the own ports changed: own LSA, component, quorum, formation, REPORT (R379, R380, R395). -/
def Dev.fabRefresh (d : Dev) : Dev :=
  if d.fabOn then
    let own := d.ownLsa
    let d1 := if d.lsa ownId = some own then d else (d.putLsa own).flood 2 own.payload
    let comp := d1.component
    let changed := decide (comp ≠ d1.fab.comp)
    let d2 := ({ d1 with fab := { d1.fab with comp := comp } }.fabRegs).anchorLost.quorumCheck
    (d2.rootWork (changed || d2.is R.FAB_STATUS_ROOT && !d.is R.FAB_STATUS_ROOT)).fabRegs.report
  else d

/-- A formation number seen in a message (R380). -/
def Dev.seenForm (d : Dev) (f : Nat) : Dev := { d with fab := { d.fab with maxForm := max d.fab.maxForm f } }

/-! ## Who may command this device (00_scope R1) -/

/-- What the root alone may do. [DEDUCED, unsafe, log 121] -/
def fromRoot (act : Dev → FabHdr → List Byte → Dev) (d : Dev) (h : FabHdr) (pl : List Byte) : Dev :=
  if d.isRootId h.id then act d h pl else d

/-- What members of the roster alone may do. [DEDUCED, unsafe, log 121] -/
def fromMember (act : Dev → FabHdr → List Byte → Dev) (d : Dev) (h : FabHdr) (pl : List Byte) : Dev :=
  if h.id ≠ 0 ∧ d.rosterAt h.src = h.id then act d h pl else d

/-- What the anchor alone may do. [DEDUCED, unsafe, log 121] -/
def fromAnchor (act : Dev → FabHdr → List Byte → Dev) (d : Dev) (h : FabHdr) (pl : List Byte) : Dev :=
  if h.id ≠ 0 ∧ d.rosterAt (d.get R.FAB_ANCHOR_ADDR) = h.id then act d h pl else d

/-! ## Ports up and down (R373, R377, R397) -/

/-- The lane link of fabric port `n` enters UP. -/
def Dev.fabPortUp (d : Dev) (n : Nat) : Dev := (d.set (R.FP_STATUS_FSTATE n) 1).setFport n {}

/-- Fabric port `n` goes DOWN with a cause (R373). -/
def Dev.fabPortDown (d : Dev) (n cause : Nat) : Dev :=
  ((((d.set (R.FP_STATUS_FSTATE n) 3).setB (R.FP_STATUS_ADJ n) false).set (R.FP_CAUSE n) cause).raise Ev.FAB_PORT_DOWN
    (n + 256 * cause)).fabRefresh

/-- The device takes a fabric port out of UP: its lanes send TRAIN blocks with RX_READY = 0 (R377, R397). -/
def Dev.fabTakeDown (d : Dev) (n cause : Nat) : Dev :=
  ((d.setLink (fabLink n) { d.link (fabLink n) with st := .down }).emit (.train (fabLink n) 0 0)).fabPortDown n cause

/-- Isolation: every MEMBER port goes DOWN with cause 12 UNDECIDED (R397). -/
def Dev.isolate (d : Dev) (id : Nat) : Dev :=
  forEach d.fmembers (fun d n => d.fabTakeDown n 12) (d.raise Ev.SWAP_UNDECIDED id)

/-! ## Receiving (R374, R376) -/

/-- A flood sequence is later than the last one accepted from its source. -/
def Dev.floodNew (d : Dev) (h : FabHdr) : Bool :=
  h.id != ownId && match d.fab.seqIn.find? (fun e => e.1 == h.id) with
    | some (_, q) =>
      let x := (h.seq + 65536 - q) % 65536
      decide (1 ≤ x) && decide (x ≤ 32768)
    | none => true

/-- A message body with its hop count raised by one. -/
def oneHop (b : List Byte) : List Byte :=
  let c := b.take 2 ++ bytesOf 1 (leAt b 2 1 + 1) ++ (b.take (b.length - 4)).drop 3
  c ++ bytesOf 4 (crc32c c)

/-- An accepted flood goes on over every MEMBER port but the one it came on, up to 16 hops. -/
def Dev.forward (d : Dev) (n : Nat) (b : List Byte) : Dev :=
  let h := parseFab b
  if 16 < h.hops + 1 then d
  else forEach (d.fmembers.filter (· != n)) (fun d p => d.emit (.fab p h.type (oneHop b))) d

/-- A frame or block discarded on a fabric port: counted, and FRAME_ERROR of the port in the 1 ms interval (R374, 09 R257). [DEDUCED, unsafe, log 126] -/
def Dev.fabFrameErr (d : Dev) (n : Nat) : Dev := (d.bump R.FAB_FRAME_ERR_CNT 1).occur Ev.FRAME_ERROR (32 + n) 1

/-- A message of a type arrives on a fabric port; `act` is what this device does with it, `pass` the body it forwards
(R374–R376). -/
def Dev.fabIn (d : Dev) (n : Nat) (f : HFrame) (type : Nat) (pass : Dev → List Byte → List Byte)
    (act : Dev → FabHdr → List Byte → Dev) : Dev :=
  if !d.fabOn || !d.fabUp n then d
  else if !frameOk f || leAt f.start 0 1 != 0xA0 then d.fabFrameErr n
  else
    let h := parseFab f.body
    let pl := (f.body.take (f.body.length - 4)).drop 16
    if h.type ≠ type ∨ (d.fmember n = false ∧ type ≠ 1 ∧ type ≠ 14) then d
    else if h.dest = 0xFE then act d h pl
    else if h.dest = 0xFF then
      if d.floodNew h then
        let d1 := { d with fab := { d.fab with seqIn := (h.id, h.seq) :: d.fab.seqIn.filter (fun e => e.1 != h.id) } }
        act (d1.forward n (pass d1 f.body)) h pl
      else d
    else if h.dest = d.ownAddr then act d h pl
    else if 16 < h.hops + 1 then d
    else d.route (oneHop f.body)

/-- Forwards a body unchanged. -/
def asIs (_ : Dev) (b : List Byte) : List Byte := b

/-! ## HELLO (R377, R378) -/

/-- HELLO payload of a port (Table 14.2). -/
def Dev.helloPayload (d : Dev) (n : Nat) : List Byte :=
  let x := d.fport n
  let st := match d.fab.st with
    | .off => 0 | .forming => 1 | .joined => 2 | .ready => 3 | .noQuorum => 4
  bytesOf 1 n ++ bytesOf 1 (d.get R.FAB_CFG_COUNT) ++
    bytesOf 1 ((if d.is R.FAB_CFG_ANCHOR then 1 else 0) + (if d.fab.fresh then 2 else 0) + (if d.fmember n then 4 else 0)) ++
    bytesOf 1 st ++ bytesOf 4 (d.get R.FAB_FORMATION) ++ timeBytes d.timeNs ++ timeBytes x.gotSent ++ timeBytes x.gotAt

/-- A HELLO leaves by port `n`; a period without a valid one received is a missed one (R377). -/
def Dev.helloSend (d : Dev) (n : Nat) : Dev :=
  let x := d.fport n
  ((when (!x.gotNow) (fun d => d.bump (R.FP_HELLO_MISS_CNT n) 1) d).setFport n
    { x with gotNow := false, sentAt := d.timeNs :: x.sentAt.take 7 }).sendNbr n 1 (d.helloPayload n)

/-- HELLO_PERIOD: a HELLO on every UP port and the own LSA (R375, R377). [DEDUCED, unsafe, log 70] -/
def Dev.helloPeriod (d : Dev) : Dev :=
  if d.fabOn then
    let d1 := forEach ((List.range 8).filter d.fabUp) Dev.helloSend d
    d1.flood 2 d1.ownLsa.payload
  else d

/-- HELLO_PERIOD. -/
def execHelloPeriod (s : State) : Out := onDev Dev.helloPeriod s

/-- A HELLO is taken: neighbour, adjacency and link delay by one that carries a receive time for a HELLO of this port; a port between a FRESH device
and another becomes MEMBER (R377, R378, R387). [DEDUCED, unsafe, log 70] -/
def Dev.helloAct (n : Nat) (d : Dev) (h : FabHdr) (pl : List Byte) : Dev :=
  let x := d.fport n
  let t4 := d.timeNs
  let t3 := timeAt pl 0x08
  let t1 := timeAt pl 0x14
  let t2 := timeAt pl 0x20
  let fresh := hasBit (leAt pl 2 1) 1
  let own := t2 != 0 && x.sentAt.contains t1
  let adj := d.is (R.FP_STATUS_ADJ n) || own
  let delay : Int := (((t4 : Int) - t1) - ((t3 : Int) - t2)).fdiv 2 + d.getS (R.FP_ASYM n)
  let d1 := d.setFport n { x with nbrFresh := fresh, gotSent := t3, gotAt := t4, gotNow := true }
  let d2 := ((d1.set64 (R.FP_NBR_ID_LO n) h.id).set (R.FP_NBR_PORT n) (leAt pl 0 1)).setB (R.FP_STATUS_ADJ n) adj
  let d3 := if own then d2.set (R.FP_DELAY n) (ofSigned 32 delay) else d2
  (if adj && (fresh || d.fab.fresh) && d.get (R.FP_STATUS_FSTATE n) == 1 then d3.set (R.FP_STATUS_FSTATE n) 2 else d3).seenForm (leAt pl 4 4) |>.fabRefresh

/-- HELLO. [DEDUCED, unsafe, log 62] -/
def execHello (port : Nat) (frame : HFrame) (s : State) : Out :=
  onDevIf (decide (port < 8)) (fun d => d.fabIn port frame 1 asIs (Dev.helloAct port)) s

/-- HELLO_TIMEOUT: three periods without a valid HELLO take the port DOWN with cause 11 (R377). -/
def execHelloTimeout (port : Nat) (s : State) : Out :=
  onDevIf (decide (port < 8)) (fun d => if d.fabOn && d.fabUp port then d.fabTakeDown port 11 else d) s

/-! ## LSA, ASSIGN, REPORT, READY (R379–R388) -/

/-- LSA. -/
def execLsa (port : Nat) (frame : HFrame) (s : State) : Out :=
  onDevIf (decide (port < 8)) (fun d => d.fabIn port frame 2 asIs (fun d h pl =>
    let x := parseLsa h.id pl
    let d1 := d.seenForm x.formation
    if d1.lsa h.id = some x then d1 else (d1.putLsa x).fabRefresh)) s

/-- FORM_TIMEOUT: FAB_FORM_TMO has passed since the root took office (R383). -/
def execFormTimeout (s : State) : Out :=
  onDev (fun d => when (d.fabOn && d.is R.FAB_STATUS_ROOT) (fun d => { d with fab := { d.fab with formTmo := true } }.fabRefresh) d) s

/-- The roster of an ASSIGN payload. -/
def parseRoster (pl : List Byte) : SMap Nat :=
  (List.range 64).filterMap (fun a => if leAt pl (0x10 + 8 * a) 8 = 0 then none else some (a, leAt pl (0x10 + 8 * a) 8))

/-- ASSIGN: its formation number is seen whoever sent it (R380). -/
def execAssign (port : Nat) (frame : HFrame) (s : State) : Out :=
  onDevIf (decide (port < 8)) (fun d => d.fabIn port frame 3 asIs (fun d h pl => fromRoot (fun d h pl =>
    let roster := parseRoster pl
    let root := (roster.keyOf (· == h.id)).getD 0
    (d.takeAssign (leAt pl 0 4) (leAt pl 8 1) root roster).fabRefresh) (d.seenForm (leAt pl 0 4)) h pl)) s

/-- REPORT. -/
def execReport (port : Nat) (frame : HFrame) (s : State) : Out :=
  onDevIf (decide (port < 8)) (fun d => d.fabIn port frame 4 asIs (fromMember (fun d h pl =>
    { d with fab := { d.fab with reports := d.fab.reports.put h.src (leAt pl 0 4, leAt pl 4 4, leAt pl 8 1) } }.readyCheck))) s

/-- READY. -/
def execReady (port : Nat) (frame : HFrame) (s : State) : Out :=
  onDevIf (decide (port < 8)) (fun d => d.fabIn port frame 5 asIs (fromRoot (fun d _ pl =>
    if leAt pl 0 4 = d.get R.FAB_FORMATION then d.enterReady (leAt pl 4 1) else d))) s

/-! ## Commands: MERGE and ANCHOR (R392, R399) -/

/-- Result of a fabric command; accepted ones are counted (Table 14.9). -/
def Dev.fabResult (d : Dev) (code : Nat) : Dev :=
  let d1 := d.set R.FAB_RESULT_CODE code
  if code = 0 then d1.wrap R.FAB_RESULT_SEQ 1 else d1

/-- The union of the own roster with a far one; none where an address has two IDs or more than N_cfg IDs result (R399). [DESIGN CHOICE, unsafe, log 71] -/
def Dev.unite (d : Dev) (far : List (Nat × Nat)) : Option (SMap Nat) :=
  let clash := far.any (fun e => (d.fab.roster.find? e.1).any (fun id => id != e.2))
  let u := far.foldl (fun (m : SMap Nat) e => m.put e.1 e.2) d.fab.roster
  if clash ∨ d.get R.FAB_CFG_COUNT < (u.map (·.2)).eraseDups.length then none else some u

/-- Both ends become MEMBER and the rosters join (R399). -/
def Dev.mergeDone (d : Dev) (n : Nat) (u : SMap Nat) : Dev :=
  (({ d with fab := { d.fab with roster := u } }.set (R.FP_STATUS_FSTATE n) 2).raise Ev.MERGE_DONE (n + 256 * (u.length % 64))).fabRefresh

/-- FAB_CMD.MERGE on port `n`; `far` is the roster of the far component. -/
def Dev.fabMerge (d : Dev) (n : Nat) (far : List (Nat × Nat)) : Dev :=
  if 7 < n then d.fabResult 3
  else if !d.fabOn || !d.is (R.FP_STATUS_ADJ n) || d.fmember n then d.fabResult 2
  else
    match d.unite far with
    | none => d.fabResult 4
    | some u =>
      ((d.sendNbr n 14 (bytesOf 4 (d.get R.FAB_FORMATION) ++ bytesOf 4 d.fab.roster.length)).fabResult 0).mergeDone n u

/-- FAB_CMD_MERGE. [DESIGN CHOICE, unsafe, log 71] -/
def execFabCmdMerge (port : Nat) (far : List (Nat × Nat)) (s : State) : Out := onHost (fun d => d.inDomain 3 (fun d => d.fabMerge port far)) s

/-- MERGE: the port becomes MEMBER, or the merge is refused (R399). [DESIGN CHOICE, unsafe, log 71] -/
def execMerge (port : Nat) (frame : HFrame) (far : List (Nat × Nat)) (s : State) : Out :=
  onDevIf (decide (port < 8)) (fun d => d.fabIn port frame 14 asIs (fun d _ pl =>
    if d.is (R.FP_STATUS_ADJ port) && !d.fmember port then
      match d.unite far with
      | some u => (d.seenForm (leAt pl 0 4)).mergeDone port u
      | none => d
    else d)) s

/-- FAB_CMD.ANCHOR: only on the root, while every member's last REPORT shows IDLE (R392). [DEDUCED, unsafe, log 72] -/
def Dev.fabAnchor (d : Dev) (a : Nat) : Dev :=
  let idle := (d.fab.roster.filter (fun e => d.fab.comp.contains e.2)).all (fun e =>
    if e.2 = ownId then d.dstate == .idle else ((d.fab.reports.find? e.1).map (fun r => r.2.2 / 4 % 8 == 2)).getD false)
  if !d.fabOn || !d.is R.FAB_STATUS_ROOT || !idle then d.fabResult 2
  else if d.rosterAt a = 0 then d.fabResult 3
  else (((d.set R.FAB_ANCHOR_ADDR a).disowned.flood 15 (bytesOf 1 a ++ bytesOf 7 0)).fabResult 0).fabRefresh

/-- FAB_CMD_ANCHOR. -/
def execFabCmdAnchor (addr : Nat) (s : State) : Out := onHost (fun d => d.inDomain 3 (fun d => d.fabAnchor addr)) s

/-- ANCHOR. -/
def execAnchor (port : Nat) (frame : HFrame) (s : State) : Out :=
  onDevIf (decide (port < 8)) (fun d => d.fabIn port frame 15 asIs (fromRoot (fun d _ pl =>
    (d.set R.FAB_ANCHOR_ADDR (leAt pl 0 1)).disowned.fabRefresh))) s

/-! ## Fabric-wide swaps (R110, R396, R397) -/

/-- The requester's SWAP command for line `n` ends with a result (R116, R396): by the decision of the swap prepared for it, before one is prepared
by any of its line. [DEDUCED, unsafe, log 72] -/
def Dev.endRequest (d : Dev) (id n : Nat) (c : JobCode) : Dev :=
  if d.fab.req = some n ∧ d.fab.reqId.all (· == id) = true then
    ({ d with fab := { d.fab with req := none, reqId := none } }.setB R.JOB_RESULT_BUSY false).set R.JOB_RESULT_CODE c.num
  else d

/-- Drops the tentative swap of a refused decision. -/
def Dev.dropPrep (d : Dev) : Dev :=
  match d.fab.prep with
  | some _ =>
    let d1 := { d with fab := { d.fab with prep := none } }
    match d.job.swap with
    | some q => if q.fabric && !q.granted then
        ({ d1 with job := { d1.job with swap := none } }.raise Ev.SWAP_REFUSED JobCode.swapFabric.num).replanAll else d1
    | none => d1
  | none => d

/-- COMMIT: the swap is performed at N, at once outside ARMED and RUN (R396, 01 R41). -/
def Dev.commitPrep (d : Dev) : Dev :=
  match d.fab.prep, d.job.swap with
  | some _, some q =>
    let d1 := { d with fab := { d.fab with prep := none } }
    if q.fabric && !q.granted then
      let d2 := { d1 with job := { d1.job with swap := some { q with granted := true } } }
      if d2.printing then d2 else d2.swapAccepted.reSluiceAll
    else d1
  | _, _ => { d with fab := { d.fab with prep := none } }

/-- The first decision of a swap (R396): it concerns the swap prepared under its ID, and the request for its line. [DEDUCED, unsafe, log 72] -/
def Dev.decideNew (d : Dev) (id code n : Nat) : Dev :=
  let d1 := { d with fab := { d.fab with decided := (id, code) :: d.fab.decided.filter (fun e => e.1 != id) } }
  let own := d1.fab.prep.any (fun p => p.1 == id)
  if code = 0 then (if own then d1.commitPrep else d1).endRequest id n .ok
  else (if own then d1.dropPrep else d1).endRequest id n .swapFabric

/-- A decision reaches this device: the first is final, a second that contradicts it isolates the device (R397). [DEDUCED, unsafe, log 72] -/
def Dev.takeDecision (d : Dev) (id code n : Nat) : Dev :=
  match d.fab.decided.find? (fun e => e.1 == id) with
  | some (_, c) => if (c == 0) == (code == 0) then d else d.isolate id
  | none => d.decideNew id code n

/-- SWAP_DECIDE payload. -/
def decidePayload (id code addr n : Nat) : List Byte := bytesOf 2 id ++ bytesOf 2 code ++ bytesOf 1 addr ++ bytesOf 3 0 ++ bytesOf 8 n

/-- The root floods its decision and takes it (R396). -/
def Dev.rootDecide (d : Dev) (w : FabSwap) (code addr : Nat) : Dev :=
  ({ d with fab := { d.fab with swap := none } }.flood 13 (decidePayload w.id code addr w.n)).takeDecision w.id code w.n

/-- A swap is new under its ID: no decision of it is known, the next root counts on from it, and a request for its line is answered by its decision. -/
def Dev.swapSeen (d : Dev) (id n : Nat) : Dev :=
  { d with fab := { d.fab with
      decided := d.fab.decided.filter (fun e => e.1 != id), nextSwap := (id + 1) % 65536
      reqId := if d.fab.req = some n then d.fab.reqId.or (some id) else d.fab.reqId } }

/-- A tentative swap is checked as R107 defines and scheduled (R396); this device awaits the decision either way (R397). -/
def Dev.prepare (d0 : Dev) (id n : Nat) : Dev × JobCode :=
  let d := d0.swapSeen id n
  match d.swapRefused (some n) with
  | some c =>
    ({ d.offsetEvent d.shadow c with fab := { d.fab with prep := d.fab.prep.or (some (id, n)) } }, c)
  | none =>
    (({ d with job := { d.job with swap := some { form := 0, arg := 0, n := some n, fabric := true, granted := false } }
               fab := { d.fab with prep := some (id, n) } }.set64 R.SWAP_LINE_LO n).raise Ev.SWAP_SCHEDULED
      (65536 * (n % 2 ^ 48)) |>.replanAll, .ok)

/-- Addresses of the members of the component. -/
def Dev.memberAddrs (d : Dev) : List Nat := (d.fab.roster.filter (fun e => d.fab.comp.contains e.2)).map (·.1)

/-- The root counts a vote (R396). -/
def Dev.countVote (d : Dev) (id addr code : Nat) : Dev :=
  match d.fab.swap with
  | none => d
  | some w =>
    if w.id ≠ id then d
    else if code ≠ 0 then d.rootDecide w code addr
    else
      let w' := { w with votes := addr :: w.votes }
      let d1 := { d with fab := { d.fab with swap := some w' } }
      if d.memberAddrs.all (fun a => w'.votes.contains a) then d1.rootDecide w' 0 0 else d1

/-- The root takes a request: a refusal with SWAP_PASSED, or while another swap runs, else SWAP_PREP and its own vote (R396); the result
of a refused requester is SWAP_FABRIC (R110, R396). [DEDUCED, unsafe, log 72] -/
def Dev.rootRequest (d : Dev) (src n : Nat) : Dev :=
  let id := d.fab.nextSwap
  let w : FabSwap := { id := id, n := n, src := src, votes := [] }
  let d1 := { d with fab := { d.fab with nextSwap := (id + 1) % 65536 } }
  if d.fab.swap.isSome then d1.flood 13 (decidePayload id JobCode.swapPending.num d.ownAddr n) |>.endRequest id n .swapFabric
  else if n < floorLine d.pos.weir + d.job.workW + 1 + d.get R.FAB_SWAP_GUARD then
    (d1.flood 13 (decidePayload id JobCode.swapPassed.num d.ownAddr n)).endRequest id n .swapFabric
  else
    let d2 := { d1 with fab := { d1.fab with swap := some w } }.flood 11 (bytesOf 2 id ++ bytesOf 6 0 ++ bytesOf 8 n)
    let r := d2.prepare id n
    r.1.countVote id d.ownAddr r.2.num

/-- SWAP with FABRIC: only AT_LINE; the request goes to the root and the command runs until the decision (R110, R396). [DEDUCED, unsafe, log 72] -/
def Dev.swapFabric (d : Dev) (form n : Nat) : Dev × JobCode :=
  if form ≠ 0 then (d, .badArg)
  else if d.fab.st = .off ∨ d.fab.st = .forming then (d, .swapFabric)
  else
    let d1 := { d with fab := { d.fab with req := some n, reqId := none } }.setB R.JOB_RESULT_BUSY true
    if d.is R.FAB_STATUS_ROOT then
      let d2 := d1.rootRequest d.ownAddr n
      (d2, if d2.fab.req.isNone && d2.get R.JOB_RESULT_CODE != 0 then .swapFabric else .ok)
    else (d1.sendTo (d.get R.FAB_STATUS_ROOT_ADDR) 10 (bytesOf 8 n), .ok)

/-- SWAP without FABRIC; one that takes effect at once changes the sluice rates (09 R266). -/
def Dev.swapHere (d : Dev) (form arg line : Nat) : Dev × JobCode :=
  let r := d.swapLocal form arg line
  (if r.1.job.gen = d.job.gen then r.1 else r.1.reSluiceAll, r.2)

/-- SWAP (R107–R110). -/
def execSwap (form : Nat) (fabric : Bool) (arg line : Nat) (s : State) : Out :=
  onHost (fun d => d.jobCmd (fun d => if fabric then d.swapFabric form line else d.swapHere form arg line)) s

/-- SWAP_REQ at the root. -/
def execSwapReq (port : Nat) (frame : HFrame) (s : State) : Out :=
  onDevIf (decide (port < 8)) (fun d => d.fabIn port frame 10 asIs (fromMember (fun d h pl =>
    if d.is R.FAB_STATUS_ROOT then d.rootRequest h.src (leAt pl 0 8) else d))) s

/-- SWAP_PREP at a member: check, tentative schedule, vote. -/
def execSwapPrep (port : Nat) (frame : HFrame) (s : State) : Out :=
  onDevIf (decide (port < 8)) (fun d => d.fabIn port frame 11 asIs (fromRoot (fun d h pl =>
    let r := d.prepare (leAt pl 0 2) (leAt pl 8 8)
    r.1.sendTo h.src 12 (bytesOf 2 (leAt pl 0 2) ++ bytesOf 2 r.2.num ++ bytesOf 4 0)))) s

/-- SWAP_VOTE at the root. -/
def execSwapVote (port : Nat) (frame : HFrame) (s : State) : Out :=
  onDevIf (decide (port < 8)) (fun d => d.fabIn port frame 12 asIs (fromMember (fun d h pl =>
    d.countVote (leAt pl 0 2) h.src (leAt pl 2 2)))) s

/-- SWAP_DECIDE. -/
def execSwapDecide (port : Nat) (frame : HFrame) (s : State) : Out :=
  onDevIf (decide (port < 8)) (fun d => d.fabIn port frame 13 asIs (fromRoot (fun d _ pl =>
    d.takeDecision (leAt pl 0 2) (leAt pl 2 2) (leAt pl 8 8)))) s

/-- The weir level at which a silent member counts as refusing, and at which a device without decision isolates itself and a request
without one ends (R396, R397). [DEDUCED, unsafe, log 72] -/
def Dev.swapDeadlines (d : Dev) : Dev :=
  if !d.fabOn then d else
  let g := d.get R.FAB_SWAP_GUARD
  let at_ := fun (n back : Nat) => decide (n * 65536 ≤ d.pos.weir + back * 65536)
  let d1 := match d.fab.swap with
    | some w =>
      if d.memberAddrs.all (fun a => w.votes.contains a) then d.rootDecide w 0 0
      else if at_ w.n (d.job.workW + g) then d.rootDecide w JobCode.swapFabric.num ((d.memberAddrs.find? (fun a => !w.votes.contains a)).getD 0) else d
    | none => d
  let d2 := match d1.fab.prep with
    | some (id, n) => if at_ n (d.job.workW + g / 2) then d1.dropPrep.isolate id else d1
    | none => d1
  match d2.fab.req with
  | some n => if at_ n (d.job.workW + g / 2) then d2.endRequest (d2.fab.reqId.getD 0) n .swapFabric else d2
  | none => d2

end Sys2Proof.Machine
end

