-- ==== Sys2Proof/Machine/Lanes.lean ====
section
/-! DEFINITION. The lane layer of the head ports and of the fabric ports (08 R226–R253, 14 R372, R373): blocks, alignment,
bring-up, loss, electrical idle, loopbacks. -/

namespace Sys2Proof.Machine

/-! ## Blocks (R226–R228) -/

/-- A lane by number. -/
def Dev.lane (d : Dev) (p : Nat) : Lane := d.lanes.get {} p

/-- Replaces a lane. -/
def Dev.setLane (d : Dev) (p : Nat) (x : Lane) : Dev := { d with lanes := d.lanes.put p x }

/-- A block is valid: header bits differ and each T-bit is the inverse of the bit after it (R227). Bit 0 is H0. -/
def blockValid (b : Nat) : Bool :=
  (hasBit b 0 != hasBit b 1) && (List.range 4).all (fun q => hasBit b (2 + 17 * q) != hasBit b (3 + 17 * q))

/-- The block is a data block: H0 = 1, H1 = 0. -/
def blockData (b : Nat) : Bool := hasBit b 0 && !hasBit b 1

/-- The 64 payload bits of a block in line order (R226). -/
def blockPayload (b : Nat) : Nat := (List.range 4).foldl (fun x q => x + bitsOf b (3 + 17 * q) 16 * 2 ^ (16 * q)) 0

/-- One output bit of the additive scrambler and its next state (R228). -/
def scrStep (s : Nat) : Nat × Nat :=
  let o := ((s >>> 30) ^^^ (s >>> 27)) % 2
  (o, (2 * s + o) % 2 ^ 31)

/-- `n` output bits of the scrambler, first bit lowest, and its state after them. -/
def scrBits : Nat → Nat → Nat × Nat
  | 0, s => (0, s)
  | n + 1, s =>
    let (o, s1) := scrStep s
    let (r, s2) := scrBits n s1
    (o + 2 * r, s2)

/-- Seed of a receive descrambler: head to device, or the device's own stream in a near-end loopback (R228). -/
def Dev.seed (d : Dev) (l : Nat) : Nat :=
  if (d.link l).st = .loop ∧ (d.link l).loopMode < 3 then 0x7FFFFFFF else 0x3FFFFFFF

/-- Every 70 line bits inverted. -/
def invertBlock (b : Nat) : Nat := (2 ^ 70 - 1) ^^^ b

/-! ## Link state -/

/-- All lanes of a link satisfy `q`. -/
def Dev.allLanes (d : Dev) (l : Nat) (q : Lane → Bool) : Bool := (d.linkLanes l).all (fun p => q (d.lane p))

/-- Applies `f` to every lane of a link. -/
def Dev.mapLanes (d : Dev) (l : Nat) (f : Lane → Lane) : Dev :=
  forEach (d.linkLanes l) (fun d p => d.setLane p (f (d.lane p))) d

/-- A head link. -/
def isHead (l : Nat) : Bool := decide (l < 32)

/-- Fabric port of a fabric link. -/
def fabPortOf (l : Nat) : Nat := (l - 32) / 2

/-- Block lock, AM lock and what they rest on are searched afresh; polarity and lane order stay (R239, R248). -/
def Lane.unlock (x : Lane) : Lane :=
  { x with block := false, am := false, good := 0, ofs := 0, prevAm := none, ams := [], amGood := 0, since := 0, seeded := false,
           hist := 0, missed := 0, notReady := 0, queue := [] }

/-- In electrical idle the receiver keeps only signal detection running and the far end is quiet (R246). -/
def Lane.idle (x : Lane) : Lane := { x.unlock with los := true, cdr := false }

/-- What the transmitter of a link goes over to: TRAIN blocks with flags [0] RX_READY, [1] LOOP_REQ, [3] RATE_GO and a target rate
(Tables 8.3, 8.5). [DESIGN CHOICE, safe, log 107] -/
def Dev.sendTrain (d : Dev) (l flags target : Nat) : Dev := d.emit (.train l flags target)

/-- HPL_SLIP_CNT counts the slips of the last search (Table 8.12). -/
def Dev.freshSlips (d : Dev) (l : Nat) : Dev := if isHead l then d.set (R.HPL_SLIP_CNT l) 0 else d

/-- Entry to SEARCH clears polarity, lane order, block lock and AM lock (R241). -/
def Dev.enterSearch (d : Dev) (l : Nat) : Dev :=
  let x := d.link l
  let d1 := (d.setLink l { x with st := .search, rate := if isHead l then 1 else 3, reversed := false, seen := false,
                                  further := 0, go := false, goSeen := 0, startAt := d.now, body := 0, skip := false }).mapLanes l
    (fun y => { y.unlock with polKnown := false, inv := false })
  let d2 := (d1.freshSlips l).sendTrain l 0 0
  if isHead l then d2.set (R.HPL_SKEW l) 0 else d2.setB (R.FP_STATUS_REVERSED (fabPortOf l)) false

/-- What ends with UP for the frame layer: the ports of a head link, or the fabric port (09 R277, 14 R373). [DEDUCED, unsafe, log 65] -/
def Dev.leaveUp (d : Dev) (l : Nat) : Dev :=
  if isHead l then forEach (d.linkLanes l) (fun d p => d.frameDown p) d else d

/-- The link enters UP: an AM with OP = 1 leaves first, at an instant of the running block that is not stated; LANE_UP, the frame layer
starts (R230, R241, 09 R259). -/
def Dev.enterUp (d0 : Dev) (l : Nat) : Dev :=
  let (v, d) := d0.fresh 0x230 12
  let x := d.link l
  let d1 := ((d.setLink l { x with st := .up, hadUp := true, body := 0, skip := false,
                                   txOrg := 100 * d.now + v % blockTime x.rate }).mapLanes l
    (fun y => { y with hist := 0, missed := 0, notReady := 0 })).emit (.lane l 0xA7)
  let us := (d.now - x.startAt) / 1000
  if isHead l then
    forEach (d.linkLanes l) (fun d p => d.frameUp p) ((d1.set (R.HPL_UP_TIME l) us).raise Ev.LANE_UP
      (l + 32 * x.rate + (if x.bonded then 128 else 0) + 65536 * (us % 65536)))
  else d1.fabPortUp (fabPortOf l)

/-- A fabric port leaves UP by a command: no loss is reported (14 R373). [DEDUCED, unsafe, log 69] -/
def Dev.fabPortLeave (d : Dev) (n : Nat) : Dev :=
  ((d.set (R.FP_STATUS_FSTATE n) 0).setB (R.FP_STATUS_ADJ n) false).fabRefresh

/-- Bring-up fails with a cause (R243); a fabric port is DOWN with it (14 R373). [DEDUCED, unsafe, log 69] -/
def Dev.trainFail (d : Dev) (l cause : Nat) : Dev :=
  let d1 := (d.setLink l { d.link l with st := .failed }).sendTrain l 0 0
  if isHead l then (d1.set (R.HPL_CAUSE l) cause).raise Ev.LANE_TRAIN_FAIL (l + 256 * cause)
  else d1.fabPortDown (fabPortOf l) cause

/-- A link in UP goes DOWN with a cause (R245, 14 R373). -/
def Dev.linkLoss (d : Dev) (l cause : Nat) : Dev :=
  let d1 := (d.setLink l { d.link l with st := .down }).sendTrain l 0 0
  if isHead l then
    (((d1.set (R.HPL_CAUSE l) cause).bump (R.HPL_DOWN_CNT l) 1).raise Ev.LANE_DOWN (l + 256 * cause)).leaveUp l
  else d1.fabPortDown (fabPortOf l) cause

/-- Electrical idle is entered: eight EI_ENTER blocks leave, then the drivers are off (R246, R247). [DEDUCED, unsafe, log 68] -/
def Dev.enterEi (d : Dev) (l : Nat) (byHead : Bool) : Dev :=
  (((((d.emit (.lane l 0x4B)).leaveUp l).setLink l { d.link l with st := .ei }).mapLanes l Lane.idle).raise Ev.LANE_EI
    (l + if byHead then 256 else 0))

/-- A training burst starts: block lock is searched afresh (R248). Its 128 blocks have passed before AM lock can be reached: 64 blocks of
block lock and two training intervals. [DEDUCED, unsafe, log 68] -/
def Dev.enterBurst (d : Dev) (l : Nat) : Dev :=
  (((d.setLink l { d.link l with st := .burst, seen := false, further := 0 }).mapLanes l Lane.unlock).freshSlips l).sendTrain l 0 0

/-- Target rate after READY (R242): FAILED where the head does not declare it, UP at 2.5 Gbaud and on fabric ports, else
RATE_GO is sent. -/
def Dev.leaveReady (d : Dev) (l : Nat) : Dev :=
  let x := d.link l
  if !isHead l then d.enterUp l
  else if !hasBit (d.get (R.HPL_HEAD_RATES l)) (x.target - 1) then d.trainFail l 6
  else if x.target = 1 then d.enterUp l
  else (d.setLink l { x with go := true, goSeen := 0 }).sendTrain l 9 x.target

/-- One more block after RX_READY of the partner was seen: after 16 READY and BURST are left (Table 8.5). -/
def Dev.furtherBlock (d : Dev) (l : Nat) : Dev :=
  let x := d.link l
  if x.seen && (x.st == .ready && !x.go || x.st == .burst && d.allLanes l (·.am)) then
    let d1 := d.setLink l { x with further := x.further + 1 }
    if x.further + 1 < 16 then d1
    else if x.st = .ready then d1.leaveReady l else d1.enterUp l
  else d

/-! ## Alignment markers (R229, R236, R237, R240) -/

/-- Arrival difference, in blocks, of the AMs of equal count of a bonded pair; without two of equal count it is larger than the limit (R237). [DEDUCED, unsafe, log 68] -/
def Dev.skewOf (d : Dev) (l : Nat) : Nat :=
  let bt := blockTime (d.link l).rate
  match (d.lane l).ams.findSome? (fun a => ((d.lane (l + 1)).ams.find? (fun b => b.1 == a.1)).map (fun b => (a.2, b.2))) with
  | some (a, b) => (((max a b - min a b) * 100) + bt / 2) / bt
  | none => 17

/-- AM lock on every lane ends SEARCH: lane order and skew are judged (R236, R237), then READY. -/
def Dev.searchDone (d : Dev) (l : Nat) : Dev :=
  let x := d.link l
  if x.st = .search ∧ d.allLanes l (·.am) = true then
    let pair := decide (1 < (d.linkLanes l).length)
    let m0 := (d.lane l).member
    let m1 := (d.lane (l + 1)).member
    if pair && decide (16 < d.skewOf l) then d.trainFail l 7
    else if pair && m0 == m1 then d.trainFail l 8
    else
      let d1 := (d.setLink l { x with st := .ready, reversed := pair && m0 == 1 }).sendTrain l 1 0
      if isHead l ∧ pair = true then d1.set (R.HPL_SKEW l) (d.skewOf l)
      else if isHead l then d1 else d1.setB (R.FP_STATUS_REVERSED (fabPortOf l)) (pair && m0 == 1)
  else d

/-- The receiver of lane `p` runs: its link is neither OFF nor quiet. -/
def Dev.receiving (d : Dev) (p : Nat) : Bool :=
  match (d.link (d.linkOf p)).st with
  | .off | .rate | .ei => false
  | _ => true

/-! ## TRAIN blocks (Table 8.3, R242, R250) -/

/-- A TRAIN block from the far end. The first that shows RX_READY is not one of the blocks after it (Table 8.5). [DEDUCED, unsafe, log 68] -/
def Dev.trainIn (d : Dev) (l : Nat) (b : List Byte) : Dev :=
  let x := d.link l
  let fl := leAt b 1 1
  let d1 := d.setLink l { x with partner := hasBit fl 0, seen := x.seen || hasBit fl 0 }
  let d2 := if isHead l then d1.set (R.HPL_HEAD_RATES l) (leAt b 2 1) else d1
  match x.st with
  | .ready =>
    if x.go then
      if hasBit fl 3 && leAt b 3 1 == x.target then
        if x.goSeen + 1 < 16 then d2.setLink l { d2.link l with goSeen := x.goSeen + 1 }
        else ((d2.emit (.lane l 0x4B)).setLink l { d2.link l with st := .rate, go := false }).mapLanes l Lane.idle
      else d2
    else d2
  | .loop => if hasBit fl 2 ∧ x.loopMode = 3 then d2.setLink l { d2.link l with loopAck := true } else d2
  | _ => d2

/-! ## Loopback checker (R251) -/

/-- 64 payload bits reach the checker: the first 31 seed it, every further bit is compared. -/
def checkBitsIn : Nat → Nat → (seen st errs n : Nat) → Nat × Nat × Nat × Nat
  | 0, _, seen, st, errs, n => (seen, st, errs, n)
  | k + 1, bits, seen, st, errs, n =>
    if seen < 31 then checkBitsIn k (bits / 2) (seen + 1) ((2 * st + bits % 2) % 2 ^ 31) errs n
    else
      let (o, st') := scrStep st
      checkBitsIn k (bits / 2) seen st' (if o = bits % 2 then errs else errs + 1) (n + 1)

/-- Adds to the loopback counts of a head link; bit errors saturate. -/
def Dev.loopCount (d : Dev) (l errs n : Nat) : Dev :=
  if isHead l then
    (d.set64 (R.HPL_PRBS_BITS_LO l) ((d.get64 (R.HPL_PRBS_BITS_LO l) + n) % 2 ^ 64)).set (R.HPL_PRBS_ERR l)
      (min (2 ^ 32 - 1) (d.get (R.HPL_PRBS_ERR l) + errs))
  else d

/-- The next data block of the loopback pattern leaves: one for each that is awaited (R251). [DESIGN CHOICE, safe, log 107] -/
def Dev.nextPattern (d : Dev) (l : Nat) : Dev :=
  let x := d.link l
  let (o, g) := scrBits 64 x.gen
  (d.setLink l { x with gen := g }).emit (.pattern l o)

/-- Payload bits of a data block in loopback. -/
def Dev.loopData (d : Dev) (l bits : Nat) : Dev :=
  let x := d.link l
  if x.loopMode = 3 ∧ x.loopAck = false then d
  else
    let (seen, st, errs, n) := checkBitsIn 64 bits x.chkBits x.chk 0 0
    ((d.setLink l { x with chkBits := seen, chk := st }).loopCount l errs n).nextPattern l

/-- An invalid block in loopback counts as 64 bit errors. [DEDUCED, unsafe, log 68] -/
def Dev.loopInvalid (d : Dev) (l : Nat) : Dev :=
  let x := d.link l
  if x.loopMode = 3 ∧ x.loopAck = false then d
  else if 31 ≤ x.chkBits then ((d.setLink l { x with chk := (scrBits 64 x.chk).2 }).loopCount l 64 64).nextPattern l
  else (d.loopCount l 64 64).nextPattern l

/-! ## Block reception (R231–R234, R239, 09 R257) -/

/-- A code error of a link (R231, R232, R234). -/
def Dev.codeErr (d : Dev) (l : Nat) : Dev :=
  if isHead l then (d.bump (R.HPL_CODE_ERR_CNT l) 1).occur Ev.LANE_CODE_ERR l 1
  else d.bump (R.FP_CODE_ERR_CNT (fabPortOf l)) 1

/-- A discarded frame or block of a link (09 R257, 14 R374). -/
def Dev.linkFrameErr (d : Dev) (l : Nat) : Dev := if isHead l then d.frameErr l else d.fabFrameErr (fabPortOf l)

/-- The frame layer's view of a start block: how many body blocks follow; after a discarded one every data block up to the
next start block goes with it (09 R257). [DEDUCED, unsafe, log 62] -/
def Dev.startBlock (d : Dev) (l : Nat) (b : List Byte) : Dev :=
  if blockOk b then d.setLink l { d.link l with body := leAt b 4 2, skip := false }
  else d.setLink l { d.link l with body := 0, skip := true }

/-- A data block of an UP link: part of a frame, of a discarded frame, or outside any frame. [DEDUCED, unsafe, log 62] -/
def Dev.dataBlock (d : Dev) (l : Nat) : Dev :=
  let x := d.link l
  if x.body ≠ 0 then d.setLink l { x with body := x.body - 1 }
  else if x.skip then d else d.linkFrameErr l

/-- A block type is a start block from the far end. -/
def isStart (l t : Nat) : Bool := if isHead l then t == 0x98 || t == 0x99 || t == 0x9A else t == 0xA0

/-- An invalid block of an UP link, handed on errored (R234, 09 R257): a start block is discarded with its frame, another control block
alone; a body block stays in its frame, whose check sees it. A header with H0 = H1 is a body block where one is due. [DEDUCED, unsafe, log 62] -/
def Dev.erroredBlock (d : Dev) (l hdr t : Nat) : Dev :=
  let x := d.link l
  if hdr = 2 then if isStart l t then d.setLink l { x with body := 0, skip := true } else d.linkFrameErr l
  else d.dataBlock l

/-- EI_ENTER of the head on an UP link: an answer and EI on a port that is not live, a loss with cause HEAD_EI on a live one (R247). -/
def Dev.eiReceived (d : Dev) (p : Nat) : Dev :=
  let l := d.linkOf p
  if (d.link l).st = .up then (if d.live p then d.linkLoss l 9 else d.enterEi l true) else d

/-- A block type the far end may send beside start blocks. -/
def isKnown (l t : Nat) : Bool := t == 0x1E || t == 0x2D || t == 0x4B || (isHead l && (t == 0x80 || t == 0x81 || t == 0x82 ||
  t == 0x90 || t == 0x91))

/-- A valid block other than an AM, descrambled (Table 8.2). -/
def Dev.plainBlock (d : Dev) (l : Nat) (data : Bool) (pl : Nat) : Dev :=
  let b := bytesOf 8 pl
  let t := leAt b 0 1
  let up := (d.link l).st == .up
  if data then
    if (d.link l).st = .loop then d.loopData l pl else if up then d.dataBlock l else d
  else if t = 0x2D then d.trainIn l b
  else if t = 0x4B ∧ isHead l = true then d.eiReceived l
  else if isStart l t then (if up then d.startBlock l b else d)
  else if isKnown l t then d
  else d.codeErr l

/-- One candidate of the alignment search (R239). -/
def Dev.candidate (d : Dev) (p : Nat) (valid : Bool) : Dev :=
  let x := d.lane p
  let l := d.linkOf p
  if valid then d.setLane p { x with good := x.good + 1, block := decide (64 ≤ x.good + 1) }
  else
    let d1 := d.setLane p { x with good := 0, ofs := (x.ofs + 1) % 70 }
    if isHead l then d1.wrap (R.HPL_SLIP_CNT l) 1 else d1

/-- What a loss detector says of its lane; with block lock lost a new search starts at offset 0 (R239). -/
def Lane.lost (x : Lane) (cause : Nat) : Lane :=
  match cause with
  | 1 => { x with los := true }
  | 2 => { x with cdr := false }
  | 3 => { x with block := false, good := 0, ofs := 0 }
  | 4 => { x with am := false, amGood := 0 }
  | _ => x

/-- LANE_LOSS: a detector of Table 8.8 fires on a lane of an UP link (R238, R245). -/
def Dev.laneLoss (d : Dev) (p cause : Nat) : Dev :=
  let l := d.linkOf p
  if (d.link l).st = .up then
    (when (cause == 3) (fun (d : Dev) => d.freshSlips l) (d.setLane p ((d.lane p).lost cause))).linkLoss l cause
  else d

/-- A lane's loss detectors on what has arrived (Table 8.8): 16 invalid blocks within 64, two AM positions in a row without an AM, four
TRAIN blocks in a row with RX_READY = 0. -/
def Dev.detect (d : Dev) (p : Nat) : Dev :=
  let x := d.lane p
  if x.hist != 0 && decide (16 ≤ ((List.range 64).filter (hasBit x.hist)).length) then d.laneLoss p 3
  else if 2 ≤ x.missed then d.laneLoss p 4
  else if 4 ≤ x.notReady then d.laneLoss p 5
  else d

/-- The descrambler of a lane advances over one block, and the block counts towards the AM spacing. -/
def Lane.pass (x : Lane) : Lane := { x with since := x.since + 1, scr := if x.seeded then (scrBits 64 x.scr).2 else x.scr }

/-- One more block for the block lock detector. -/
def Lane.sight (x : Lane) (bad : Bool) : Lane := { x with hist := (2 * x.hist + if bad then 1 else 0) % 2 ^ 64 }

/-- The spacing that the OP bit of the last AM announced (R230). -/
def Lane.spacing (x : Lane) : Nat := if x.op then 4095 else 63

/-- The next block stands where an AM is expected. -/
def Lane.due (x : Lane) : Bool := x.am && x.since == x.spacing

/-- No AM stood where one was expected: marker alignment stays (R234, R245). -/
def Lane.missAm (x : Lane) (seed : Nat) : Lane :=
  { x with since := 0, missed := x.missed + 1, scr := seed, prevAm := x.prevAm.map (fun c => (c + 1) % 256),
           queue := x.queue ++ (x.prevAm.map (fun c => RxBlock.am ((c + 1) % 256))).toList }

/-- TRAIN blocks in a row with RX_READY = 0: AMs and IDLE blocks stand between them. -/
def Lane.watch (x : Lane) (hdr pl : Nat) : Lane :=
  if hdr = 2 ∧ pl % 256 = 0x1E then x
  else { x with notReady := if hdr = 2 ∧ pl % 256 = 0x2D ∧ pl / 256 % 2 = 0 then x.notReady + 1 else 0 }

/-- A block of the link, in link order (R234, R235). -/
def Dev.linkBlock (d : Dev) (l hdr : Nat) (valid : Bool) (pl : Nat) : Dev :=
  let seen := (d.link l).seen
  let d1 := if valid then d.plainBlock l (hdr == 1) pl
    else match (d.link l).st with
      | .up => d.erroredBlock l hdr (pl % 256)
      | .loop => d.loopInvalid l
      | _ => d
  when seen (fun d => d.furtherBlock l) d1

/-- Drops the head of a lane's queue. -/
def Dev.dropHead (d : Dev) (p : Nat) : Dev := d.setLane p { d.lane p with queue := (d.lane p).queue.drop 1 }

/-- The deskew of a pair (R235–R237): blocks behind AMs of equal count go on in pairs, that of member 0 first; what has no
counterpart is dropped. [DEDUCED, unsafe, log 68] -/
def Dev.deskew : Nat → Nat → Dev → Dev
  | 0, _, d => d
  | f + 1, l, d =>
    let (a, b) := if (d.link l).reversed then (l + 1, l) else (l, l + 1)
    match (d.lane a).queue, (d.lane b).queue with
    | .am m :: _, .am n :: _ =>
      Dev.deskew f l (if m = n then (d.dropHead a).dropHead b else if (n + 256 - m) % 256 < 128 then d.dropHead a else d.dropHead b)
    | .am _ :: _, .block .. :: _ => Dev.deskew f l (d.dropHead b)
    | .block .. :: _, .am _ :: _ => Dev.deskew f l (d.dropHead a)
    | .block h v x :: _, .block k w y :: _ =>
      Dev.deskew f l ((((d.dropHead a).dropHead b).linkBlock l h v x).linkBlock l k w y)
    | _, _ => d

/-- A pair whose lanes all have AM lock hands on what both lanes hold. -/
def Dev.deskewAll (d : Dev) (l : Nat) : Dev :=
  if 1 < (d.linkLanes l).length ∧ d.allLanes l (·.am) = true then
    Dev.deskew ((d.lane l).queue.length + (d.lane (l + 1)).queue.length) l d
  else d

/-- A block of lane `p` goes on to its link: at once, or through the deskew of a pair. -/
def Dev.handOn (d : Dev) (p hdr : Nat) (valid : Bool) (pl : Nat) : Dev :=
  let l := d.linkOf p
  if 1 < (d.linkLanes l).length ∧ (d.lane p).am = true then
    (d.setLane p { d.lane p with queue := (d.lane p).queue ++ [.block hdr valid pl] }).deskewAll l
  else d.linkBlock l hdr valid pl

/-- The elastic buffer inserted (1) or removed (2) an IDLE block, at an IDLE block; an overflow or underflow (3) is a code error (R232). -/
def Dev.elastic (d : Dev) (l act : Nat) (idle : Bool) : Dev :=
  if act = 3 then d.codeErr l
  else if isHead l ∧ act = 1 ∧ idle = true then d.bump (R.HPL_SKIP_ADDED l) 1
  else if isHead l ∧ act = 2 ∧ idle = true then d.bump (R.HPL_SKIP_REMOVED l) 1
  else d

/-- An AM with its payload bytes arrives on lane `p`, its T-bits aside (R229); `inverted` where it was read with inverted polarity. Once AM lock is reached an AM in
error moves no alignment (R234). [DEDUCED, unsafe, log 68] -/
def Dev.amIn (d : Dev) (p : Nat) (bytes : List Byte) (inverted : Bool) : Dev :=
  let l := d.linkOf p
  let x := d.lane p
  let count := leAt bytes 2 1
  let flags := leAt bytes 3 1
  let bad := leAt bytes 4 4 != 0xFFFFFFFF - leAt bytes 0 4 || (x.prevAm.map (fun c => (c + 1) % 256 != count)).getD false
  let d1 := if bad && (d.link l).st == .up && isHead l then d.bump (R.HPL_AM_ERR_CNT l) 1 else d
  if bad && x.am && !x.due then d1.setLane p x.pass
  else
    let held := bad && x.am
    let num := if held then (x.prevAm.getD 0 + 1) % 256 else count
    let good := if bad then 0 else if x.prevAm.isSome && x.since == x.spacing then x.amGood + 1 else 1
    let am := x.am || decide (2 ≤ good)
    let others := (d.linkLanes l).all (fun q => q == p || (d.lane q).am)
    let y : Lane := { x with
      inv := if x.polKnown then x.inv else inverted, polKnown := true, prevAm := some num, since := 0
      op := if held then x.op else hasBit flags 2, member := if held then x.member else flags % 2
      ams := (num, d.now) :: x.ams.take 7, amGood := good, am := am, scr := d.seed l, seeded := am, missed := 0
      queue := if am && decide (1 < (d.linkLanes l).length) then (if others then x.queue else []) ++ [.am num] else [] }
    let d2 := (d1.setLane p y).searchDone l
    let d3 := when ((d2.link l).st == .burst && am && !x.am && d2.allLanes l (·.am)) (fun d => d.sendTrain l 1 0) d2
    (d3.furtherBlock l).deskewAll l

/-- A block read as an AM, by its payload alone: bytes 0–1 A7 3C under a control header, or their inverse under a data header (R229). -/
def amKind (data : Bool) (b : List Byte) : Option Bool :=
  if !data && leAt b 0 2 == 0x3CA7 then some false
  else if data && leAt b 0 2 == 0xC358 then some true
  else none

/-- A block of a lane with block lock: an AM, whatever its T-bits (R229), a block where an AM was expected, or any other. An invalid block where an AM
was expected goes on errored as every invalid block does (R234), past the deskew of a pair. [DEDUCED, unsafe, log 68] -/
def Dev.laneBlock (d : Dev) (p b act : Nat) : Dev :=
  let x := d.lane p
  let l := d.linkOf p
  let valid := blockValid b
  let counted := !valid && (d.link l).st == .up
  let d1 := when counted (fun d => d.codeErr l) d
  match (if hasBit b 0 != hasBit b 1 then amKind (blockData b) (bytesOf 8 (blockPayload b)) else none) with
  | some inverted => d1.amIn p (bytesOf 8 (if inverted then 2 ^ 64 - 1 - blockPayload b else blockPayload b)) inverted
  | none =>
    if x.due then
      let d2 := (d1.setLane p (x.missAm (d.seed l))).deskewAll l
      if valid then d2 else d2.linkBlock l (b % 4) false (blockPayload b)
    else
      let pl := blockPayload b ^^^ (scrBits 64 x.scr).1
      let d2 := d1.setLane p (if valid && x.seeded then x.pass.watch (b % 4) pl else x.pass)
      if x.seeded || !valid then
        (d2.elastic l (if act = 3 then 0 else act) (valid && b % 4 == 2 && pl % 256 == 0x1E)).handOn p (b % 4) valid pl
      else d2

/-- BLOCK_RECEIVED: 70 line bits arrive on a lane (bit 0 is H0); `act` is what the elastic buffer did. [DEDUCED, unsafe, log 62] -/
def Dev.blockIn (d : Dev) (p bits act : Nat) : Dev :=
  if d.receiving p then
    let x := { d.lane p with los := false, cdr := true }
    let b := if x.inv then invertBlock bits else bits
    let d1 := if x.block then ((d.setLane p (x.sight (!blockValid b))).laneBlock p b act).detect p
      else (d.setLane p x).candidate p (blockValid b)
    when (act == 3) (fun d => d.elastic (d.linkOf p) 3 false) d1
  else d

/-- BLOCK_RECEIVED. -/
def execBlockReceived (lane bits act : Nat) (s : State) : Out := onDevIf (decide (lane < 48)) (fun d => d.blockIn lane bits act) s

/-- AM_RECEIVED: an AM on a lane that has block lock. -/
def Dev.amReceived (d : Dev) (p : Nat) (bytes : List Byte) (inverted : Bool) : Dev :=
  if d.receiving p && (d.lane p).block then (d.setLane p ((d.lane p).sight false)).amIn p bytes inverted else d

/-- AM_RECEIVED. -/
def execAmReceived (lane : Nat) (payload : List Byte) (inverted : Bool) (s : State) : Out :=
  onDevIf (decide (lane < 48)) (fun d => d.amReceived lane payload inverted) s

/-- TRAIN_BLOCK_RECEIVED: a TRAIN block, descrambled, on a lane with AM lock; where an AM was expected it counts as an AM that did not come (R245). -/
def Dev.trainReceived (d : Dev) (p : Nat) (b : List Byte) : Dev :=
  if d.receiving p && (d.lane p).am && (d.lane p).due then
    ((d.setLane p (((d.lane p).sight false).missAm (d.seed (d.linkOf p)))).deskewAll (d.linkOf p)).detect p
  else if d.receiving p && (d.lane p).am then
    let pl := 0x2D + 256 * leOf (b.drop 1)
    ((d.setLane p (((d.lane p).sight false).pass.watch 2 pl)).handOn p 2 true pl).detect p
  else d

/-- TRAIN_BLOCK_RECEIVED. -/
def execTrainBlockReceived (lane : Nat) (payload : List Byte) (s : State) : Out :=
  onDevIf (decide (lane < 48)) (fun d => d.trainReceived lane payload) s

/-! ## Timeouts, loss, electrical idle (R242–R248) -/

/-- PLL_LOCKED: RATE is left through a training burst at the target rate (R242). -/
def Dev.pllLocked (d : Dev) (l : Nat) : Dev :=
  let x := d.link l
  if x.st = .rate then (d.setLink l { x with rate := x.target }).enterBurst l else d

/-- PLL_LOCKED. -/
def execPllLocked (port : Nat) (s : State) : Out := onDevIf (decide (port < 32)) (fun d => d.pllLocked (d.linkOf port)) s

/-- The first unmet condition of bring-up (R243, Table 8.6). -/
def Dev.unmet (d : Dev) (l : Nat) : Nat :=
  if !d.allLanes l (fun x => !x.los) then 1
  else if !d.allLanes l (·.cdr) then 2
  else if !d.allLanes l (·.block) then 3
  else if !d.allLanes l (·.am) then 4
  else 5

/-- A loopback ends in DOWN with a cause, 0 = completed (R249). -/
def Dev.endLoop (d : Dev) (l cause : Nat) : Dev :=
  let x := d.link l
  let d1 := (d.setLink l { x with st := .down, loopMode := 0, loopAck := false }).sendTrain l 0 0
  if isHead l then
    (d1.bump (R.HPL_DOWN_CNT l) 1).raise Ev.LOOP_DONE (l + 256 * x.loopMode + 1024 * cause + 2 ^ 32 * d.get (R.HPL_PRBS_ERR l))
  else d1.set (R.FP_STATUS_FSTATE (fabPortOf l)) 3

/-- TRAIN_TIMEOUT: HPL_TRAIN_TMO has passed in bring-up, or without LOOP_ACK in a far-end loopback (R243, R248, R250). -/
def Dev.trainTimeout (d : Dev) (l : Nat) : Dev :=
  let x := d.link l
  match x.st with
  | .search | .ready | .rate | .burst => d.trainFail l (d.unmet l)
  | .loop => if x.loopMode = 3 ∧ x.loopAck = false then d.endLoop l 5 else d
  | _ => d

/-- TRAIN_TIMEOUT. -/
def execTrainTimeout (port : Nat) (s : State) : Out := onDevIf (decide (port < 32)) (fun d => d.trainTimeout (d.linkOf port)) s

/-- LANE_LOSS. -/
def execLaneLoss (lane cause : Nat) (s : State) : Out :=
  onDevIf (decide (lane < 48) && decide (1 ≤ cause) && decide (cause ≤ 5)) (fun d => d.laneLoss lane cause) s

/-- EI_ENTER_RECEIVED. -/
def execEiEnterReceived (port : Nat) (s : State) : Out := onDevIf (decide (port < 32)) (fun d => d.eiReceived port) s

/-- EI is left through a training burst; the time to UP counts from here (R248). -/
def Dev.leaveEi (d : Dev) (l : Nat) : Dev := (d.setLink l { d.link l with startAt := d.now }).enterBurst l

/-- SIGNAL_DETECTED: signal from the head; in EI a training burst starts (R248). -/
def Dev.signalIn (d : Dev) (p : Nat) : Dev :=
  let l := d.linkOf p
  let d1 := d.setLane p { d.lane p with los := false }
  if (d1.link l).st = .ei then d1.leaveEi l else d1

/-- SIGNAL_DETECTED. -/
def execSignalDetected (lane : Nat) (s : State) : Out := onDevIf (decide (lane < 48)) (fun d => d.signalIn lane) s

/-! ## Commands (R246, R248, R249, R252) -/

/-- A lane command completes with a result: 0 OK, 1 BUSY, 2 STATE, 3 BAD_ARG (R252). -/
def Dev.laneCmd (d : Dev) (p : Nat) (f : Dev → Dev × Nat) : Dev :=
  d.inDomain (headDomain p) (fun d =>
    let r := f (d.wrap (R.HPL_RESULT_SEQ p) 1)
    r.1.set (R.HPL_RESULT_CODE p) r.2)

/-- Port `p` is the odd port of a bonded pair: HPL_CTRL.BOND counts as it stood at the last TRAIN (R252). -/
def Dev.oddBonded (d : Dev) (p : Nat) : Bool := p % 2 == 1 && (d.link (p - 1)).bonded

/-- A DMA channel holds the CRC unit of port `p` (12 R347). CRC_STATUS.OWNER stores the channel; a port's hold follows from its
link state. [DEDUCED, unsafe, log 83] -/
def Dev.crcTaken (d : Dev) (p : Nat) : Bool := d.get (R.CRC_STATUS_OWNER p) != 0

/-- A port takes its CRC unit and leaves it set to CRC-32C; the running value is what its lines leave, a free value (12 R347). [DEDUCED, unsafe, log 83] -/
def Dev.takeCrc (d : Dev) (p : Nat) : Dev :=
  let (v, d1) := d.fresh 0x347 32
  (((((((d1.set (R.CRC_CFG_WIDTH p) 32).setB (R.CRC_CFG_REFIN p) true).setB (R.CRC_CFG_REFOUT p) true).set (R.CRC_POLY p)
    0x1EDC6F41).set (R.CRC_INIT p) 0xFFFFFFFF).set (R.CRC_XOROUT p) 0xFFFFFFFF).set (R.CRC_VAL p) v)

/-- TRAIN takes HPL_CTRL and enters SEARCH (R241, R252). [DEDUCED, unsafe, log 68] -/
def Dev.startTrain (d0 : Dev) (p : Nat) : Dev :=
  let bond := p % 2 == 0 && d0.is (R.HPL_CTRL_BOND p)
  let d := when bond (fun d => d.takeCrc (p + 1)) (d0.takeCrc p)
  let d1 := if (d.link p).st = .up then d.leaveUp p else d
  let d2 := d1.setLink p { d1.link p with bonded := bond, target := d.get (R.HPL_CTRL_RATE p), loopMode := 0 }
  let d3 := if bond && (d2.link (p + 1)).st == .up then d2.leaveUp (p + 1) else d2
  (if bond then d3.setLink (p + 1) {} else d3).enterSearch p

/-- TRAIN (R252). -/
def Dev.train (d : Dev) (p : Nat) : Dev × Nat :=
  if d.oddBonded p then (d, 3)
  else if (d.link p).st = .loop ∨ d.is (R.HPL_CTRL_EN p) = false then (d, 2)
  else if (d.link p).st = .up ∧ d.live p = true then (d, 1)
  else if d.crcTaken p || (p % 2 == 0 && d.is (R.HPL_CTRL_BOND p) && d.crcTaken (p + 1)) then (d, 1)
  else (d.startTrain p, 0)

/-- TRAIN. -/
def execTrain (port : Nat) (s : State) : Out :=
  onHostIf (decide (port < 32)) (fun d => d.laneCmd port (fun d => d.train port)) s

/-- EI_ENTER (R246). -/
def Dev.eiEnter (d : Dev) (p : Nat) : Dev × Nat :=
  if (d.link (d.linkOf p)).st ≠ .up then (d, 2)
  else if d.live p then (d, 1)
  else (d.enterEi (d.linkOf p) false, 0)

/-- EI_ENTER. -/
def execEiEnter (port : Nat) (s : State) : Out :=
  onHostIf (decide (port < 32)) (fun d => d.laneCmd port (fun d => d.eiEnter port)) s

/-- EI_EXIT (R248). -/
def Dev.eiExit (d : Dev) (p : Nat) : Dev × Nat :=
  if (d.link (d.linkOf p)).st = .ei then (d.leaveEi (d.linkOf p), 0) else (d, 2)

/-- EI_EXIT. -/
def execEiExit (port : Nat) (s : State) : Out :=
  onHostIf (decide (port < 32)) (fun d => d.laneCmd port (fun d => d.eiExit port)) s

/-- Some port of the head power domain of `p` is live (R249). -/
def Dev.domainLive (d : Dev) (p : Nat) : Bool := (List.range 16).any (fun i => d.live (p / 16 * 16 + i))

/-- A loopback starts: counts cleared, checker unseeded (R249–R251). -/
def Dev.startLoop (d : Dev) (l mode : Nat) : Dev :=
  let d1 := if (d.link l).st = .up then d.leaveUp l else d
  let keep := mode == 3
  let d2 := d1.setLink l { d1.link l with st := .loop, loopMode := mode, loopAck := false, chkBits := 0, chk := 0,
                                          gen := 0x7FFFFFFF, rate := if isHead l && !keep then (d1.link l).target else (d1.link l).rate }
  let d3 := if keep then d2.sendTrain l 2 0 else (d2.mapLanes l Lane.unlock).freshSlips l
  if isHead l then (d3.set64 (R.HPL_PRBS_BITS_LO l) 0).set (R.HPL_PRBS_ERR l) 0 else d3

/-- LOOP_START (R249). -/
def Dev.loopStart (d : Dev) (p : Nat) : Dev × Nat :=
  let l := d.linkOf p
  let m := d.get (R.HPL_LOOP_CFG_MODE l)
  if m = 0 then (d, 3)
  else if (if m = 3 then (d.link l).st == .up else (d.link l).st == .off || (d.link l).st == .up || (d.link l).st == .down ||
      (d.link l).st == .failed) = false then (d, 2)
  else if d.domainLive p then (d, 1)
  else if (d.linkLanes l).any d.crcTaken then (d, 1)
  else ((forEach (d.linkLanes l) (fun d q => d.takeCrc q) d).startLoop l m, 0)

/-- LOOP_START. -/
def execLoopStart (port : Nat) (s : State) : Out :=
  onHostIf (decide (port < 32)) (fun d => d.laneCmd port (fun d => d.loopStart port)) s

/-- LOOP_STOP ends a loopback whose HPL_LOOP_TIME is 0 (R249). -/
def Dev.loopStop (d : Dev) (p : Nat) : Dev × Nat :=
  let l := d.linkOf p
  if (d.link l).st = .loop ∧ d.get (R.HPL_LOOP_TIME l) = 0 then (d.endLoop l 0, 0) else (d, 2)

/-- LOOP_STOP. -/
def execLoopStop (port : Nat) (s : State) : Out :=
  onHostIf (decide (port < 32)) (fun d => d.laneCmd port (fun d => d.loopStop port)) s

/-- LOOP_TIME_EXPIRY: HPL_LOOP_TIME has passed (R249). -/
def execLoopTimeExpiry (port : Nat) (s : State) : Out :=
  onDevIf (decide (port < 32)) (fun d =>
    let l := d.linkOf port
    if (d.link l).st = .loop ∧ d.get (R.HPL_LOOP_TIME l) ≠ 0 then d.endLoop l 0 else d) s

/-! ## Fabric ports (14 R372, R373) -/

/-- FP_CMD.TRAIN: an enabled port enters SEARCH from any state but LOOP. [DEDUCED, unsafe, log 69] -/
def Dev.fpTrain (d : Dev) (n : Nat) : Dev :=
  let l := fabLink n
  if d.is (R.FP_CTRL_EN n) = false ∨ (d.link l).st = .loop then d
  else
    let d1 := if (d.link l).st = .up then d.fabPortLeave n else d
    ((d1.setLink l { d1.link l with bonded := true, target := 3 }).enterSearch l).set (R.FP_STATUS_FSTATE n) 0

/-- FP_TRAIN. -/
def execFpTrain (port : Nat) (s : State) : Out :=
  onHostIf (decide (port < 8)) (fun d => d.inDomain 3 (fun d => d.fpTrain port)) s

/-- FP_LOOP_START: mode 1 or 2, in the states R249 names, and not while the port is MEMBER (18 R485); FP_CMD carries no mode: which of the two runs is a free value. [DEDUCED, unsafe, log 69] -/
def Dev.fpLoopStart (d : Dev) (n : Nat) : Dev :=
  let l := fabLink n
  let (m, e) := d.fresh 0x372 1
  if d.get (R.FP_STATUS_FSTATE n) = 2 then d
  else match (d.link l).st with
    | .off | .down | .failed => e.startLoop l (1 + m % 2)
    | .up => (e.fabPortLeave n).startLoop l (1 + m % 2)
    | _ => d

/-- FP_LOOP_START. -/
def execFpLoopStart (port : Nat) (s : State) : Out :=
  onHostIf (decide (port < 8)) (fun d => d.inDomain 3 (fun d => d.fpLoopStart port)) s

/-- FP_LOOP_STOP. -/
def execFpLoopStop (port : Nat) (s : State) : Out :=
  onHostIf (decide (port < 8)) (fun d =>
    d.inDomain 3 (fun d => if (d.link (fabLink port)).st = .loop then d.endLoop (fabLink port) 0 else d)) s

/-! ## Power domain (R253) -/

/-- The domain of a head port is switched off: a loss with cause DOMAIN where it was UP, then OFF and reset values. -/
def Dev.headOff (d : Dev) (p : Nat) : Dev :=
  let l := d.linkOf p
  let d1 := if (d.link l).st = .up then d.linkLoss l 10 else d
  let own := fun (a : Nat) => decide (0x100000 + 0x1000 * p ≤ a) && decide (a < 0x100000 + 0x1000 * (p + 1))
  { d1 with regs := d1.regs.filter (fun e => !own e.1), links := d1.links.drop p, lanes := d1.lanes.drop p, ports := d1.ports.drop p }

end Sys2Proof.Machine
end

