-- ==== Sys2Proof/Machine/Verdict.lean ====
section
/-! DEFINITION. Verdicts, gates and pulses, the event log, the 1 ms intervals, the level commands (13 R349–R370, 00_scope R518,
17 R461). -/

namespace Sys2Proof.Machine

/-! ## Pulses and gates (R359–R363) -/

/-- Gate position G of an item on an output (R359). -/
def Dev.gateOf (d : Dev) (i : Item) (o : Nat) : Nat := i.start + d.get64 (R.VRD_GATE_LO o)

/-- Output `o` is enabled and selects the item's input. -/
def Dev.selects (d : Dev) (o : Nat) (i : Item) : Bool := d.is (R.VRD_CFG_EN o) && hasBit (d.get (R.VRD_CFG_INPUTS o)) i.input

/-- VMASK bit of a verdict (R359). -/
def Verdict.maskBit : Verdict → Nat
  | .markedOk => 0
  | .fail => 1
  | .notMarked => 2
  | .pending => 3

/-- A pulse begins on an output: VRD_WIDTH µs on the device clock (R359). -/
def Dev.pulse (d : Dev) (o : Nat) : Dev :=
  (({ d with evt := { d.evt with pulses := (o, d.now + 1000 * d.get (R.VRD_WIDTH o)) :: d.evt.pulses } }).setB
    (R.VRD_STATUS_ACTIVE o) true).bump (R.VRD_PULSE_CNT o) 1

/-- The gate of an item on an output is reached (R359–R361); the margin counts the whole lines of both levels, as the example after Table 13.4 does. [DEDUCED, unsafe, log 36] -/
def Dev.atGate (d : Dev) (o : Nat) (i : Item) : Dev :=
  let d1 := d.updItem i.num (fun i => { i with outs := o :: i.outs, due := i.due.erase o })
  let d2 := when (hasBit (d.get (R.VRD_CFG_VMASK o)) i.verdict.maskBit) (fun d => d.pulse o) d1
  match i.decidedAt with
  | some w => d2.keepMin (R.VRD_MARGIN_MIN o) (d.gateOf i o / 65536 - w / 65536)
  | none =>
    (((d2.updItem i.num (fun i => { i with lateGate := true })).bump R.VRD_LATE_CNT 1).keepMin (R.VRD_MARGIN_MIN o) 0).raiseItem
      Ev.VERDICT_LATE o i.num

/-- The gates the weir level reaches by its rise from `old` are due on this clock (R359). [DEDUCED, unsafe, log 36] -/
def Dev.gates (d : Dev) (old : Nat) : Dev :=
  { d with items := d.items.map (fun i =>
      let l := (List.range 4).filter (fun o => d.selects o i && !i.outs.contains o && !i.due.contains o &&
        decide (old < d.gateOf i o) && decide (d.gateOf i o ≤ d.pos.weir))
      if l.isEmpty then i else { i with due := i.due ++ l }) }

/-- VIO carries the 3.3 V pins: PWR_SUPPLY_STATUS has it in range. R506 names 2.7 V; the model's one bit of VIO stands for both bounds. [DESIGN CHOICE, unsafe, log 104] -/
def Dev.vioUp (d : Dev) : Bool := hasBit (d.get R.PWR_SUPPLY_STATUS) 6

/-- The outputs are held at the levels of R470, not yet at those of the registers: reset, KEEP, and BOOT before the store step. -/
def Dev.pinsHeld (d : Dev) : Bool :=
  !d.awake || d.dstate == .keep || (d.dstate == .boot && decide (d.get R.DEV_STATE_BOOT_STEP < 5))

/-- What drives pin VRDn: nothing below VIO (high impedance, 20 R506); low from PORST_N assertion until the store step of a boot, then the
inactive level of POL until IDLE, and from then on active while a pulse runs (R359, R363, 17 R470). -/
def Dev.vrdDrive (d : Dev) (o : Nat) : Option Bool :=
  let rest := d.is (R.VRD_CFG_POL o)
  if !d.vioUp then none
  else if d.pinsHeld then some false
  else if d.dstate = .boot then some rest
  else some (d.is (R.VRD_STATUS_ACTIVE o) != rest)

/-- The level of pin VRDn, true = high: what is driven, else low by the pull-down (20 R506). -/
def Dev.vrdPin (d : Dev) (o : Nat) : Bool := (d.vrdDrive o).getD false

/-- What drives LINE_HOLD_REQ, active high (07 R223, 17 R470, 20 R506). -/
def Dev.holdDrive (d : Dev) : Option Bool :=
  if !d.vioUp then none else if d.pinsHeld then some false else some (d.is R.LAS_STATUS_HOLD)

/-- The level of LINE_HOLD_REQ. -/
def Dev.holdPin (d : Dev) : Bool := d.holdDrive.getD false

/-- PULSE_END: a pulse of the output ends; the output stays active while another runs (R359). -/
def Dev.pulseEnd (d : Dev) (o : Nat) : Dev :=
  let rest := match d.evt.pulses.reverse.find? (fun p => p.1 == o) with
    | some p => d.evt.pulses.erase p
    | none => d.evt.pulses
  ({ d with evt := { d.evt with pulses := rest } }).setB (R.VRD_STATUS_ACTIVE o) (rest.any (fun p => p.1 == o))

/-- PULSE_END. -/
def execPulseEnd (output : Nat) (s : State) : Out := onDevIf (decide (output < 4)) (fun d => d.pulseEnd output) s

/-! ## Decision (R353–R358) -/

/-- The item record of retention, offsets 0x010–0x03F of Table 17.3. -/
def Dev.retItem (d : Dev) (i : Item) : List Nat :=
  let job := match d.jobAt (floorLine i.start) with
    | some q => (d.slot q).hdr.jobId
    | none => 0
  [i.num, i.verdict.code + 256 * i.input, i.causes, d.get R.ITM_NEXT, d.pos.weir % 2 ^ 32, d.pos.weir / 2 ^ 32,
   d.tim.sec % 2 ^ 32, d.tim.sec / 2 ^ 32, d.tim.ns, d.job.gen, job % 2 ^ 32, job / 2 ^ 32]

/-- The verdict ring takes an entry; an overwritten entry that was not read is lost (R358). -/
def Dev.ringWrite (d : Dev) (e : VrdEntry) : Dev :=
  let h := d.get R.VRD_RING_HEAD
  let lost := decide (4096 ≤ (h + 2 ^ 32 - d.get R.VRD_RING_READ) % 2 ^ 32)
  let d1 := { d with evt := { d.evt with ring := d.evt.ring.put (h % 4096) e } }.wrap R.VRD_RING_HEAD 1
  when lost (fun d => (d.bump R.VRD_RING_LOST 1).occur Ev.VERDICT_LOST 0 1) d1

/-- Counter of a verdict. -/
def Dev.countVerdict (d : Dev) (v : Verdict) : Dev :=
  match v with
  | .markedOk => d.bump R.VRD_OK_CNT 1
  | .fail => d.bump R.VRD_FAIL_CNT 1
  | .notMarked => d.bump R.VRD_NM_CNT 1
  | .pending => d

/-- VERDICT payload (14 Table 14.2). -/
def Item.verdictPayload (i : Item) : List Byte :=
  bytesOf 4 i.num ++ bytesOf 1 (if i.attempted then 1 else 0) ++ bytesOf 3 0 ++ bytesOf 4 i.causes

/-- An item is decided: verdict, ring entry, counters, retention, and a member's VERDICT to the origin (R354, R357, R358). -/
def Dev.decideItem (d : Dev) (num : Nat) : Dev :=
  match d.item? num with
  | none => d
  | some i =>
    if i.decidedAt.isSome then d
    else
      let v := verdictOf i.causes i.attempted
      let j := { i with verdict := v.1, causes := v.2, decidedAt := some d.pos.weir, sent := decide (8 ≤ i.input) }
      let d1 := d.updItem num (fun _ => j)
      let d2 := (d1.ringWrite
        { item := num, verdict := v.1, attempted := i.attempted, late := i.lateGate, origin := i.dist,
          fabric := decide (8 ≤ i.input), input := i.input, causes := v.2,
          key := ((d.recOf i).map (·.key)).getD 0 }).countVerdict v.1
      let d3 := { d2 with evt := { d2.evt with latched := d2.evt.latched ++ [d2.retItem j] } }
      if 8 ≤ i.input then d3.sendTo i.origin 9 j.verdictPayload else d3

/-- An item leaves the queue after its decision and its gates, its record with it (R362, 05 R155). [DEDUCED, unsafe, log 36] -/
def Dev.itemsLeave (d : Dev) : Dev :=
  let goes := fun (i : Item) => i.decidedAt.isSome &&
    (if 8 ≤ i.input then i.sent
     else i.due.isEmpty && (List.range 4).all (fun o => !d.selects o i || i.outs.contains o || decide (d.gateOf i o ≤ d.pos.weir)))
  let gone := (d.items.filter goes).map (·.num)
  { d with
    items := d.items.filter (fun i => !goes i)
    cmp := { d.cmp with recs := d.cmp.recs.filter (fun r => !(r.bound.map gone.contains).getD false) } }

/-- Fire steps up to which row `r` may touch an item under a profile. -/
def rowEnd (p : SMap Word) (r : Nat) (i : Item) : Nat := i.extentEnd + classDelay p (rowClass p r)

/-- Row `r` has issued or withheld every step at which it touches the item (R355). -/
def Dev.rowDone (d : Dev) (i : Item) (r : Nat) : Bool :=
  let from_ := (d.pos.rows.get {} r).next
  let stop := d.older.foldl (fun m g => max m (rowEnd g.2.2 r i))
    (max (rowEnd d.active r i) (max (rowEnd d.retired r i) (rowEnd d.regs r i)))
  (List.range (stop - from_)).all (fun n => !(rowOn (d.fireProf (from_ + n)) r && d.touchesRow i r (from_ + n)))

/-- Line `l` is being re-expanded by a resume that still has time (03 R115). -/
def Dev.resumeHolds (d : Dev) (l : Nat) : Bool :=
  match d.job.resume with
  | some r => !r.lateRaised && decide (r.keep ≤ l) && decide (l ≤ r.frontier)
  | none => false

/-- Raster line `L` has completed intake, or is a placeholder or ZERO (R355): every line is by its fetch, but for those a resume holds. -/
def Dev.lineDone (d : Dev) (l : Nat) : Bool :=
  (decide (l < d.pos.nextFetch) && !d.resumeHolds l) || (decide (l < d.pos.nextRel) && d.ledgerAt l != .missing)

/-- Every band-slice of a line that the item touches has been reported (R355). -/
def Dev.bandsDone (d : Dev) (i : Item) (l : Nat) : Bool :=
  match d.releasedAmong (d.job.order ++ (d.job.slots.filter (fun x => decide (15 < x.1))).map (·.1)) l with
  | none => true
  | some (q, j) =>
    let b := j / (d.slot q).hdr.bandLines
    (List.range 32).all (fun s => !hasBit (d.portMask i) s || !hasBit (d.slot q).hdr.sliceMask s ||
      d.exp.reported.any (fun x => x.slot == q && x.band == b && x.slice == s))

/-- Everything R355 asks of this device's own checks. -/
def Dev.ownDone (d : Dev) (i : Item) : Bool :=
  (i.noTemplate || (i.resolved && i.rends.all (fun r => r.st == .done || r.st == .late))) &&
  (List.range (i.extentEnd - floorLine i.start)).all (fun n =>
    d.lineDone (floorLine i.start + n) && d.bandsDone i (floorLine i.start + n)) &&
  (List.range 512).all (fun r => d.rowDone i r) &&
  (List.range 32).all (fun p => !hasBit (d.portMask i) p ||
    (d.port p).steps.all (fun x => x.lapsed || !d.touchesPort i p x.k))

/-- ITEM_DECIDED: the last check that concerns the item has reported; an origin item still awaits its members (R355, R357). -/
def Dev.itemDecided (d : Dev) (num : Nat) : Dev :=
  match d.item? num with
  | none => d
  | some i =>
    if i.decidedAt.isSome || !d.ownDone i then d
    else if i.dist && !i.awaiting.isEmpty then
      if i.ownAt.isSome then d else (d.pastCauses num).updItem num (fun i => { i with ownAt := some d.pos.weir })
    else ((d.pastCauses num).decideItem num).itemsLeave

/-- A member's verdict is missing VRD_REMOTE_TMO lines after the own decision (R357). -/
def Dev.remoteMissing (d : Dev) (i : Item) : Dev :=
  let d1 := forEach i.awaiting (fun d a => d.raiseItem Ev.REMOTE_VERDICT_MISSING a i.num) d
  (d1.updItem i.num (fun i => { i.receive .remote with attempted := true, awaiting := [] })).decideItem i.num

/-- Origin items whose time for members' verdicts is over (R357). [DEDUCED, unsafe, log 38] -/
def Dev.remoteDeadlines (d : Dev) : Dev :=
  forEach (d.items.filter (fun i => i.decidedAt.isNone &&
    (i.ownAt.map (fun w => decide (w + 65536 * d.get R.VRD_REMOTE_TMO ≤ d.pos.weir))).getD false)) (fun d i => d.remoteMissing i) d

/-! ## Retention (17 R461) -/

/-- A word of retention. -/
def Keep.retWord (k : Keep) (i : Nat) : Nat := ((k.ret.find? i).getD 0).toNat

/-- Stores words of retention from word `i` on, and the magic. -/
def Keep.putRet (k : Keep) (i : Nat) (ws : List Nat) : Keep :=
  let m0 : SMap Word := k.ret.put 0 (BitVec.ofNat 32 0x504B5844)
  let m1 := ((List.range ws.length).zip ws).foldl (fun (m : SMap Word) e => m.put (i + e.1) (BitVec.ofNat 32 e.2)) m0
  { k with ret := m1 }

/-- An item record enters retention. -/
def Keep.putItem (k : Keep) (ws : List Nat) : Keep := (k.putRet 2 [k.retWord 2 + 1]).putRet 4 ws

/-- An event enters the next event slot. -/
def Keep.putEvent (k : Keep) (e : EvEntry) : Keep :=
  let slot := k.retWord 3 % 16
  let b := e.bytes
  let ws := (wordsOf (b.take 8)).map (·.toNat) ++ [e.tsec] ++ (wordsOf (b.drop 16)).map (·.toNat)
  ((k.putRet 1 [k.retWord 1 + 1]).putRet 3 [(slot + 1) % 16]).putRet (16 + 7 * slot) ws

/-- The latched item records are committed to the keeper. -/
def keepCommit (s : State) : State :=
  { s with
    dev := { s.dev with evt := { s.dev.evt with latched := [] } }
    nv := { s.nv with keep := s.dev.evt.latched.foldl Keep.putItem s.nv.keep } }

/-- An effect on the device that may decide items. -/
def onDevKeep (ok : Bool) (f : Dev → Dev) (s : State) : Out :=
  if ok then .next (if s.dev.awake then keepCommit { s with dev := f s.dev } else s) else .fault .noSuchInstance

/-- The same for a host command. -/
def onHostKeep (ok : Bool) (f : Dev → Dev) (s : State) : Out := onDevKeep ok (fun d => d.hosted f) s

/-- A gate of an item that is due is passed: an item that can be decided on this clock offers its decided verdict (R360). -/
def Dev.passGate (d : Dev) (num o : Nat) : Dev :=
  let d1 := d.itemDecided num
  match d1.item? num with
  | some i => if i.due.contains o then d1.atGate o i else d1
  | none => d1

/-- The end of a clock: echo deadlines (09 R273), then the gates that are due, then the items that leave (R360, R362). [DESIGN CHOICE, unsafe, log 3; DEDUCED, unsafe, log 36] -/
def Dev.endClock (d : Dev) : Dev :=
  let d1 := d.echoesLapse
  match d1.items.flatMap (fun i => i.due.map (fun o => (i.num, o))) with
  | [] => d1
  | l => (forEach l (fun d x => d.passGate x.1 x.2) d1).itemsLeave

/-- One clock of 1 ns without a command: what falls at the end of the clock, the datapath clock, device time while the device is awake,
the keeper's crystal. [DESIGN CHOICE, unsafe, log 3] -/
def State.idleClock (s : State) : State :=
  let s1 := if s.dev.awake then keepCommit { s with dev := s.dev.endClock } else s
  { s1 with
    dev := { s1.dev.ifAwake Dev.tickTime with now := s1.dev.now + 1 }
    nv := { s1.nv with keep := s1.nv.keep.tick } }

/-- ITEM_DECIDED. [DEDUCED, unsafe, log 38] -/
def execItemDecided (item : Nat) (s : State) : Out := onDevKeep true (fun d => d.itemDecided item) s

/-! ## The event log (R364–R366) -/

/-- Class of an event code: 0 info, 1 warning, 2 fault, 3 critical. -/
def EvEntry.cls (e : EvEntry) : Nat := e.code / 0x4000 % 4

/-- The interrupt of a written entry (R366). -/
def Dev.logIrq (d : Dev) (e : EvEntry) : Dev :=
  if d.is R.EVT_IRQ_EN && decide (d.get R.EVT_IRQ_CLASS ≤ e.cls) && !d.is R.EVT_IRQ_STATUS_PEND then
    (d.setB R.EVT_IRQ_STATUS_PEND true).emit (.msix (d.get R.EVT_IRQ_VEC))
  else d

/-- The log takes an entry; an overwritten entry that was not read is lost (R364). -/
def Dev.logWrite (d : Dev) (e : EvEntry) : Dev :=
  let h := d.get R.EVT_HEAD
  let lost := decide (1024 ≤ (h + 2 ^ 32 - d.get R.EVT_READ) % 2 ^ 32)
  ((when lost (fun (d : Dev) => d.bump R.EVT_LOST 1)
    ({ d with evt := { d.evt with log := d.evt.log.put (h % 1024) e } }.freshWords 9 (8192 + 8 * (h % 1024)) (8200 + 8 * (h % 1024)))).wrap
      R.EVT_HEAD 1).logIrq e

/-- EVENT_LOG_WRITE: the oldest waiting event is written, a critical one to retention also (R364, R365). -/
def execEventLogWrite (s : State) : Out :=
  match s.dev.awake, s.dev.evt.queue with
  | false, _ => .next s
  | _, [] => .next s
  | true, e :: rest =>
    let d := { s.dev with evt := { s.dev.evt with queue := rest } }.logWrite e
    .next { s with dev := d, nv := if e.cls = 3 then { s.nv with keep := s.nv.keep.putEvent e } else s.nv }

/-! ## 1 ms intervals (00_scope R518) -/

/-- A count of occurrences in a field of `w` bits: it saturates (R518). -/
def occCount (w n : Nat) : Nat := min n (2 ^ w - 1)

/-- Detail of a rate-limited event of one instance. -/
def occDetail (code inst n : Nat) : Nat :=
  if code = Ev.FRAME_ERROR ∨ code = Ev.LANE_CODE_ERR ∨ code = Ev.ECC_CORRECTED ∨ code = Ev.CRC_WRITE_DISCARDED then
    inst % 32 + 65536 * occCount 16 n
  else if code = Ev.REFRESH_FORCED then inst
  else occCount 32 n

/-- Late bursts of a channel: instances are channel + 2 × port (10 R291). -/
def lateOf (occ : List ((Nat × Nat) × Nat)) (c : Nat) : Nat × Nat :=
  (occ.filter (fun e => e.1.1 == Ev.LATENCY_LATE && e.1.2 % 2 == c)).foldl
    (fun m e => (orBit m.1 (e.1.2 / 2), m.2 + e.2)) (0, 0)

/-- INTERVAL_1MS: every rate-limited event with an occurrence is raised with its count, and the counts restart (R518). -/
def Dev.interval (d : Dev) : Dev :=
  let occ := d.evt.occ
  let d1 := forEach (occ.filter (fun e => e.1.1 != Ev.LATENCY_LATE)) (fun d e => d.raise e.1.1 (occDetail e.1.1 e.1.2 e.2))
    { d with evt := { d.evt with occ := [] } }
  forEach (List.range 2) (fun d c =>
    let m := lateOf occ c
    if m.2 = 0 then d else d.raise Ev.LATENCY_LATE (c + 256 * m.1 + 65536 * occCount 32 m.2)) d1

/-- INTERVAL_1MS. -/
def execInterval1ms (s : State) : Out := onDev Dev.interval s

/-! ## Level commands (R368–R370) -/

/-- The level falls: LEVEL_RESTORED, no cause stays latched (R367), what the new level calls for (R368, R369). [DESIGN CHOICE, unsafe, log 118] -/
def Dev.levelFalls (d : Dev) (new : Level) : Dev :=
  let d1 := ({ d with level := new, evt := { d.evt with lvlLatched := 0 } }).raise Ev.LEVEL_RESTORED
    (new.code + 4 * d.level.code + 256 * d.evt.lvlLatched)
  let d2 := { d1 with job := { d1.job with wells := d1.job.wells.map (fun (e : Nat × Well) =>
    (e.1, if (placeChannels e.2.place).any d1.chOut then e.2 else { e.2 with unread := false })) } }
  let d3 := if new = .reduced then d2.reducedEffects else d2
  d3.reRate

/-- EVT_LEVEL_CMD.CLEAR (R368, R370). [DEDUCED, safe, log 103] -/
def Dev.levelClear (d : Dev) : Dev :=
  if d.level ≠ .basic then d.set R.EVT_LEVEL_RESULT_CODE 2
  else if d.wantLevel = .basic then d.set R.EVT_LEVEL_RESULT_CODE 3
  else
    let d1 := (d.levelFalls d.wantLevel).set R.EVT_LEVEL_RESULT_CODE 0
    if d.dstate = .run then ({ d1 with evt := { d1.evt with resumeReq := true } }).raise Ev.RESUME_REQUIRED 0 else d1

/-- CLEAR. -/
def execClear (s : State) : Out := onHost Dev.levelClear s

/-- EVT_LEVEL_CMD.RESTORE (R368). [DEDUCED, safe, log 103] -/
def Dev.levelRestore (d : Dev) : Dev :=
  if d.level ≠ .reduced then d.set R.EVT_LEVEL_RESULT_CODE 2
  else if d.wantLevel ≠ .full then d.set R.EVT_LEVEL_RESULT_CODE 3
  else (d.levelFalls .full).set R.EVT_LEVEL_RESULT_CODE 0

/-- RESTORE. -/
def execRestore (s : State) : Out := onHost Dev.levelRestore s

end Sys2Proof.Machine
end

