-- ==== Sys2Proof/Machine/Pipeline.lean ====
section
/-! DEFINITION. What a rise of the weir level sets off: release and fetch (01 R21–R26, 03 R99–R106, 07 R217–R222), then
POSITION_UPDATE, LOAD and RESTORE_LOAD (02 R52–R66), triggers and items (02 R67–R73), the fire scheduler (02 R74–R82). -/

namespace Sys2Proof.Machine

/-! ## Release (01 R21, 03 R99–R102, R109) -/

/-- A scheduled swap takes effect at the release of its line, or at the next release where its line already has been released
(LOAD below the release frontier); a fabric swap only once it is granted (03 R109, 14 R396). [DEDUCED, unsafe, log 31] -/
def Dev.releaseSwap (d : Dev) (l : Nat) : Dev :=
  match d.job.swap with
  | some q =>
    match q.n with
    | some n =>
      if n ≤ l ∧ (q.fabric = false ∨ q.granted = true) ∧ d.printing = true then (d.applySwap n n).reSluiceAll else d
    | none => d
  | none => d

/-- The slot whose line `l` is, in RUN: the ACTIVE job, or the HEAD job that starts here (03 R99). -/
def Dev.jobReleasing (d : Dev) (l : Nat) : Option Nat :=
  if d.dstate ≠ .run then none
  else match d.headSlot with
    | none => none
    | some q =>
      let x := d.slot q
      match x.s with
      | none => none
      | some s =>
        if x.st = .active ∧ s ≤ l ∧ l < s + x.lines then some q
        else if x.st = .head ∧ s = l then some q
        else none

/-- The first line of the head job is released: ACTIVE and JOB_STARTED (03 R99). [DEDUCED, unsafe, log 29] -/
def Dev.startJob (d : Dev) (q : Nat) : Dev :=
  let x := d.slot q
  if x.st = .head then
    (d.setSlot q { x with st := .active }).raise Ev.JOB_STARTED (q + 65536 * (x.s.getD 0 % 2 ^ 48))
  else d

/-- A raster line of a job is released: ledger MISSING, engines and dose mapping; the last line commits the job (03 R101,
07 R202, R210). -/
def Dev.releaseJobLine (d : Dev) (q l : Nat) : Dev :=
  let d1 := d.startJob q
  let x := d1.slot q
  let j := x.firstBand * x.hdr.bandLines + x.released
  let total := x.lines
  let d2 := ((d1.setSlot q { x with released := x.released + 1 }).setLedger l .missing).feedEngines q l j (!x.deep)
  let d3 := if x.deep then d2
    else { d2 with dos := { d2.dos with queue := d2.dos.queue ++ [{ line := l, slot := q, jline := j, toStage := true }] } }
  if x.released + 1 = total then (d3.endActive q 1).advance else d3

/-- A raster line that belongs to no job: ZERO; the items it touches receive NO_JOB (03 R100, R102, 07 R210). -/
def Dev.releaseZero (d : Dev) (l : Nat) : Dev := (d.setLedger l .zero).causeItems .noJob (fun i => i.touchesLine l)

/-- The aborted jobs whose first unreleased line is `l`: the release of that line reports their band cut short (04 R130). -/
def Dev.cutAt (d : Dev) (l : Nat) : List Nat :=
  d.job.order.filter (fun q =>
    let x := d.slot q
    x.st == .ended && x.outcome == 2 && decide (1 ≤ x.released) && x.s == some (l - x.released) && decide (x.released ≤ l))

/-- Release of raster line `l` (01 R21). -/
def Dev.release (d : Dev) (l : Nat) : Dev :=
  let d1 := forEach (d.cutAt l) (fun (d : Dev) q => d.cutBand q) (d.releaseSwap l)
  let d2 := match d1.jobReleasing l with
    | some q => d1.releaseJobLine q l
    | none => d1.releaseZero l
  { d2 with pos := { d2.pos with nextRel := l + 1 } }

/-- Every release the weir level calls for. [DEDUCED, unsafe, log 33] -/
def Dev.releaseAll (d : Dev) : Dev :=
  forEach ((List.range (floorLine d.pos.weir + d.job.workW + 1 - d.pos.nextRel)).map (fun i => d.pos.nextRel + i))
    Dev.release d

/-! ## Fetch (01 R22–R25, 07 R217–R222) -/

/-- Raster line `l` has been released and has not completed intake (01 R24). -/
def Dev.incomplete (d : Dev) (l : Nat) : Bool :=
  d.ledgerAt l == .missing &&
    (d.dos.queue.any (fun x => x.line == l) ||
      match d.releasedBy l with
      | some (q, _) => (d.slot q).deep
      | none => false)

/-- A DRY placeholder for line `l`; what the pipeline still makes of it is discarded (01 R24). [DEDUCED, unsafe, log 60] -/
def Dev.placeDry (d : Dev) (l : Nat) : Dev := ((d.setLedger l .dry).doseDiscard l).deadlineEngines l

/-- RESUME_LATE: the weir level reaches N − F before the refill is complete; missing lines whose deadline is past are placed
(03 R115). [DEDUCED, unsafe, log 42] -/
def Dev.resumeLate (d : Dev) : Dev :=
  match d.job.resume with
  | some r =>
    if !r.lateRaised && decide (r.n * 65536 ≤ d.pos.weir + d.job.fetchF * 65536) && !d.refilled r then
      let d1 := ({ d with job := { d.job with resume := some { r with lateRaised := true } } }).raise Ev.RESUME_LATE
        (65536 * (r.n % 2 ^ 48))
      forEach (((List.range (r.frontier + 1 - r.keep)).map (fun i => r.keep + i)).filter
        (fun l => decide (l < d.pos.nextFetch) && d.ledgerAt l == .missing)) Dev.placeDry d1
    else d
  | none => d

/-- The intake deadline of line `l` (01 R22, R24). -/
def Dev.intakeDeadline (d : Dev) (l : Nat) : Dev :=
  if d.incomplete l && !d.resumeHolds l then d.placeDry l else d.deadlineEngines l

/-- Fire step `k` was passed by LOAD or RESTORE_LOAD (02 R56, R66). -/
def Dev.skipped (d : Dev) (k : Nat) : Bool := d.pos.skips.any (fun r => decide (r.1 ≤ k) && decide (k ≤ r.2))

/-- Port lines held in the staging of a port (07 R218). -/
def Dev.staged (d : Dev) (p : Nat) : Nat := ((d.port p).steps.filter (fun r => !r.sent)).length

/-- A port line goes to staging; one of a port that is not READY is discarded (07 R218, 09 R277). -/
def Dev.stageLine (d : Dev) (p k : Nat) (dry : Bool) (bytes : List Byte) : Dev :=
  if d.portReady p then
    let x := d.port p
    (d.freshWords 8 (stagingWord p k) (stagingWord p k + 512)).setPort p { x with steps := x.steps ++
      [{ k := k, dry := dry, check := lineCheck (p - d.linkOf p) dry (k % 65536) bytes, bytes := bytes, sent := false, seq := 0, mask := 0,
         deadline := none }] }
  else d

/-- What a fetch gathers: mask of dry ports, dry causes, mask of shut ports. -/
structure Gather where
  dry : Nat := 0
  causes : Nat := 0
  shut : Nat := 0
  deriving DecidableEq, Repr

/-- One port of a fetch (07 R219–R222). -/
def Dev.fetchPort (k : Nat) (blank : Bool) (x : Dev × Gather) (p : Nat) : Dev × Gather :=
  let d := x.1
  let g := x.2
  if 8 ≤ d.staged p then
    if blank then (d, g)
    else
      let y := d.port p
      ((d.setPort p { y with shuts := k :: y.shuts }).bump R.LAS_SHUT_CNT 1, { g with shut := orBit g.shut p })
  else if blank then (d.stageLine p k false (List.replicate (1024 * d.depthS) 0), g)
  else
    let l := d.portLine p k
    let d := d.fetchReads p k
    if l.1 = 0 then (d.stageLine p k false l.2, g)
    else
      let d1 := (d.stageLine p k true l.2).bump R.LAS_DRY_CNT 1
      let d2 := when (hasBit l.1 2) (fun d => d.bump R.LAS_MEM_CNT 1) d1
      (d2.causeItems .dry (fun i => d.touchesPort i p k), { g with dry := orBit g.dry p, causes := g.causes ||| l.1 })

/-- The events of a fetch (07 R220, R221, R223). -/
def Dev.fetchEvents (d : Dev) (k : Nat) (g : Gather) : Dev :=
  let d1 := if g.shut = 0 then d else d.raiseAt Ev.SLUICE_SHUT g.shut k
  if g.dry = 0 then d1
  else (when (d.level != .basic) (fun d => d.raiseAt Ev.DRY_LINE (g.dry + 2 ^ 32 * g.causes) k) d1).holdAssert g.causes

/-- Fetch of fire step `k` (07 R217). -/
def Dev.fetch (d : Dev) (k : Nat) : Dev :=
  let d1 := forEach ((List.range 32).filter (fun p => (d.port p).elemPend.isSome)) (fun (d : Dev) p => d.elemSend p k)
    (d.intakeDeadline k)
  let d2 := if d1.job.resumeRanges.head?.any (fun r => r.2 == k) then { d1 with evt := { d1.evt with resumeReq := false } } else d1
  let d3 :=
    if d2.skipped k then d2
    else
      let r := (portsOf (d2.fireProf k)).foldl (Dev.fetchPort k (d2.inResume k)) (d2, {})
      r.1.fetchEvents k r.2
  let d4 := d3.advanceCisterns k
  { d4 with pos := { d4.pos with nextFetch := k + 1 } }

/-- Every fetch the weir level calls for. [DEDUCED, unsafe, log 33] -/
def Dev.fetchAll (d : Dev) : Dev :=
  forEach ((List.range (floorLine d.pos.weir + d.job.fetchF + 1 - d.pos.nextFetch)).map (fun i => d.pos.nextFetch + i))
    Dev.fetch d.resumeLate

/-! ## The weir level rises -/

/-- What a rise of the weir level from `old` sets off: releases, fetches, then deadlines. [DESIGN CHOICE, safe, log 39] -/
def Dev.pipeline (d : Dev) (old : Nat) : Dev :=
  let d1 := (d.releaseAll.fetchAll.composeAt).drain
  ((d1.remoteDeadlines.gates old).itemsLeave.checkRetention).swapDeadlines

/-- The weir level takes a higher value. [DESIGN CHOICE, safe, log 39] -/
def Dev.weirTo (d : Dev) (w : Nat) : Dev :=
  if d.pos.weir < w then { d with pos := { d.pos with weir := w } }.pipeline d.pos.weir else d

/-- The weir level follows position upward, except in reversal (02 R61, R62). -/
def Dev.weirRise (d : Dev) : Dev := if d.pos.reversal then d else d.weirTo d.repPos

/-- Position and items are tracked (01 Table 1.6). -/
def Dev.tracking (d : Dev) : Bool := d.dstate != .boot

/-- A count of encoder `n` (02 R46–R62). [DESIGN CHOICE, safe, log 39] -/
def Dev.posUpdate (d : Dev) (n : Nat) (x : EncEdge) : Dev :=
  if !d.tracking || !d.is (R.ENC_CFG_EN n) then d.followEdge n (d.enc n).c x
  else
    let src := d.srcEnc == some n
    let moved := d.edgeDelta n x != 0
    let d1 := (d.countEdge n x).edgeChecks n (d.enc n) x
    let d2 := when (src && moved) (fun d => d.setPos d.srcPos) d1
    let d3 := when (moved && (src || d.chkEnc == some n)) Dev.compareCheck d2
    when (src && moved) (fun d => d.checkBack.weirRise) d3

/-- POSITION_UPDATE. Pins are followed also while the device is held. -/
def execPositionUpdate (enc : Nat) (edge : EncEdge) (s : State) : Out :=
  if s.dev.awake then onDevKeep (decide (enc < 4)) (fun d => d.posUpdate enc edge) s
  else onPin (decide (enc < 4)) (fun d => d.followPins enc edge) s

/-! ## LOAD and RESTORE_LOAD (02 R56, R66) -/

/-- The weir level rises to a loaded position: `f` happens at the new level, and the steps it passes are never fired (02 R66). [DEDUCED, unsafe, log 29] -/
def Dev.weirJump (d : Dev) (w : Nat) (f : Dev → Dev) : Dev :=
  (f { d with pos := { d.pos with skips := (floorLine d.pos.weir + 1, floorLine w) :: d.pos.skips, weir := w } }).pipeline d.pos.weir

/-- Position is new: steps issued before are other steps of the substrate (02 R56, 13 R353). [DESIGN CHOICE, unsafe, log 35] -/
def Dev.forgetIssued (d : Dev) : Dev :=
  { d with pos := { d.pos with rows := d.pos.rows.map (fun (e : Nat × RowSt) => (e.1, { e.2 with issued := [] })) } }

/-- POS_CMD.LOAD: in IDLE, and not with position from the fabric (02 R56, 14 R389). [DEDUCED, unsafe, log 29] -/
def Dev.load (d : Dev) : Dev :=
  if d.dstate ≠ .idle ∨ d.get R.POS_CTRL_SRC = 4 then d
  else
    let p := d.get64 R.POS_LD_LO
    let d1 := ((d.latchAt p).setPos p).forgetIssued
    if d.pos.weir < p then d1.weirJump p Dev.endReversal
    else { d1 with pos := { d1.pos with weir := p } }.endReversal

/-- LOAD. -/
def execLoad (s : State) : Out := onHostKeep true Dev.load s

/-- POS_CMD.RESTORE_LOAD (02 R66). [DEDUCED, unsafe, log 29] -/
def Dev.restoreLoad (d : Dev) : Dev :=
  if d.restoreOk && d.get R.POS_CTRL_SRC != 4 then
    let p := d.get64 R.POS_LD_LO
    let d1 := (d.latchAt p).setPos p
    if d.pos.weir < p then d1.weirJump p (fun d => d.restored 1) else d1.restored 1
  else d

/-- RESTORE_LOAD. -/
def execRestoreLoad (s : State) : Out := onHostKeep true Dev.restoreLoad s

/-! ## Triggers and items (02 R67–R73) -/

/-- A new item (02 R69, R70; 05 R154). Inputs 8–15 are fabric-delivered from input − 8. -/
def Dev.newItem (d : Dev) (num input : Nat) (posInv timeInv : Bool) (trigPos tsec tsub origin : Nat) (awaiting : Option (List Nat)) :
    Item :=
  let n := input % 8
  let start := satPos (trigPos + d.aget64 (R.TRG_OFS_LO n))
  { num := num, input := input, posInv := posInv, timeInv := timeInv, trigPos := trigPos, tsec := tsec, tsub := tsub,
    verdict := .pending, start := start, stop := start, lateGate := false,
    causes := if posInv then 2 ^ Cause.position.bit else 0, attempted := false,
    takesRec := d.aget (R.IN_DATA n) == 1, tplInput := n, record := none, dataLate := false, resolved := false, noTemplate := false,
    slot := none, tset := 0, tidx := 0, tFirst := 0, ctrEnd := false, snaps := [], rends := [], outs := [], decidedAt := none,
    dist := awaiting.isSome, origin := origin, ownAt := none, awaiting := awaiting.getD [], sent := false }

/-- The item joins the queue; a waiting swap converts, a waiting job starts, composition takes it (03 R99, R107, R108; 05
R171). [DESIGN CHOICE, unsafe, log 35] -/
def Dev.acceptItem (d : Dev) (i : Item) : Dev :=
  let d1 := { d with items := d.items ++ [i] }
  let d2 := d1.keepMax R.ITM_PEAK d1.items.length
  (((d2.convertOn 1 i.num (ceilLine i.start)).jobAtItem (i.input % 8) i.start).pastCauses i.num).composeAccept i.num

/-- Addresses of the members whose verdicts an origin awaits (13 R357). [DEDUCED, unsafe, log 38] -/
def Dev.otherMembers (d : Dev) : List Nat :=
  (d.fab.roster.filter (fun e => e.1 != d.ownAddr && d.fab.comp.contains e.2)).map (·.1)

/-- The input distributes its triggers over a fabric in which this device has an address (02 R73, 14 R393). [DEDUCED, unsafe, log 38] -/
def Dev.distributes (d : Dev) (n : Nat) : Bool := d.is (R.TRG_CFG_FAB n) && d.fabOn && d.ownAddr != 0xFF

/-- ITEM payload (14 Table 14.2). -/
def Item.payload (i : Item) : List Byte :=
  bytesOf 4 i.num ++ bytesOf 1 i.input ++ bytesOf 1 ((if i.posInv then 1 else 0) + (if i.timeInv then 2 else 0)) ++ bytesOf 2 0 ++
    bytesOf 8 i.trigPos ++ bytesOf 8 i.tsec ++ bytesOf 4 i.tsub

/-- ITEM_CLASH: the number offered is held; the position field carries the trigger position (02 R69). -/
def Dev.itemClash (d : Dev) (num n pos : Nat) : Dev :=
  d.post { d.event Ev.ITEM_CLASH (num + 2 ^ 32 * n) none none with pos := pos }

/-- ITEM_OVERFLOW (02 R72). -/
def Dev.itemOverflow (d : Dev) (n pos : Nat) : Dev :=
  (d.setB R.ITM_STATUS_OVF true).raise Ev.ITEM_OVERFLOW (floorLine pos % 2 ^ 48 + 2 ^ 48 * n)

/-- An accepted trigger at stamped position `pos` and time `t` (02 R69, R72, R73). -/
def Dev.triggerItem (d : Dev) (n pos t : Nat) : Dev :=
  if 4096 ≤ d.items.length then d.itemOverflow n pos
  else
    let num := d.get R.ITM_NEXT
    let d1 := d.wrap R.ITM_NEXT 1
    if (d.item? num).isSome then d1.itemClash num n pos
    else
      let dist := d.distributes n
      let i := d.newItem num n (!d.is R.POS_STATUS_VALID) (!d.is R.TIM_STATUS_VALID) pos (t / nsPerSec) (t % nsPerSec) 0
        (if dist then some d.otherMembers else none)
      let d2 := if dist then d1.flood 8 i.payload else d1
      d2.acceptItem i

/-- TRIGGER_ACCEPT: the pin has held its level for the filter time; stamp of the pin edge, hold-off, item (02 R67, R68). [DESIGN CHOICE, unsafe, log 113] -/
def Dev.triggerAccept (d : Dev) (n : Nat) : Dev :=
  let x := d.trg n
  match x.edgeAt with
  | none => d
  | some _ =>
    let d1 := d.setTrg n { x with edgeAt := none }
    if !d.tracking || !d.is (R.TRG_CFG_EN n) then d1
    else
      let back := d.get (R.TRG_FILT n) + 3
      let pos := satPos (d.extrap ((d.now : Int) - back)).toNat
      let rej := match x.lastPos with
        | some p => decide (pos < p + d.get (R.TRG_HOLD n))
        | none => false
      if rej then d1.bump (R.TRG_REJ_CNT n) 1
      else ((d1.setTrg n { x with edgeAt := none, lastPos := some pos }).bump (R.TRG_CNT n) 1).triggerItem n pos (d.timeNs - back)

/-- TRIGGER_ACCEPT. -/
def execTriggerAccept (input : Nat) (s : State) : Out := onDevIf (decide (input < 8)) (fun d => d.triggerAccept input) s

/-! ## The fire scheduler (02 R74–R82, 09 R264, R268) -/

/-- A row of the scheduler. -/
def Dev.row (d : Dev) (r : Nat) : RowSt := d.pos.rows.get {} r

/-- Fire point of row `r` at step `k` (02 R75). -/
def Dev.firePoint (d : Dev) (r k : Nat) : Int :=
  let pr := d.fireProf k
  let theta := (d.vel * toSigned 32 (profGet pr (R.ROW_TFLIGHT r))).fdiv 65536
  (((k : Int) * 65536 + profGet pr (R.ROW_PHASE r) + theta + 128).fdiv 256) * 256

/-- Lead of port `p` (02 R78). -/
def Dev.lead (d : Dev) (p : Nat) : Int := if d.predOn then (d.vel * (160 + d.get (R.HPF_DP p) : Nat)).fdiv 65536 else 0

/-- Lateness p(t) + lead − f of the next step of row `r`; its issue clock has come when this is not negative (02 R79). -/
def Dev.lateness (d : Dev) (r k : Nat) : Int := d.extrap d.now + d.lead (rowPort (d.fireProf k) r) - d.firePoint r k

/-- The window of R77 fails, or the fire point does not lie above the last one issued (02 R77, R79). [DEDUCED, safe, log 27] -/
def Dev.windowFails (d : Dev) (r k p : Nat) (f : Int) : Bool :=
  let lo := ((k : Int) - ((d.job.fetchF : Int) - 1)) * 65536
  let hi := ((k : Int) + d.get (R.HPF_HP p) - d.job.fetchF) * 65536
  decide (f < lo) || decide (hi < f) || ((d.row r).last.map (fun x => decide (f ≤ x))).getD false

/-- Conditions of R35 other than the last that fail (02 R80). -/
def Dev.notFiring (d : Dev) : List Cause :=
  (if d.dstate = .run then [] else [.notRun]) ++ (if d.level = .basic then [.basic] else []) ++
    (if d.pos.inhibit then [.inhibit] else []) ++ (if d.is R.POS_STATUS_VALID then [] else [.position])

/-- Every reason to withhold row `r` at step `k` (02 R80, 09 R277). [DEDUCED, safe, log 27; DEDUCED, unsafe, log 30] -/
def Dev.withhold (d : Dev) (r k p : Nat) (f : Int) : List Cause :=
  d.notFiring ++ (if d.skipped k ∧ d.is R.POS_STATUS_VALID = true then [.position] else []) ++
    (if d.inResume k ∨ d.evt.resumeReq = true then [.resume] else []) ++
    (if (d.port p).shuts.contains k then [.sluiceShut] else []) ++
    (if d.windowFails r k p f then [.window] else []) ++
    (if d.portReady p = false ∧ d.notFiring = [] then [.stepsLost] else [])

/-- Counters and events of a withheld (row, step). [DEDUCED, unsafe, log 30] -/
def Dev.withheldEvents (d : Dev) (r k p : Nat) (cs : List Cause) : Dev :=
  let d1 := when (cs.contains .inhibit) (fun d => d.bump R.FIR_INH_CNT 1) d
  let d2 := when (cs.contains .window)
    (fun d => (d.bump R.FIR_WIN_CNT 1).raise Ev.FIRE_WINDOW (r + 65536 * (k % 2 ^ 48))) d1
  when (cs.contains .stepsLost) (fun d => d.stepsLost p k) d2

/-- Items that touch a row at a step receive the causes (02 R80). -/
def Dev.causeStep (d : Dev) (r k : Nat) (cs : List Cause) : Dev :=
  forEach cs (fun d c => d.causeItems c (fun i => d.touchesRow i r k)) d

/-- The trigger path of port `p` is free, or its TRIG of this clock and step takes more rows (09 R268). -/
def Dev.pathFree (d : Dev) (p k : Nat) : Bool :=
  decide ((d.port (d.linkOf p)).trigFree ≤ d.now) ||
    match (d.port p).lastTrig with
    | some (t, j, _) => t == d.now && j == k
    | none => false

/-- PHASE of a TRIG that is issued now (09 R267): the line bit of the block slot in which the reference bit stands, 160 ns on; 70 more where
that slot carries an AM or the IDLE block still required, and the TRIG goes into the slot before. Which slot carries that IDLE
block is the transmitter's choice, a free value. [DESIGN CHOICE, safe, log 107] -/
def Dev.phase (d : Dev) (p : Nat) : Nat × Dev :=
  let x := d.link (d.linkOf p)
  let bt := blockTime x.rate
  let t := (d.now + 160) * 100 - x.txOrg
  let (idle, d1) := d.fresh 0x267 1
  (t % bt * 70 / bt + (if t / bt % 4096 = 0 ∨ idle = 1 then 70 else 0), d1)

/-- The TRIG of port `p` at step `k` takes a head row (09 R268, R272). [DESIGN CHOICE, safe, log 28] -/
def Dev.trig (d : Dev) (p k h : Nat) : Dev :=
  let x := d.port p
  let open_ := match x.lastTrig with
    | some (t, j, m) => if t = d.now ∧ j = k then some m else none
    | none => none
  let mask := orBit (open_.getD 0) h
  let d1 := d.setPort p { x with
    lastTrig := some (d.now, k, mask)
    steps := x.steps.map (fun s => if s.k = k then { s with mask := orBit s.mask h } else s) }
  match open_ with
  | some m => { d1 with sent := .trig p k mask x.trigPhase :: d1.sent.erase (.trig p k m x.trigPhase) }
  | none =>
    let l := d.linkOf p
    let (phase, d2) := (d1.setPort l { d1.port l with trigFree := d.now + ceilDiv (2 * blockTime (d.link l).rate) 100 }).phase p
    ((d2.setPort p { d2.port p with trigPhase := phase }).wrap (R.HPF_TRIG_CNT p) 1).emit (.trig p k mask phase)

/-- Row `r` goes on to the step after `k`. -/
def Dev.nextStep (d : Dev) (r k : Nat) (issued : Option Int) : Dev :=
  let x := d.row r
  { d with pos := { d.pos with rows := d.pos.rows.put r { x with
    next := k + 1
    last := match issued with
      | some f => some f
      | none => x.last } } }

/-- Every enabled row of port `p` has been issued or withheld at step `k`: RETIRE on a READY port, and the echo deadline (09 R260, R264,
R273). [DEDUCED, unsafe, log 65] -/
def Dev.checkDecided (d : Dev) (p k : Nat) : Dev :=
  let pr := d.fireProf k
  if (rowsOf pr).all (fun r => rowPort pr r != p || decide (k < (d.row r).next)) then
    let x := d.port p
    let d1 := d.setPort p { x with
      retired := some k
      shuts := x.shuts.erase k
      steps := x.steps.map (fun s =>
        if s.k = k then { s with deadline := some (d.pos.weir + 65536 * d.get (R.HPF_ECHO_TMO p)) } else s) }
    when (d.portReady p) (fun d => d.emit (.retire p k)) d1
  else d

/-- A TRIG is issued: late by more than FIR_LATE_LIM it is still sent (02 R82); the items are attempted (13 R353). [DESIGN CHOICE, unsafe, log 114] -/
def Dev.issue (d : Dev) (r k p : Nat) (f late : Int) : Dev :=
  let d1 := d.trig p k (profGet (d.fireProf k) (R.ROW_HEAD_ROW r))
  let d2 := d1.attempt [r] k
  let d3 := if (d.get R.FIR_LATE_LIM : Int) < late then
      let n := if late < 65536 then late.toNat else Config.counterOver Ev.FIRE_LATE late.toNat % 65536
      ((d2.bump R.FIR_LATE_CNT 1).raise Ev.FIRE_LATE (r + 65536 * n)).causeStep r k [.fireLate]
    else d2
  (d3.nextStep r k (some f)).checkDecided p k

/-- TRIG_ISSUE: the issue clock of row `r` for its next step (02 R79–R82). A TRIG that finds its path busy waits (09 R268). [DEDUCED, safe, log 27] -/
def Dev.trigIssue (d : Dev) (r : Nat) : Dev :=
  let k := (d.row r).next
  let pr := d.fireProf k
  let p := rowPort pr r
  let f := d.firePoint r k
  if !d.tracking || !rowOn pr r || d.pos.reversal || decide (d.lateness r k < 0) then d
  else
    let cs := d.withhold r k p f
    if cs = [] then if d.pathFree p k then d.issue r k p f (d.lateness r k) else d
    else (((d.withheldEvents r k p cs).causeStep r k cs).nextStep r k none).checkDecided p k

/-- TRIG_ISSUE. -/
def execTrigIssue (row : Nat) (s : State) : Out := onDevIf (decide (row < 512)) (fun d => d.trigIssue row) s

end Sys2Proof.Machine
end

