-- ==== Sys2Proof/Machine/FabricIn.lean ====
section
/-! DEFINITION. Position, time, items and verdicts over the fabric (14 R389–R394). -/

namespace Sys2Proof.Machine

/-! ## Position (R389, R391) -/

/-- This device is the anchor of a formed fabric. -/
def Dev.anchors (d : Dev) : Bool := d.fabOn && d.ownAddr != 0xFF && d.isAnchor

/-- POS payload (Table 14.3). -/
def Dev.posPayload (d : Dev) : List Byte :=
  bytesOf 8 (ofSigned 64 d.pos.posInt) ++ bytesOf 8 d.pos.weir ++ bytesOf 4 (ofSigned 32 d.vel) ++
    bytesOf 1 ((if d.is R.POS_STATUS_VALID then 1 else 0) + (if d.pos.reversal then 2 else 0) + (if d.predOn then 4 else 0) +
      (if d.moving then 8 else 0)) ++
    bytesOf 1 (d.get R.POS_STATUS_CAUSE) ++ bytesOf 2 0 ++ timeBytes d.timeNs ++ bytesOf 4 0

/-- POS_PERIOD: the anchor floods POS. -/
def execPosPeriod (s : State) : Out := onDev (fun d => when d.anchors (fun d => d.flood 6 d.posPayload) d) s

/-- Conditions under which fabric position is lost (R391), as kept in `persist`. -/
inductive PosLoss where
  | timeout | invalid | offset
  deriving DecidableEq, Repr

/-- Mark of a loss condition: cause 7 in its low byte. -/
def PosLoss.mark : PosLoss → Nat
  | .timeout => 7
  | .invalid => 7 + 256
  | .offset => 7 + 512

/-- A loss condition holds, or no longer: position from the fabric becomes invalid with cause 7 (R391, 02 R65). [DESIGN CHOICE, unsafe, log 112] -/
def Dev.fabLoss (d : Dev) (x : PosLoss) (on : Bool) : Dev :=
  let rest := d.pos.persist.filter (· != x.mark)
  let d1 := { d with pos := { d.pos with persist := if on then x.mark :: rest else rest } }
  if on && d.get R.POS_CTRL_SRC == 4 then d1.posInvalid 7 0 else d1

/-- The time offset is held against FAB_TIME_LIM: TIME_OFFSET as it comes to exceed it (R391). -/
def Dev.offsetCheck (d : Dev) (ofs : Int) : Dev :=
  let beyond := decide (d.get R.FAB_TIME_LIM < ofs.natAbs)
  (when (beyond && !d.pos.persist.contains PosLoss.offset.mark) (fun d => d.raise Ev.TIME_OFFSET (ofSigned 32 ofs)) d).fabLoss
    .offset beyond

/-- POS_TIMEOUT: no valid POS within FAB_POS_TMO (R391). -/
def execPosTimeout (s : State) : Out := onDev (fun d => d.fabLoss .timeout true) s

/-- The anchor's reversal is taken over (R389, 02 R62). The backward travel in counts is the anchor's alone: REVERSAL carries a
free value. [DEDUCED, unsafe, log 26] -/
def Dev.fabReversal (d : Dev) (on : Bool) : Dev :=
  if on && !d.pos.reversal then
    let x := d.fresh Ev.REVERSAL 32
    ((({ x.2 with pos := { x.2.pos with reversal := true } }).setB R.POS_STATUS_REVERSED true).bump R.REV_CNT 1).raise
      Ev.REVERSAL x.1
  else if !on then d.endReversal
  else d

/-- An accepted POS on a device with SRC = 4: a count in the sense of R59, the anchor's v, weir level, reversal and prediction
(R389). [DEDUCED, unsafe, log 26] -/
def Dev.posMessage (d : Dev) (pl : List Byte) : Dev :=
  if d.get R.POS_CTRL_SRC ≠ 4 ∨ d.tracking = false then d
  else
    let p := toSigned 64 (leAt pl 0 8)
    let fl := leAt pl 0x14 1
    let at_ := d.now + timeAt pl 0x18 - d.timeNs
    let d1 := { d with pos := { d.pos with
      posInt := p, hist := (at_, p) :: pruneHist d.now d.pos.hist, fabVel := toSigned 32 (leAt pl 0x10 4), fabAt := timeAt pl 0x18,
      fabPred := hasBit fl 2 } }
    let d2 := (d1.fabLoss .timeout false).fabLoss .invalid (!hasBit fl 0)
    (d2.fabReversal (hasBit fl 1)).compareCheck.weirTo (leAt pl 8 8)

/-- POS. -/
def execPos (port : Nat) (frame : HFrame) (s : State) : Out :=
  onDevKeep (decide (port < 8)) (fun d => d.fabIn port frame 6 asIs (fromAnchor (fun d _ pl => d.posMessage pl))) s

/-! ## Time (R390, R384) -/

/-- TIME_PERIOD: the anchor floods TIME. -/
def execTimePeriod (s : State) : Out :=
  onDev (fun d => when d.anchors (fun d => d.flood 7 (timeBytes d.timeNs ++ bytesOf 8 0)) d) s

/-- A forwarded TIME: residence time and the link delay of the arrival port are added to the correction (R390). The residence
time is a free value. [DESIGN CHOICE, safe, log 73] -/
def passTime (n : Nat) (d : Dev) (b : List Byte) : List Byte :=
  let res : Nat := Config.freeValue 0x4B07 d.free % 2 ^ 32
  let c : Int := (leAt b 28 8 : Nat) + (res : Int) + 65536 * toSigned 32 (d.get (R.FP_DELAY n))
  b.take 28 ++ bytesOf 8 (ofSigned 64 c) ++ b.drop 36

/-- A signed register field; a value that does not fit is not stated. [DESIGN CHOICE, safe, log 73] -/
def Dev.putSigned (d : Dev) (f : Fld) (v : Int) : Dev :=
  d.set f (if -(2 ^ (f.w - 1) : Int) ≤ v ∧ v < (2 ^ (f.w - 1) : Int) then ofSigned f.w v
    else Config.counterOver f.addr v.natAbs)

/-- The one step to the anchor's time after ASSIGN (R384, 15 R408). [DESIGN CHOICE, safe, log 73] -/
def Dev.fabStep (d : Dev) (ofs : Int) : Dev :=
  let d1 := { d with fab := { d.fab with stepDue := false } }
  if d.fab.stepDue && !d.printing && decide (1000 < ofs.natAbs) then
    (d1.setTime ((d1.timeNs : Int) - ofs).toNat).setB R.TIM_STATUS_VALID true
  else d1

/-- Lock after 8 consecutive messages within 20 ns (R390); lock clears TIM_STATUS.KEEPER (15 R410). -/
def Dev.fabLock (d : Dev) (ofs : Int) : Dev :=
  let n := if ofs.natAbs ≤ 20 then d.fab.lockCnt + 1 else 0
  let d1 := ({ d with fab := { d.fab with lockCnt := n, heard := true } }).setB R.FAB_STATUS_LOCKED (decide (8 ≤ n))
  when (n == 8) (fun d => d.setB R.TIM_STATUS_KEEPER false) d1

/-- A TIME on a member: the offset, the step that is due, the servo, lock, FAB_TIME_LIM (R384, R390, R391). What the servo
writes to TIM_ADJ is a free value. -/
def Dev.timeMessage (d : Dev) (n : Nat) (pl : List Byte) : Dev :=
  if !d.fabOwns then d
  else
    let ofs : Int := (d.timeNs : Int) - timeAt pl 0 - (toSigned 64 (leAt pl 0xC 8)).fdiv 65536 -
      toSigned 32 (d.get (R.FP_DELAY n))
    let d1 := ((d.putSigned R.FAB_TIME_OFS ofs).fabStep ofs).fabLock ofs
    let x := d1.fresh R.TIM_ADJ.addr 32
    let d2 := x.2.putAdj (toSigned 32 x.1)
    (d2.offsetCheck ofs).report

/-- TIME. -/
def execTime (port : Nat) (frame : HFrame) (s : State) : Out :=
  onDevIf (decide (port < 8)) (fun d =>
    let d1 := d.fabIn port frame 7 (passTime port) (fromAnchor (fun d _ pl => d.timeMessage port pl))
    { d1 with free := d1.free + 1 }) s

/-! ## Items and verdicts (R393, R394, 13 R357) -/

/-- A delivered item: created as input 8 + n, or ITEM_NUMBER_CLASH, or ITEM_OVERFLOW (R393). -/
def Dev.itemMessage (d : Dev) (h : FabHdr) (pl : List Byte) : Dev :=
  let num := leAt pl 0 4
  let n := leAt pl 4 1 % 8
  let fl := leAt pl 5 1
  let pos := leAt pl 8 8
  if !d.tracking then d
  else if (d.item? num).isSome then d.raiseItem Ev.ITEM_NUMBER_CLASH (h.src % 64) num
  else if 4096 ≤ d.items.length then d.itemOverflow (8 + n) pos
  else
    let i := d.newItem num (8 + n) (hasBit fl 0) (hasBit fl 1) pos (leAt pl 0x10 8) (leAt pl 0x18 4) h.src none
    d.acceptItem i

/-- ITEM. -/
def execItem (port : Nat) (frame : HFrame) (s : State) : Out :=
  onDevIf (decide (port < 8)) (fun d => d.fabIn port frame 8 asIs (fromMember (fun d h pl => d.itemMessage h pl))) s

/-- A member's VERDICT at the origin: masks and flags are combined; the last one awaited completes the decision (13 R357). -/
def Dev.verdictMessage (d : Dev) (h : FabHdr) (pl : List Byte) : Dev :=
  let num := leAt pl 0 4
  match d.item? num with
  | none => d
  | some i =>
    if i.dist && i.decidedAt.isNone && i.awaiting.contains h.src then
      let rest := i.awaiting.filter (· != h.src)
      let d1 := d.updItem num (fun i => { i with
        causes := i.causes ||| leAt pl 8 4, attempted := i.attempted || hasBit (leAt pl 4 1) 0, awaiting := rest })
      if i.ownAt.isSome && rest.isEmpty then (d1.decideItem num).itemsLeave else d1
    else d

/-- VERDICT. -/
def execVerdict (port : Nat) (frame : HFrame) (s : State) : Out :=
  onDevKeep (decide (port < 8)) (fun d => d.fabIn port frame 9 asIs (fromMember (fun d h pl => d.verdictMessage h pl))) s

end Sys2Proof.Machine
end

