-- ==== Sys2Proof/Machine/Ecc.lean ====
section
/-! DEFINITION. Stored data integrity (11 R312–R329): what a read or write of a code word counts and reports, the error
address log, scrub and fill, test mode. -/

namespace Sys2Proof.Machine

/-! ## Memories (Table 11.1) -/

/-- The memory exists. -/
def eccExists (m : Nat) : Bool := decide (m ≤ 10) || m == 16 || m == 17

/-- A DRAM memory ID. [DEDUCED, unsafe, log 81] -/
def eccDram (m : Nat) : Bool := m == 16 || m == 17

/-- Words of a memory; a DRAM channel has those of its usable capacity (R284). -/
def Dev.eccWords (d : Dev) (m : Nat) : Nat := if eccDram m then d.usable (m - 16) / 8 else eccSramWords m

/-- The power domain a memory lies in (17 Table 17.2): the windows of memory 1 with the decompression engines, the working set of
memory 10 with the compression engines, everything else in PD_CORE. [DEDUCED, unsafe, log 81] -/
def eccDomain (m : Nat) : Nat := if eccDram m then 4 + (m - 16) else if m = 1 then 6 else if m = 10 then 7 else 0

/-! ## DRAM reads and writes with their counts -/

/-- The words that `n` bytes from channel address `a` on lie in. -/
def codeWords (a n : Nat) : List Nat := (List.range ((a + n + 7) / 8 - a / 8)).map (fun i => a / 8 + i)

/-- Reads `n` bytes of a channel for a requester: the counts and log of each word (R315, R316), and the data unless some word
is uncorrectable. -/
def readCounted (d : Dev) (m : Mem) (ch req a n : Nat) : Option (List Byte) × Dev :=
  let d' := forEach (codeWords a n) (fun (d : Dev) w => (d.eccRead (16 + ch) w req ((m.diffs ch).get 0 w)).2) d
  ((List.range n).mapM (fun i => m.readByte ch (a + i)), d')

/-- Writes bytes that lie in one 64-bit word of a channel for a requester (R320–R322); false where the write was refused. -/
def writeCounted (ch req a : Nat) (l : List Byte) (x : Bool × Dev × Mem) : Bool × Dev × Mem :=
  let (ok, d, m) := x
  if l.length = 8 then (ok, d, m.writeWord ch a l)
  else match m.wordKind ch (a / 8) with
    | .clean => (ok, d, m.writeWord ch a l)
    | .fixed _ => (ok, d.bump (R.ECC_PW_FIX_CNT (16 + ch)) 1, m.writeWord ch a l)
    | .bad _ => (false, d.eccRefused (16 + ch) (a / 8) req ((m.diffs ch).get 0 (a / 8)), m)

/-- Writes bytes to a channel for a requester, word by word. -/
def writeAll : Nat → Nat → Nat → Nat → List Byte → Bool × Dev × Mem → Bool × Dev × Mem
  | 0, _, _, _, _, x => x
  | f + 1, ch, req, a, l, x =>
    match l with
    | [] => x
    | _ => writeAll f ch req (a + (8 - a % 8)) (l.drop (8 - a % 8)) (writeCounted ch req a (l.take (8 - a % 8)) x)

/-! ## Scrub and fill (R324–R327) -/

/-- A SCRUB or FILL written to ECC_CMD: discarded with OVR while a scrub or fill runs (R329), its code BUSY (R325) until that run ends; else its
result, counted when accepted. [DEDUCED, unsafe, log 81] -/
def Dev.eccCmd (d : Dev) (f : Dev → Dev × Nat) : Dev :=
  if d.is R.ECC_RESULT_BUSY then (d.setB R.ECC_RESULT_OVR true).set R.ECC_RESULT_CODE 1
  else
    let r := f d
    let d1 := r.1.set R.ECC_RESULT_CODE r.2
    if r.2 = 0 then d1.wrap R.ECC_RESULT_SEQ 1 else d1

/-- The memory's domain is off, or its DRAM channel is absent or out of service (R325). -/
def Dev.eccShut (d : Dev) (m : Nat) : Bool := !d.domOn (eccDomain m) || (eccDram m && !d.chIn (m - 16))

/-- A range of words of a DRAM channel meets a defined well, the cistern region or a defined fallback region (R325). -/
def Dev.rangeInUse (d : Dev) (m start count : Nat) : Bool :=
  eccDram m &&
    (let p := 1 + (m - 16)
     d.meetsWell none p (8 * start) (8 * count) ||
      regionsOverlap p (8 * start) (8 * count) (d.get R.LAS_REG_PLACE) (d.get64 R.LAS_REG_BASE_LO) (d.get64 R.LAS_REG_SIZE_LO) ||
      regionsOverlap p (8 * start) (8 * count) d.las.place d.las.base d.las.size ||
      regionsOverlap p (8 * start) (8 * count) p (d.fallback (m - 16)).1 (d.fallback (m - 16)).2)

/-- SCRUB or FILL (R325). -/
def Dev.eccStart (d : Dev) (fill : Bool) : Dev × Nat :=
  let m := d.get R.ECC_ARG_MEM
  let s := d.get64 R.ECC_ARG_START_LO
  let n := d.get64 R.ECC_ARG_COUNT_LO
  if !eccExists m || decide (d.eccWords m < s + n) then (d, 3)
  else if d.eccShut m then (d, 2)
  else if fill && d.rangeInUse m s n then (d, 7)
  else
    (((({ d with ecc := { d.ecc with run := some { fill := fill, mem := m, start := s, count := n, abort := false, since := d.now } } }.setB
      R.ECC_RESULT_BUSY true).set64 R.ECC_SCRUB_POS_LO s).set R.ECC_SCRUB_FIXED 0).set R.ECC_SCRUB_UE 0, 0)

/-- SCRUB. -/
def execScrub (s : State) : Out := onHost (fun d => d.eccCmd (fun d => d.eccStart false)) s

/-- FILL. -/
def execFill (s : State) : Out := onHost (fun d => d.eccCmd (fun d => d.eccStart true)) s

/-- ABORT is the one command taken while BUSY (R329): the run ends after the word in progress. With nothing running it is
accepted and has no effect. [DEDUCED, unsafe, log 81] -/
def Dev.eccAbort (d : Dev) : Dev :=
  let d1 := d.wrap R.ECC_RESULT_SEQ 1
  match d.ecc.run with
  | some r => { d1 with ecc := { d1.ecc with run := some { r with abort := true } } }
  | none => d1.set R.ECC_RESULT_CODE 0

/-- ECC_ABORT. -/
def execEccAbort (s : State) : Out := onHost (fun d => d.eccAbort) s

/-- Most words a run may have handled by now (R326): of SRAM one in 4 clocks, of DRAM one burst of eight words every ECC_SCRUB_GAP ns, none of them
before the run. The rule speaks of scrubs only. [DEDUCED, unsafe, log 81] -/
def Dev.scrubMost (d : Dev) (r : EccRun) : Nat :=
  if r.fill then r.count
  else if eccDram r.mem then 8 * ((d.now - r.since) / d.get R.ECC_SCRUB_GAP + 1)
  else (d.now - r.since) / 4 + 1

/-- How a run that handled `n` words ends, if it ends: OK when every word was handled, else by what stopped it (R327). -/
def Dev.runResult (d : Dev) (r : EccRun) (n : Nat) : Option Nat :=
  if r.count ≤ n then some 0
  else if r.abort then some 4
  else if eccDram r.mem && !d.domOn (eccDomain r.mem) then some 6
  else if eccDram r.mem && !d.chIn (r.mem - 16) then some 5
  else if !d.domOn (eccDomain r.mem) then some 6
  else none

/-- The scrub of one DRAM word that is not clean (R324): repaired where correctable. Counts words fixed and uncorrectable. -/
def scrubDram (ch : Nat) (x : (Dev × Mem) × Nat × Nat) (e : Nat × Nat) : (Dev × Mem) × Nat × Nat :=
  let ((d, m), f, u) := x
  match m.wordKind ch e.1 with
  | .clean => x
  | .fixed _ => ((d.eccCorrected (16 + ch) e.1, m.repair ch e.1), f + 1, u)
  | .bad k => ((d.eccUncorrectable (16 + ch) e.1 k 16 e.2, m), f, u + 1)

/-- The scrub of one SRAM word that is not clean. -/
def scrubSram (m : Nat) (x : Dev × Nat × Nat) (e : Nat × Nat) : Dev × Nat × Nat :=
  let (d, f, u) := x
  let w := e.1 - eccKey m 0
  match readKind (eccWidth m) (eccChecks m) e.2 with
  | .clean => x
  | .fixed b =>
    let d1 := (d.eccCorrected m w)
    let d2 := { d1 with ecc := { d1.ecc with diffs := d1.ecc.diffs.drop e.1 } }
    ((match b with | some j => d2.putSramWord m w (d2.sramWord m w ^^^ 2 ^ j) | none => d2), f + 1, u)
  | .bad k => (d.eccUncorrectable m w k 16 e.2, f, u + 1)

/-- A threshold cell is locked (06 R188). -/
def Dev.cellLocked (d : Dev) (n : Nat) : Bool :=
  descCovers d.active n || (d.dos.retireAt.isSome && descCovers d.retired n) || (d.shadowLocked && descCovers d.regs n)

/-- A word of the glyph store belongs to a locked slot (05 R162). -/
def Dev.glyphLocked (d : Dev) (w : Nat) : Bool := (List.range 32).any (fun n => d.fontLocked n && glyphOfSlot d.cmp.glyph n w)

/-- A word of an SRAM memory takes no write: a word of a locked slot or cell (05 R162, 06 R188), of an Active half (01 R37), of a Shadow half while
it is locked or copied (01 R43, 06 R184, 07 R208). -/
def Dev.sramLocked (d : Dev) (m w : Nat) : Bool :=
  if m = 2 then d.glyphLocked w
  else if m = 3 then w / 131072 == d.remapHalf true || !d.remapWritable
  else if m = 4 then d.corrShut
  else if m = 5 then d.cellLocked (w / 2)
  else if m = 6 then decide (tplActiveWord ≤ w) && decide (w < 2 * tplActiveWord) || decide (w < tplActiveWord) && d.shadowLocked
  else false

/-- The count of discarded writes to locked words of a memory (05 R162, 06 R188, 07 R208). -/
def lockCount (m : Nat) : Option Fld :=
  if m = 2 then some R.CMP_GLYPH_DISC
  else if m = 3 then some R.LAS_DISC_CNT
  else if m = 4 ∨ m = 5 then some R.DOS_DISC_CNT
  else none

/-- The validity flags that a change of words `a` to `b` − 1 of an SRAM memory clears (05 R151, 06 R189, 07 R206). [DESIGN CHOICE, unsafe, log 115] -/
def Dev.sramChanged (d : Dev) (m a b : Nat) : Dev :=
  if m = 2 ∧ (tplFonts d.cmp.tplS).any (fun n => (List.range (b - a)).any (fun i => glyphOfSlot d.cmp.glyph n (a + i))) then
    d.setB R.CMP_STATUS_TPL_VALID false
  else if m = 3 ∧ a < 131072 * (d.remapHalf false + 1) ∧ 131072 * d.remapHalf false < b then d.setB R.LAS_STATUS_REMAP_VALID false
  else if m = 5 ∧ (List.range 8).any (fun p => decide ((descCells d.regs p).1 < (b + 1) / 2) &&
      decide (a / 2 < (descCells d.regs p).1 + (descCells d.regs p).2)) = true then d.setB R.DOS_STATUS_SCR_VALID false
  else if m = 6 ∧ a < tplActiveWord then d.setB R.CMP_STATUS_TPL_VALID false
  else d

/-- Entries of columns `a` to `b` − 1 of a correction half become 0. -/
def zeroEntries (m : SMap Word) (a b : Nat) : SMap Word :=
  (m.map (fun e =>
    let keep := fun c => if a ≤ c ∧ c < b then 0 else corrEntry m c
    (e.1, BitVec.ofNat 32 (keep (2 * e.1) + 65536 * keep (2 * e.1 + 1))))).filter (fun e => e.2 != 0)

/-- Entries of words `a` to `b` − 1 of a memory become 0 in a table that begins at word `lo` of it, each of its words `k` 32-bit words,
but for those that `keep` names. -/
def zeroWords (t : SMap Word) (lo k a b : Nat) (keep : Nat → Bool) : SMap Word :=
  t.filter (fun e => decide (lo + e.1 / k < a) || decide (b ≤ lo + e.1 / k) || keep (lo + e.1 / k))

/-- As many zero bytes. -/
def zeroed (l : List Byte) : List Byte := l.map (fun _ => 0)

/-- What the words `a` to `b` − 1 of a memory hold whose place in it the spec does not give becomes 0 where all of them are written: line records in
cisterns, windows and output staging, item data records and field images, the compressors' input. [DESIGN CHOICE, unsafe, log 115] -/
def Dev.zeroRest (d : Dev) (m a b : Nat) : Dev :=
  if m = 0 ∧ a = 0 ∧ ledgerWord0 ≤ b then
    { d with las := { d.las with cis := d.las.cis.map (fun e => (e.1, { e.2 with
        head := e.2.head.map (fun r => (r.1, zeroed r.2)), tail := e.2.tail.map (fun r => (r.1, r.2.map zeroed)), bad := [] })) } }
  else if m = 1 ∧ a = 0 ∧ eccSramWords 1 ≤ b then
    { d with exp := { d.exp with engines := d.exp.engines.map (fun e => (e.1, { e.2 with
        staged := e.2.staged.map (fun l => { l with parts := l.parts.map (fun p => (p.1, zeroed p.2)) }),
        ctxs := e.2.ctxs.map (fun c => { c with inf := { c.inf with out := zeroed c.inf.out } }) })) } }
  else if m = 6 ∧ a ≤ 2 * tplActiveWord ∧ eccSramWords 6 ≤ b then
    { d with
      cmp := { d.cmp with recs := d.cmp.recs.map (fun r => { r with fields := r.fields.map (fun f => (f.1, zeroed f.2)) }) }
      items := d.items.map (fun i => { i with rends := i.rends.map (fun r => { r with
        fields := r.fields.map (fun f => { f with img := Img.clear f.img.w f.img.h }) }) }) }
  else if m = 10 ∧ a = 0 ∧ eccSramWords 10 ≤ b then
    { d with exp := { d.exp with cmprs := d.exp.cmprs.map (fun e => (e.1, { e.2 with inp := zeroed e.2.inp, pay := zeroed e.2.pay })) } }
  else d

/-- Zero data in words `a` to `b` − 1 of the tables of an SRAM memory that are not locked. -/
def Dev.zeroTables (d : Dev) (m a b : Nat) (keep : Nat → Bool) : Dev :=
  if m = 2 then { d with cmp := { d.cmp with glyph := zeroWords d.cmp.glyph 0 1 a b keep } }
  else if m = 3 then { d with las := { d.las with remapS := zeroWords d.las.remapS (131072 * d.remapHalf false) 1 a b keep } }
  else if m = 4 then (if d.corrShut then d else { d with dos := { d.dos with corrS := zeroEntries d.dos.corrS a b } })
  else if m = 5 then { d with dos := { d.dos with thr := zeroWords d.dos.thr 0 2 a b keep } }
  else if m = 6 then { d with cmp := { d.cmp with tplS := zeroWords d.cmp.tplS 0 2 a (min b tplActiveWord) keep } }
  else if m = 0 ∨ m = 8 ∨ m = 9 then
    forEach ((List.range (b - a)).filter (fun i => d.sramWord m (a + i) != 0)) (fun (d : Dev) i => d.putSramWord m (a + i) 0) d
  else d

/-- Zero data in words `a` to `b` − 1 of an SRAM memory (R314), a write of each: a locked word keeps its data and its discarded write is counted;
flags follow. [DESIGN CHOICE, unsafe, log 115] -/
def Dev.sramZero (d : Dev) (m a b : Nat) : Dev :=
  let keep := d.sramLocked m
  let held := if (2 ≤ m ∧ m ≤ 5) ∨ m = 6 then (List.range (b - a)).filter (fun i => keep (a + i)) else []
  let d0 := if m = 4 ∧ d.corrShut = false then d.corrLoad a b 16 (fun d => d.dos.corrS) else d
  let d1 : Dev := { d0 with ecc := { d0.ecc with
    diffs := d0.ecc.diffs.filter (fun e => decide (e.1 < eccKey m a) || decide (eccKey m b ≤ e.1) || keep (e.1 - eccKey m 0))
    raw := outRange d0.ecc.raw (eccKey m a) (eccKey m b) } }
  let d2 := (d1.zeroTables m a b keep).zeroRest m a b
  let d3 := if a + held.length < b then d2.sramChanged m a b else d2
  match lockCount m with
  | some f => if held = [] then d3 else d3.bump f held.length
  | none => d3

/-- Zero data with valid check bits and tags in words `a` to `b` − 1 of a channel (R314). -/
def Mem.zero (m : Mem) (ch a b : Nat) : Mem :=
  let q (l : List Host.Cell) : List Host.Cell := l.filter (fun c => decide (c.1 < 8 * a) || decide (8 * b ≤ c.1))
  if ch = 0 then { m with ch0 := q m.ch0, x0 := outRange m.x0 a b } else { m with ch1 := q m.ch1, x1 := outRange m.x1 a b }

/-- What a run did to the first `n` words of its range: the device, the channels, words fixed, words uncorrectable. -/
def runEffect (r : EccRun) (n : Nat) (d : Dev) (m : Mem) : (Dev × Mem) × Nat × Nat :=
  let e := r.start + n
  if eccDram r.mem then
    let ch := r.mem - 16
    if r.fill then ((d, m.zero ch r.start e), 0, 0)
    else (inRange (m.diffs ch) r.start e).foldl (scrubDram ch) ((d, m), 0, 0)
  else if r.fill then ((d.sramZero r.mem r.start e, m), 0, 0)
  else
    let (d', f, u) := (inRange d.ecc.diffs (eccKey r.mem r.start) (eccKey r.mem e)).foldl (scrubSram r.mem) (d, 0, 0)
    ((d', m), f, u)

/-- A scrub or fill that handled `handled` words ends (R327). [DEDUCED, unsafe, log 81] -/
def scrubDone (handled : Nat) (s : State) : State :=
  match s.dev.ecc.run with
  | none => s
  | some r =>
    match s.dev.runResult r (min handled (s.dev.scrubMost r)) with
    | none => s
    | some code =>
      let n := min handled (min r.count (s.dev.scrubMost r))
      let ((d, m), f, u) := runEffect r n s.dev s.mem
      let d1 := (({ d with ecc := { d.ecc with run := none } }.set64 R.ECC_SCRUB_POS_LO (r.start + n)).set
        R.ECC_SCRUB_FIXED f).set R.ECC_SCRUB_UE u
      let d2 := (d1.setB R.ECC_RESULT_BUSY false).set R.ECC_RESULT_CODE code
      { s with
        dev := d2.raise Ev.SCRUB_DONE (r.mem + 32 * code + 65536 * min f 65535 + 2 ^ 32 * min u 65535)
        mem := m }

/-- SCRUB_DONE. -/
def execScrubDone (handled : Nat) (s : State) : Out := .next (if s.dev.awake then scrubDone handled s else s)

/-! ## Test mode (R328) -/

/-- Exclusive or of the five bytes of a 40-bit value. -/
def xorBytes5 (x : Nat) : Nat := (List.range 5).foldl (fun t i => t ^^^ (x / 256 ^ i) % 256) 0

/-- The address tag of word `w` of a channel (R313). [DESIGN CHOICE, safe, log 79] -/
def Dev.addrTag (d : Dev) (ch w : Nat) : Nat :=
  let a := 8 * w
  let rank := if d.is (R.DRC_CFG_TWO_RANKS ch) then
      (a >>> (29 + d.get (R.DRC_CFG_BG_BITS ch) + d.get (R.DRC_CFG_ROW_BITS ch))) % 2 else 0
  xorBytes5 ((a >>> 6) % 2 ^ 40) ^^^ (w % 8) ^^^ (rank <<< 7)

/-- A test command: its checks, then its effect on memory `m`, word `w`. [DEDUCED, unsafe, log 81] -/
def testCmd (f : Nat → Nat → State → State) (s : State) : State :=
  let d := s.dev
  let m := d.get R.ECC_ARG_MEM
  let w := d.get64 R.ECC_ARG_START_LO
  if d.is R.ECC_RESULT_BUSY then { s with dev := d.setB R.ECC_RESULT_OVR true }
  else if !d.is R.ECC_TEST_EN || d.dstate != .idle then { s with dev := d.set R.ECC_RESULT_CODE 2 }
  else if !eccExists m || decide (d.eccWords m ≤ w) then { s with dev := d.set R.ECC_RESULT_CODE 3 }
  else if d.eccShut m then { s with dev := d.set R.ECC_RESULT_CODE 2 }
  else
    let s' := f m w s
    { s' with dev := (s'.dev.set R.ECC_RESULT_CODE 0).wrap R.ECC_RESULT_SEQ 1 }

/-- TEST_WRITE: data, check bits and tag as they stand in ECC_TD and ECC_TC. -/
def testWrite (m w : Nat) (s : State) : State :=
  let d := s.dev
  let td := d.get64 R.ECC_TD_LO
  let data := if eccWidth m = 32 then td % 2 ^ 32 else td
  let syn := (d.get R.ECC_TC_CHECK % 2 ^ eccChecks m) ^^^ (checkBits (eccWidth m) data % 2 ^ eccChecks m)
  if eccDram m then
    let ch := m - 16
    let m1 := (s.mem.putBytes ch (8 * w) (bytesOf 8 data)).putDiff ch w
      (syn + 256 * (d.get R.ECC_TC_TAG ^^^ d.addrTag ch w))
    { s with mem := m1 }
  else
    let d1 := (d.putSramWord m w data).sramChanged m w (w + 1)
    { s with dev := { d1 with ecc := { d1.ecc with
        diffs := if syn = 0 then d1.ecc.diffs.drop (eccKey m w) else d1.ecc.diffs.put (eccKey m w) syn } } }

/-- TEST_READ: data, check bits, tag, syndrome and status, nothing corrected or counted. -/
def testRead (m w : Nat) (s : State) : State :=
  let d := s.dev
  let data := if eccDram m then s.mem.wordData (m - 16) w else d.sramWord m w
  let diff := if eccDram m then (s.mem.diffs (m - 16)).get 0 w else d.ecc.diffs.get 0 (eccKey m w)
  let stat := match readKind (eccWidth m) (eccChecks m) diff with
    | .clean => 0
    | .fixed _ => 1
    | .bad k => if k = 2 then 3 else 2
  let d1 := (d.set64 R.ECC_TD_LO data).set R.ECC_TC_CHECK
    ((checkBits (eccWidth m) data % 2 ^ eccChecks m) ^^^ (diff % 256))
  let d2 := if eccDram m then d1.set R.ECC_TC_TAG (d.addrTag (m - 16) w ^^^ (diff / 256)) else d1
  { s with dev := (d2.set R.ECC_TSYN (diff % 256)).set R.ECC_TSTAT stat }

/-- TEST_GEN: the correct check bits and tag for ECC_TD at that word. -/
def testGen (m w : Nat) (s : State) : State :=
  let d := s.dev
  let td := d.get64 R.ECC_TD_LO
  let data := if eccWidth m = 32 then td % 2 ^ 32 else td
  let d1 := d.set R.ECC_TC_CHECK (checkBits (eccWidth m) data % 2 ^ eccChecks m)
  { s with dev := if eccDram m then d1.set R.ECC_TC_TAG (d.addrTag (m - 16) w) else d1 }

/-- TEST_WRITE. -/
def execTestWrite (s : State) : Out := .next (hostState (testCmd testWrite) s)

/-- TEST_READ. -/
def execTestRead (s : State) : Out := .next (hostState (testCmd testRead) s)

/-- TEST_GEN. -/
def execTestGen (s : State) : Out := .next (hostState (testCmd testGen) s)

end Sys2Proof.Machine
end

