-- ==== Sys2Proof/Machine/Dram.lean ====
section
/-! DEFINITION. DRAM controllers (10 R281–R311): requests and bursts, refresh and row-disturb protection, training,
frequency change, COLD ranks, and what takes a channel in and out of service. -/

namespace Sys2Proof.Machine

/-- A channel's state beside its registers. -/
def Dev.drc (d : Dev) (c : Nat) : Drc := d.dram.get {} c

/-- Changes a channel's state. -/
def Dev.updDrc (d : Dev) (c : Nat) (f : Drc → Drc) : Dev := { d with dram := d.dram.upd {} c f }

/-! ## Address decoding (R286) -/

/-- Subchannel of a channel address. -/
def subOf (a : Nat) : Nat := bitsOf a 6 1

/-- w of R286. -/
def Dev.rowBits (d : Dev) (c : Nat) : Nat := 14 + d.get (R.DRC_CFG_ROW_BITS c)

/-- Row of a channel address. -/
def Dev.rowOf (d : Dev) (c a : Nat) : Nat := bitsOf a (15 + d.get (R.DRC_CFG_BG_BITS c)) (d.rowBits c)

/-- Rank of a channel address. -/
def Dev.rankOf (d : Dev) (c a : Nat) : Nat :=
  if d.is (R.DRC_CFG_TWO_RANKS c) then bitsOf a (15 + d.get (R.DRC_CFG_BG_BITS c) + d.rowBits c) 1 else 0

/-- Bank group of a channel address. -/
def Dev.groupOf (d : Dev) (c a : Nat) : Nat :=
  let g := d.get (R.DRC_CFG_BG_BITS c)
  bitsOf a 7 g ^^^ (d.rowOf c a % 2 ^ g)

/-- Bank index of a channel address. -/
def Dev.bankOf (d : Dev) (c a : Nat) : Nat :=
  let g := d.get (R.DRC_CFG_BG_BITS c)
  bitsOf a (13 + g) 2 ^^^ bitsOf (d.rowOf c a) g 2

/-- Column of a channel address, in 64-byte bursts. -/
def Dev.colOf (d : Dev) (c a : Nat) : Nat := bitsOf a (7 + d.get (R.DRC_CFG_BG_BITS c)) 6

/-- A bank by one number: subchannel + 2 × rank + 4 × bank group + 32 × bank index. -/
def Dev.bankKey (d : Dev) (c a : Nat) : Nat := subOf a + 2 * d.rankOf c a + 4 * d.groupOf c a + 32 * d.bankOf c a

/-- The (subchannel, rank, bank index) of a bank, as one number: subchannel + 2 × rank + 4 × bank index. -/
def indexOf (bank : Nat) : Nat := bank % 4 + 4 * (bank / 32)

/-! ## Refresh and row disturb (R296–R300) -/

/-- Precharges a bank; an RFMsb that waits for it is issued (R299), unless RFM is disabled by then (R300). [DEDUCED, unsafe, log 76] -/
def Dev.precharge (d : Dev) (c bank : Nat) : Dev :=
  let x := d.drc c
  let d1 := d.updDrc c (fun y => { y with rows := y.rows.drop bank, rfmDue := y.rfmDue.filter (fun b => b != bank) })
  if x.rfmDue.contains bank && d.is (R.DRC_RFM_EN c) then d1.bump (R.DRC_RFM_CNT c) 1 else d1

/-- Precharges every open bank of a bank index. -/
def Dev.prechargeIndex (d : Dev) (c idx : Nat) : Dev :=
  forEach (((d.drc c).rows.map (·.1)).filter (fun b => indexOf b == idx)) (fun (d : Dev) b => d.precharge c b) d

/-- A burst is queued for a bank index. -/
def Dev.queuedIndex (d : Dev) (c idx : Nat) : Bool :=
  (d.drc c).bursts.any (fun b => b.queued && indexOf (d.bankKey c b.addr) == idx)

/-- A column command to an open row of a bank index is queued. -/
def Dev.queuedOpen (d : Dev) (c idx : Nat) : Bool :=
  (d.drc c).bursts.any (fun b => b.queued && indexOf (d.bankKey c b.addr) == idx &&
    (d.drc c).rows.find? (d.bankKey c b.addr) == some (d.rowOf c b.addr))

/-- Issues a REFsb to a bank index: the debt falls by 1, the rank leaves power-down (R310); a forced one is counted (R297). -/
def Dev.refsb (d : Dev) (c idx : Nat) (forced : Bool) : Dev :=
  let d1 := (d.prechargeIndex c idx).updDrc c (fun y => { y with debt := y.debt.upd 0 idx (· - 1) })
  let d2 := d1.set (R.DRC_PD_STATUS_IN_PD c) (setMask (d1.get (R.DRC_PD_STATUS_IN_PD c)) (idx / 2 % 2) false)
  if forced then
    (d2.bump (R.DRC_REF_FORCED c) 1).occur Ev.REFRESH_FORCED (c + 2 * (idx % 2) + 4 * (idx / 2 % 2) + 8 * (idx / 4)) 1
  else d2

/-- Issues the refreshes of one bank index that may go now: forced at debt 4 once its queued column commands are done, else
while no burst is queued for it. -/
def Dev.refreshIndex : Nat → Dev → Nat → Nat → Dev
  | 0, d, _, _ => d
  | f + 1, d, c, idx =>
    let debt := (d.drc c).debt.get 0 idx
    if 4 ≤ debt ∧ d.queuedOpen c idx = false then Dev.refreshIndex f (d.refsb c idx true) c idx
    else if 1 ≤ debt ∧ d.queuedIndex c idx = false then Dev.refreshIndex f (d.refsb c idx false) c idx
    else d

/-- Issues every refresh that may go now. [DEDUCED, unsafe, log 76] -/
def Dev.refreshAll (d : Dev) (c : Nat) : Dev :=
  forEach (List.range 16) (fun (d : Dev) i => Dev.refreshIndex ((d.drc c).debt.get 0 i) d c i) d

/-- One step of the 32-bit LFSR of x^32 + x^22 + x^2 + x + 1. [DEDUCED, unsafe, log 76] -/
def lfsrNext (x : Nat) : Nat :=
  (2 * x + (bitsOf x 31 1 + bitsOf x 21 1 + bitsOf x 1 1 + bitsOf x 0 1) % 2) % 2 ^ 32

/-- ACT of a row: counted, the LFSR advances, and may make an RFMsb due (R299, R300). -/
def Dev.activate (d : Dev) (c bank row : Nat) : Dev :=
  let v := lfsrNext ((d.drc c).lfsr.get 0 (bank % 2))
  let due := d.is (R.DRC_RFM_EN c) && d.is (R.DRC_STATUS_RFM_SUP c) && v % 2 ^ d.get (R.DRC_RFM_K c) == 0
  (d.bump (R.DRC_ACT_CNT c) 1).updDrc c (fun y =>
    { y with rows := y.rows.put bank row, lfsr := y.lfsr.put (bank % 2) v,
             rfmDue := if due then bank :: y.rfmDue.filter (fun b => b != bank) else y.rfmDue })

/-- Opens the row a burst needs: no command where it is open; else the bank is precharged, an RFMsb owed to its index and
the forced refreshes of its index go first, then ACT (R297, R299). -/
def Dev.openRow (d : Dev) (c a : Nat) : Dev :=
  let bank := d.bankKey c a
  let row := d.rowOf c a
  if (d.drc c).rows.find? bank = some row then d
  else
    let d1 := d.precharge c bank
    let d2 := forEach ((d1.drc c).rfmDue.filter (fun b => indexOf b == indexOf bank)) (fun (d : Dev) b => d.precharge c b) d1
    (Dev.refreshIndex ((d2.drc c).debt.get 0 (indexOf bank)) d2 c (indexOf bank)).activate c bank row

/-! ## Urgency and admission (R290–R294) -/

/-- Urgency of a burst (R291). -/
def Dev.urgency (d : Dev) (c : Nat) (b : Burst) : Nat :=
  let t := d.get (R.DRC_TGT c b.port)
  let age := d.now - b.start
  if b.late then 3 else if 2 * age < t then 0 else if 4 * age < 3 * t then 1 else if age < t then 2 else 3

/-- Bursts in the read or write queue of a subchannel. -/
def Drc.inQueue (x : Drc) (sub : Nat) (write : Bool) : Nat :=
  (x.bursts.filter (fun b => b.queued && subOf b.addr == sub && b.write == write)).length

/-- Port 3 is held: a waiting burst of ports 0–2 has urgency DRC_HOST_STOP or higher (R294). -/
def Dev.hostHeld (d : Dev) (c : Nat) : Bool :=
  (d.drc c).bursts.any (fun b => decide (b.port ≤ 2) && decide (d.get (R.DRC_HOST_STOP c) ≤ d.urgency c b))

/-- The held burst that goes first: each port offers its oldest, the highest urgency wins, then the lowest port. -/
def Dev.nextHeld (d : Dev) (c : Nat) : Option Burst :=
  let heads := (List.range 8).filterMap (fun p => (d.drc c).bursts.find? (fun b => !b.queued && b.port == p))
  let can := heads.filter (fun b => decide ((d.drc c).inQueue (subOf b.addr) b.write < 64) && !(b.port == 3 && d.hostHeld c))
  can.foldl (fun (m : Option Burst) b => match m with
    | none => some b
    | some x => if d.urgency c x < d.urgency c b then some b else some x) none

/-- Puts a burst into its queue; its rank leaves power-down (R310). -/
def Dev.admitOne (d : Dev) (c : Nat) (b : Burst) : Dev :=
  (d.updDrc c (fun y => { y with bursts := y.bursts.map (fun (x : Burst) => if x.id = b.id then { x with queued := true } else x) })).set
    (R.DRC_PD_STATUS_IN_PD c) (setMask (d.get (R.DRC_PD_STATUS_IN_PD c)) (d.rankOf c b.addr) false)

/-- Admits held bursts while a queue has room; only an IN_SERVICE channel admits (Table 10.3, R306). -/
def Dev.admitHeld : Nat → Dev → Nat → Dev
  | 0, d, _ => d
  | f + 1, d, c =>
    if d.get (R.DRC_STATUS_STATE c) ≠ 3 then d
    else match d.nextHeld c with
      | none => d
      | some b => Dev.admitHeld f (d.admitOne c b) c

/-- Admits all that may be admitted on a channel. [DEDUCED, safe, log 75] -/
def Dev.admitAll (d : Dev) (c : Nat) : Dev := Dev.admitHeld (d.drc c).bursts.length d c

/-- Answers a burst with a bus error. -/
def Dev.busError (d : Dev) (c : Nat) (b : Burst) : Dev := d.emit (.mem c b.port b.addr b.write false [])

/-- Every waiting burst of a channel completes with a bus error (R287). -/
def Dev.failBursts (d : Dev) (c : Nat) : Dev :=
  (forEach (d.drc c).bursts (fun (d : Dev) b => d.busError c b) d).updDrc c (fun y => { y with bursts := [], batch := [] })

/-! ## Requests (R284, R287, R290) -/

/-- One burst of a request enters its controller: a bus error where the channel is absent or out of service or the address lies
in the training area, else it waits. -/
def Dev.takeBurst (d : Dev) (c port a len : Nat) (write : Bool) (data : List Byte) : Dev :=
  let b : Burst := { id := (d.drc c).nextId, port := port, addr := a, len := len, write := write, data := data,
                     start := d.now, late := false, queued := false }
  if !d.chIn c || decide (d.usable c < a + len) then d.busError c b
  else (d.updDrc c (fun y => { y with bursts := y.bursts ++ [b], nextId := y.nextId + 1 })).admitAll c

/-- Splits a request into 64-byte bursts. [DEDUCED, safe, log 75] -/
def Dev.request : Nat → Dev → Nat → Nat → Nat → Bool → Nat → List Byte → Dev
  | 0, d, _, _, _, _, _, _ => d
  | f + 1, d, port, place, x, write, len, data =>
    if len = 0 then d
    else
      let n := min len (64 - x % 64)
      let (c, a) := mapAddr place x
      Dev.request f (d.takeBurst c port a n write (data.take n)) port place (x + n) write (len - n) (data.drop n)

/-- DRAM_REQUEST (R290). A write carries its data, `len` is the length of a read. -/
def execDramRequest (port place addr : Nat) (write : Bool) (len : Nat) (data : List Byte) (s : State) : Out :=
  let n := if write then data.length else len
  onDevIf (decide (port < 8) && decide (place < 3)) (fun d => d.request (n / 64 + 2) port place addr write n data) s

/-- A burst becomes late, once (R291). [DEDUCED, safe, log 75] -/
def Dev.markLate (d : Dev) (c : Nat) (b : Burst) : Dev :=
  if b.late then d
  else
    ((d.updDrc c (fun y => { y with bursts := y.bursts.map (fun (x : Burst) => if x.id = b.id then { x with late := true } else x) })).bump
      (R.DRC_LATE_CNT c b.port) 1).occur Ev.LATENCY_LATE (c + 2 * b.port) 1

/-- A waiting burst by number. -/
def Dev.burst? (d : Dev) (c id : Nat) : Option Burst := (d.drc c).bursts.find? (fun b => b.id == id)

/-- BURST_LATE (R291). -/
def execBurstLate (ch id : Nat) (s : State) : Out :=
  onDevIf (decide (ch < 2)) (fun d => match d.burst? ch id with
    | none => d
    | some b => d.markLate ch b) s

/-- A write batch is open on a subchannel, or one may start: 8 writes queued, or one at urgency 2 (R293). -/
def Dev.batchOpen (d : Dev) (c sub : Nat) : Bool :=
  ((d.drc c).batch.find? sub).isSome || decide (8 ≤ (d.drc c).inQueue sub true) ||
    (d.drc c).bursts.any (fun b => b.queued && b.write && subOf b.addr == sub && decide (2 ≤ d.urgency c b))

/-- After a write was issued: the batch ends once 8 are issued or no write is queued, or when a read of urgency 3
waits (R293). -/
def Dev.batchStep (d : Dev) (c sub : Nat) : Dev :=
  let n := (d.drc c).batch.get 0 sub + 1
  let stop := decide (8 ≤ n) || (d.drc c).inQueue sub true == 0 ||
    (d.drc c).bursts.any (fun b => b.queued && !b.write && subOf b.addr == sub && decide (3 ≤ d.urgency c b))
  d.updDrc c (fun y => { y with batch := if stop then y.batch.drop sub else y.batch.put sub n })

/-- A burst needs an ACT that a forced refresh holds back: column commands to open rows of its bank index are still queued (R297). -/
def Dev.actHeld (d : Dev) (c a : Nat) : Bool :=
  let bank := d.bankKey c a
  (d.drc c).rows.find? bank != some (d.rowOf c a) && decide (4 ≤ (d.drc c).debt.get 0 (indexOf bank)) && d.queuedOpen c (indexOf bank)

/-- Another burst of the same row and direction goes first: its DDR5 timing is the same, so the rules of R292 decide, the higher urgency,
then the older. [DEDUCED, safe, log 75] -/
def Dev.beaten (d : Dev) (c : Nat) (b : Burst) : Bool :=
  (d.drc c).bursts.any (fun x => x.queued && x.write == b.write && d.bankKey c x.addr == d.bankKey c b.addr &&
    d.rowOf c x.addr == d.rowOf c b.addr &&
    (decide (d.urgency c b < d.urgency c x) || (d.urgency c b == d.urgency c x && decide (x.id < b.id))))

/-- A write batch is in progress and the burst waits for its end: a read below urgency 3 (R293). -/
def Dev.batchHolds (d : Dev) (c : Nat) (b : Burst) : Bool :=
  !b.write && ((d.drc c).batch.find? (subOf b.addr)).isSome && decide (d.urgency c b < 3)

/-- The scheduler does not issue a queued burst now (R292, R293, R297). [DEDUCED, safe, log 75] -/
def Dev.notNow (d : Dev) (c : Nat) (b : Burst) : Bool :=
  (b.write && !d.batchOpen c (subOf b.addr)) || d.batchHolds c b || d.beaten c b || d.actHeld c b.addr

/-- The data side of a completed burst, with its answer (R315, R316, R320–R322). -/
def burstData (c : Nat) (b : Burst) (d : Dev) (m : Mem) : Dev × Mem :=
  if b.write then
    let (ok, d1, m1) := writeAll 9 c b.port b.addr b.data (true, d, m)
    (d1.emit (.mem c b.port b.addr true ok []), m1)
  else
    let (r, d1) := readCounted d m c b.port b.addr b.len
    (d1.emit (.mem c b.port b.addr false r.isSome (r.getD [])), m)

/-- A queued burst completes: its row is opened, its data moves, its age counts, refreshes that waited for it go, and held bursts
are admitted. A burst that the scheduler does not issue now stays queued; a read of urgency 3 ends a batch. [DEDUCED, safe, log 75] -/
def burstDone (c id : Nat) (d : Dev) (m : Mem) : Dev × Mem :=
  match d.burst? c id with
  | none => (d, m)
  | some b =>
    let st := d.get (R.DRC_STATUS_STATE c)
    if !b.queued || (st != 3 && st != 4) || d.notNow c b then (d, m)
    else
      let d1 := d.openRow c b.addr
      let d2 := if d.get (R.DRC_TGT c b.port) ≤ d.now - b.start then d1.markLate c b else d1
      let d3 := (d2.keepMax (R.DRC_LAT_MAX c b.port) (d.now - b.start)).updDrc c (fun y =>
        { y with bursts := y.bursts.filter (fun x => x.id != id) })
      let d4 := if b.write then d3.batchStep c (subOf b.addr)
        else d3.updDrc c (fun y => { y with batch := y.batch.drop (subOf b.addr) })
      let (d5, m1) := burstData c b d4 m
      ((d5.refreshAll c).admitAll c, m1)

/-! ## Timers of a channel -/

/-- The memory of a channel is up: TRAINING from service, IN_SERVICE or FREQ. -/
def Dev.chUp (d : Dev) (c : Nat) : Bool := d.chIn c

/-- Ranks fitted on a channel. -/
def Dev.ranks (d : Dev) (c : Nat) : Nat := 1 + d.get (R.DRC_CFG_TWO_RANKS c)

/-- tREFI passes for a subchannel and rank (R296). -/
def Dev.refreshInterval (d : Dev) (c sub rank : Nat) : Dev :=
  if !d.chUp c || decide (d.ranks c ≤ rank) then d
  else
    (d.updDrc c (fun y => { y with
      debt := (List.range 4).foldl (fun (m : SMap Nat) i => m.upd 0 (sub + 2 * rank + 4 * i) (· + 1)) y.debt })).refreshAll c

/-- REFRESH_INTERVAL (R296, R297). [DEDUCED, unsafe, log 76] -/
def execRefreshInterval (ch sub rank : Nat) (s : State) : Out :=
  onDevIf (decide (ch < 2) && decide (sub < 2) && decide (rank < 2)) (fun d => d.refreshInterval ch sub rank) s

/-- MR4 of a rank is read (R298). -/
def Dev.mr4 (d : Dev) (c rank : Nat) (doubled : Bool) : Dev :=
  let v := d.get (R.DRC_STATUS_REF_2X c)
  if !d.chUp c || decide (d.ranks c ≤ rank) || hasBit v rank == doubled then d
  else (d.set (R.DRC_STATUS_REF_2X c) (setMask v rank doubled)).raise Ev.REFRESH_RATE (c + 2 * rank + 4 * (if doubled then 1 else 0))

/-- MR4_POLL (R298). -/
def execMr4Poll (ch rank : Nat) (doubled : Bool) (s : State) : Out :=
  onDevIf (decide (ch < 2) && decide (rank < 2)) (fun d => d.mr4 ch rank doubled) s

/-- PAGE_IDLE_EXPIRY (R295): a bank for which no burst is queued is precharged. -/
def execPageIdleExpiry (ch bank : Nat) (s : State) : Out :=
  onDevIf (decide (ch < 2) && decide (bank < 128)) (fun d =>
    if (d.drc ch).bursts.any (fun b => b.queued && d.bankKey ch b.addr == bank) then d else d.precharge ch bank) s

/-- Rank `r` of a channel holds part of a region. -/
def Dev.rankHolds (d : Dev) (c r place base size : Nat) : Bool :=
  let per := d.capacity c / d.ranks c
  regionsOverlap (c + 1) (r * per) per place base size

/-- The COLD marks in effect (R310): a rank that holds part of the cistern region, of the region the plan in force took, or of a fallback
region in use, is never powered down. -/
def Dev.coldEffective (d : Dev) (c : Nat) : Nat :=
  (List.range (d.ranks c)).foldl (fun m r =>
    let held := d.rankHolds c r (d.get R.LAS_REG_PLACE) (d.get64 R.LAS_REG_BASE_LO) (d.get64 R.LAS_REG_SIZE_LO) ||
      d.rankHolds c r d.las.place d.las.base d.las.size
    if hasBit (d.get (R.DRC_RANK_COLD c)) r && !held then orBit m r else m) 0

/-- POWER_DOWN_TIMER (R310): a COLD rank with no burst waiting enters power-down. -/
def execPowerDownTimer (ch rank : Nat) (s : State) : Out :=
  onDevIf (decide (ch < 2) && decide (rank < 2)) (fun d =>
    if d.chUp ch && hasBit (d.coldEffective ch) rank && !(d.drc ch).bursts.any (fun b => d.rankOf ch b.addr == rank) then
      d.set (R.DRC_PD_STATUS_IN_PD ch) (orBit (d.get (R.DRC_PD_STATUS_IN_PD ch)) rank)
    else d) s

/-! ## In and out of service (R287, R288, R303) -/

/-- A channel leaves service in a state: waiting bursts complete with bus errors, CHANNEL_OUT is raised and the level follows
(R288). A channel that was not in service only changes its state. -/
def Dev.channelOut (d : Dev) (c st : Nat) : Dev :=
  let was := d.chIn c
  let d1 := ((d.set (R.DRC_STATUS_STATE c) st).setB (R.DRC_STATUS_INSVC c) false).set (R.DRC_PD_STATUS_IN_PD c) 0
  let d2 := (d1.failBursts c).updDrc c (fun y => { y with rows := [], debt := [], rfmDue := [], train := none, freq := none })
  if was then (((d2.raise Ev.CHANNEL_OUT (c + 2 * st)).causeOn (2 + c)).reRate).bistTouch else d2

/-- The command that runs on a channel ends with a result code. -/
def Dev.drcEnd (d : Dev) (c code : Nat) : Dev := (d.setB (R.DRC_RESULT_BUSY c) false).set (R.DRC_RESULT_CODE c) code

/-- A training or level 0 check failed at lane step `step` (R303). -/
def Dev.drcFail (d : Dev) (c level step width : Nat) (write : Bool) : Dev :=
  let det := c + 2 * level + 4 * (step / 5 % 2) + 8 * (step / 10) + 16 * (step % 5) + 128 * (if write then 1 else 0) +
    256 * (width % 128)
  (((d.set (R.DRC_FAIL_LANE c) det).raise Ev.TRAIN_FAIL det).channelOut c 5).drcEnd c 5

/-- Offsets of a point's valid bit, rate and timings, and of its delays. -/
def pointTimings : List Nat := (List.range 9).map (4 * ·)
/-- Offsets of a point's delays. -/
def pointDelays : List Nat := (List.range 20).map (fun i => 0x40 + 4 * i)

/-- Words of a stored point go to the working set. -/
def Dev.loadWork (d : Dev) (c p : Nat) (offs : List Nat) : Dev :=
  let base := 0x160200 + 0x10000 * c + 0x100 * p
  d.updDrc c (fun y => { y with work := offs.foldl (fun (m : SMap Word) o => m.put o (d.reg (base + o))) y.work })

/-- Loads the timings, rate and delays of a stored point into the working set (Table 10.5 step 4). -/
def Dev.loadPoint (d : Dev) (c p : Nat) : Dev :=
  ((d.loadWork c p (pointTimings ++ pointDelays)).set (R.DRC_STATUS_POINT c) p).set (R.DRC_MTS c) (d.get (R.PT_MTS c p))

/-- Loads the delays of the stored point in use (R301, R303). -/
def Dev.loadDelays (d : Dev) (c : Nat) : Dev := d.loadWork c (d.get (R.DRC_STATUS_POINT c)) pointDelays

/-- A command to a channel's DRC_CMD whose check answered `code`: it is counted when accepted. [DEDUCED, unsafe, log 78] -/
def Dev.drcResult (d : Dev) (c code : Nat) : Dev := d.set (R.DRC_RESULT_CODE c) code

/-! ## Training (R301–R304) -/

/-- RETRAIN (R283, R301, R304): from OFF the full initialisation takes the whole point, level 0 the delays of the point in use. -/
def Dev.retrain (d : Dev) (c level : Nat) : Dev :=
  if d.is (R.DRC_RESULT_BUSY c) then d.setB (R.DRC_RESULT_OVR c) true
  else if !d.chOn c || (d.chIn c && d.dstate != .idle && d.dstate != .boot) then d.drcResult c 2
  else
    let d1 := ((d.wrap (R.DRC_RESULT_SEQ c) 1).setB (R.DRC_RESULT_BUSY c) true).updDrc c (fun y =>
      { y with train := some (level, d.get (R.DRC_STATUS_STATE c)) })
    let d2 := if d.get (R.DRC_STATUS_STATE c) = 1 then d1.loadPoint c (d1.get (R.DRC_STATUS_POINT c))
      else if level = 0 then d1.loadDelays c else d1
    (d2.set (R.DRC_STATUS_STATE c) 2).set (R.DRC_STATUS_STEP c) 0

/-- RETRAIN. -/
def execRetrain (ch level : Nat) (s : State) : Out :=
  onHostIf (decide (ch < 2) && decide (level < 2)) (fun d => d.inDomain (4 + ch) (fun d => d.retrain ch level)) s

/-- The longest run of passing delays of a bitmap over delays 0–127: its first delay and its length; the first such run where
two are equal (R302). -/
def longestRun (bits : Nat) : Nat × Nat :=
  let r := (List.range 128).foldl (fun (x : (Nat × Nat) × Nat × Nat) i =>
    let ((bs, bl), cs, cl) := x
    if hasBit bits i then
      let s := if cl = 0 then i else cs
      let l := cl + 1
      (if bl < l then (s, l) else (bs, bl), s, l)
    else ((bs, bl), 0, 0)) ((0, 0), 0, 0)
  r.1

/-- First and centre of a run: the centre is the first passing delay + ⌊(width − 1) / 2⌋. -/
def runCentre (r : Nat × Nat) : Nat := r.1 + (r.2 - 1) / 2

/-- A width in a 7-bit field; the width 128 does not fit and leaves a value the spec does not state. [DESIGN CHOICE, safe, log 77] -/
def width7 (addr w : Nat) : Nat := if w < 128 then w else Config.counterOver addr w % 128

/-- Lane steps of a sweep. -/
def Dev.laneSteps (d : Dev) (c : Nat) : Nat := 10 * d.ranks c

/-- Widths and centres of a sweep go to DRC_EYE (R302). -/
def Dev.putEyes (d : Dev) (c : Nat) (eyes : List (Nat × Nat)) : Dev :=
  forEach (List.range (d.laneSteps c)) (fun (d : Dev) i =>
    let e := eyes.getD i (0, 0)
    let r := longestRun e.1
    let w := longestRun e.2
    let a := 0x160100 + 0x10000 * c + 4 * i
    (((d.set (R.DRC_EYE_RDW c i) (width7 a r.2)).set (R.DRC_EYE_WRW c i) (width7 a w.2)).set (R.DRC_EYE_RDC c i)
      (runCentre r)).set (R.DRC_EYE_WRC c i) (runCentre w)) d

/-- The first lane step of a sweep that fails: step, direction, width found. -/
def Dev.firstBad (d : Dev) (c : Nat) (eyes : List (Nat × Nat)) : Option (Nat × Bool × Nat) :=
  (List.range (d.laneSteps c)).findSome? (fun i =>
    let e := eyes.getD i (0, 0)
    if (longestRun e.1).2 < d.get (R.DRC_EYE_MIN c) then some (i, false, (longestRun e.1).2)
    else if (longestRun e.2).2 < d.get (R.DRC_EYE_MIN c) then some (i, true, (longestRun e.2).2)
    else none)

/-- The delays found by a sweep go to the stored point in use and to the working set (R303). -/
def Dev.applyEyes (d : Dev) (c : Nat) (eyes : List (Nat × Nat)) : Dev :=
  let p := d.get (R.DRC_STATUS_POINT c)
  (forEach (List.range (d.laneSteps c)) (fun (d : Dev) i =>
    let e := eyes.getD i (0, 0)
    (d.set (R.PT_DLY_RD c p i) (runCentre (longestRun e.1))).set (R.PT_DLY_WR c p i) (runCentre (longestRun e.2))) d).loadDelays c

/-- A delay and the delays EYE_MIN / 2 below and above it pass (R301); a delay outside 0–127 does not. [DEDUCED, unsafe, log 78] -/
def Dev.centreOk (d : Dev) (c bits x : Nat) : Bool :=
  let h := d.get (R.DRC_EYE_MIN c) / 2
  decide (h ≤ x) && decide (x + h < 128) && [x - h, x, x + h].all (hasBit bits)

/-- A delay of the working set (R301): the field of a stored point as it was loaded last. -/
def Dev.workField (d : Dev) (c : Nat) (f : Nat → Fld) : Nat :=
  bitsOf ((d.drc c).work.get 0 ((f 0).addr - (0x160200 + 0x10000 * c))).toNat (f 0).lo (f 0).w

/-- The first lane step, and its direction, that fails the level 0 check of the working delays (R301). -/
def Dev.checkBad (d : Dev) (c : Nat) (eyes : List (Nat × Nat)) : Option (Nat × Bool) :=
  (List.range (d.laneSteps c)).findSome? (fun i =>
    let e := eyes.getD i (0, 0)
    if !d.centreOk c e.1 (d.workField c (fun p => R.PT_DLY_RD c p i)) then some (i, false)
    else if !d.centreOk c e.2 (d.workField c (fun p => R.PT_DLY_WR c p i)) then some (i, true)
    else none)

/-- The failure of a level 0 check; the width it reports is not measured: a free value. [DESIGN CHOICE, safe, log 77] -/
def Dev.checkFails (d : Dev) (c step : Nat) (write : Bool) : Dev :=
  let (w, d1) := d.fresh 0x301 7
  d1.drcFail c 0 step w write

/-- The smallest width of a sweep. [DESIGN CHOICE, safe, log 77] -/
def Dev.smallestEye (d : Dev) (c : Nat) (eyes : List (Nat × Nat)) : Nat :=
  (List.range (d.laneSteps c)).foldl (fun m i =>
    let e := eyes.getD i (0, 0)
    min m (min (longestRun e.1).2 (longestRun e.2).2)) 128

/-- A training ended well: the channel enters IN_SERVICE. A bring-up also reads whether the memory supports RFM (R300), seeds the
LFSRs (R299) and raises CHANNEL_IN_SERVICE. [DEDUCED, unsafe, log 76] -/
def Dev.trainOk (d : Dev) (c level smallest : Nat) (rfm : Bool) : Dev :=
  let was := d.chIn c
  let d1 := ((d.set (R.DRC_STATUS_STATE c) 3).setB (R.DRC_STATUS_INSVC c) true).updDrc c (fun y => { y with train := none })
  let d2 := (d1.raise Ev.TRAIN_DONE (c + 2 * level + 256 * (smallest % 128))).drcEnd c 0
  if was then (d2.reRate).admitAll c
  else
    let (s0, d3) := d2.fresh 0x299 32
    let (s1, d4) := d3.fresh 0x299 32
    let d5 := ((d4.updDrc c (fun y => { y with lfsr := [(0, s0), (1, s1)], rows := [], debt := [], rfmDue := [] })).setB
      (R.DRC_STATUS_RFM_SUP c) rfm).raise Ev.CHANNEL_IN_SERVICE c
    let d6 := if rfm then d5 else d5.raise Ev.RFM_UNSUPPORTED c
    (d6.causeOff (2 + c)).reRate

/-- The delays that pass, read and write, at each lane step. -/
def eyePairs (rd wr : List Nat) : List (Nat × Nat) :=
  (List.range (max rd.length wr.length)).map (fun i => (rd.getD i 0, wr.getD i 0))

/-- Training ends (R301–R303). `eyes` are the delays that pass, read and write, at each lane step: the level 0 check tries three of them,
a level 1 sweep all. The smallest width of a level 0 check is not measured: a free value. -/
def Dev.trainDone (d : Dev) (c : Nat) (eyes : List (Nat × Nat)) (rfm : Bool) : Dev :=
  match (d.drc c).train with
  | none => d
  | some (0, _) =>
    match d.checkBad c eyes with
    | some (step, write) => d.checkFails c step write
    | none =>
      let (w, d1) := d.fresh 0x301 7
      d1.trainOk c 0 w rfm
  | some (level, _) =>
    let d0 := (d.putEyes c eyes).set (R.DRC_STATUS_STEP c) (d.laneSteps c - 1)
    match d0.firstBad c eyes with
    | some (step, write, width) => d0.drcFail c level step width write
    | none => (d0.applyEyes c eyes).trainOk c level (width7 0x301 (d0.smallestEye c eyes)) rfm

/-! ## Frequency change (R305–R309) -/

/-- The level 1 sweep of a channel stops at the end of the current lane step (R307); how many are done is free. [DESIGN CHOICE, safe, log 77] -/
def Dev.sweepAborted (d : Dev) (c : Nat) : Dev :=
  let (v, d1) := d.fresh 0x307 8
  let n := 1 + v % d.laneSteps c
  ((((d1.set (R.DRC_STATUS_STEP c) n).raise Ev.SWEEP_ABORTED_FREQ (c + 256 * n)).drcEnd c 6).updDrc c (fun y =>
    { y with train := none })).set (R.DRC_STATUS_STATE c) (if d.chIn c then 4 else 5)

/-- FREQ (R305–R309). [DEDUCED, unsafe, log 78] -/
def Dev.freqCmd (d : Dev) (c p : Nat) : Dev :=
  let sweep := match (d.drc c).train with
    | some (level, _) => level != 0
    | none => false
  if d.is (R.DRC_RESULT_BUSY c) && !sweep then d.setB (R.DRC_RESULT_OVR c) true
  else if p = d.get (R.DRC_STATUS_POINT c) then d.drcResult c 3
  else if !d.is (R.PT_VALID c p) then d.drcResult c 4
  else if d.get (R.DRC_STATUS_STATE c) = 3 ∧ (d.dstate = .armed ∨ d.dstate = .run) then d.drcResult c 2
  else
    let d1 := if sweep then d.sweepAborted c
      else if d.chIn c then d.set (R.DRC_STATUS_STATE c) 4 else d
    ((d1.wrap (R.DRC_RESULT_SEQ c) 1).setB (R.DRC_RESULT_BUSY c) true).updDrc c (fun y => { y with freq := some p })

/-- FREQ. -/
def execFreq (ch point : Nat) (s : State) : Out :=
  onHostIf (decide (ch < 2) && decide (point < 4)) (fun d => d.inDomain (4 + ch) (fun d => d.freqCmd ch point)) s

/-- All banks are precharged and all refresh debt is paid (Table 10.5 steps 2 and 3, R311). -/
def Dev.quiesceMemory (d : Dev) (c : Nat) : Dev :=
  (forEach ((d.drc c).rows.map (·.1)) (fun (d : Dev) b => d.precharge c b) d).updDrc c (fun y => { y with debt := [] })

/-- The frequency change ends (R306–R308), not before every burst in flight has completed (Table 10.5 step 2): in service, or with the
outcome of R303 where the level 0 check at the target point fails; a channel out of service only takes the point. -/
def Dev.freqDone (d : Dev) (c : Nat) (eyes : List (Nat × Nat)) : Dev :=
  match (d.drc c).freq with
  | none => d
  | some p =>
    if (d.drc c).bursts.any (·.queued) then d
    else
      let d1 := ((d.quiesceMemory c).loadPoint c p).updDrc c (fun y => { y with freq := none })
      if !d.chIn c then d1.drcEnd c 0
      else match d1.checkBad c eyes with
        | some (step, write) => d1.checkFails c step write
        | none =>
          (((d1.set (R.DRC_STATUS_STATE c) 3).drcEnd c 0).raise Ev.FREQ_DONE (c + 2 * p + 65536 * d1.get (R.DRC_MTS c))).reRate.admitAll c

/-! ## DRC_CFG and the power domain (R282, R283, R311) -/

/-- The four geometries of Table 10.1: (WIDTH, BG_BITS, ROW_BITS). -/
def geometryOk (width bg row : Nat) : Bool :=
  (width == 1 && bg == 2 && row == 2) || (width == 1 && bg == 3 && row == 2) || (width == 0 && bg == 3 && row == 2) ||
    (width == 0 && bg == 3 && row == 3)

/-- A DRC_CFG value the device admits (R283). [DEDUCED, unsafe, log 19] -/
def drcCfgOk (v : Nat) : Bool := bitsOf v 0 1 == 0 || geometryOk (bitsOf v 2 1) (bitsOf v 4 2) (bitsOf v 8 3)

/-- EN of a channel was changed by a write of DRC_CFG (R282): enabling makes it OFF, out of service until a RETRAIN; disabling makes
it absent. CHANNEL_OUT is raised where the level follows (R288): for a channel now out of service, and where the last channel in
service becomes absent. [DEDUCED, unsafe, log 78] -/
def Dev.drcEnable (d : Dev) (c : Nat) (was : Bool) : Dev :=
  if d.chOn c && !was then (((d.set (R.DRC_STATUS_STATE c) 1).raise Ev.CHANNEL_OUT (c + 2)).causeOn (2 + c))
  else if was && !d.chOn c then
    let last := d.is (R.DRC_STATUS_INSVC c) && !d.chIn (1 - c)
    let d1 := (((((d.set (R.DRC_STATUS_STATE c) 0).setB (R.DRC_STATUS_INSVC c) false).setB (R.DRC_RESULT_BUSY c) false).failBursts c).updDrc c
      (fun y => { y with rows := [], debt := [], rfmDue := [], train := none, freq := none }))
    (when last (fun (d : Dev) => d.raise Ev.CHANNEL_OUT c) d1).causeOff (2 + c) |>.raiseLevel |>.reRate
  else d

/-- PD_DRAMc goes off (R311): the channel is OFF. -/
def Dev.channelOff (d : Dev) (c : Nat) : Dev := if d.chOn c then (d.channelOut c 1).setB (R.DRC_RESULT_BUSY c) false else d

end Sys2Proof.Machine
end

