-- ==== Sys2Proof/Machine/Crc.lean ====
section
/-! DEFINITION. CRC units (12 R344–R348). -/

namespace Sys2Proof.Machine

/-- Reflection of a `w`-bit value (R344). -/
def reflect (w x : Nat) : Nat := (List.range w).foldl (fun r i => if hasBit x i then orBit r (w - 1 - i) else r) 0

/-- The settings of a unit: width, polynomial, final XOR, reflections. -/
structure CrcCfg where
  w : Nat
  poly : Nat
  xorout : Nat
  refin : Bool
  refout : Bool
  deriving DecidableEq, Repr

/-- One bit of the division. -/
def CrcCfg.bit (c : CrcCfg) (v : Nat) : Nat :=
  if c.refin then (if hasBit v 0 then (v >>> 1) ^^^ reflect c.w c.poly else v >>> 1)
  else if hasBit v (c.w - 1) then ((v * 2) ^^^ c.poly) % 2 ^ c.w else (v * 2) % 2 ^ c.w

/-- One byte into the unit (R344). -/
def CrcCfg.byte (c : CrcCfg) (v : Nat) (b : Byte) : Nat :=
  (List.range 8).foldl (fun v _ => c.bit v) (if c.refin then v ^^^ b.toNat else v ^^^ (b.toNat * 2 ^ (c.w - 8)))

/-- The result of a running value (R344). -/
def CrcCfg.result (c : CrcCfg) (v : Nat) : Nat := (if c.refin = c.refout then v else reflect c.w v) ^^^ c.xorout

/-- The settings of unit `u`. The polynomial and the final XOR count in the bits of the width. -/
def Dev.crcCfg (d : Dev) (u : Nat) : CrcCfg :=
  let w := d.get (R.CRC_CFG_WIDTH u)
  { w := w, poly := d.get (R.CRC_POLY u) % 2 ^ w, xorout := d.get (R.CRC_XOROUT u) % 2 ^ w,
    refin := d.is (R.CRC_CFG_REFIN u), refout := d.is (R.CRC_CFG_REFOUT u) }

/-- A port holds unit `u`: its link state is anything other than OFF, DOWN or FAILED (R347). -/
def Dev.crcPort (d : Dev) (u : Nat) : Bool :=
  decide (u < 32) && (match (d.link (d.linkOf u)).st with
    | .off | .down | .failed => false
    | _ => true)

/-- CRC_STATUS.OWNER (R347). -/
def Dev.crcOwner (d : Dev) (u : Nat) : Nat := if d.crcPort u then 0x7F else d.get (R.CRC_STATUS_OWNER u)

/-- Feeds bytes to a unit. -/
def Dev.crcFeed (d : Dev) (u : Nat) (l : List Byte) : Dev :=
  let c := d.crcCfg u
  let v := l.foldl c.byte (d.get (R.CRC_VAL u) % 2 ^ c.w)
  (d.set (R.CRC_VAL u) v).wrap (R.CRC_BYTES u) l.length

/-- CRC_RESULT follows the running value and the settings (R344). -/
def Dev.crcResult (d : Dev) (u : Nat) : Nat := (d.crcCfg u).result (d.get (R.CRC_VAL u) % 2 ^ (d.crcCfg u).w)

/-- A host write to a held unit is discarded and counted (R347). -/
def Dev.crcHost (d : Dev) (u : Nat) (f : Dev → Dev) : Dev :=
  if d.crcOwner u ≠ 0 then (d.bump (R.CRC_DISC_CNT u) 1).occur Ev.CRC_WRITE_DISCARDED u 1 else f d

/-- LOAD sets the running value to CRC_INIT (R344). -/
def Dev.crcLoad (d : Dev) (u : Nat) : Dev :=
  d.set (R.CRC_VAL u) (d.get (R.CRC_INIT u))

/-- CRC_LOAD. -/
def execCrcLoad (u : Nat) (s : State) : Out := onHostIf (decide (u < 36)) (fun d => d.crcHost u (fun d => d.crcLoad u)) s

/-- CRC_DATA feeds four bytes, least significant first. -/
def execCrcData (u : Nat) (val : Word) (s : State) : Out :=
  onHostIf (decide (u < 36)) (fun d => d.crcHost u (fun d => d.crcFeed u (bytesOf 4 val.toNat))) s

/-- CRC_DATA8 feeds one byte. -/
def execCrcData8 (u : Nat) (val : Byte) (s : State) : Out :=
  onHostIf (decide (u < 36)) (fun d => d.crcHost u (fun d => d.crcFeed u [val])) s

end Sys2Proof.Machine
end

