-- ==== Sys2Proof/Machine/Bars.lean ====
section
/-! DEFINITION. The BAR4 tables (16 R451, Table 16.12), the BAR2 job window (03 R94) and the access of host and DMA to DRAM
regions. -/

namespace Sys2Proof.Machine

/-! ## BAR4 reads -/

/-- A 32-bit word of a byte list at a byte offset. -/
def wordAt (l : List Byte) (o : Nat) : Word := BitVec.ofNat 32 (leAt l o 4)

/-- A 32-bit word of an SRAM table as a read delivers it (11 R315, R316): none on a bus error. -/
def Dev.sramRead32 (d : Dev) (m w req : Nat) : Option Word × Dev :=
  let r := d.sramRead m w req
  (r.1.map (BitVec.ofNat 32), r.2)

/-- One 32-bit half of a 64-bit SRAM word as a read delivers it. -/
def Dev.sramReadHalf (d : Dev) (m w hi req : Nat) : Option Word × Dev :=
  let r := d.sramRead m w req
  (r.1.map (fun v => BitVec.ofNat 32 (v >>> (32 * hi))), r.2)

/-- Word `j` of a view of the correction store: the entries of columns 2j and 2j + 1, each in a word of its own (06 R181, R183). -/
def Dev.corrView (d : Dev) (active : Bool) (j req : Nat) : Option Word × Dev :=
  let h := d.corrHalf active
  let a := d.sramRead 4 (2 * j) req
  let b := a.2.sramRead 4 (2 * j + 1) req
  (match a.1, b.1 with
   | some x, some y => some (BitVec.ofNat 32 (bitsOf x (16 * h) 16 + 65536 * bitsOf y (16 * h) 16))
   | _, _ => none, b.2)

/-- A read of the aligned BAR4 word at offset `a` (Table 16.12): none on a bus error. -/
def Dev.bar4Read (d : Dev) (a req : Nat) : Option Word × Dev :=
  let w := a / 4
  if a < 0x80000 then d.sramRead32 3 (131072 * d.remapHalf (d.is R.LAS_STATUS_COPYING) + w) req
  else if a < 0x100000 then d.sramRead32 3 (131072 * d.remapHalf true + (w - 0x20000)) req
  else if a < 0x180000 then d.corrView d.corrShut (w - 0x40000) req
  else if a < 0x200000 then d.corrView true (w - 0x60000) req
  else if a < 0x300000 then d.sramReadHalf 5 ((w - 0x80000) / 2) (w % 2) req
  else if a < 0x500000 then d.sramRead32 2 (w - 0xC0000) req
  else if a < 0x520000 then d.sramReadHalf 6 ((w - 0x140000) / 2) (w % 2) req
  else if a < 0x540000 then d.sramReadHalf 6 (tplActiveWord + (w - 0x148000) / 2) (w % 2) req
  else if 0x600000 ≤ a ∧ a < 0x608000 then
    d.sramRead32 9 (8192 + (a - 0x600000) / 4) req
  else if 0x610000 ≤ a ∧ a < 0x620000 then
    (some (match d.evt.ring.find? ((a - 0x610000) / 16) with
      | some e => wordAt e.bytes (a % 16)
      | none => 0), d)
  else (some 0, d)

/-! ## BAR4 writes -/

/-- A word of the threshold store is written: a partial write of a 64-bit word (11 R321, R322). False where it is refused. -/
def Dev.thrWrite (d : Dev) (w : Nat) (v : Word) (req : Nat) : Bool × Dev :=
  if d.cellLocked (w / 4) then (true, d.bump R.DOS_DISC_CNT 1)
  else
    let r := d.sramPartial 5 (w / 2) req (fun x => putBits x (32 * (w % 2)) 32 v.toNat)
    (r.1, if r.1 && descCovers r.2.regs (w / 4) then r.2.setB R.DOS_STATUS_SCR_VALID false else r.2)

/-- A word of the Shadow view of the correction store is written: half of two words, two partial writes (06 R181, R183). -/
def Dev.corrWrite (d : Dev) (j : Nat) (v : Word) (req : Nat) : Bool × Dev :=
  if d.corrShut then (true, d.bump R.DOS_DISC_CNT 1)
  else
    let h := d.corrHalf false
    if d.sramKind 4 (2 * j) = .clean ∧ d.sramKind 4 (2 * j + 1) = .clean then
      (true, { d with dos := { d.dos with corrS := d.dos.corrS.put j v } })
    else
      let a := d.sramPartial 4 (2 * j) req (fun x => putBits x (16 * h) 16 v.toNat)
      let b := a.2.sramPartial 4 (2 * j + 1) req (fun x => putBits x (16 * h) 16 (v.toNat >>> 16))
      (a.1 && b.1, b.2)

/-- A word of the Shadow template store is written: a partial write of a 64-bit word (11 R321, R322, 05 R151). -/
def Dev.tplWrite (d : Dev) (w : Nat) (v : Word) (req : Nat) : Bool × Dev :=
  if d.shadowLocked then (true, d)
  else if d.sramKind 6 (w / 2) = .clean then
    (true, { d with cmp := { d.cmp with tplS := d.cmp.tplS.put w v } }.setB R.CMP_STATUS_TPL_VALID false)
  else
    let r := d.sramPartial 6 (w / 2) req (fun x => putBits x (32 * (w % 2)) 32 v.toNat)
    (r.1, if r.1 then r.2.setB R.CMP_STATUS_TPL_VALID false else r.2)

/-- A word of the Shadow remap half is written: a whole-word write (07 R204, R206, R208). -/
def Dev.remapWrite (d : Dev) (w : Nat) (v : Word) : Dev :=
  if d.remapWritable then
    ({ d with las := { d.las with remapS := d.las.remapS.put w v } }.freshWords 3 (131072 * d.remapHalf false + w)
      (131072 * d.remapHalf false + w + 1)).setB R.LAS_STATUS_REMAP_VALID false
  else d.bump R.LAS_DISC_CNT 1

/-- A word of the glyph store is written: a whole-word write. The VALID bit of a slot table entry is set by GLYPH_COMMIT alone. -/
def Dev.glyphWrite (d : Dev) (w : Nat) (v : Word) : Dev :=
  if d.glyphLocked w then d.bump R.CMP_GLYPH_DISC 1
  else
    let x := if w < 64 ∧ w % 2 = 1 then BitVec.ofNat 32 (putBits v.toNat 0 1 0) else v
    { d with cmp := { d.cmp with glyph := d.cmp.glyph.put w x } }.freshWords 2 w (w + 1)

/-- A write of the aligned BAR4 word at offset `a` (Table 16.12). False on a bus error. [DESIGN CHOICE, unsafe, log 115] -/
def Dev.bar4Write (d : Dev) (a : Nat) (v : Word) (req : Nat) : Bool × Dev :=
  let w := a / 4
  if a < 0x80000 then (true, d.remapWrite w v)
  else if a < 0x100000 then (true, d.bump R.LAS_DISC_CNT 1)
  else if a < 0x180000 then d.corrWrite (w - 0x40000) v req
  else if a < 0x200000 then (true, d.bump R.DOS_DISC_CNT 1)
  else if a < 0x300000 then d.thrWrite (w - 0x80000) v req
  else if a < 0x500000 then (true, d.glyphWrite (w - 0xC0000) v)
  else if a < 0x520000 then d.tplWrite (w - 0x140000) v req
  else (true, d)

/-- The host reaches the tables and the job window: not before IDLE (17 R468), not while PERST_N is low (17 R463). -/
def Dev.hostOpen (d : Dev) : Bool := d.awake && d.dstate != .boot && !d.pwr.perst

/-- BAR4_WRITE (16 R451): whole, aligned words, up to 512 bytes in one request; any other access has no effect (00_scope R4). -/
def execBar4Write (ofs : Nat) (words : List Word) (s : State) : Out :=
  onDev (fun d =>
    if d.hostOpen && ofs % 4 == 0 && decide (words.length ≤ 128) then
      forEach words.zipIdx (fun (d : Dev) e => (d.bar4Write (ofs + 4 * e.2) e.1 14).2) d
    else d) s

/-! ## DRAM regions -/

/-- The pieces of a region access that lie in one 64-byte burst each: channel, channel address, offset in the access, bytes. -/
def pieces : Nat → Nat → Nat → Nat → Nat → List (Nat × Nat × Nat × Nat)
  | 0, _, _, _, _ => []
  | f + 1, place, x, o, n =>
    if n = 0 then []
    else
      let k := min n (64 - x % 64)
      let (c, a) := mapAddr place x
      (c, a, o, k) :: pieces f place (x + k) (o + k) (n - k)

/-- The pieces of `n` bytes from address `x` of a placement. -/
def piecesOf (place x n : Nat) : List (Nat × Nat × Nat × Nat) := pieces (n / 64 + 2) place x 0 n

/-- A piece falls on a channel that answers with a bus error: absent, out of service, or in the training area (10 R284, R287). -/
def Dev.pieceBad (d : Dev) (p : Nat × Nat × Nat × Nat) : Bool :=
  !d.chIn p.1 || decide (d.usable p.1 < p.2.1 + p.2.2.2)

/-- Reads a region with its counts: the bytes, or the offset of the first failing piece. -/
def regionRead (d : Dev) (m : Mem) (req place x n : Nat) : (List Byte ⊕ Nat) × Dev :=
  (piecesOf place x n).foldl (fun (r : (List Byte ⊕ Nat) × Dev) p =>
    match r.1 with
    | .inr _ => r
    | .inl l =>
      if d.pieceBad p then (.inr p.2.2.1, r.2)
      else match readCounted r.2 m p.1 req p.2.1 p.2.2.2 with
        | (some b, d') => (.inl (l ++ b), d')
        | (none, d') => (.inr p.2.2.1, d')) (.inl [], d)

/-- Writes a region with its counts; answers the offset of the first piece that was refused. The other pieces are written. -/
def regionWrite (d : Dev) (m : Mem) (req place x : Nat) (l : List Byte) : Option Nat × Dev × Mem :=
  (piecesOf place x l.length).foldl (fun (r : Option Nat × Dev × Mem) p =>
    if d.pieceBad p then (r.1.or (some p.2.2.1), r.2)
    else
      let (ok, y) := writeAll 9 p.1 req p.2.1 (sliceOf l p.2.2.1 p.2.2.2) (true, r.2.1, r.2.2)
      (if ok then r.1 else r.1.or (some p.2.2.1), y)) (none, d, m)

/-! ## Requests that wait for a channel (10 R287, R304) -/

/-- A channel of a placement trains or changes its frequency: requests to it wait (10 R287). [DEDUCED, unsafe, log 116] -/
def Dev.memHeld (d : Dev) (place : Nat) : Bool := (placeChannels place).any (fun c => d.chIn c && d.get (R.DRC_STATUS_STATE c) != 3)

/-- Host intake to a placement waits: while a channel of it is not ready, or the print path urgency holds port 3 (01 R33, 10 R294). [DEDUCED, unsafe, log 116] -/
def Dev.intakeStop (d : Dev) (place : Nat) : Bool := d.memHeld place || (placeChannels place).any (fun c => d.chIn c && d.hostHeld c)

/-! ## BAR2 (03 R94) -/

/-- A write was discarded by the conditions of R94. -/
def Dev.intakeDiscard (d : Dev) : Dev := (d.bump R.INTAKE_DISC_CNT 1).occur Ev.INTAKE_DISCARD 0 1

/-- A host or DMA write into a well (R94, R95): discarded whole unless the well is LOADING and the bytes lie inside it. -/
def wellWrite (d : Dev) (m : Mem) (req w o : Nat) (l : List Byte) : (Bool × Option Nat) × Dev × Mem :=
  if d.wellTakes w o l.length then
    let (e, y) := regionWrite d m req (d.well w).place ((d.well w).base + o) l
    ((true, e), y)
  else ((false, none), d.intakeDiscard, m)

/-- The host writes that wait land, oldest first, until one is still held (01 R33: never dropped). [DEDUCED, unsafe, log 116] -/
def landIntake : Nat → Dev → Mem → Dev × Mem
  | 0, d, m => (d, m)
  | f + 1, d, m =>
    match d.job.intake with
    | [] => (d, m)
    | (place, x, l) :: rest =>
      if d.intakeStop place then (d, m)
      else
        let r := regionWrite { d with job := { d.job with intake := rest } } m 3 place x l
        landIntake f r.2.1 r.2.2

/-- Compressor bytes go to its well on port 5 (04 R148, 10 Table 10.4); none where the well does not take them. A refused burst is
counted and logged by 11 R322 and does not end the task. [DEDUCED, unsafe, log 48] -/
def cmprWrite (d : Dev) (m : Mem) (c o : Nat) (l : List Byte) : Option (Dev × Mem) :=
  let x := d.cmpr c
  if d.wellTakes x.well o l.length then some (regionWrite d m 5 (d.well x.well).place ((d.well x.well).base + o) l).2 else none

/-- The 32 zero bytes of a task's header (04 R142) land at the segment offset once the well's channels are ready (10 R287). [DEDUCED, unsafe, log 116] -/
def cmprZero (d : Dev) (m : Mem) (c : Nat) : Dev × Mem :=
  let x := d.cmpr c
  if !x.hdrDue || d.memHeld (d.well x.well).place then (d, m)
  else
    let d1 := d.setCmpr c { x with hdrDue := false }
    match cmprWrite d1 m c x.ofs (List.replicate 32 0) with
    | some r => r
    | none => (if x.busy then d1.cmprLost c else d1, m)

/-- No write waits for a channel: none of the host, no header of a compressor task. -/
def Dev.noneWait (d : Dev) : Bool := d.job.intake.isEmpty && !(d.cmpr 0).hdrDue && !(d.cmpr 1).hdrDue

/-- The writes that waited for a channel land, those of the host in order; none while the device is held. [DEDUCED, unsafe, log 116] -/
def drainIntake (d : Dev) (m : Mem) : Dev × Mem :=
  if d.awake then
    let z := if (d.cmpr 0).hdrDue || (d.cmpr 1).hdrDue then (fun (r : Dev × Mem) => cmprZero r.1 r.2 1) (cmprZero d m 0) else (d, m)
    landIntake z.1.job.intake.length z.1 z.2
  else (d, m)

/-- What follows a command that may end a hold of host intake. [DEDUCED, unsafe, log 116] -/
def landed : Out → Out
  | .next s => let r := drainIntake s.dev s.mem; .next { s with dev := r.1, mem := r.2 }
  | x => x

/-- A BAR2 write (R94): taken, and landing as soon as intake is not held, or discarded. [DEDUCED, unsafe, log 116] -/
def bar2Write (ofs : Nat) (data : List Byte) (d : Dev) (m : Mem) : Dev × Mem :=
  let w := d.get R.INTAKE_WIN_WELL
  let o := d.get R.INTAKE_WIN_OFS * 2 ^ 20 + ofs
  if d.wellTakes w o data.length then
    drainIntake { d with job := { d.job with
      intake := d.job.intake ++ [((d.well w).place, (d.well w).base + o, data)] } } m
  else (d.intakeDiscard, m)

/-- BAR2_WRITE (R94). -/
def execBar2Write (ofs : Nat) (data : List Byte) (s : State) : Out :=
  if s.dev.hostOpen then
    let r := bar2Write ofs data s.dev s.mem
    .next { s with dev := r.1, mem := r.2 }
  else .next s

/-- What a host read of `n` bytes of BAR2 at an offset answers (R94), with its counts: stored data where they lie inside a defined well, else
zeros; a bus error is answered by a completion with EP set, its data all ones (11 R318). No command of the table reads the window. [DEDUCED, unsafe, log 116] -/
def bar2Read (d : Dev) (m : Mem) (ofs n : Nat) : List Byte × Dev :=
  let x := d.well (d.get R.INTAKE_WIN_WELL)
  let o := d.get R.INTAKE_WIN_OFS * 2 ^ 20 + ofs
  if x.st != .free && decide (o + n ≤ x.size) then
    match regionRead d m 3 x.place (x.base + o) n with
    | (.inl l, d1) => (l, d1)
    | (.inr _, d1) => (List.replicate n 0xFF, d1.emit (.poisoned 2 ofs))
  else (List.replicate n 0, d)

/-- DRAM_BURST_COMPLETE (10 R291). [DEDUCED, safe, log 75] -/
def execDramBurstComplete (ch id : Nat) (s : State) : Out :=
  landed (onDevMemIf (decide (ch < 2)) (burstDone ch id) s)

/-- TRAIN_DONE. -/
def execTrainDone (ch : Nat) (rd wr : List Nat) (rfm : Bool) (s : State) : Out :=
  landed (onDevIf (decide (ch < 2)) (fun d => d.trainDone ch (eyePairs rd wr) rfm) s)

/-- FREQ_DONE. -/
def execFreqDone (ch : Nat) (eyes : List (Nat × Nat)) (s : State) : Out :=
  landed (onDevIf (decide (ch < 2)) (fun d => d.freqDone ch eyes) s)

/-! ## Spill and refill (07 R215, R219) -/

/-- SPILL_WRITE_DONE (R215, 11 R317): the oldest headrace record of a long class stands in its middle slot, words whose SRAM
copy was uncorrectable poisoned, and the headrace slot is free. A write does not complete while its channel is not ready. -/
def spillDone (d : Dev) (m : Mem) (c : Nat) (poison : List Nat) : Dev × Mem :=
  let x := d.las.cis.get {} c
  match x.head with
  | [] => (d, m)
  | (l, r) :: rest =>
    if d.memHeld d.las.place then (d, m)
    else
      let live := d.ledgerAt l == .data && !d.passedLine c l && !d.inResume (l + classDelay d.active c)
      let bad := ((poison ++ (x.bad.filter (fun b => b.1 == l)).flatMap (·.2)).filter (fun w => decide (8 * w < r.length))).eraseDups
      let y := { x with head := rest, mid := if live then x.mid ++ [l] else x.mid, bad := x.bad.filter (fun b => b.1 != l) }
      let a := d.recordAddr x l
      let w := regionWrite { d with las := { d.las with cis := d.las.cis.put c y } } m 0 d.las.place a r
      bad.foldl (fun (z : Dev × Mem) b =>
        let (ch, ca) := mapAddr d.las.place (a + 8 * b)
        let d1 := z.1.sramFault 0 9
        if d.pieceBad (ch, ca, 0, 8) then (d1, z.2) else (d1.bump (R.ECC_POISON_CNT (16 + ch)) 1, z.2.poison ch (ca / 8))) w.2

/-- SPILL_WRITE_DONE. -/
def execSpillWriteDone (cls : Nat) (poison : List Nat) (s : State) : Out :=
  onDevMemIf (decide (cls < 256)) (fun d m => spillDone d m cls poison) s

/-- REFILL_DONE (R215, R219): the lowest line of the middle reaches the tailrace; a refill of any other line came too late and
is discarded. A read does not complete while its channel is not ready. -/
def Dev.refill (d : Dev) (m : Mem) (c l : Nat) (busErr : Bool) : Dev :=
  let x := d.las.cis.get {} c
  match x.mid with
  | [] => d
  | k :: rest =>
    if k = l ∧ x.tail.length < d.las.tr ∧ d.memHeld d.las.place = false then
      let got := if busErr then (.inr 0, d) else regionRead d m 1 d.las.place (d.recordAddr x l) x.width
      let rec_ := match got.1 with
        | .inl b => some b
        | .inr _ => none
      { got.2 with las := { got.2.las with cis := got.2.las.cis.put c { x with mid := rest, tail := x.tail ++ [(l, rec_)] } } }
    else d

/-- REFILL_DONE. [DEDUCED, unsafe, log 61] -/
def execRefillDone (cls line : Nat) (busErr : Bool) (s : State) : Out :=
  onDevIf (decide (cls < 256)) (fun d => d.refill s.mem cls line busErr) s

/-! ## Compressor output (04 R139–R148) -/

/-- COMPRESSOR_INPUT (R142, R146): input for a task, its first byte writing the zero header at the segment offset; bytes beyond raw length wait
behind the task and are excess at its commit. [DEDUCED, safe, log 14; DEDUCED, unsafe, log 48] -/
def cmprInput (d : Dev) (m : Mem) (c w o : Nat) (data : List Byte) : Dev × Mem :=
  let x := d.cmpr c
  if !x.busy then (d.cmprExcess c data.length, m)
  else
    let take := min data.length (x.rawLen - x.inp.length)
    let y := { x with started := true, well := if x.started then x.well else w, ofs := if x.started then x.ofs else o,
                      inp := x.inp ++ data.take take, beyond := x.beyond + (data.length - take), hdrDue := x.hdrDue || !x.started }
    cmprZero ((d.setCmpr c y).set (R.CMPR_IN_CNT c) y.inp.length) m c

/-- The commit of a task: padding, then the true header over the zeros (R142). -/
def cmprCommit (d : Dev) (m : Mem) (c : Nat) : Dev × Mem :=
  let x := d.cmpr c
  let pl := x.pay.length
  let crc := crc32c x.inp
  match cmprWrite d m c (x.ofs + 32 + pl) (List.replicate (pad8 pl - pl) 0) with
  | none => (d.cmprLost c, m)
  | some (d, m1) =>
    match cmprWrite d m1 c x.ofs (x.header pl crc) with
    | none => (d.cmprLost c, m1)
    | some (d, m2) =>
      (((((d.set (R.CMPR_OUT_LEN c) (32 + pad8 pl)).set (R.CMPR_PAY_LEN c) pl).set (R.CMPR_CRC c) crc).cmprEnd c .ok).cmprExcess c x.beyond, m2)

/-- COMPRESSOR_BLOCK_DONE (R141–R145): the next block is closed and verified, written, and the last one commits the header.
None is written while a channel of the well
is not ready (10 R287). `verify` is the input offset of the first difference the verifier found. [DESIGN CHOICE, safe, log 47] -/
def cmprBlock (d : Dev) (m : Mem) (c : Nat) (verify : Option Nat) : Dev × Mem :=
  let x := d.cmpr c
  let n := min 65536 (x.rawLen - x.coded)
  if !x.busy || !x.started || d.memHeld (d.well x.well).place || decide (x.inp.length < x.coded + n) || n == 0 then (d, m)
  else match verify with
  | some o =>
    ((((d.cmprEnd c .verifyFail).set64 (R.CMPR_ERR_OFS_LO c) o).bump (R.CMPR_VERIFY_CNT c) 1).raise Ev.CMPR_VERIFY
      (c + 65536 * (o % 2 ^ 48)), m)
  | none =>
    let block := sliceOf x.inp x.coded n
    let final := x.coded + n == x.rawLen
    let r := x.blockPay block final
    let pay := x.pay ++ r.1
    if x.effort ≠ 0 ∧ final = true ∧ x.rawLen < pay.length then
      ((d.cmprEnd c .noGain).raise Ev.CMPR_NO_GAIN (c + 2 ^ 32 * (pay.length % 2 ^ 32)), m)
    else match cmprWrite d m c (x.ofs + 32 + x.pay.length) r.1 with
    | none => (d.cmprLost c, m)
    | some (d, m1) =>
      let d1 := d.setCmpr c { x with pay := pay, tail := r.2, coded := x.coded + n }
      if final then cmprCommit d1 m1 c else (d1, m1)

/-! ## Job reads and seal reads with their counts (11 R315, R316) -/

/-- A requester reads ranges of a well, in order. -/
def Dev.wellReads (d : Dev) (m : Mem) (req w : Nat) (l : List (Nat × Nat)) : Dev :=
  let x := d.well w
  if x.unread then d else forEach l (fun (d : Dev) r => (regionRead d m req x.place (x.base + r.1) r.2).2) d

/-- What the walk of a band reads: its table entry, and the headers up to the first it does not accept (04 R127). -/
def Dev.walkReads (d : Dev) (m : Mem) (q b : Nat) : List (Nat × Nat) :=
  let x := d.slot q
  let segs := d.walkBand m q b
  let good := segs.takeWhile (fun s => s.bad.isNone)
  let first := (d.wellRead m x.well (x.hdr.tableOfs + 16 * b) 16).map (fun e => (parseBandEntry e).ofs)
  let next := match good.getLast? with
    | some s => some (s.ofs + pad8 s.payLen)
    | none => first
  (x.hdr.tableOfs + 16 * b, 16) :: good.map (fun s => (s.ofs - 32, 32)) ++
    (if good.length = segs.length then [] else (next.map (fun o => (o, 32))).toList)

/-- The job whose walk of a band a slot number means: of a drained job that engines still expand, the one that used that slot (log 122). [DESIGN CHOICE, unsafe, log 122] -/
def Dev.walkSlot (d : Dev) (slot band : Nat) : Nat :=
  ((d.exp.walkPend.find? (fun w => w.1 % 16 == slot && w.2 == band)).map (·.1)).getD slot

/-- BAND_WALK_DONE; a walk does not end while its channel is not ready. -/
def execBandWalkDone (slot band : Nat) (s : State) : Out :=
  onDevIf (decide (slot < 16)) (fun d =>
    let q := d.walkSlot slot band
    if d.memHeld (d.well (d.slot q).well).place || !d.exp.walkPend.contains (q, band) then d
    else (d.wellReads s.mem 2 (d.slot q).well (d.walkReads s.mem q band)).walkDone s.mem q band) s

/-- What an engine reads anew of a segment, in 64-byte bursts: what its context gains, and the burst that fails. [DEDUCED, unsafe, log 117] -/
def segRange (old : Ctx) (r : SegRun) : List (Nat × Nat) :=
  let n := r.ctx.pay.length - old.pay.length + (if r.code = some SegCode.read.num ∧ r.seg.bad.isNone ∧ r.errAt = r.ctx.pay.length then 64 else 0)
  let k := min n (r.seg.payLen - old.pay.length)
  if k = 0 then [] else [(r.seg.ofs + old.pay.length, k)]

/-- What engine `e` reads for its waiting line: nothing where its staging has no room for the line. [DEDUCED, unsafe, log 117] -/
def Dev.lineReads (d : Dev) (m : Mem) (e : Nat) : List (Nat × Nat) :=
  match (d.eng e).pend with
  | l :: _ =>
    match d.walkOf l.slot (d.bandOf l) with
    | some all =>
      let h := (d.slot l.slot).hdr
      let res := d.lineRuns m e l all none
      let parts := lineParts h (bandLinesOf h (d.bandOf l)) (l.jline % h.bandLines) res
      if 32768 < d.stagedBytes e + (parts.map (fun p => p.2.length)).sum then []
      else (((d.eng e).ctxsFor (l.slot, d.bandOf l) res.length).zip res).flatMap (fun p => segRange p.1 p.2)
    | none => []
  | [] => []

/-- A slice-line with the counts of its job reads; none completes while the well's channel is not ready. [DEDUCED, unsafe, log 117] -/
def Dev.sliceLineRead (d : Dev) (m : Mem) (e : Nat) (readErr : Option Nat) : Dev :=
  let w := match (d.eng e).pend with
    | l :: _ => (d.slot l.slot).well
    | [] => 0
  if (d.eng e).st ≠ .run ∨ d.memHeld (d.well w).place = true then d
  else (when readErr.isSome (fun (d : Dev) => d.sramFault 1 10) (d.wellReads m 2 w (d.lineReads m e))).sliceLine m e readErr

/-- SLICE_LINE_DONE. -/
def execSliceLineDone (engine : Nat) (readErr : Option Nat) (s : State) : Out :=
  onDevIf (decide (engine < 32)) (fun d => d.sliceLineRead s.mem engine readErr) s

/-- Segment headers of a band from offset `o`, as far as they can be read. -/
def sealChain (rd : Nat → Nat → Option (List Byte)) : (left o : Nat) → List (Nat × Nat)
  | 0, _ => []
  | left + 1, o =>
    (o, 32) :: match rd o 32 with
      | some bs => sealChain rd left (o + 32 + pad8 (parseSeg bs o).seg.payLen)
      | none => []

/-- What a structure check reads, up to the structure that fails (03 R519). -/
def sealReads (rd : Nat → Nat → Option (List Byte)) (size : Nat) : List (Nat × Nat) :=
  match rd 0 64 with
  | none => [(0, 64)]
  | some bs =>
    let h := parseHdr bs
    let table := [(0, 64), (h.tableOfs, 16 * h.bandCount)]
    let band := fun b => match rd (h.tableOfs + 16 * b) 16 with
      | some e => sealChain rd h.segs (parseBandEntry e).ofs
      | none => []
    match sealCheck rd size with
    | .pass _ _ => table ++ (List.range h.bandCount).flatMap band
    | .fail c o =>
      if c ≤ 4 then [(0, 64)]
      else if c = 5 then table
      else if c = 6 then table ++ (List.range ((o - h.tableOfs) / 16)).flatMap band
      else if c = 9 then table ++ (List.range (1 + (List.range h.bandCount).findIdx (fun b => (band b).head?.any (fun r => r.1 == o)))).flatMap band
      else table ++ (((List.range h.bandCount).flatMap band).takeWhile (fun r => r.1 != o)) ++ [(o, 32)]

/-- SEAL_COMPLETE (03 R91): once every host write taken before has landed and the well's channels are ready, the check ends. -/
def Dev.sealRead (d : Dev) (m : Mem) : Dev :=
  match d.job.sealing with
  | none => d
  | some w =>
    if d.memHeld (d.well w).place || !d.job.intake.isEmpty then d
    else (d.wellReads m 6 w (sealReads (fun o n => d.wellRead m w o n) (d.well w).size)).sealComplete m

/-- SEAL_COMPLETE. -/
def execSealComplete (s : State) : Out := onDev (fun d => d.sealRead s.mem) s

end Sys2Proof.Machine
end

