-- ==== Sys2Proof/Machine/Jtag.lean ====
section
/-! DEFINITION. The test access port (20 R511–R514): its instructions, who holds the pins, TRST_N. -/

namespace Sys2Proof.Machine

/-- IDCODE (R512). -/
def idcode : Nat := 0x1261823B

/-- `n` bits of `x`, least significant first: the order they shift out in. -/
def bitList (n x : Nat) : List Bool := (List.range n).map (fun i => hasBit x i)

/-- Who holds the pins under an instruction: only while PORST_N is low does the TAP take hold of them (R513). [DEDUCED, unsafe, log 102] -/
def pinHold (ir : TapIr) (porst : Bool) : PinHold :=
  match ir with
  | .extest => if porst then .boundary else .functional
  | .clamp => if porst then .boundary else .functional
  | .highz => if porst then .floating else .functional
  | _ => .functional

/-- An instruction takes effect; while TRST_N is low the TAP stays in Test-Logic-Reset (R511). -/
def onTap (f : Tap → Bool → Tap) (s : State) : Out :=
  .next (if s.tap.held then s else { s with tap := f s.tap s.dev.pwr.porst })

/-- The pins follow PORST_N. [DEDUCED, unsafe, log 102] -/
def Tap.atPorst (t : Tap) (porst : Bool) : Tap := { t with hold := pinHold t.ir porst }

/-- TRST: TRST_N goes low or high. Low puts the TAP in Test-Logic-Reset, where IDCODE is selected and nothing acts on the device. -/
def execTrst (low : Bool) (s : State) : Out :=
  .next { s with tap := if low then { s.tap with ir := .idcode, dr := bitList 32 idcode, hold := .functional, held := true }
                        else { s.tap with held := false } }

/-- EXTEST: the boundary-scan register captures the pins and is loaded; while PORST_N is low its cells drive them, else BYPASS. [DEDUCED, unsafe, log 102] -/
def execExtest (pins load : List Bool) (s : State) : Out :=
  onTap (fun t porst =>
    if porst then { t with ir := .extest, dr := pins, cells := load, hold := pinHold .extest porst }
    else { t with ir := .extest, dr := [false], hold := pinHold .extest porst }) s

/-- IDCODE. -/
def execIdcode (s : State) : Out := onTap (fun t _ => { t with ir := .idcode, dr := bitList 32 idcode, hold := .functional }) s

/-- SAMPLE_PRELOAD: the pins are sampled and the cells loaded; the pins keep their functions. -/
def execSamplePreload (pins load : List Bool) (s : State) : Out :=
  onTap (fun t _ => { t with ir := .sample, dr := pins, cells := load, hold := .functional }) s

/-- CLAMP: the cells hold the pins while PORST_N is low; the bypass register is selected. [DEDUCED, unsafe, log 102] -/
def execClamp (s : State) : Out := onTap (fun t porst => { t with ir := .clamp, dr := [false], hold := pinHold .clamp porst }) s

/-- HIGHZ: the pins float while PORST_N is low; the bypass register is selected. [DEDUCED, unsafe, log 102] -/
def execHighz (s : State) : Out := onTap (fun t porst => { t with ir := .highz, dr := [false], hold := pinHold .highz porst }) s

/-- BYPASS. -/
def execBypass (s : State) : Out := onTap (fun t _ => { t with ir := .bypass, dr := [false], hold := .functional }) s

end Sys2Proof.Machine
end

