-- ==== Sys2Proof/Machine/Dma.lean ====
section
/-! DEFINITION. DMA engine (12 R330–R343, R345–R347): descriptors, the byte stream, bursts, pacing, channel commands, errors, the
drain of a power domain; the compressor commands that move a paced channel. -/

namespace Sys2Proof.Machine

/-! ## Descriptors (Table 12.1) -/

/-- Word `i` of the descriptor in hand. -/
def DmaCh.word (x : DmaCh) (i : Nat) : Nat := ((x.desc.drop i).headD 0).toNat
/-- SRC_KIND. -/
def DmaCh.srcKind (x : DmaCh) : Nat := bitsOf (x.word 0) 0 4
/-- DST_KIND. -/
def DmaCh.dstKind (x : DmaCh) : Nat := bitsOf (x.word 0) 4 4
/-- Source element width in bytes. -/
def DmaCh.srcW (x : DmaCh) : Nat := 2 ^ bitsOf (x.word 0) 8 2
/-- Destination element width in bytes. -/
def DmaCh.dstW (x : DmaCh) : Nat := 2 ^ bitsOf (x.word 0) 10 2
/-- SWAP. -/
def DmaCh.swap (x : DmaCh) : Nat := bitsOf (x.word 0) 12 2
/-- IRQ. -/
def DmaCh.irq (x : DmaCh) : Bool := hasBit (x.word 0) 14
/-- PACED. -/
def DmaCh.paced (x : DmaCh) : Bool := hasBit (x.word 0) 15
/-- CRC_UNIT. -/
def DmaCh.unit (x : DmaCh) : Nat := bitsOf (x.word 0) 16 6
/-- CRC_MODE: 0 off, 1 SNOOP, 2 APPEND, 3 STRIP. -/
def DmaCh.crcMode (x : DmaCh) : Nat := bitsOf (x.word 0) 22 2
/-- CRC_INIT. -/
def DmaCh.crcInit (x : DmaCh) : Bool := hasBit (x.word 0) 24
/-- LAST. -/
def DmaCh.isLast (x : DmaCh) : Bool := hasBit (x.word 0) 25
/-- LENGTH. -/
def DmaCh.length (x : DmaCh) : Nat := x.word 1
/-- SRC_ADDR. -/
def DmaCh.src (x : DmaCh) : Nat := x.word 2 + 2 ^ 32 * x.word 3
/-- DST_ADDR. -/
def DmaCh.dst (x : DmaCh) : Nat := x.word 4 + 2 ^ 32 * x.word 5
/-- SRC_QUAL. -/
def DmaCh.srcQual (x : DmaCh) : Nat := bitsOf (x.word 6) 0 8
/-- DST_QUAL. -/
def DmaCh.dstQual (x : DmaCh) : Nat := bitsOf (x.word 6) 8 8
/-- NEXT. -/
def DmaCh.next (x : DmaCh) : Nat := bitsOf (x.word 6) 16 16
/-- TAG. -/
def DmaCh.tag (x : DmaCh) : Nat := x.word 7
/-- The compressor a COMPRESSOR destination names. -/
def DmaCh.cmprNo (x : DmaCh) : Nat := x.dstQual % 2
/-- The well a COMPRESSOR destination names. -/
def DmaCh.cmprWell (x : DmaCh) : Nat := bitsOf x.dstQual 4 4

/-- Widest element of an endpoint kind in bytes (Table 12.2). -/
def widest (kind : Nat) : Nat := if kind = 3 then 4 else if kind = 5 then 1 else 8

/-- Swap unit in bytes (Table 12.3). -/
def swapUnit (swap : Nat) : Nat := if swap = 0 then 1 else if swap = 1 then 2 else 4

/-- One swap unit rearranged (Table 12.3). -/
def swapOne (swap : Nat) (l : List Byte) : List Byte :=
  if swap = 3 then l.drop 2 ++ l.take 2 else l.reverse

/-- Bytes rearranged unit by unit (R332); `fuel` bounds the units. -/
def swapBytes : Nat → Nat → List Byte → List Byte
  | 0, _, l => l
  | f + 1, swap, l =>
    match l with
    | [] => []
    | _ => swapOne swap (l.take (swapUnit swap)) ++ swapBytes f swap (l.drop (swapUnit swap))

/-- A channel. -/
def Dev.dch (d : Dev) (n : Nat) : DmaCh := d.dma.chs.get {} n

/-- Replaces a channel. -/
def Dev.setDch (d : Dev) (n : Nat) (x : DmaCh) : Dev := { d with dma := { d.dma with chs := d.dma.chs.put n x } }

/-- CRC byte count n of the unit a descriptor names. -/
def Dev.crcCount (d : Dev) (x : DmaCh) : Nat := ceilDiv (d.get (R.CRC_CFG_WIDTH x.unit)) 8

/-- Bytes written by a descriptor (R331). -/
def Dev.descWritten (d : Dev) (x : DmaCh) : Nat :=
  if x.crcMode = 2 then x.length + d.crcCount x else if x.crcMode = 3 then x.length - d.crcCount x else x.length

/-- The checks of R331. -/
def Dev.descOk (d : Dev) (x : DmaCh) : Bool :=
  let fits := fun (n : Nat) => n % x.srcW == 0 && n % x.dstW == 0 && n % swapUnit x.swap == 0
  decide (x.srcKind ≤ 3) && decide (x.dstKind ≤ 6) &&
  decide (x.srcW ≤ widest x.srcKind) && decide (x.dstW ≤ widest x.dstKind) &&
  x.src % x.srcW == 0 && x.dst % x.dstW == 0 &&
  decide (1 ≤ x.length) && fits x.length && fits (d.descWritten x) &&
  (x.crcMode == 0 || (decide (x.unit ≤ 35) && decide (8 ≤ d.get (R.CRC_CFG_WIDTH x.unit)) &&
    decide (d.get (R.CRC_CFG_WIDTH x.unit) ≤ 32))) &&
  !(x.crcMode == 3 && decide (x.length ≤ d.crcCount x)) &&
  x.paced == (x.dstKind == 4) && (x.isLast || decide (x.next ≤ 1023))

/-! ## Domains (R341, R343) -/

/-- Domains of the channels of a placement. -/
def placeDomains (place : Nat) : List Nat := (placeChannels place).map (4 + ·)

/-- The domains one endpoint touches. -/
def Dev.endDomains (d : Dev) (kind qual : Nat) : List Nat :=
  if kind = 1 then placeDomains (qual % 4)
  else if kind = 2 then placeDomains (d.well (qual % 16)).place
  else if kind = 4 then 7 :: placeDomains (d.well (bitsOf qual 4 4)).place
  else []

/-- The domains a channel touches through its current descriptor. -/
def Dev.touches (d : Dev) (x : DmaCh) : List Nat := d.endDomains x.srcKind x.srcQual ++ d.endDomains x.dstKind x.dstQual

/-- A switch-off of domain `c` is pending. -/
def Dev.offPending (d : Dev) (c : Nat) : Bool := hasBit (d.get R.PWR_DOM_PENDING) c

/-! ## States and ends (Table 12.4) -/

/-- State of a channel. -/
def Dev.dstat (d : Dev) (n : Nat) : Nat := d.get (R.DMA_CH_STATUS_STATE n)

/-- A bit of a pair of 32-bit registers, bit `n` of 64. -/
def Dev.setBit64 (d : Dev) (f : Fld) (n : Nat) (b : Bool) : Dev := d.set64 f (setMask (d.get64 f) n b)

/-- Changes a channel's state and the summary registers that show it. -/
def Dev.dgo (d : Dev) (n st : Nat) : Dev :=
  ((d.set (R.DMA_CH_STATUS_STATE n) st).setBit64 R.DMA_ACTIVE_LO n (st != 0)).setBit64 R.DMA_PAUSED_LO n (st == 4)

/-- A drain ends: the longest one is kept. -/
def Dev.drained (d : Dev) (n : Nat) : Dev :=
  match (d.dch n).drainAt with
  | some t => (d.keepMax R.DMA_DRAIN_MAX (d.now - t)).setDch n { d.dch n with drainAt := none }
  | none => d

/-- The CRC unit a channel holds is free again (R347). -/
def Dev.releaseCrc (d : Dev) (n : Nat) : Dev :=
  let x := d.dch n
  if x.crcMode ≠ 0 ∧ d.get (R.CRC_STATUS_OWNER x.unit) = n + 1 then d.set (R.CRC_STATUS_OWNER x.unit) 0 else d

/-- A channel signals its vector and sets IRQ. -/
def Dev.dmaIrq (d : Dev) (n : Nat) : Dev :=
  (d.setB (R.DMA_CH_STATUS_IRQ n) true).emit (.msix (d.get (R.DMA_CH_CFG_VEC n)))

/-- The chain ends with a code, and with it the descriptor, unless it could not be read: DMA_HALT for codes 4 to 9, the error bit and IRQ for codes 3 to 10 (R339, Table 12.6). -/
def Dev.chainEnd (d : Dev) (n code : Nat) : Dev :=
  let d0 := when (code != 7) (fun (d : Dev) => d.set (R.DMA_LAST_TAG n) (d.dch n).tag) ((d.drained n).releaseCrc n)
  let d1 := ((d0.dgo n 0).set (R.DMA_CH_STATUS_END n) code).setDch n {}
  let d2 := ((d1.setB (R.DMA_CH_STATUS_PAUSE_HOST n) false).setB (R.DMA_CH_STATUS_PAUSE_DOMAIN n) false)
  let d3 := if 4 ≤ code ∧ code ≤ 9 then
      d2.raise Ev.DMA_HALT (n + 256 * code + 65536 * d2.get (R.DMA_CUR_DESC n) + 2 ^ 32 * d2.get (R.DMA_REMAIN n))
    else d2
  if 3 ≤ code ∧ code ≤ 10 then (d3.setBit64 R.DMA_ERR_LO n true).dmaIrq n else d3

/-! ## Loading a descriptor -/

/-- Input a compressor holds that stands in no verified block yet, and what waits behind the task. [DEDUCED, unsafe, log 123] -/
def Cmpr.held (x : Cmpr) : Nat := x.inp.length - x.coded + x.beyond

/-- The compressor a paced channel serves holds a request for the next burst: a task is BUSY and its input buffer of 64 KiB (04 R145) has that
much room beside the bursts on their way (R335). [DEDUCED, unsafe, log 123] -/
def Dev.requested (d : Dev) (x : DmaCh) : Bool :=
  !x.paced || ((d.cmpr x.cmprNo).busy &&
    decide ((d.cmpr x.cmprNo).held + (x.reads.map (·.2)).sum + min 512 (x.length - x.asked) ≤ 65536))

/-- Loads descriptor `i`: uncorrectable read, the checks of R331, a domain that is off (R343), a CRC unit held by another owner
(R347); then the unit is taken and a channel that must not start pauses (R341). The failing address of an unreadable descriptor is that of
its first unreadable word in BAR0; where the command says that it has just become unreadable, of its first word. [DEDUCED, unsafe, log 82] -/
def Dev.loadDesc (d : Dev) (n i : Nat) (memErr : Bool) : Dev :=
  let bad := if memErr then some (8 * i) else (d.badIn 9 (8 * i) (8 * i + 8)).head?
  let d0 := if memErr then d.wordFault 9 (8 * i) 4 else d.sramReads 9 (8 * i) (8 * i + 8) 4
  let desc := (List.range 8).map (fun k => BitVec.ofNat 32 ((d.sramData 9 (8 * i + k) (d.sramWord 9 (8 * i + k))).getD 0))
  let x : DmaCh := { desc := desc, pauseFor := (d.dch n).pauseFor }
  let d1 := ((((d0.setDch n x).set (R.DMA_CUR_DESC n) i).set64 (R.DMA_CUR_SRC_LO n) x.src).set64 (R.DMA_CUR_DST_LO n) x.dst).set
    (R.DMA_REMAIN n) x.length
  if bad.isSome then ((d0.set (R.DMA_CUR_DESC n) i).set64 (R.DMA_ERR_ADDR_LO n) (0x198000 + 4 * bad.getD 0)).chainEnd n 7
  else if !d.descOk x then d1.chainEnd n 4
  else if !(d.touches x).all d.domOn then d1.chainEnd n 9
  else if x.crcMode ≠ 0 ∧ d.crcOwner x.unit ≠ 0 then d1.chainEnd n 8
  else
    let d2 := if x.crcMode = 0 then d1
      else (when x.crcInit (fun (d : Dev) => d.crcLoad x.unit) d1).set (R.CRC_STATUS_OWNER x.unit) (n + 1)
    let off := (d2.touches x).filter d2.offPending
    let d3 := if off = [] then d2
      else (d2.setDch n { d2.dch n with pauseFor := (d2.dch n).pauseFor ++ off }).setB (R.DMA_CH_STATUS_PAUSE_DOMAIN n) true
    if d3.is (R.DMA_CH_STATUS_PAUSE_HOST n) || d3.is (R.DMA_CH_STATUS_PAUSE_DOMAIN n) then d3.dgo n 4
    else d3.dgo n (if d3.requested x then 1 else 2)

/-! ## Commands (R337, R338) -/

/-- A channel starts to drain: at once PAUSED where no read is outstanding. -/
def Dev.startDrain (d : Dev) (n : Nat) : Dev :=
  if (d.dch n).reads.isEmpty then d.dgo n 4
  else (d.setDch n { d.dch n with drainAt := some d.now }).dgo n 3

/-- A command completes with a result; accepted ones are counted. -/
def Dev.dmaCmd (d : Dev) (n : Nat) (f : Dev → Dev × Nat) : Dev :=
  let r := f d
  let d1 := r.1.set (R.DMA_CH_RESULT_CODE n) r.2
  if r.2 = 0 then d1.wrap (R.DMA_CH_RESULT_SEQ n) 1 else d1

/-- START. -/
def Dev.dmaStart (d : Dev) (n : Nat) (memErr : Bool) : Dev × Nat :=
  if d.dstat n ≠ 0 then (d, 2)
  else
    let d1 := ((d.set (R.DMA_CH_STATUS_END n) 0).setB (R.DMA_CH_STATUS_WITHDRAWN_LATE n) false).setB
      (R.DMA_CH_STATUS_DISCARDED n) false
    (d1.loadDesc n (d.get (R.DMA_CH_CFG_FIRST n)) memErr, 0)

/-- DMA_START. -/
def execDmaStart (n : Nat) (descErr : Bool) (s : State) : Out :=
  onHostIf (decide (n < 64)) (fun d => d.dmaCmd n (fun d => d.dmaStart n descErr)) s

/-- PAUSE. -/
def Dev.dmaPause (d : Dev) (n : Nat) : Dev × Nat :=
  if d.dstat n = 1 ∨ d.dstat n = 2 then ((d.setB (R.DMA_CH_STATUS_PAUSE_HOST n) true).startDrain n, 0) else (d, 2)

/-- DMA_PAUSE. -/
def execDmaPause (n : Nat) (s : State) : Out := onHostIf (decide (n < 64)) (fun d => d.dmaCmd n (fun d => d.dmaPause n)) s

/-- A PAUSED or DRAINING channel runs on once no reason is left. [DEDUCED, unsafe, log 82] -/
def Dev.unpause (d : Dev) (n : Nat) : Dev :=
  ((d.drained n).dgo n (if d.requested (d.dch n) then 1 else 2))

/-- RESUME: a channel that drains for a STOP is accepted too, and ends with the drain as before. [DEDUCED, unsafe, log 82] -/
def Dev.dmaResume (d : Dev) (n : Nat) : Dev × Nat :=
  if d.dstat n ≠ 3 ∧ d.dstat n ≠ 4 then (d, 2)
  else
    let ts := d.touches (d.dch n)
    if !ts.all d.domOn then (d, 2)
    else
      let d1 := d.setB (R.DMA_CH_STATUS_PAUSE_HOST n) false
      let d2 := if ts.any d.offPending then d1
        else (d1.setDch n { d1.dch n with pauseFor := [] }).setB (R.DMA_CH_STATUS_PAUSE_DOMAIN n) false
      if d2.is (R.DMA_CH_STATUS_PAUSE_DOMAIN n) then (d2, 2) else if (d2.dch n).stopAt.isSome then (d2, 0) else (d2.unpause n, 0)

/-- DMA_RESUME. -/
def execDmaResume (n : Nat) (s : State) : Out := onHostIf (decide (n < 64)) (fun d => d.dmaCmd n (fun d => d.dmaResume n)) s

/-- STOP: in WAIT or PAUSED, and with no read outstanding, at once; else after the drain. -/
def Dev.dmaStop (d : Dev) (n : Nat) : Dev × Nat :=
  if d.dstat n = 0 then (d, 2)
  else if d.dstat n = 2 ∨ d.dstat n = 4 ∨ (d.dch n).reads = [] then (d.chainEnd n 2, 0)
  else
    let x := d.dch n
    (((d.setDch n { x with stopAt := x.stopAt.or (some d.now), drainAt := x.drainAt.or (some d.now) }).dgo n 3), 0)

/-- DMA_STOP. -/
def execDmaStop (n : Nat) (s : State) : Out := onHostIf (decide (n < 64)) (fun d => d.dmaCmd n (fun d => d.dmaStop n)) s

/-! ## Bursts (R334, R335) -/

/-- A channel has a burst ready. -/
def Dev.burstReady (d : Dev) (n : Nat) : Bool :=
  let x := d.dch n
  d.dstat n == 1 && decide (x.reads.length < 8) && decide (x.asked < x.length) && x.readErr.isNone && !x.withdrawn && d.requested x

/-- The channel the engine serves next: highest PRIO, then rotation after the channel served last. -/
def Dev.nextChannel (d : Dev) : Option Nat :=
  let order := (List.range 64).map (fun i => (d.dma.last + 1 + i) % 64)
  (order.filter d.burstReady).foldl (fun (m : Option Nat) n => match m with
    | none => some n
    | some k => if d.get (R.DMA_CH_CFG_PRIO k) < d.get (R.DMA_CH_CFG_PRIO n) then some n else some k) none

/-- The memory read requests of a HOST burst: cut at the 4 KiB boundaries of bus addresses (R330). -/
def hostReads : Nat → Nat → Nat → List (Nat × Nat)
  | 0, _, _ => []
  | f + 1, a, n =>
    if n = 0 then []
    else
      let k := min n (4096 - a % 4096)
      (a, k) :: hostReads f (a + k) (n - k)

/-- A burst of at most 512 bytes is issued. -/
def Dev.burstIssue (d : Dev) : Dev :=
  match d.nextChannel with
  | none => d
  | some n =>
    let x := d.dch n
    let k := min 512 (x.length - x.asked)
    let d1 := d.setDch n { x with reads := x.reads ++ [(x.src + x.asked, k)], asked := x.asked + k }
    let d2 := if x.srcKind = 0 then forEach (hostReads k (x.src + x.asked) k) (fun (d : Dev) r => d.emit (.hostRead r.1 r.2)) d1 else d1
    { d2 with dma := { d2.dma with last := n } }

/-- DMA_BURST_ISSUE. -/
def execDmaBurstIssue (s : State) : Out := onDev (fun d => d.burstIssue) s

/-- Reads `k` bytes of BAR4 from offset `a`, or the address of the first word that failed. [DEDUCED, unsafe, log 96] -/
def tableRead (d : Dev) (a k : Nat) : (List Byte ⊕ Nat) × Dev :=
  let ws := (List.range ((a + k + 3) / 4 - a / 4)).map (fun i => 4 * (a / 4 + i))
  let (r, d') := ws.foldl (fun (r : (List Byte ⊕ Nat) × Dev) w =>
    match r.1 with
    | .inr _ => r
    | .inl l => match r.2.bar4Read w 4 with
      | (some v, d') => (.inl (l ++ bytesOf 4 v.toNat), d')
      | (none, d') => (.inr w, d')) (.inl [], d)
  match r with
  | .inl l => (.inl (sliceOf l (a % 4) k), d')
  | .inr e => (.inr e, d')

/-- The source of a burst is read (R330): the bytes, or the failing address. Bytes of a HOST source come with the completion. [DEDUCED, unsafe, log 82] -/
def sourceRead (d : Dev) (m : Mem) (x : DmaCh) (a k : Nat) (host : Option (List Byte)) : (List Byte ⊕ Nat) × Dev :=
  let off (r : (List Byte ⊕ Nat) × Dev) : (List Byte ⊕ Nat) × Dev :=
    match r.1 with
    | .inl l => (.inl l, r.2)
    | .inr o => (.inr (a + o), r.2)
  if x.srcKind = 0 then
    match host with
    | some l => if d.pwr.perst then (.inr a, d) else (.inl (l.take k ++ List.replicate (k - l.length) 0), d)
    | none => (.inr a, d)
  else if x.srcKind = 1 then off (regionRead d m 4 (x.srcQual % 4) a k)
  else if x.srcKind = 2 then
    let w := d.well (x.srcQual % 16)
    if w.st = .free ∨ w.size < a + k then (.inr a, d) else off (regionRead d m 4 w.place (w.base + a) k)
  else tableRead d a k

/-- Cuts bytes at the 4 KiB boundaries of bus addresses and into requests of at most 512 bytes (R330). -/
def hostChunks : Nat → Nat → List Byte → List (Nat × List Byte)
  | 0, _, _ => []
  | f + 1, a, l =>
    match l with
    | [] => []
    | _ =>
      let k := min 512 (4096 - a % 4096)
      (a, l.take k) :: hostChunks f (a + k) (l.drop k)

/-- Writes the whole aligned words of a byte run to BAR4. Answers the first refused word. -/
def tableWords (d : Dev) (a : Nat) (l : List Byte) : Option Nat × Dev :=
  let ws := ((List.range ((a + l.length) / 4 - (a + 3) / 4)).map (fun i => 4 * ((a + 3) / 4 + i)))
  ws.foldl (fun (r : Option Nat × Dev) w =>
    let (ok, d') := r.2.bar4Write w (wordAt l (w - a)) 4
    (if ok then r.1 else r.1.or (some w), d')) (none, d)

/-- Bytes of a TABLE destination are gathered into words (R330); a word that stays partial to the end has no effect (16 R451). [DEDUCED, unsafe, log 82] -/
def tableWrite (d : Dev) (n a : Nat) (l : List Byte) : Option Nat × Dev :=
  let x := d.dch n
  let all := x.part ++ l
  let a0 := a - x.part.length
  let keep := min all.length ((a0 + all.length) % 4)
  tableWords (d.setDch n { x with part := all.drop (all.length - keep) }) a0 (all.take (all.length - keep))

/-- A channel state that follows the requests: a RUN channel with no read on its way and no request waits, a WAIT channel with one runs; a
request withdrawn with bytes left to send ends the descriptor, at once or after the burst in flight (R335, R336). -/
def Dev.paceOne (d : Dev) (was : Nat → Bool) (n : Nat) : Dev :=
  let x := d.dch n
  if d.dstat n = 0 ∨ x.paced = false then d
  else if was x.cmprNo && !(d.cmpr x.cmprNo).busy && decide (x.seen < x.length) then
    if x.reads.isEmpty then d.chainEnd n 3
    else
      let late := (x.reads.map (·.2)).sum
      (((d.setDch n { x with withdrawn := true }).setB (R.DMA_CH_STATUS_WITHDRAWN_LATE n) true).bump R.DMA_LATE_CNT 1).raise
        Ev.WITHDRAWN_LATE (n + 256 * x.cmprNo + 2 ^ 32 * late)
  else if d.dstat n = 2 && d.requested x then d.dgo n 1
  else if d.dstat n = 1 && x.reads.isEmpty && !d.requested x then d.dgo n 2
  else d

/-- Every channel follows the requests; `was` tells which compressors held one before. -/
def Dev.pace (d : Dev) (was : Nat → Bool) : Dev :=
  forEach (d.dma.chs.map (·.1)) (fun (d : Dev) n => d.paceOne was n) d

/-- Bytes go to a compressor; a burst its well does not take sets DISCARDED (R330). -/
def cmprBurst (d : Dev) (m : Mem) (n : Nat) (l : List Byte) : Dev × Mem :=
  let x := d.dch n
  let r := cmprInput d m x.cmprNo x.cmprWell x.dst l
  let lost := (d.cmpr x.cmprNo).busy && !(r.1.cmpr x.cmprNo).busy
  (when lost (fun (d : Dev) => d.setB (R.DMA_CH_STATUS_DISCARDED n) true) r.1, r.2)

/-- Bytes go to the destination of channel `n` at stream position `pos` (R330): the failing address, if any; no write for no bytes. -/
def destWrite (d : Dev) (m : Mem) (n pos : Nat) (l : List Byte) : Option Nat × Dev × Mem :=
  let x := d.dch n
  let a := x.dst + pos
  let off (r : Option Nat × Dev × Mem) : Option Nat × Dev × Mem := (r.1.map (a + ·), r.2)
  if l = [] then (none, d, m)
  else if x.dstKind = 0 then
    if d.pwr.perst then (some a, d, m)
    else (none, forEach (hostChunks (l.length + 1) a l) (fun (d : Dev) c => d.emit (.host c.1 c.2)) d, m)
  else if x.dstKind = 1 then off (regionWrite d m 4 (x.dstQual % 4) a l)
  else if x.dstKind = 2 then
    let ((took, e), d1, m1) := wellWrite d m 4 (x.dstQual % 16) a l
    (e.map (a + ·), if took then d1 else d1.setB (R.DMA_CH_STATUS_DISCARDED n) true, m1)
  else if x.dstKind = 3 then
    let (e, d1) := tableWrite d n a l
    (e, d1, m)
  else if x.dstKind = 4 then
    (none, cmprBurst d m n l)
  else if x.dstKind = 5 then (none, d.setDch n { x with push := x.push ++ l }, m)
  else (none, d, m)

/-- Bytes written to the destination are counted, and the exact registers follow (R340). [DEDUCED, unsafe, log 82] -/
def Dev.dmaWrote (d : Dev) (n k : Nat) : Dev :=
  let x := d.dch n
  let mem := decide (x.dstKind ≤ 3)
  let d1 := d.set64 (R.DMA_BYTES_LO n) ((d.get64 (R.DMA_BYTES_LO n) + k) % 2 ^ 64)
  if mem then d1.set64 (R.DMA_CUR_DST_LO n) (d.get64 (R.DMA_CUR_DST_LO n) + k) else d1

/-! ## End of a descriptor -/

/-- The descriptor ends: DONE, or CRC_FAIL where the stripped check value differs (R345, R346); the next one is loaded. -/
def descEnd (d : Dev) (m : Mem) (n : Nat) (memErr : Bool) : Dev × Mem :=
  let x := d.dch n
  let c := d.crcCount x
  let res := d.crcResult x.unit
  let tail := if x.crcMode = 2 then bytesOf c res else []
  let (e, d1, m1) := destWrite d m n x.seen tail
  let d2 := d1.dmaWrote n tail.length
  let d3 := if x.dstKind = 5 then d2.pushRec (d2.dch n).push else d2
  let d4 := (d3.set (R.DMA_LAST_TAG n) x.tag).pace (fun c => (d.cmpr c).busy)
  match e with
  | some a => ((d4.set64 (R.DMA_ERR_ADDR_LO n) a).chainEnd n 6, m1)
  | none =>
    if x.crcMode = 3 ∧ leOf x.strip ≠ res % 256 ^ c then
      ((d4.raise Ev.CRC_STRIP_FAIL (n + 65536 * d4.get (R.DMA_CUR_DESC n) + 2 ^ 32 * res)).chainEnd n 10, m1)
    else
      let d5 := d4.bump (R.DMA_DONE_CNT n) 1
      let d6 := if x.irq then d5.dmaIrq n else d5
      if x.isLast then (d6.chainEnd n 1, m1)
      else if x.stopAt.isSome then (d6.chainEnd n 2, m1)
      else (((d6.drained n).releaseCrc n).loadDesc n x.next memErr, m1)

/-- What follows when a channel has no read outstanding: the ends that waited for the drain, or PAUSED. -/
def Dev.afterDrain (d : Dev) (n : Nat) : Dev :=
  let x := d.dch n
  if !x.reads.isEmpty then d
  else match x.readErr with
    | some a => (d.set64 (R.DMA_ERR_ADDR_LO n) a).chainEnd n 5
    | none =>
      if x.withdrawn then d.chainEnd n 3
      else if x.stopAt.isSome then d.chainEnd n 2
      else if d.dstat n = 3 then (d.drained n).dgo n 4
      else d

/-- The bytes of one burst reach the destination: swapped, through the CRC unit, less a stripped check value (R332, R333, R345). A STOP before the
clock of the last write ends the chain with STOPPED, not DONE (R338). [DEDUCED, unsafe, log 82] -/
def burstWrite (d : Dev) (m : Mem) (n : Nat) (raw : List Byte) (memErr : Bool) : Dev × Mem :=
  let x := d.dch n
  let l := swapBytes raw.length x.swap raw
  let lim := if x.crcMode = 3 then x.length - d.crcCount x else x.length
  let out := l.take (lim - x.seen)
  let d1 := (d.setDch n { x with seen := x.seen + l.length, strip := x.strip ++ l.drop (lim - x.seen) })
  let d2 := if x.crcMode = 0 then d1 else d1.crcFeed x.unit out
  let (e, d3, m3) := destWrite d2 m n x.seen out
  let d4 := (((d3.dmaWrote n out.length).set (R.DMA_REMAIN n) (x.length - (x.seen + l.length))).set64 (R.DMA_CUR_SRC_LO n)
    (x.src + x.seen + l.length)).pace (fun c => (d.cmpr c).busy)
  match e with
  | some a => ((d4.set64 (R.DMA_ERR_ADDR_LO n) a).chainEnd n 6, m3)
  | none =>
    if x.length ≤ x.seen + l.length ∧ x.withdrawn = false ∧ x.stopAt.all (fun t => decide (d.now ≤ t)) = true then descEnd d4 m3 n memErr
    else (d4.afterDrain n, m3)

/-- The DRAM placements that a channel reads or writes through its descriptor. -/
def Dev.dmaPlaces (d : Dev) (x : DmaCh) : List Nat :=
  let one := fun kind qual =>
    if kind = 1 then [qual % 4] else if kind = 2 then [(d.well (qual % 16)).place]
    else if kind = 4 then [(d.well (bitsOf qual 4 4)).place] else []
  one x.srcKind x.srcQual ++ one x.dstKind x.dstQual

/-- The oldest outstanding read of channel `n` completes, not while a DRAM channel it needs is not ready (10 R287, R304). [DEDUCED, unsafe, log 82] -/
def dmaBurstDone (d : Dev) (m : Mem) (n : Nat) (host : Option (List Byte)) (memErr : Bool) : Dev × Mem :=
  let x := d.dch n
  if (d.dmaPlaces x).any d.memHeld then (d, m)
  else match x.reads with
  | [] => (d, m)
  | (a, k) :: rest =>
    let d1 := d.setDch n { x with reads := rest }
    if x.readErr.isSome then (d1.afterDrain n, m)
    else match sourceRead d1 m x a k host with
      | (.inr e, d2) => ((d2.setDch n { d2.dch n with readErr := some e }).afterDrain n, m)
      | (.inl l, d2) => burstWrite d2 m n l memErr

/-! ## Pacing (R335, R336) -/

/-- An effect that may start or end a compressor task. -/
def paced (f : Dev → Mem → Dev × Mem) (d : Dev) (m : Mem) : Dev × Mem :=
  let r := f d m
  (r.1.pace (fun c => (d.cmpr c).busy), r.2)

/-- DMA_BURST_DONE: the completion of the oldest outstanding read; `host` is what a HOST source delivered, `descErr` that the
descriptor loaded after it is uncorrectable. -/
def execDmaBurstDone (n : Nat) (host : Option (List Byte)) (descErr : Bool) (s : State) : Out :=
  onDevMemIf (decide (n < 64)) (fun d m => dmaBurstDone d m n host descErr) s

/-- CMPR_START (04 R139). -/
def execCmprStart (c : Nat) (s : State) : Out := onHostMemIf (decide (c < 2)) (paced (fun d m => (d.inDomain 7 (fun d => d.cmprStart c), m))) s

/-- CMPR_ABORT (04 R147). -/
def execCmprAbort (c : Nat) (s : State) : Out := onHostMemIf (decide (c < 2)) (paced (fun d m => (d.inDomain 7 (fun d => d.cmprAbort c), m))) s

/-- COMPRESSOR_INPUT (04 R142, R146). -/
def execCompressorInput (c well ofs : Nat) (data : List Byte) (s : State) : Out :=
  onDevMemIf (decide (c < 2) && decide (well < 16)) (paced (fun d m => cmprInput d m c well ofs data)) s

/-- COMPRESSOR_BLOCK_DONE (04 R143–R145). -/
def execCompressorBlockDone (c : Nat) (verify : Option Nat) (s : State) : Out :=
  onDevMemIf (decide (c < 2)) (paced (fun d m => cmprBlock d m c verify)) s

/-! ## Drain of a domain (R341, R342) -/

/-- Channels that touch a domain and have not drained: in RUN, WAIT or DRAINING. -/
def Dev.undrained (d : Dev) (dom : Nat) : List Nat :=
  (d.dma.chs.map (·.1)).filter (fun n => (d.touches (d.dch n)).contains dom && [1, 2, 3].contains (d.dstat n))

/-- A power-down of a domain is requested: the channels that touch it receive PAUSE_DOMAIN and drain. -/
def Dev.drainDomain (d : Dev) (dom : Nat) : Dev :=
  forEach (d.undrained dom) (fun (d : Dev) n =>
    let d1 := (d.setDch n { d.dch n with pauseFor := (d.dch n).pauseFor ++ [dom] }).setB (R.DMA_CH_STATUS_PAUSE_DOMAIN n) true
    if d1.dstat n = 3 then d1 else if d1.dstat n = 2 then d1.dgo n 4 else d1.startDrain n) d

/-- The drain is refused: PAUSE_DOMAIN is taken back and the channels without PAUSE_HOST run on (R342). -/
def Dev.drainRefused (d : Dev) (dom : Nat) : Dev :=
  let late := (d.undrained dom).length
  let d1 := d.raise Ev.DOMAIN_DRAIN_REFUSED (dom + 256 * late)
  forEach ((d.dma.chs.map (·.1)).filter (fun n => (d.dch n).pauseFor.contains dom)) (fun (d : Dev) n =>
    let rest := (d.dch n).pauseFor.filter (· != dom)
    let d1 := d.setDch n { d.dch n with pauseFor := rest }
    if rest ≠ [] then d1
    else
      let d2 := d1.setB (R.DMA_CH_STATUS_PAUSE_DOMAIN n) false
      if d2.is (R.DMA_CH_STATUS_PAUSE_HOST n) || (d2.dch n).stopAt.isSome then d2 else d2.unpause n) d1

end Sys2Proof.Machine
end

