-- ==== Sys2Proof/Machine/Net.lean ====
section
/-! DEFINITION. PTP and its servo (15 R412–R417), the management port up to IPv4 (15 R418–R421). -/

namespace Sys2Proof.Machine

/-! ## Objects the management firmware holds -/

/-- The value of a firmware-held object, `dflt` where none was written. -/
def Dev.obj (d : Dev) (idx sub dflt : Nat) : Nat := d.mgmt.objs.get dflt (idx * 256 + sub)

/-- The PTP stack runs: TIM_CTRL.PTP_EN, the management processors are not stopped (R417), and there is an address where it runs over UDP:
with 0.0.0.0 only L2 PTP runs (R420). [DEDUCED, unsafe, log 74] -/
def Dev.ptpOn (d : Dev) : Bool := d.is R.TIM_CTRL_PTP_EN && !d.pwr.mgmtStop && (d.obj 0x1210 3 0 == 0 || d.get R.NET_IP != 0)

/-- The firmware servo acts: it owns device time (Table 15.1). -/
def Dev.servoOn (d : Dev) : Bool := d.ptpOn && d.owns true

/-- A message of the own domain reaches the stack. -/
def Dev.ptpTakes (d : Dev) (dom : Nat) : Bool := d.ptpOn && dom == d.obj 0x1210 2 0

/-- The peer delay mechanism is set. -/
def Dev.p2p (d : Dev) : Bool := d.obj 0x1210 4 0 == 1

/-- The own clock never becomes master. -/
def Dev.slaveOnly (d : Dev) : Bool := d.obj 0x1210 6 1 == 1

/-- TS_LAT of the link speed (R413), in ns: receive or transmit. -/
def Dev.phyLatency (d : Dev) (tx : Bool) : Nat :=
  let a := 0x1B0080 + 4 * (2 - min 2 (d.get R.NET_STATUS_SPEED))
  bitsOf (d.reg a).toNat (if tx then 0 else 16) 16

/-- Stamp of an event message that arrives now (R413). -/
def Dev.ingress (d : Dev) : Nat := d.timeNs - d.phyLatency false

/-- Stamp of an event message that leaves now (R413). -/
def Dev.egress (d : Dev) : Nat := d.timeNs + d.phyLatency true

/-- A stamp enters the transmit stamp queue, or is lost (R414). -/
def Dev.txStamp (d : Dev) (ty seq t : Nat) : Dev :=
  if d.ptp.txq.length < 16 then { d with ptp := { d.ptp with txq := d.ptp.txq ++ [(ty, seq, t)] } }
  else d.bump R.TS_TX_LOST 1

/-- `n` bytes of a value, the highest first: the order of IP, UDP, ARP and PTP fields (00_scope R3, R412). -/
def beBytes (n v : Nat) : List Byte := (bytesOf n v).reverse

/-- A PTP timestamp: 48-bit seconds and 32-bit nanoseconds (R412). -/
def ptpTimeBytes (t : Nat) : List Byte := beBytes 6 (t / nsPerSec) ++ beBytes 4 (t % nsPerSec)

/-- One's complement sum of 16-bit words, big-endian, a last byte padded with zero (RFC 1071). [PRESUMED, unsafe, log 84] -/
def onesSum : List Byte → Nat → Nat
  | [], a => a
  | [x], a => let b := a + 256 * x.toNat; b % 65536 + b / 65536
  | x :: y :: r, a => let b := a + 256 * x.toNat + y.toNat; onesSum r (b % 65536 + b / 65536)

/-- The own IPv4 address as a number, first octet highest; 0 where none is set (R420). -/
def Dev.ip (d : Dev) : Nat := d.get R.NET_IP

/-- An IPv4 header of 20 bytes with TTL 64 and DF set (R420). [PRESUMED, unsafe, log 84] -/
def ipHeader (ident proto src dst len : Nat) : List Byte :=
  let h := fun (sum : Nat) => [0x45#8, 0x00#8] ++ beBytes 2 (20 + len) ++ beBytes 2 ident ++ [0x40#8, 0x00#8, 0x40#8] ++
    beBytes 1 proto ++ beBytes 2 sum ++ beBytes 4 src ++ beBytes 4 dst
  h (65535 - onesSum (h 0) 0)

/-- The MAC address the device derives (R419): 0x02 and bits [39:0] of the device ID. [DEDUCED, safe, log 85] -/
def ownMac : Nat := 0x02 * 2 ^ 40 + Config.deviceId.toNat % 2 ^ 40

/-- The MAC address in force: as set, else the derived one. [DEDUCED, safe, log 85] -/
def Dev.mac (d : Dev) : Nat :=
  if (d.regs.find? R.NET_MAC_LO.addr).isSome ∨ (d.regs.find? R.NET_MAC_HI.addr).isSome then d.get64 R.NET_MAC_LO % 2 ^ 48 else ownMac

/-- The frame check sequence (IEEE 802.3). -/
def fcs (l : List Byte) : Nat := l.foldl (crcByteR 0xEDB88320) 0xFFFFFFFF ^^^ 0xFFFFFFFF

/-- A frame leaves: addresses, type, the payload with zeros up to 46 bytes, and the FCS over all of it (IEEE 802.3, R414). [PRESUMED, unsafe, log 84] -/
def Dev.frameSend (d : Dev) (dst ty : Nat) (p : List Byte) : Dev :=
  let l := beBytes 6 dst ++ beBytes 6 d.mac ++ beBytes 2 ty ++ p ++ List.replicate (46 - p.length) 0
  d.emit (.net (l ++ bytesOf 4 (fcs l)))

/-- The broadcast MAC address. -/
def macAll : Nat := 0xFFFFFFFFFFFF

/-- An ARP frame leaves: operation, target hardware and protocol address; a request goes to all. [PRESUMED, unsafe, log 84] -/
def Dev.arpSend (d : Dev) (op tha tpa : Nat) : Dev :=
  d.frameSend (if op = 1 then macAll else tha) 0x806 ([0x00#8, 0x01#8, 0x08#8, 0x00#8, 0x06#8, 0x04#8] ++ beBytes 2 op ++ beBytes 6 d.mac ++
    beBytes 4 d.ip ++ beBytes 6 tha ++ beBytes 4 tpa)

/-- The next hop of a destination: itself on the own subnet, else the gateway (R420). -/
def Dev.nextHop (d : Dev) (dst : Nat) : Nat :=
  if dst &&& d.get R.NET_MASK = d.ip &&& d.get R.NET_MASK then dst else d.get R.NET_GW

/-- An IPv4 packet goes to its group's MAC address or to that of its next hop. Where the ARP cache does not hold the hop, the device asks
for it, and the latest packet for that hop waits for the answer. [PRESUMED, unsafe, log 84] -/
def Dev.ipRoute (d : Dev) (dst : Nat) (p : List Byte) : Dev :=
  if dst / 2 ^ 28 = 14 then d.frameSend (0x01005E000000 + dst % 2 ^ 23) 0x800 p
  else
    let hop := d.nextHop dst
    match d.mgmt.arp.find? (fun (e : Nat × Nat) => e.1 == hop) with
    | some e => d.frameSend e.2 0x800 p
    | none =>
      { d with mgmt := { d.mgmt with arpWait := d.mgmt.arpWait.filter (fun (e : Nat × List Byte) => e.1 != hop) ++ [(hop, p)] } }.arpSend 1 0 hop

/-- A datagram leaves (R420); its identification is a free value. -/
def Dev.ipSend (d : Dev) (proto dst : Nat) (p : List Byte) : Dev :=
  let x := d.fresh 0x420 16
  x.2.ipRoute dst (ipHeader x.1 proto d.ip dst p.length ++ p)

/-- A UDP datagram leaves, with a checksum. -/
def Dev.udpSend (d : Dev) (sport dst dport sum : Nat) (data : List Byte) : Dev :=
  d.ipSend 17 dst (beBytes 2 sport ++ beBytes 2 dport ++ beBytes 2 (8 + data.length) ++ beBytes 2 sum ++ data)

/-- An object protocol answer leaves over UDP (R422); what checksum it carries is not stated: a free value. [DESIGN CHOICE, safe, log 86] -/
def Dev.iopSend (d : Dev) (dst dport : Nat) (data : List Byte) : Dev :=
  let x := d.fresh 0x422 16
  x.2.udpSend (d.get R.NET_IOP_PORT) dst dport x.1 data

/-- A port identity: clock identity and port number (IEEE 1588). -/
def portId (clock port : Nat) : List Byte := beBytes 8 clock ++ beBytes 2 port

/-- logMessageInterval and controlField of a message type (IEEE 1588; objects 0x1210.12-14). [PRESUMED, unsafe, log 84] -/
def Dev.ptpKind (d : Dev) (ty : Nat) : Nat × Nat :=
  match ty with
  | 0x0 => (0, d.obj 0x1210 0x12 0)
  | 0x1 => (1, 0x7F)
  | 0x8 => (2, d.obj 0x1210 0x12 0)
  | 0x9 => (3, d.obj 0x1210 0x14 0)
  | 0xB => (5, d.obj 0x1210 0x13 1)
  | _ => (5, 0x7F)

/-- Bits of flagField: twoStepFlag of a Sync or Pdelay_Resp sent in two steps; ptpTimescale and the leap flags of an Announce. [PRESUMED, unsafe, log 84] -/
def Dev.ptpFlags (d : Dev) (ty : Nat) : List Byte :=
  [if (ty == 0 || ty == 3) && d.obj 0x1210 5 0 != 1 then 0x02#8 else 0x00#8, if ty = 0xB then 8 + BitVec.ofNat 8 (d.ptp.leap % 4) else 0]

/-- A PTP message (IEEE 1588-2019): the header of 34 bytes, a timestamp, and what follows. [PRESUMED, unsafe, log 84] -/
def Dev.ptpMessage (d : Dev) (ty seq t : Nat) (corr : Int) (more : List Byte) : List Byte :=
  let k := d.ptpKind ty
  beBytes 1 ty ++ [0x12#8] ++ beBytes 2 (44 + more.length) ++ beBytes 1 (d.obj 0x1210 2 0) ++ [0x00#8] ++ d.ptpFlags ty ++
    beBytes 8 (ofSigned 64 corr) ++ beBytes 4 0 ++ portId Config.clockIdentity 1 ++ beBytes 2 seq ++ beBytes 1 k.1 ++ beBytes 1 k.2 ++
    ptpTimeBytes t ++ more

/-- A PTP message leaves: type, sequence, a time, a correction in 2^−16 ns and what else it carries; by L2 or, with checksum 0, by UDP,
each to its multicast address (Table 15.2, R414, R420). [PRESUMED, unsafe, log 84; DESIGN CHOICE, safe, log 107] -/
def Dev.ptpSend (d : Dev) (ty seq t : Nat) (corr : Int) (more : List Byte := []) : Dev :=
  let m := d.ptpMessage ty seq t corr more
  let peer := ty == 2 || ty == 3 || ty == 0xA
  if d.obj 0x1210 3 0 = 0 then d.frameSend (if peer then 0x0180C200000E else 0x011B19000000) 0x88F7 m
  else
    let port := if ty < 4 then 319 else 320
    d.udpSend port (if peer then 0xE000006B else 0xE0000181) port 0 m

/-! ## Servo (Table 15.3, R415, R416) -/

/-- The servo writes TIM_ADJ; its control law is not given: the value is free (R415). [DESIGN CHOICE, safe, log 73] -/
def Dev.steer (d : Dev) : Dev :=
  let (v, d1) := d.fresh 0x415 32
  d1.writeAdj true (toSigned 32 v)

/-- The servo asks for a step; refused, it enters REFUSED and puts TIM_ADJ back to its last LOCKED value (R416). -/
def Dev.servoStep (d : Dev) (ofs : Int) : Dev :=
  if d.stepCode true (-ofs) = .ok then
    let d1 := (d.stepTime true (-ofs)).set R.TIM_STATUS_SYNC 1
    { d1 with ptp := { d1.ptp with within := 0 } }
  else
    ((d.stepTime true (-ofs)).set R.TIM_STATUS_SYNC 4).writeAdj true d.ptp.lockedAdj

/-- An offset that needs no step: REFUSED is left, and lock is counted (Table 15.3). [DESIGN CHOICE, safe, log 73] -/
def Dev.servoTrack (d : Dev) (ofs : Int) : Dev :=
  let near := decide (ofs.natAbs ≤ d.get R.TIM_LOCK_THR)
  let n := if near then d.ptp.within + 1 else 0
  let d1 := { d with ptp := { d.ptp with within := n } }
  let st := d.get R.TIM_STATUS_SYNC
  let d2 := if st = 4 then d1.set R.TIM_STATUS_SYNC 1
    else if st = 2 ∧ near = false then d1.set R.TIM_STATUS_SYNC 1 else d1
  let d3 := d2.steer
  if d3.get R.TIM_STATUS_SYNC = 1 ∧ 16 ≤ n then
    let d4 := (d3.set R.TIM_STATUS_SYNC 2).setB R.TIM_STATUS_KEEPER false
    { d4 with ptp := { d4.ptp with lockedAdj := d4.getS R.TIM_ADJ } }.raise Ev.PTP_LOCKED (d4.get R.TIM_ADJ)
  else if d3.get R.TIM_STATUS_SYNC = 2 then { d3 with ptp := { d3.ptp with lockedAdj := d3.getS R.TIM_ADJ } }
  else d3

/-- An offset from master was measured (R415). Measurement goes on whoever owns device time; the servo acts only while it does,
and counts no offsets in a row while it does not. In REFUSED it asks for no step of its own but once per second (R416). An offset is one from the selected parent, so FREE and HOLDOVER are
left (Table 15.3). -/
def Dev.offsetFound (d : Dev) (ofs : Int) : Dev :=
  let d1 := { d with ptp := { d.ptp with offset := ofs } }
  if !d.servoOn then { d1 with ptp := { d1.ptp with within := 0 } }
  else
    let d2 := if d1.get R.TIM_STATUS_SYNC = 0 ∨ d1.get R.TIM_STATUS_SYNC = 3 then d1.set R.TIM_STATUS_SYNC 1 else d1
    if ofs.natAbs ≤ d.get R.TIM_STEP_THR then d2.servoTrack ofs
    else
      let d3 := { d2 with ptp := { d2.ptp with within := 0 } }
      if d3.get R.TIM_STATUS_SYNC = 4 then d3 else (d3.set R.TIM_STATUS_SYNC 1).servoStep ofs

/-- STEP_RETRY: the servo repeats its STEP in REFUSED (R416). -/
def execStepRetry (s : State) : Out :=
  onDev (fun d => if d.servoOn && d.get R.TIM_STATUS_SYNC == 4 then d.servoStep d.ptp.offset else d) s

/-! ## Best master (R412) -/

/-- Data set comparison: the first of two masters is the better one. [PRESUMED, unsafe, log 84] -/
def Master.better (a b : Master) : Bool :=
  let key := fun (m : Master) => [m.prio1, m.quality, m.prio2, m.gm, m.steps, m.src]
  decide (key a < key b)

/-- The own data set (Table 15.2, objects 0x1210.10 and 0x1210.11). -/
def Dev.ownMaster (d : Dev) : Master :=
  { src := Config.clockIdentity, gm := Config.clockIdentity, prio1 := d.obj 0x1210 0x10 128, quality := Config.clockQuality,
    prio2 := d.obj 0x1210 0x11 128 }

/-- The best of the announcing masters; none where the own clock may be master and is better. -/
def Dev.bestMaster (d : Dev) : Option Master :=
  let best := d.ptp.masters.foldl (fun (m : Option Master) a => match m with
    | none => some a
    | some b => if a.better b then some a else some b) none
  match best with
  | some b => if !d.slaveOnly && d.ownMaster.better b then none else some b
  | none => none

/-- The own clock is master: it may be, and no better one announces. -/
def Dev.ptpMaster (d : Dev) : Bool := d.ptpOn && !d.slaveOnly && d.ptp.parent.isNone

/-- The parent is chosen afresh; a new one raises PTP_PARENT and starts the servo in ACQUIRING (R416). -/
def Dev.choose (d : Dev) : Dev :=
  let b := d.bestMaster
  let d1 := { d with ptp := { d.ptp with parent := b.map (·.src) } }
  match b with
  | none => d1
  | some m =>
    let d2 := { d1 with ptp := { d1.ptp with utc := m.utc, leap := m.leap } }
    if d.ptp.parent = some m.src then d2
    else
      let d3 := { d2 with ptp := { d2.ptp with within := 0, sync := none, delayReq := none } }
      (if d.servoOn then d3.set R.TIM_STATUS_SYNC 1 else d3).raise Ev.PTP_PARENT (m.src % 2 ^ 64)

/-- ANNOUNCE (R412): accepted for the own domain, with ptpTimescale, below 255 steps; else discarded, the first of each source
raising PTP_FOREIGN. -/
def Dev.announce (d : Dev) (dom : Nat) (timescale : Bool) (m : Master) : Dev :=
  if !d.ptpOn then d
  else if dom == d.obj 0x1210 2 0 && timescale && decide (m.steps < 255) then
    { d with ptp := { d.ptp with masters := d.ptp.masters.filter (fun (x : Master) => x.src != m.src) ++ [m] } }.choose
  else if d.ptp.foreign.contains m.src then d
  else { d with ptp := { d.ptp with foreign := m.src :: d.ptp.foreign } }.raise Ev.PTP_FOREIGN
    (dom % 256 + 256 * (if timescale then 1 else 0))

/-- ANNOUNCE. -/
def execAnnounce (dom src : Nat) (timescale : Bool) (gm prio1 quality prio2 steps : Nat) (utc : Int) (leap : Nat) (s : State) : Out :=
  onDev (fun d => d.announce dom timescale
    { src := src, gm := gm, prio1 := prio1, quality := quality, prio2 := prio2, steps := steps, utc := utc, leap := leap }) s

/-- ANNOUNCE_RECEIPT_TIMEOUT (Table 15.3): the parent is lost; LOCKED becomes HOLDOVER with TIM_ADJ at its last LOCKED value. -/
def Dev.announceTimeout (d : Dev) : Dev :=
  if !d.ptpOn then d
  else
    let d1 := { d with ptp := { d.ptp with
      parent := none, masters := d.ptp.masters.filter (fun (m : Master) => some m.src != d.ptp.parent) } }
    let d2 := if d.servoOn && d.get R.TIM_STATUS_SYNC == 2 then
        let d2 := (d1.set R.TIM_STATUS_SYNC 3).writeAdj true d.ptp.lockedAdj
        d2.raise Ev.PTP_HOLDOVER (d2.get R.TIM_ADJ)
      else d1
    d2.choose

/-- ANNOUNCE_RECEIPT_TIMEOUT. -/
def execAnnounceReceiptTimeout (s : State) : Out := onDev Dev.announceTimeout s

/-! ## Event messages (R413–R415) -/

/-- A correction field in whole ns, rounded down. -/
def corrNs (c : Int) : Int := c.fdiv 65536

/-- The parent's Sync and its origin time give t2 − t1, and the offset from master. -/
def Dev.syncFound (d : Dev) (t2 : Int) (origin : Nat) (corr : Int) : Dev :=
  let t := t2 - origin - corrNs corr
  ({ d with ptp := { d.ptp with t12 := t, sync := none } }).offsetFound (t - d.ptp.pathDelay)

/-- Sync, stamped `t`: one-step at once, two-step when its Follow_Up comes. -/
def Dev.syncIn (d : Dev) (t dom src seq : Nat) (twoStep : Bool) (origin : Nat) (corr : Int) : Dev :=
  if d.ptpTakes dom && d.ptp.parent == some src then
    if twoStep then { d with ptp := { d.ptp with sync := some (seq, (t : Int), corr) } }
    else d.syncFound t origin corr
  else d

/-- SYNC. -/
def execSync (dom src seq : Nat) (twoStep : Bool) (origin : Nat) (corr : Int) (s : State) : Out :=
  onDev (fun d => d.syncIn d.ingress dom src seq twoStep origin corr) s

/-- Follow_Up. -/
def Dev.followUpIn (d : Dev) (dom src seq origin : Nat) (corr : Int) : Dev :=
  match d.ptp.sync with
  | some (q, t2, c) =>
    if d.ptpTakes dom && d.ptp.parent == some src && q == seq then d.syncFound t2 origin (c + corr) else d
  | none => d

/-- FOLLOW_UP. -/
def execFollowUp (dom src seq origin : Nat) (corr : Int) (s : State) : Out :=
  onDev (fun d => d.followUpIn dom src seq origin corr) s

/-- Delay_Req of port `port` of clock `src`, stamped `t`: answered with the ingress time where the own clock is master. -/
def Dev.delayReqIn (d : Dev) (t dom src port seq : Nat) : Dev :=
  if d.ptpTakes dom && d.ptpMaster && !d.p2p then d.ptpSend 9 seq t 0 (portId src port) else d

/-- The port number of a requester the command does not carry: a free value. [DESIGN CHOICE, safe, log 107] -/
def Dev.portOf (d : Dev) : Nat × Dev := d.fresh 0x412 16

/-- DELAY_REQ. -/
def execDelayReq (dom src seq : Nat) (s : State) : Out :=
  onDev (fun d => let x := d.portOf; x.2.delayReqIn d.ingress dom src x.1 seq) s

/-- Delay_Resp completes the path delay of the own Delay_Req (R415). -/
def Dev.delayRespIn (d : Dev) (dom src seq recv : Nat) (corr : Int) (req : Nat) : Dev :=
  match d.ptp.delayReq with
  | some (q, t3) =>
    if d.ptpTakes dom && d.ptp.parent == some src && q == seq && req == Config.clockIdentity then
      { d with ptp := { d.ptp with delayReq := none, pathDelay := (d.ptp.t12 + (recv - t3 - corrNs corr)).fdiv 2 } }
    else d
  | none => d

/-- DELAY_RESP. -/
def execDelayResp (dom src seq recv : Nat) (corr : Int) (req : Nat) (s : State) : Out :=
  onDev (fun d => d.delayRespIn dom src seq recv corr req) s

/-- Pdelay_Req, stamped `t`: answered one-step with the residence time, egress − ingress, in correctionField, or two-step with a
Follow_Up and the egress stamp (R413, R414). The answer leaves on the clock on which the firmware takes the request. [DEDUCED, safe, log 85] -/
def Dev.pdelayReqIn (d : Dev) (t dom src port seq : Nat) : Dev :=
  if d.ptpTakes dom then
    if d.obj 0x1210 5 0 = 1 then d.ptpSend 3 seq 0 (((d.egress : Int) - t) * 65536) (portId src port)
    else ((d.ptpSend 3 seq t 0 (portId src port)).txStamp 3 seq d.egress).ptpSend 0xA seq d.egress 0 (portId src port)
  else d

/-- PDELAY_REQ. -/
def execPdelayReq (dom src seq : Nat) (s : State) : Out :=
  onDev (fun d => let x := d.portOf; x.2.pdelayReqIn d.ingress dom src x.1 seq) s

/-- Pdelay_Resp, stamped `t`: completes the peer delay where it is one-step. -/
def Dev.pdelayRespIn (d : Dev) (t dom src seq : Nat) (twoStep : Bool) (recv : Nat) (corr : Int) (req : Nat) : Dev :=
  match d.ptp.pdelay with
  | some (q, t1) =>
    if d.ptpTakes dom && q == seq && req == Config.clockIdentity then
      let rt : Int := t - t1
      if twoStep then { d with ptp := { d.ptp with pdelay := none, pdResp := some (seq, src, rt, (recv : Int), corr) } }
      else { d with ptp := { d.ptp with pdelay := none, pathDelay := (rt - corrNs corr).fdiv 2 } }
    else d
  | none => d

/-- PDELAY_RESP. -/
def execPdelayResp (dom src seq : Nat) (twoStep : Bool) (recv : Nat) (corr : Int) (req : Nat) (s : State) : Out :=
  onDev (fun d => d.pdelayRespIn d.ingress dom src seq twoStep recv corr req) s

/-- Pdelay_Resp_Follow_Up completes a two-step peer delay measurement. -/
def Dev.pdelayFollowIn (d : Dev) (dom src seq resp : Nat) (corr : Int) (req : Nat) : Dev :=
  match d.ptp.pdResp with
  | some (q, who, rt, recv, c) =>
    if d.ptpTakes dom && q == seq && req == Config.clockIdentity && who == src then
      { d with ptp := { d.ptp with pdResp := none, pathDelay := (rt - (resp - recv) - corrNs (c + corr)).fdiv 2 } }
    else d
  | none => d

/-- PDELAY_RESP_FOLLOW_UP. -/
def execPdelayRespFollowUp (dom src seq resp : Nat) (corr : Int) (req : Nat) (s : State) : Out :=
  onDev (fun d => d.pdelayFollowIn dom src seq resp corr req) s

/-- The own messages of an interval (R414): 0 Sync and 3 Announce as master, 1 Delay_Req to the parent, 2 Pdelay_Req. -/
def Dev.ptpInterval (d : Dev) (kind : Nat) : Dev :=
  if !d.ptpOn then d
  else if kind = 0 ∧ d.ptpMaster = true then
    let q := d.ptp.seqSync
    let d1 := { d with ptp := { d.ptp with seqSync := (q + 1) % 65536 } }
    if d.obj 0x1210 5 0 = 1 then d1.ptpSend 0 q d.egress 0
    else ((d1.ptpSend 0 q 0 0).txStamp 0 q d.egress).ptpSend 8 q d.egress 0
  else if kind = 1 ∧ d.ptp.parent.isSome = true ∧ d.p2p = false then
    let q := d.ptp.seqDelay
    { d with ptp := { d.ptp with seqDelay := (q + 1) % 65536, delayReq := some (q, (d.egress : Int)) } }.ptpSend 1 q 0 0
  else if kind = 2 ∧ d.p2p = true then
    let q := d.ptp.seqPdelay
    { d with ptp := { d.ptp with seqPdelay := (q + 1) % 65536, pdelay := some (q, (d.egress : Int)), pdResp := none } }.ptpSend 2 q 0 0 (List.replicate 10 0)
  else if kind = 3 ∧ d.ptpMaster = true then
    let q := d.ptp.seqAnn
    { d with ptp := { d.ptp with seqAnn := (q + 1) % 65536 } }.ptpSend 0xB q 0 0
      (let m := d.ownMaster
       beBytes 2 (ofSigned 16 d.ptp.utc) ++ [0x00#8] ++ beBytes 1 m.prio1 ++ beBytes 4 m.quality ++ beBytes 1 m.prio2 ++ beBytes 8 m.gm ++
         beBytes 2 m.steps ++ [0xA0#8])
  else d

/-- PTP_MESSAGE_INTERVAL. -/
def execPtpMessageInterval (kind : Nat) (s : State) : Out := onDevIf (decide (kind < 4)) (fun d => d.ptpInterval kind) s

/-- A read of TS_TX_POP takes the oldest stamp out; with none queued the values are not stated (R414). [DEDUCED, safe, log 85] -/
def Dev.txPop (d : Dev) : Dev :=
  match d.ptp.txq with
  | [] =>
    let (v, d1) := d.fresh 0x415 32
    { d1 with resp := [BitVec.ofNat 32 v] }
  | (ty, seq, t) :: rest =>
    ({ d with ptp := { d.ptp with txq := rest }, resp := [BitVec.ofNat 32 (ty % 16 + 65536 * (seq % 65536))] }.set R.TS_TX_NS
      (t % nsPerSec)).set64 R.TS_TX_SEC_LO (t / nsPerSec)

/-- TS_TX_POP. -/
def execTsTxPop (s : State) : Out :=
  onDev (fun d => if d.dstate = .boot then { d.barMiss with resp := [0] } else d.txPop) s

/-! ## PHY (R418) -/

/-- One gratuitous ARP at link-up and at a change of address (R421). -/
def Dev.gratuitous (d : Dev) : Dev := if d.ip = 0 then d else d.arpSend 1 0 d.ip

/-- The speed the PHY registers show (IEEE 802.3 clause 22): auto-negotiated by registers 10 and 5, else the control register. [PRESUMED, unsafe, log 84] -/
def phySpeed (r0 r5 r10 : Nat) : Nat :=
  if hasBit r0 12 then
    (if hasBit r10 11 || hasBit r10 10 then 2 else if hasBit r5 8 || hasBit r5 7 then 1 else 0)
  else if hasBit r0 6 then 2
  else if hasBit r0 13 then 1 else 0

/-- PHY_POLL (R418). -/
def Dev.phyPoll (d : Dev) (r0 r1 r5 r10 : Nat) : Dev :=
  let up := hasBit r1 2
  let f := d.get R.NET_CTRL_FORCE
  let sp := if f = 0 then phySpeed r0 r5 r10 else f - 1
  let was := d.is R.NET_STATUS_LINK
  if up = was ∧ sp = d.get R.NET_STATUS_SPEED then d
  else
    let d1 := ((d.setB R.NET_STATUS_LINK up).set R.NET_STATUS_SPEED sp).raise Ev.NET_LINK ((if up then 1 else 0) + 2 * sp)
    if up && !was then d1.gratuitous else d1

/-- PHY_POLL: the PHY's registers 0, 1, 5 and 10. -/
def execPhyPoll (r0 r1 r5 r10 : Nat) (s : State) : Out := onDev (fun d => d.phyPoll r0 r1 r5 r10) s

/-- A raw clause 22 access (R418): a write leaves as it stands, a read takes what the PHY answers. -/
def Dev.mdio (d : Dev) (val : Word) (phy : Nat) : Dev :=
  let v := val.toNat % 2 ^ 22
  if hasBit v 21 then (d.set R.NET_MDIO v).emit (.mdio (bytesOf 3 v))
  else d.set R.NET_MDIO (putBits v 0 16 phy)

/-- NET_MDIO_ACCESS. -/
def execNetMdioAccess (val : Word) (phy : Nat) (s : State) : Out := onHost (fun d => d.mdio val phy) s

/-! ## ARP and ICMP (R421) -/

/-- An entry is learnt or refreshed; the oldest of 16 gives way. [PRESUMED, unsafe, log 84] -/
def arpLearn (l : List (Nat × Nat)) (ip mac : Nat) : List (Nat × Nat) :=
  let r := l.filter (fun e => e.1 != ip) ++ [(ip, mac)]
  r.drop (r.length - 16)

/-- A packet that waits for the address of hop `ip` leaves to its MAC address. [PRESUMED, unsafe, log 84] -/
def Dev.arpFound (d : Dev) (ip mac : Nat) : Dev :=
  match d.mgmt.arpWait.find? (fun (e : Nat × List Byte) => e.1 == ip) with
  | some e => { d with mgmt := { d.mgmt with arpWait := d.mgmt.arpWait.filter (fun (e : Nat × List Byte) => e.1 != ip) } }.frameSend mac 0x800 e.2
  | none => d

/-- ARP: a claim of the own address raises IP_CONFLICT; a request for it is answered; senders are learnt. -/
def Dev.arpIn (d : Dev) (op sha spa tpa : Nat) : Dev :=
  if d.ip = 0 then d
  else if spa = d.ip then (if sha ≠ d.mac then d.raise Ev.IP_CONFLICT (sha % 2 ^ 48) else d)
  else
    let known := d.mgmt.arp.any (fun e => e.1 == spa)
    let d1 := if known ∨ tpa = d.ip then { d with mgmt := { d.mgmt with arp := arpLearn d.mgmt.arp spa sha } }.arpFound spa sha else d
    if op = 1 ∧ tpa = d.ip then d1.arpSend 2 sha spa else d1

/-- ARP. -/
def execArp (op sha spa tpa : Nat) (s : State) : Out := onDev (fun d => d.arpIn op sha spa tpa) s

/-- ARP_EXPIRY: an entry is removed after 300 s. -/
def execArpExpiry (ip : Nat) (s : State) : Out :=
  onDev (fun d => { d with mgmt := { d.mgmt with arp := d.mgmt.arp.filter (fun e => e.1 != ip) } }) s

/-- ICMP_ECHO: `data` is what the request carries behind its checksum: identifier, sequence number and a payload; one of up to 1,472
bytes is answered with all of it. -/
def Dev.icmpIn (d : Dev) (src dst : Nat) (data : List Byte) : Dev :=
  let m := fun (sum : Nat) => [0x00#8, 0x00#8] ++ beBytes 2 sum ++ data
  if d.ip ≠ 0 ∧ dst = d.ip ∧ 4 ≤ data.length ∧ data.length - 4 ≤ 1472 then d.ipSend 1 src (m (65535 - onesSum (m 0) 0)) else d

/-- ICMP_ECHO. -/
def execIcmpEcho (src dst : Nat) (data : List Byte) (s : State) : Out := onDev (fun d => d.icmpIn src dst data) s

end Sys2Proof.Machine
end

