-- ==== Sys2Proof/Machine/Crypto.lean ====
section
/-! DEFINITION. The published algorithms the spec names: SHA-256 (16 R431, 19 R489; FIPS 180-4) and ECDSA verification over P-256
(19 R489; FIPS 186-4). PRESUMED: the standards' text is not in the spec. -/

namespace Sys2Proof.Machine

/-! ## SHA-256 -/

/-- The 64 round constants, first half. -/
def shaK0 : List Word :=
  [0x428A2F98, 0x71374491, 0xB5C0FBCF, 0xE9B5DBA5, 0x3956C25B, 0x59F111F1, 0x923F82A4, 0xAB1C5ED5,
   0xD807AA98, 0x12835B01, 0x243185BE, 0x550C7DC3, 0x72BE5D74, 0x80DEB1FE, 0x9BDC06A7, 0xC19BF174,
   0xE49B69C1, 0xEFBE4786, 0x0FC19DC6, 0x240CA1CC, 0x2DE92C6F, 0x4A7484AA, 0x5CB0A9DC, 0x76F988DA,
   0x983E5152, 0xA831C66D, 0xB00327C8, 0xBF597FC7, 0xC6E00BF3, 0xD5A79147, 0x06CA6351, 0x14292967]

/-- The 64 round constants, second half. -/
def shaK1 : List Word :=
  [0x27B70A85, 0x2E1B2138, 0x4D2C6DFC, 0x53380D13, 0x650A7354, 0x766A0ABB, 0x81C2C92E, 0x92722C85,
   0xA2BFE8A1, 0xA81A664B, 0xC24B8B70, 0xC76C51A3, 0xD192E819, 0xD6990624, 0xF40E3585, 0x106AA070,
   0x19A4C116, 0x1E376C08, 0x2748774C, 0x34B0BCB5, 0x391C0CB3, 0x4ED8AA4A, 0x5B9CCA4F, 0x682E6FF3,
   0x748F82EE, 0x78A5636F, 0x84C87814, 0x8CC70208, 0x90BEFFFA, 0xA4506CEB, 0xBEF9A3F7, 0xC67178F2]

/-- The eight working words. -/
structure Sha where
  a : Word
  b : Word
  c : Word
  d : Word
  e : Word
  f : Word
  g : Word
  h : Word
  deriving DecidableEq, Repr

/-- The initial hash value. -/
def Sha.init : Sha := ⟨0x6A09E667, 0xBB67AE85, 0x3C6EF372, 0xA54FF53A, 0x510E527F, 0x9B05688C, 0x1F83D9AB, 0x5BE0CD19⟩

/-- The message schedule, latest word first, grown by `n` words. -/
def shaExtend : Nat → List Word → List Word
  | 0, w => w
  | n + 1, w =>
    let at_ := fun (i : Nat) => (w.drop i).headD 0
    let s0 := (at_ 14).rotateRight 7 ^^^ (at_ 14).rotateRight 18 ^^^ (at_ 14) >>> 3
    let s1 := (at_ 1).rotateRight 17 ^^^ (at_ 1).rotateRight 19 ^^^ (at_ 1) >>> 10
    shaExtend n ((s1 + at_ 6 + s0 + at_ 15) :: w)

/-- One round. -/
def Sha.round (x : Sha) (kw : Word) : Sha :=
  let s1 := x.e.rotateRight 6 ^^^ x.e.rotateRight 11 ^^^ x.e.rotateRight 25
  let ch := (x.e &&& x.f) ^^^ (~~~x.e &&& x.g)
  let t1 := x.h + s1 + ch + kw
  let s0 := x.a.rotateRight 2 ^^^ x.a.rotateRight 13 ^^^ x.a.rotateRight 22
  let mj := (x.a &&& x.b) ^^^ (x.a &&& x.c) ^^^ (x.b &&& x.c)
  ⟨t1 + (s0 + mj), x.a, x.b, x.c, x.d + t1, x.e, x.f, x.g⟩

/-- One 64-byte block. -/
def Sha.block (x : Sha) (l : List Byte) : Sha :=
  let w0 := (List.range 16).map (fun i => BitVec.ofNat 32 (beOf (sliceOf l (4 * i) 4)))
  let w := (shaExtend 48 w0.reverse).reverse
  let y := ((shaK0 ++ shaK1).zip w).foldl (fun s p => s.round (p.1 + p.2)) x
  ⟨x.a + y.a, x.b + y.b, x.c + y.c, x.d + y.d, x.e + y.e, x.f + y.f, x.g + y.g, x.h + y.h⟩

/-- The padded message. -/
def shaPad (l : List Byte) : List Byte :=
  l ++ [0x80] ++ List.replicate ((119 - l.length % 64) % 64) 0 ++ beBytes 8 (8 * l.length)

/-- The blocks of a padded message; `n` bounds them. -/
def shaBlocks : Nat → Sha → List Byte → Sha
  | 0, s, _ => s
  | n + 1, s, l => if l.isEmpty then s else shaBlocks n (s.block (l.take 64)) (l.drop 64)

/-- SHA-256 of a byte string, 32 bytes. [PRESUMED, unsafe, log 87] -/
def sha256 (l : List Byte) : List Byte :=
  let p := shaPad l
  let s := shaBlocks (p.length / 64) Sha.init p
  [s.a, s.b, s.c, s.d, s.e, s.f, s.g, s.h].flatMap (fun w => beBytes 4 w.toNat)

/-! ## ECDSA over P-256 -/

/-- The field prime. -/
def p256p : Nat := 2 ^ 256 - 2 ^ 224 + 2 ^ 192 + 2 ^ 96 - 1
/-- The group order. -/
def p256n : Nat := 0xFFFFFFFF00000000FFFFFFFFFFFFFFFFBCE6FAADA7179E84F3B9CAC2FC632551
/-- The curve's coefficient b; a is −3. -/
def p256b : Nat := 0x5AC635D8AA3A93E7B3EBBD55769886BC651D06B0CC53B0F63BCE3C3E27D2604B
/-- The base point. -/
def p256g : Nat × Nat :=
  (0x6B17D1F2E12C4247F8BCE6E563A440F277037D812DEB33A0F4A13945D898C296,
   0x4FE342E2FE1A7F9B8EE7EB4A7C0F9E162BCE33576B315ECECBB6406837BF51F5)

/-- x^e mod m for a 256-bit exponent. -/
def powMod (m x e : Nat) : Nat :=
  ((List.range 256).foldl (fun (s : Nat × Nat) i =>
    (if hasBit e i then s.1 * s.2 % m else s.1, s.2 * s.2 % m)) (1 % m, x % m)).1

/-- The inverse modulo a prime. -/
def invMod (m x : Nat) : Nat := powMod m x (m - 2)

/-- The sum of two points; none is the point at infinity. -/
def p256add (a b : Option (Nat × Nat)) : Option (Nat × Nat) :=
  match a, b with
  | none, q => q
  | q, none => q
  | some (x1, y1), some (x2, y2) =>
    let p := p256p
    if x1 = x2 ∧ (y1 + y2) % p = 0 then none
    else
      let l := if x1 = x2 then (3 * x1 * x1 + p - 3) * invMod p (2 * y1) % p
        else (y2 + p - y1) * invMod p (x2 + p - x1) % p
      let x := (l * l + 2 * p - x1 - x2) % p
      some (x, (l * (x1 + p - x) + p - y1) % p)

/-- A multiple of a point. -/
def p256mul (k : Nat) (q : Option (Nat × Nat)) : Option (Nat × Nat) :=
  ((List.range 256).foldl (fun (s : Option (Nat × Nat) × Option (Nat × Nat)) i =>
    (if hasBit k i then p256add s.1 s.2 else s.1, p256add s.2 s.2)) (none, q)).1

/-- The point lies on the curve. -/
def p256on (x y : Nat) : Bool :=
  decide (x < p256p) && decide (y < p256p) && y * y % p256p == (x * x * x + (p256p - 3) * x + p256b) % p256p

/-- The signature (r, s) of a message hash is valid under a public key. [PRESUMED, unsafe, log 87] -/
def ecdsaOk (key : Nat × Nat) (r s : Nat) (hash : List Byte) : Bool :=
  let n := p256n
  p256on key.1 key.2 && decide (1 ≤ r) && decide (r < n) && decide (1 ≤ s) && decide (s < n) &&
    (let w := invMod n s
     match p256add (p256mul (beOf hash * w % n) (some p256g)) (p256mul (r * w % n) (some key)) with
     | some (x, _) => x % n == r
     | none => false)

end Sys2Proof.Machine
end

