-- ==== Sys2Proof/Machine/Calib.lean ====
section
/-! DEFINITION. Calibration and self-test (18 R474–R486, 20 R503): the ADC calibration behind the spare, the built-in self-test, the
band-gap check, the die temperature. -/

namespace Sys2Proof.Machine

/-! ## Converters (R475–R481) -/

/-- Converters 2n and 2n + 1 serve SIN and COS of encoder n; ADC 8 is the spare. -/
def adcEnc (k : Nat) : Nat := k / 2

/-- A converter serves an enabled encoder in analog mode (R477). One that the spare replaces is not in use (R479). -/
def Dev.adcInUse (d : Dev) (k : Nat) : Bool :=
  decide (k < 8) && d.is (R.ENC_CFG_EN (adcEnc k)) && d.is (R.ENC_CFG_MODE (adcEnc k)) && d.get R.CAL_SPARE_FOR != k

/-- A converter serves an enabled encoder in analog mode: one in use, or the spare in the place of one (R477, R479, R481). [DEDUCED, unsafe, log 88] -/
def Dev.adcServes (d : Dev) (k : Nat) : Bool :=
  let f := d.get R.CAL_SPARE_FOR
  d.adcInUse k || (k == 8 && decide (f < 8) && d.is (R.ENC_CFG_EN (adcEnc f)) && d.is (R.ENC_CFG_MODE (adcEnc f)))

/-- The converters a command calibrates, in order (R477): ADC 8 first when its bit is set or the mask names one in use. -/
def Dev.adcOrder (d : Dev) (mask : Nat) : List Nat :=
  let l := (List.range 8).filter (hasBit mask)
  if hasBit mask 8 || l.any d.adcInUse then 8 :: l else l

/-- The measurements of a converter; one the environment does not give reads 0 at every point. -/
def measOf (l : List AdcMeas) (k : Nat) : AdcMeas :=
  (l.find? (fun m => m.adc == k)).getD { adc := k, m0 := 0, mp := 0, mn := 0, r0 := 0, rp := 0, out := 0, back := 0 }

/-- The new offset trim (R476). [DEDUCED, unsafe, log 88] -/
def newOfs (old : Int) (m : AdcMeas) : Int := old - m.m0

/-- The new gain trim (R476); C division cuts toward 0. [DEDUCED, unsafe, log 88] -/
def newGain (old : Int) (m : AdcMeas) : Int := old - ((m.mp - m.mn - 81920) * 16384 + 40960).tdiv 81920

/-- A trim fits its DAC. -/
def trimFits (x : Int) : Bool := decide (-512 ≤ x) && decide (x ≤ 511)

/-- Calibrates one converter (R476, R480, R481): the new trims when they fit and the residual check passes, else the old
ones. [DEDUCED, unsafe, log 88] -/
def Dev.adcTrim (d : Dev) (k : Nat) (m : AdcMeas) : Bool × Dev :=
  let o := newOfs (d.getS (R.ADC_TRIM_OFS k)) m
  let g := newGain (d.getS (R.ADC_TRIM_GAIN k)) m
  let res := m.rp - m.r0 - 40960
  let ok := trimFits o && trimFits g && decide (m.r0.natAbs ≤ d.get R.CAL_RES_LIM_OFS) &&
    decide (res.natAbs ≤ d.get R.CAL_RES_LIM_GAIN)
  let d1 := ((d.set (R.ADC_CAL_TEMP k) (d.get R.CAL_TEMP)).bump (R.ADC_CAL_CNT k) 1).set (R.ADC_CAL_LAST k) (if ok then 0 else 6)
  let d2 := { d1 with cal := { d1.cal with due := d1.cal.due.filter (fun x => x != k) } }
  (ok, if ok then (d2.set (R.ADC_TRIM_OFS k) (ofSigned 10 o)).set (R.ADC_TRIM_GAIN k) (ofSigned 10 g)
    else d2.raise Ev.CAL_RESIDUAL (k + 2 ^ 16 * ofSigned 16 m.r0 + 2 ^ 32 * ofSigned 16 res))

/-- A handover or return compare failed (R479). -/
def Dev.handoverFail (d : Dev) (k : Nat) (back : Bool) (diff : Nat) : Dev :=
  (d.set (R.ADC_CAL_LAST k) 5).raise Ev.CAL_HANDOVER_FAIL (k + (if back then 16 else 0) + 2 ^ 16 * (diff % 65536))

/-- Progress of an ADC calibration: device, converters with new trims, result so far, ADC 8 failed its residual check. -/
structure AdcRun where
  d : Dev
  done : Nat
  code : Nat
  spareBad : Bool
  deriving DecidableEq, Repr

/-- One converter of the order (R478–R480). After HANDOVER the rest is skipped; converters in use are skipped once ADC 8 has
failed. One that fails its residual check stays in use: it takes the input back without a compare. [DEDUCED, unsafe, log 88] -/
def AdcRun.one (l : List AdcMeas) (x : AdcRun) (k : Nat) : AdcRun :=
  let m := measOf l k
  let tol := x.d.get R.CAL_HO_TOL
  let used := x.d.adcInUse k
  if x.code = 5 ∨ (x.spareBad ∧ used) then x
  else if used && decide (tol < m.out) then { x with d := x.d.handoverFail k false m.out, code := 5 }
  else
    let r := x.d.adcTrim k m
    let y : AdcRun := { d := r.2, done := if r.1 then orBit x.done k else x.done, code := if r.1 then x.code else 6,
                        spareBad := x.spareBad || (k == 8 && !r.1) }
    if used && r.1 && decide (tol < m.back) then { y with d := (y.d.set R.CAL_SPARE_FOR k).handoverFail k true m.back, code := 5 }
    else y

/-- Calibrates the converters of a mask. -/
def Dev.calibrate (d : Dev) (mask : Nat) (l : List AdcMeas) : AdcRun :=
  (d.adcOrder mask).foldl (AdcRun.one l) { d := d, done := 0, code := 0, spareBad := false }

/-- A converter calibrated without a handover is at work: an ENC_CFG write of its encoder is deferred (R478). [DEDUCED, unsafe, log 89] -/
def Dev.encCalibrating (d : Dev) (n : Nat) : Bool :=
  match d.cal.run with
  | some mask => (d.adcOrder mask).any (fun k => decide (k < 8) && adcEnc k == n && !d.adcInUse k)
  | none => false

/-- CAL_CMD ADC (R477). -/
def Dev.calAdc (d : Dev) : Dev :=
  if d.is R.CAL_RESULT_BUSY then (d.set R.CAL_RESULT_CODE 1).setB R.CAL_RESULT_OVR true
  else if d.get R.CAL_ARG_ADC_MASK = 0 then d.set R.CAL_RESULT_CODE 3
  else if !d.domOn 8 then d.set R.CAL_RESULT_CODE 4
  else
    ({ d with cal := { d.cal with run := some (d.get R.CAL_ARG_ADC_MASK) } }.set R.CAL_RESULT_CODE 0).setB R.CAL_RESULT_BUSY true

/-- CAL_ADC. -/
def execCalAdc (s : State) : Out := onHost (fun d => d.calAdc) s

/-- The detail of CAL_DONE: fields [8:0] and [15:8] share bit 8, whose value is stated only where both agree. [DEDUCED, unsafe, log 88] -/
def Dev.calDetail (d : Dev) (done code : Nat) : Nat × Dev :=
  if hasBit done 8 = hasBit code 0 then (putBits (done % 512) 8 8 code, d)
  else
    let (b, d1) := d.fresh 0x0E01 1
    (putBits (putBits (done % 512) 8 8 code) 8 1 b, d1)

/-- The calibration ends: deferred ENC_CFG words take effect, trims and result stand, CAL_DONE. [DEDUCED, unsafe, log 88] -/
def Dev.calDone (d : Dev) (l : List AdcMeas) : Dev :=
  match d.cal.run with
  | none => d
  | some mask =>
    let x := d.calibrate mask l
    let d1 := forEach x.d.cal.shown (fun (d : Dev) e => d.setReg e.1 e.2) x.d
    let d2 := ({ d1 with cal := { d1.cal with run := none, shown := [] } }.set R.CAL_RESULT_CODE x.code).setB
      R.CAL_RESULT_BUSY false
    let (v, d3) := d2.calDetail x.done x.code
    (d3.raise Ev.CAL_DONE v).encReview

/-- CAL_DONE. -/
def execCalDone (meas : List AdcMeas) (s : State) : Out := onDev (fun d => d.calDone meas) s

/-! ## Built-in self-test (R482–R486) -/

/-- The CAL_ARG fields of a request name a test that exists (R485, Tables 11.1 and 18.3; R325 for ranges). [DEDUCED, unsafe, log 90] -/
def Dev.bistArgs (d : Dev) (test target start count : Nat) : Bool :=
  match test with
  | 1 => decide (target ≤ 10) && target != 7 && decide (start + count ≤ eccSramWords target)
  | 2 => decide (target < 2) && decide (start + count ≤ d.eccWords (16 + target))
  | 3 => decide (target < 36)
  | 4 => decide (target < 32)
  | 5 => decide (target < 2)
  | 6 => true
  | 7 => true
  | _ => false

/-- The power domain of a test's target. -/
def bistDomain (test target : Nat) : Nat :=
  match test with
  | 1 => eccDomain target
  | 2 => 4 + target
  | 4 => 6
  | 5 => 7
  | _ => 0

/-- The BUSY conditions of Table 18.3. -/
def Dev.bistBusy (d : Dev) (test target : Nat) : Bool :=
  d.bistLive test target || (test == 3 && d.crcOwner target != 0) || (test == 6 && !d.items.isEmpty)

/-- Words of a test: the whole memory for count 0; a known-answer test counts as one. -/
def Dev.bistRange (d : Dev) (test target : Nat) : Nat × Nat :=
  let n := d.get64 R.CAL_ARG_COUNT_LO
  if test = 1 ∨ test = 2 then
    if n = 0 then (0, if test = 1 then eccSramWords target else d.eccWords (16 + target)) else (d.get64 R.CAL_ARG_START_LO, n)
  else (0, 1)

/-- CAL_CMD BIST, in the order of R486. [DEDUCED, unsafe, log 90] -/
def Dev.bistStart (d : Dev) : Dev :=
  let test := d.get R.CAL_ARG_TEST
  let target := d.get R.CAL_ARG_TARGET
  let (a, n) := d.bistRange test target
  if d.is R.BIST_RESULT_BUSY then (d.set R.BIST_RESULT_CODE 1).setB R.BIST_RESULT_OVR true
  else if !d.bistArgs test target a n then d.set R.BIST_RESULT_CODE 3
  else if !d.domOn (bistDomain test target) then d.set R.BIST_RESULT_CODE 4
  else if test = 2 ∧ d.get (R.DRC_STATUS_STATE target) ≠ 3 then d.set R.BIST_RESULT_CODE 2
  else if d.bistBusy test target then d.set R.BIST_RESULT_CODE 1
  else
    (({ d with cal := { d.cal with bist := some { test := test, target := target, start := a, count := n, abort := false } } }.set
      R.BIST_RESULT_CODE 0).setB R.BIST_RESULT_BUSY true).set64 R.BIST_POS_LO a

/-- BIST. -/
def execBist (s : State) : Out := onHost (fun d => d.bistStart) s

/-- CAL_ABORT: the running test ends after the word or burst in progress (R486); with no test running nothing happens. -/
def execCalAbort (s : State) : Out :=
  onHost (fun d => { d with cal := { d.cal with bist := d.cal.bist.map (fun b => { b with abort := true }) } }) s

/-- BIST_FAIL: once per memory and run (R482); unit numbers that do not fit the five bits of the detail are not stated. -/
def Dev.bistFail (d : Dev) (test target first : Nat) : Dev :=
  if target < 32 then d.raise Ev.BIST_FAIL (test + 16 * target + 65536 * first)
  else
    let (t, d1) := d.fresh 0x8E07 5
    d1.raise Ev.BIST_FAIL (test + 16 * t + 65536 * first)

/-- A test reports `failed` words or a failed known answer (R482, R484). [DEDUCED, unsafe, log 90] -/
def Dev.bistReport (d : Dev) (test target failed first : Nat) : Dev :=
  let d1 := d.set R.BIST_KAT (setMask (d.get R.BIST_KAT) (test - 1) (decide (0 < failed)))
  if failed = 0 then d1
  else if test ≤ 2 then
    ((d1.set64 R.BIST_FAIL_WORD_LO first).bump R.BIST_FAIL_CNT failed).bistFail test target first
  else d1.bistFail test target 0

/-- How a run that handled `n` words ends, if it ends (R486). [DEDUCED, unsafe, log 90] -/
def Dev.bistEnd (d : Dev) (b : BistRun) (n failed : Nat) : Option Nat :=
  if b.count ≤ n then some (if failed = 0 then 0 else 8)
  else if b.abort || d.bistLive b.test b.target || (b.test == 2 && !d.chIn b.target) then some 7
  else none

/-- BIST_DONE: a run ends after `handled` words with `failed` failing, `first` the first of them. -/
def execBistDone (handled failed first : Nat) (s : State) : Out :=
  onDev (fun d =>
    match d.cal.bist with
    | none => d
    | some b =>
      match d.bistEnd b handled failed with
      | none => d
      | some c =>
        let d1 := if c = 7 then
            (if 0 < failed then
              ((d.set64 R.BIST_FAIL_WORD_LO first).bump R.BIST_FAIL_CNT failed).bistFail b.test b.target first
            else d)
          else d.bistReport b.test b.target failed first
        ((((({ d1 with cal := { d1.cal with bist := none } }).set R.BIST_RESULT_CODE c).setB R.BIST_RESULT_BUSY false).set64
          R.BIST_POS_LO (b.start + min handled b.count)).raise Ev.BIST_DONE
            (b.test + 256 * c + 65536 * (failed % 2 ^ 32)))) s

/-! ## Band-gap and die temperature (R474, R481, 20 R503) -/

/-- BANDGAP_CHECK: the difference of the two references in ppm. -/
def execBandgapCheck (diff : Int) (s : State) : Out :=
  onDev (fun d =>
    let d1 := d.putSigned R.CAL_BG_DIFF diff
    if 5000 < diff.natAbs ∧ d1.is R.CAL_BG_DRIFT = false then
      (d1.setB R.CAL_BG_DRIFT true).raise Ev.BANDGAP_DRIFT (d1.get R.CAL_BG_DIFF)
    else d1) s

/-- CAL_DUE once per converter in use whose die temperature moved too far since its calibration (R481). -/
def Dev.calDue (d : Dev) (k : Nat) : Dev :=
  let t := d.getS R.CAL_TEMP - d.getS (R.ADC_CAL_TEMP k)
  if d.adcServes k && !d.cal.due.contains k && decide (16 * d.get R.CAL_TEMP_DELTA < t.natAbs) then
    { d with cal := { d.cal with due := k :: d.cal.due } }.raise Ev.CAL_DUE (k + 65536 * ofSigned 16 t)
  else d

/-- The die temperature is measured: CAL_TEMP and its events (20 R503). -/
def Dev.dieTemp (d : Dev) (temp : Int) : Dev :=
  let d1 := d.putSigned R.CAL_TEMP temp
  if 1680 ≤ temp ∧ d1.cal.hot = false then
    { d1 with cal := { d1.cal with hot := true } }.raise Ev.DIE_TEMP_HIGH (d1.get R.CAL_TEMP)
  else if temp < 1600 ∧ d1.cal.hot = true then
    { d1 with cal := { d1.cal with hot := false } }.raise Ev.DIE_TEMP_NORMAL (d1.get R.CAL_TEMP)
  else d1

/-- DIE_TEMP_CHANGE: the die temperature in 1/16 °C; CAL_DUE by converter (R481). -/
def execDieTempChange (temp : Int) (s : State) : Out :=
  onDev (fun d => forEach (List.range 9) (fun (d : Dev) k => d.calDue k) (d.dieTemp temp)) s

end Sys2Proof.Machine
end

