-- ==== Sys2Proof/Machine/Update.lean ====
section
/-! DEFINITION. Firmware update (19 R487–R498): the checks of a bundle, the staging commands, the activation at a start. -/

namespace Sys2Proof.Machine

/-! ## The bundle (Tables 19.2–19.4) -/

/-- Part count of a manifest header. -/
def partCount (l : List Byte) : Nat := leAt l 0x15 1

/-- Manifest length: 192 + 48n. -/
def manifestLen (l : List Byte) : Nat := 192 + 48 * partCount l

/-- SHA-256 of the manifest. -/
def manifestHash (l : List Byte) : List Byte := sha256 (l.take (manifestLen l))

/-- Bundle version, schema version, security version of a header. -/
def bundleVersion (l : List Byte) : Nat := leAt l 0xC 4
def bundleSchema (l : List Byte) : Nat := leAt l 0x10 4
def bundleSvn (l : List Byte) : Nat := leAt l 0x14 1

/-- A part entry of Table 19.3. -/
structure Part where
  type : Nat
  ofs : Nat
  len : Nat
  hash : List Byte
  deriving DecidableEq, Repr

/-- The part entries of a manifest. -/
def partsOf (l : List Byte) : List Part :=
  (List.range (partCount l)).map (fun i =>
    let o := 64 + 48 * i
    { type := leAt l o 1, ofs := leAt l (o + 4) 4, len := leAt l (o + 8) 4, hash := sliceOf l (o + 16) 32 })

/-- Check 1: header magic, format version, header length, part count, bundle length. -/
def headerOk (l : List Byte) : Bool :=
  leAt l 0 4 == 0x314D5844 && leAt l 4 2 == 0x0100 && leAt l 6 2 == 64 && (partCount l == 6 || partCount l == 7) &&
    decide (1024 ≤ leAt l 8 4) && decide (leAt l 8 4 ≤ 3145728)

/-- Check 3: types, offsets, bounds and overlap of the part entries (R489). -/
def partsOk (l : List Byte) : Bool :=
  let ps := partsOf l
  let ts := ps.map (·.type)
  ts.eraseDups.length == ts.length && ts.all (fun t => decide (1 ≤ t) && decide (t ≤ 7)) &&
    [2, 3, 4, 5, 6, 7].all ts.contains &&
    ps.all (fun p => p.ofs % 256 == 0 && decide (1 ≤ p.len) && decide (manifestLen l ≤ p.ofs) &&
      decide (p.ofs + p.len ≤ leAt l 8 4)) &&
    ps.zipIdx.all (fun p => ps.zipIdx.all (fun q => p.2 == q.2 || decide (p.1.ofs + p.1.len ≤ q.1.ofs) ||
      decide (q.1.ofs + q.1.len ≤ p.1.ofs)))

/-- The signer's public key and the signature of a manifest. -/
def bundleKey (l : List Byte) : List Byte := sliceOf l (64 + 48 * partCount l) 64
def bundleSig (l : List Byte) : List Byte := sliceOf l (128 + 48 * partCount l) 64

/-- Check 5: ECDSA P-256 over the SHA-256 of every manifest byte before the signature. -/
def signatureOk (l : List Byte) : Bool :=
  let k := bundleKey l
  let g := bundleSig l
  ecdsaOk (beOf (k.take 32), beOf (k.drop 32)) (beOf (g.take 32)) (beOf (g.drop 32)) (sha256 (l.take (128 + 48 * partCount l)))

/-- The schema part begins with its schema version. -/
def schemaOf (l : List Byte) : Nat :=
  match (partsOf l).find? (fun p => p.type == 7) with
  | some p => leAt l p.ofs 4
  | none => 0

/-- The first failing check of Table 19.4 and the part entry it names; `received` is compared by check 2 where it is given. -/
def bundleCheck (l : List Byte) (received : Option Nat) (c : Nat) : Option (Nat × Nat) :=
  if !headerOk l then some (1, 0)
  else if (received.map (fun n => n != leAt l 8 4)).getD false then some (2, 0)
  else if !partsOk l then some (3, 0)
  else if beOf (sha256 (bundleKey l)) ≠ Config.keyHash.toNat then some (4, 0)
  else if !signatureOk l then some (5, 0)
  else if bundleSvn l < c then some (6, 0)
  else match (partsOf l).zipIdx.find? (fun p => sha256 (sliceOf l p.1.ofs p.1.len) != p.1.hash) with
    | some p => some (7, p.2)
    | none => if schemaOf l ≠ bundleSchema l then some (8, 0) else none

/-- Version, security version and schema version of the running bundle. -/
def Flash.version (f : Flash) : Nat := (f.active.map bundleVersion).getD Config.shippedVersion.toNat
def Flash.svn (f : Flash) : Nat := (f.active.map bundleSvn).getD Config.shippedSvn.toNat
def Flash.schema (f : Flash) : Nat := (f.active.map bundleSchema).getD Config.shippedSchema.toNat

/-! ## Commands (R491–R495) -/

/-- A store command runs (R488). -/
def Dev.storeBusy (d : Dev) : Bool := d.is R.DEV_STORE_RESULT_BUSY

/-- Staging states of Table 19.5. -/
inductive Staging where
  | empty | erasing | loading | verifying | verified | invalid | pending | activated
  deriving DecidableEq, Repr

/-- Code of a staging state. -/
def Staging.code : Staging → Nat
  | .empty => 0 | .erasing => 1 | .loading => 2 | .verifying => 3 | .verified => 4 | .invalid => 5 | .pending => 6 | .activated => 7

/-- The staging state is one of `l`. -/
def Dev.staging (d : Dev) (l : List Staging) : Bool := l.any (fun x => d.get R.UPD_STATUS_STATE == x.code)

/-- Enters a staging state. -/
def Dev.setStaging (d : Dev) (x : Staging) : Dev := d.set R.UPD_STATUS_STATE x.code

/-- The result of an update command. -/
def Dev.updResult (d : Dev) (code : Nat) : Dev := d.set R.UPD_RESULT_CODE code

/-- A command on device and flash: discarded with OVR while one runs; BUSY while a store command holds the
flash it uses; STATE outside the states that it leaves (R488, R491). -/
def updCmd (flash : Bool) (from_ : List Staging) (f : Dev → NonVol → Dev × NonVol) (d : Dev) (v : NonVol) : Dev × NonVol :=
  if d.is R.UPD_RESULT_BUSY then (d.setB R.UPD_RESULT_OVR true, v)
  else if flash && d.storeBusy then (d.updResult 1, v)
  else if !d.staging from_ then (d.updResult 2, v)
  else f d v

/-- A command is accepted: counted, result OK. -/
def Dev.updTake (d : Dev) : Dev := (d.updResult 0).wrap R.UPD_RESULT_SEQ 1

/-- An effect on device and non-volatile memory. -/
def onDevNv (f : Dev → NonVol → Dev × NonVol) (s : State) : Out :=
  .next (if s.dev.awake then { s with dev := (f s.dev s.nv).1, nv := (f s.dev s.nv).2 } else s)

/-- The same for a host command to a block other than DEV and PWR. -/
def onHostNv (f : Dev → NonVol → Dev × NonVol) (s : State) : Out :=
  onDevNv (fun d v => if d.dstate = .boot then (d.barMiss, v) else f d v) s

/-- The states BEGIN leaves. -/
def beginFrom : List Staging := [.empty, .loading, .verified, .invalid, .activated]

/-- BEGIN (R492). -/
def updBegin (d : Dev) (v : NonVol) : Dev × NonVol :=
  updCmd true beginFrom (fun d v =>
    let n := d.get R.UPD_TOTAL
    if n < 1024 ∨ 3145728 < n then (d.updResult 3, v)
    else (((d.updTake.setB R.UPD_RESULT_BUSY true).setStaging .erasing).set R.UPD_NEXT 0,
      { v with flash := { v.flash with staging := [] } })) d v

/-- UPD_BEGIN. -/
def execUpdBegin (s : State) : Out := onHostNv updBegin s

/-- UPD_ERASE_DONE: the staging erase ends well or with a flash error (Table 19.5). -/
def execUpdEraseDone (ok : Bool) (s : State) : Out :=
  onDev (fun d =>
    if d.staging [.erasing] then
      ((d.setB R.UPD_RESULT_BUSY false).updResult (if ok then 0 else 6)).setStaging (if ok then .loading else .empty)
    else d) s

/-- Result of the checks of a block (R493); lengths outside 4–4,096 have no other answer than BAD_ARG. -/
def Dev.blockCode (d : Dev) (ofs n : Nat) : Nat :=
  if ofs ≠ d.get R.UPD_NEXT then 4
  else if n < 4 ∨ 4096 < n ∨ (n % 4 ≠ 0 ∧ ofs + n ≠ d.get R.UPD_TOTAL) then 3
  else if d.get R.UPD_TOTAL < ofs + n then 5
  else 0

/-- BLOCK with its offset and data (R493). -/
def updBlock (ofs : Nat) (data : List Byte) (flashErr : Bool) (d : Dev) (v : NonVol) : Dev × NonVol :=
  updCmd true [.loading] (fun d v =>
    let c := d.blockCode ofs data.length
    if c ≠ 0 then (d.updResult c, v)
    else if flashErr then ((d.updTake.updResult 6).raise Ev.UPD_FLASH (0x310000 + ofs), v)
    else (d.updTake.set R.UPD_NEXT (ofs + data.length),
      { v with flash := { v.flash with staging := v.flash.staging ++ data } })) d v

/-- The bytes of UPD_BUF. -/
def Dev.updBuf (d : Dev) (n : Nat) : List Byte :=
  ((List.range ((n + 3) / 4)).flatMap (fun i => bytesOf 4 (d.reg (R.UPD_BUF i).addr).toNat)).take n

/-- UPD_BLOCK: a block over PCIe; `flashErr` that its read-back differs. -/
def execUpdBlock (flashErr : Bool) (s : State) : Out :=
  onHostNv (fun d v => updBlock (d.get R.UPD_BLK_OFS) (d.updBuf (d.get R.UPD_BLK_LEN)) flashErr d v) s

/-- VERIFY (R494). [DEDUCED, unsafe, log 91] -/
def updVerify (d : Dev) (v : NonVol) : Dev × NonVol :=
  updCmd true [.loading] (fun d v => ((d.updTake.setB R.UPD_RESULT_BUSY true).setStaging .verifying, v)) d v

/-- UPD_VERIFY. -/
def execUpdVerify (s : State) : Out := onHostNv updVerify s

/-- The end of VERIFY (R494). [DEDUCED, unsafe, log 91] -/
def Dev.verified (d : Dev) (v : NonVol) : Dev :=
  let l := v.flash.staging
  let d1 := d.setB R.UPD_RESULT_BUSY false
  match bundleCheck l (some (d.get R.UPD_NEXT)) v.fuses with
  | some (c, p) =>
    ((((d1.updResult 7).setStaging .invalid).set R.UPD_VERIFY_ERR_CHECK c).set R.UPD_VERIFY_ERR_PART p).raise
      Ev.UPD_VERIFY_FAIL (c + 256 * p)
  | none =>
    ((((d1.updResult 0).setStaging .verified).set R.UPD_STAGED_VER (bundleVersion l)).set R.UPD_STAGED_SVN (bundleSvn l)).raise
      Ev.UPD_VERIFIED (bundleVersion l + 2 ^ 32 * bundleSvn l)

/-- UPD_VERIFIED. -/
def execUpdVerified (s : State) : Out :=
  onDev (fun d => if d.staging [.verifying] then d.verified s.nv else d) s

/-- ACTIVATE (R495): the journal is erased and holds the PENDING record once it reads back. [DEDUCED, unsafe, log 91] -/
def updActivate (flashErr : Bool) (d : Dev) (v : NonVol) : Dev × NonVol :=
  updCmd true [.verified] (fun d v =>
    let l := v.flash.staging
    if flashErr then (d.updTake.updResult 6, { v with flash := { v.flash with journal := {} } })
    else (d.updTake.setStaging .pending,
      { v with flash := { v.flash with
          journal := { pending := some (leAt l 8 4, bundleVersion l, manifestHash l) } } })) d v

/-- UPD_ACTIVATE. -/
def execUpdActivate (flashErr : Bool) (s : State) : Out := onHostNv (updActivate flashErr) s

/-- The states CANCEL leaves, and those in which it has no effect (R491). -/
def cancelFrom : List Staging := [.empty, .loading, .verified, .invalid, .pending, .activated]

/-- CANCEL (R491, R495). [DEDUCED, unsafe, log 91] -/
def updCancel (flashErr : Bool) (d : Dev) (v : NonVol) : Dev × NonVol :=
  updCmd (d.staging [.pending]) cancelFrom (fun d v =>
    if d.staging [.pending] then
      if flashErr then (d.updTake.updResult 6, v)
      else (d.updTake.setStaging .verified, { v with flash := { v.flash with journal := {} } })
    else if d.staging [.empty, .activated] then (d.updTake, v)
    else (d.updTake.setStaging .empty, v)) d v

/-- UPD_CANCEL. -/
def execUpdCancel (flashErr : Bool) (s : State) : Out := onHostNv (updCancel flashErr) s

/-! ## Activation at a start (R496, R497) -/

/-- An activation on its way: device (for its events), memories, how it ended: code of UPD_LAST_ACT, a halt (step, code), power lost
during the copy. -/
structure Act where
  d : Dev
  v : NonVol
  last : Nat
  halt : Option (Nat × Nat)
  lost : Bool
  deriving DecidableEq, Repr

/-- 64 KiB sectors of a bundle length. -/
def sectorsOf (n : Nat) : Nat := ceilDiv n 65536

/-- The activation is cut: a flash error halts it (R496), else power is lost. [DEDUCED, unsafe, log 91] -/
def Act.cutOff (x : Act) (env : BootEnv) : Act := if env.flashErr then { x with halt := some (3, 0x11) } else { x with lost := true }

/-- The journal of an activation. -/
def Act.journal (x : Act) : Journal := x.v.flash.journal

/-- Changes the journal. -/
def Act.putJournal (x : Act) (j : Journal) : Act := { x with v := { x.v with flash := { x.v.flash with journal := j } } }

/-- Sectors recorded after this start's copy of `total`. -/
def copiedTo (env : BootEnv) (sectors total : Nat) : Nat :=
  match env.cut with
  | some (.sector k) => min total (max sectors k)
  | _ => total

/-- The active region once the first `n` sectors of `l` are copied over it. -/
def Flash.copied (f : Flash) (l : List Byte) (n : Nat) : List Byte :=
  if l.length ≤ 65536 * n then l else l.take (65536 * n) ++ (f.active.getD Config.shippedImage).drop (65536 * n)

/-- Steps 4 and 5 of R496: the fuses, then DONE. [DEDUCED, unsafe, log 91] -/
def actFuse (env : BootEnv) (l : List Byte) (resumed : Bool) (x : Act) : Act :=
  let c := max x.v.fuses (min 64 (bundleSvn l))
  match env.cut with
  | some (.fuses n) => { x with v := { x.v with fuses := min c (max x.v.fuses n) } }.cutOff env
  | _ =>
    { x.putJournal { x.journal with done := true } with
      d := x.d.raise Ev.UPD_ACTIVATED (bundleVersion l + 2 ^ 32 * c), last := if resumed then 2 else 1,
      v := { (x.putJournal { x.journal with done := true }).v with fuses := c } }

/-- Steps 2–5 of R496 for a journal whose copy has reached `sectors`. [DEDUCED, unsafe, log 91] -/
def actCopy (env : BootEnv) (len : Nat) (x : Act) : Act :=
  let j := x.journal
  let total := sectorsOf len
  let r := copiedTo env j.sectors total
  let l := x.v.flash.staging.take len
  let x1 := { x with d := when (decide (0 < j.sectors)) (fun d => d.raise Ev.UPD_COPY_RESUMED (j.sectors % 256)) x.d }
  let x2 := { x1 with v := { x1.v with flash := { x1.v.flash with active := some (x1.v.flash.copied l r) } } }.putJournal
    { j with sectors := r }
  if r < total then x2.cutOff env
  else if !j.verified && (bundleCheck l none x2.v.fuses).isSome then x2
  else if !j.verified && env.cut == some .verified then x2.cutOff env
  else actFuse env l (decide (0 < j.sectors)) (x2.putJournal { j with sectors := r, verified := true })

/-- Step 1 of R496 fails with a check: the journal is erased. -/
def actFail (env : BootEnv) (d : Dev) (check : Nat) (x : Act) : Act :=
  if env.cut = some .journal then x.cutOff env
  else { x.putJournal {} with d := d.raise Ev.UPD_ACTIVATION_FAILED check, last := 3 }

/-- The activation of R496: step 1, then the copy. The event names no check where only the manifest hash differs: that byte is a
free value. [DEDUCED, unsafe, log 91] -/
def activation (env : BootEnv) (d : Dev) (v : NonVol) : Act :=
  let x : Act := { d := d, v := v, last := 0, halt := none, lost := false }
  let j := v.flash.journal
  match j.pending with
  | none => x
  | some (len, _, hash) =>
    if j.done then x
    else if j.verified then actCopy env len x
    else
      let l := v.flash.staging
      match bundleCheck l (some l.length) v.fuses with
      | some (c, _) => actFail env d c x
      | none =>
        if manifestHash l = hash then actCopy env len x
        else
          let (c, d1) := d.fresh 0x8F05 8
          actFail env d1 c x

/-- The failing check of the active region (R497): what flash decay breaks, else Table 19.4 but for check 2. [DESIGN CHOICE, unsafe, log 7] -/
def activeCheck (env : BootEnv) (v : NonVol) : Option Nat :=
  env.activeBad.or (v.flash.active.bind (fun l => (bundleCheck l none v.fuses).map (·.1)))

/-- Staging holds the bundle of a DONE record. -/
def stagingDone (f : Flash) : Bool :=
  f.journal.done &&
    (match f.journal.pending with
     | some (_, _, h) => !f.staging.isEmpty && manifestHash f.staging == h
     | none => false)

/-- Activation and check of the active region at a start (R496, R497); 17 Table 17.6 step 3. -/
def bundleStart (env : BootEnv) (d : Dev) (v : NonVol) : Act :=
  let x := activation env d v
  if x.halt.isSome || x.lost then x
  else match activeCheck env x.v with
    | none => x
    | some c =>
      if stagingDone x.v.flash then
        let l := x.v.flash.staging
        let v1 := { x.v with flash := { x.v.flash with
          journal := { pending := some (leAt l 8 4, bundleVersion l, manifestHash l) } } }
        let y := activation env x.d v1
        if y.halt.isSome || y.lost then y
        else if y.v.flash.journal.done then
          { y with d := y.d.raise Ev.UPD_RECOVERED (bundleVersion l), last := 4 }
        else { y with halt := some (3, c) }
      else { x with halt := some (3, c) }

/-- The staging state after a reset (R494). [DEDUCED, unsafe, log 91] -/
def stagingAfter (f : Flash) : Staging := if stagingDone f then .activated else .empty

end Sys2Proof.Machine
end

