-- ==== Sys2Proof/Machine/Views.lean ====
section
/-! DEFINITION. What the BAR0 registers read: stored words, and the fields that show state held elsewhere. -/

namespace Sys2Proof.Machine

/-! ## Codes -/

/-- Link states (08 Table 8.5). -/
def LinkMode.code : LinkMode → Nat
  | .off => 0 | .search => 1 | .ready => 2 | .rate => 3 | .burst => 4 | .up => 5 | .ei => 6 | .down => 7 | .failed => 8 | .loop => 9

/-- Fabric states (14 Table 14.5). -/
def FabState.code : FabState → Nat
  | .off => 0 | .forming => 1 | .joined => 2 | .ready => 3 | .noQuorum => 4

/-- Well states (03 Table 3.11). -/
def WellState.code : WellState → Nat
  | .free => 0 | .closed => 1 | .loading => 2 | .sealing => 3 | .sealed => 4

/-- Engine states (04 Table 4.9). -/
def EngState.code : EngState → Nat
  | .off => 0 | .idle => 1 | .prime => 2 | .wait => 3 | .run => 4 | .halt => 5

/-- 1 for true. -/
def b2n (b : Bool) : Nat := if b then 1 else 0

/-! ## Line rates inside the window (02 R77) -/

/-- Rates r ≥ 0 with lo ≤ a + r·t ≤ hi, as the interval they form within [m, n]. -/
def rateBand (lo hi a t : Int) (x : Int × Int) : Int × Int :=
  if t = 0 then if lo ≤ a ∧ a ≤ hi then x else (1, 0)
  else if 0 < t then (max x.1 (-((a - lo).fdiv t)), min x.2 ((hi - a).fdiv t))
  else (max x.1 (-((hi - a).fdiv (-t))), min x.2 ((a - lo).fdiv (-t)))

/-- FIR_RATE_MIN and FIR_RATE_MAX: the line rates up to 120,000 Hz at which k + φ + v·t_f lies in the window for every enabled
row. [DESIGN CHOICE, safe, log 13] -/
def Dev.fireRates (d : Dev) : Int × Int :=
  (rowsOf d.active).foldl (fun x r =>
    let lo : Int := -((d.job.fetchF : Int) - 1) * 65536 * 1000000000
    let hi : Int := ((d.get (R.HPF_HP (rowPort d.active r)) : Int) - d.job.fetchF) * 65536 * 1000000000
    rateBand lo hi (profGet d.active (R.ROW_PHASE r) * 1000000000)
      (toSigned 32 (profGet d.active (R.ROW_TFLIGHT r)) * 65536) x) (0, 120000)

/-- A rate of `fireRates`; not stated where no rate fits, 0 while no row is enabled (the reset value of 02 Table 2.7). -/
def Dev.fireRate (d : Dev) (f : Fld) (top : Bool) : Nat :=
  let x := d.fireRates
  if (rowsOf d.active).isEmpty then 0
  else if x.2 < x.1 then Config.unstated f.addr d.job.fetchF else if top then x.2.toNat else x.1.toNat

/-! ## Active copies (02 R83, 06 R183, 07) -/

/-- The Shadow address of an Active copy's address. -/
def activeOf (a : Nat) : Option Nat :=
  if 0x53000 ≤ a ∧ a < 0x55000 then some (a - 0x2000)
  else if 0xB0200 ≤ a ∧ a < 0xB0280 then some (a - 0x100)
  else if 0xC0180 ≤ a ∧ a < 0xC0200 then some (a - 0x80)
  else if 0xC0800 ≤ a ∧ a < 0xC0C00 then some (a - 0x400)
  else if 0xC1800 ≤ a ∧ a < 0xC2000 then some (a - 0x800)
  else none

/-! ## Views -/

/-- A 64-bit view as its two words. -/
def view64 (f : Fld) (v : Nat) : List (Fld × Nat) := [(f, v % 2 ^ 32), (f.hi, v / 2 ^ 32 % 2 ^ 32)]

/-- DEV: device state, profile status (16 R443), sessions. -/
def Dev.viewDev (d : Dev) : List (Fld × Nat) :=
  [(R.DEV_STATE_STATE, d.dstate.code), (R.DEV_STATE_LEVEL, d.level.code),
   (R.DEV_PROF_STATUS_TPL_VALID, d.get R.CMP_STATUS_TPL_VALID), (R.DEV_PROF_STATUS_SCR_VALID, d.get R.DOS_STATUS_SCR_VALID),
   (R.DEV_PROF_STATUS_CORR_VALID, b2n (d.is R.DOS_STATUS_CORR_VALID && !d.shadowLocked)),
   (R.DEV_PROF_STATUS_REMAP_VALID, d.get R.LAS_STATUS_REMAP_VALID),
   (R.DEV_PROF_STATUS_OPEN, b2n (d.get R.DEV_PROF_OPEN != 0 || d.segOpen)),
   (R.DEV_PROF_STATUS_COMPLETE, b2n d.profileComplete), (R.DEV_PROF_STATUS_SWAP_PENDING, b2n d.job.swap.isSome),
   (R.DEV_SESS_OPEN, d.mgmt.sessions.length)]

/-- PWR: what the keeper holds (17 Tables 17.3, 17.11). -/
def viewPwr (k : Keep) (a : Nat) : List (Fld × Nat) :=
  [(R.PWR_RST_CAUSE, k.cause), (R.PWR_RST_RAIL, k.rail), (R.PWR_KEEP_STATUS_PWRFAIL, b2n k.pwrFail),
   (R.PWR_KEEP_STATUS_ON_VKEEP, b2n k.onVkeep), (R.KEEP_RET ((a - 0x10A00) / 4), k.retWord ((a - 0x10A00) / 4))]

/-- EVT: level and causes (13 R367, R370). -/
def Dev.viewEvt (d : Dev) : List (Fld × Nat) :=
  [(R.EVT_LEVEL_LEVEL, d.level.code), (R.EVT_LEVEL_ACTIVE, d.evt.lvlActive), (R.EVT_LEVEL_LATCHED, d.evt.lvlLatched),
   (R.EVT_LEVEL_RESUME_REQ, b2n d.evt.resumeReq)]

/-- POS: position, velocity, encoder counts (02 R50–R60). -/
def Dev.viewPos (d : Dev) (a : Nat) : List (Fld × Nat) :=
  let n := (a - 0x30100) / 0x40
  [(R.POS_STATUS_PRED, b2n d.predOn), (R.POS_STATUS_MOVING, b2n d.moving), (R.VEL, ofSigned 32 d.vel)] ++ view64 R.POS_LO d.repPos ++ view64 R.WEIR_LO d.pos.weir ++
    view64 (R.ENC_CNT_LO n) (ofSigned 64 (d.pos.encs.get {} n).c)

/-- ITM: items in flight and the selected record (02 R69, Table 2.2). A record that is not in flight is not stated. [DESIGN CHOICE, safe, log 13] -/
def Dev.viewItm (d : Dev) (a : Nat) : List (Fld × Nat) :=
  let i := (a - 0x40040) / 4
  [(R.ITM_STATUS_IN_FLIGHT, d.items.length), (R.ITM_REC_STAT_FOUND, b2n (d.item? (d.get R.ITM_SEL)).isSome)] ++
    (if i < 12 then [(R.ITM_REC i, match d.item? (d.get R.ITM_SEL) with
     | some x => leAt x.bytes (4 * i) 4
     | none => Config.unstated a (d.get R.ITM_SEL))] else [])

/-- FIR: status and rates (02 R35, R77, R81). -/
def Dev.viewFir (d : Dev) : List (Fld × Nat) :=
  [(R.FIR_STATUS_INHIBIT, b2n d.pos.inhibit), (R.FIR_STATUS_FIRING, b2n d.notFiring.isEmpty),
   (R.FIR_RATE_MIN, d.fireRate R.FIR_RATE_MIN false), (R.FIR_RATE_MAX, d.fireRate R.FIR_RATE_MAX true)]

/-- JOB: queue, swap, history, wells, slots (03 Table 3.11). -/
def Dev.viewJob (d : Dev) (a : Nat) : List (Fld × Nat) :=
  let w := (a - 0x80100) / 0x20
  let x := d.well w
  let q := (a - 0x80400) / 0x40
  let sw := (d.slot q).words
  let sl := fun (f : Fld) (i : Nat) => (({ f with lo := 0, w := 32 } : Fld), (sw.drop i).headD 0)
  [(R.SEQ_STATUS_HEAD, d.headSlot.getD 0), (R.SEQ_STATUS_COUNT, d.job.order.length),
   (R.SEQ_STATUS_RESUMING, b2n d.job.resume.isSome), (R.SEQ_STATUS_RESUME_READY, b2n d.job.resumeReady),
   (R.SWAP_STATUS_PENDING, b2n d.job.swap.isSome), (R.SWAP_STATUS_CONVERTED, b2n d.swapN.isSome),
   (R.SWAP_STATUS_FORM, (d.job.swap.map (·.form)).getD 0), (R.PROFILE_GEN, d.job.gen)] ++
    (if a < 0x800A4 then [(R.JOB_HIST ((a - 0x80084) / 4),
      (((d.job.hist.drop (d.get R.JOB_HIST_SEL)).headD []).drop ((a - 0x80084) / 4)).headD 0)] else []) ++
    (if 0x80400 ≤ a then [] else [(R.WELL_STATE w, x.st.code), (R.WELL_PLACE w, x.place), (R.WELL_UNREAD w, b2n x.unread), (R.WELL_JMAX w, x.jmax),
   (R.WELL_SEAL_ERR w, x.sealErr), (R.WELL_SEAL_OFS w, x.sealOfs)] ++
      view64 (R.WELL_BASE_LO w) x.base ++ view64 (R.WELL_SIZE_LO w) x.size) ++
    (if 0x80400 ≤ a then [sl (R.SLOT_STATE q) 0, sl (R.SLOT_S_LO q) 1, sl (R.SLOT_S_HI q) 2, sl (R.SLOT_RELEASED q) 3,
      sl (R.SLOT_FIRST_BAND q) 4, sl (R.SLOT_JOB_ID_LO q) 5, sl (R.SLOT_JOB_ID_HI q) 6, sl (R.SLOT_JOB_LINES q) 7] else [])

/-- EXP: engine states (04 Table 4.3). -/
def Dev.viewExp (d : Dev) (a : Nat) : List (Fld × Nat) :=
  let e := (a - 0x91000) / 0x400
  if e < 32 then [(R.ENG_STATUS_STATE e, (d.eng e).st.code)] else []

/-- CMP: fonts, records, counters (05 R153–R162). -/
def Dev.viewCmp (d : Dev) : List (Fld × Nat) :=
  let mask := fun (q : Nat → Bool) (n : Nat) => (List.range n).foldl (fun m i => if q i then orBit m i else m) 0
  [(R.CMP_GLYPH_VALID, mask (fun n => (glyphSlot d.cmp.glyph n).2.2) 32), (R.CMP_GLYPH_LOCK, mask d.fontLocked 32),
   (R.CMP_REC_QUEUED, d.cmp.recs.length), (R.CMP_REC_UNBOUND, (d.cmp.recs.filter (fun r => r.bound.isNone)).length),
   (R.CMP_REC_BYTES, d.recBytes), (R.CMP_CNT_LOADED, mask (fun n => (d.ctr n).loaded) 16)] ++
    view64 R.CMP_CNT_VAL_LO (d.ctr (d.get R.CMP_CNT_SEL)).next

/-- LAS: plan (07 R212–R216). -/
def Dev.viewLas (d : Dev) (a : Nat) : List (Fld × Nat) :=
  let c := (a - 0xC2000) / 0x10
  let x := d.las.cis.get {} c
  [(R.LAS_STATUS_PLANNED, b2n d.las.planned), (R.LAS_STATUS_RELOCATED, b2n d.las.relocated.isSome),
   (R.LAS_SUBST_CNT, d.substCount), (R.CIS_IN_USE c, b2n x.inUse), (R.CIS_LONG c, b2n x.long), (R.CIS_WIDTH c, x.width),
   (R.CIS_SRAM c, x.sram), (R.CIS_OFS c, x.ofs / 4096)]

/-- HP p: link status and credit (08 Table 8.12, 09 R263). The first port of a bonded pair reports both lanes (08 R235). -/
def Dev.viewHp (d : Dev) (p : Nat) : List (Fld × Nat) :=
  let l := d.linkOf p
  let k := d.link l
  let ls := (if l = p then d.linkLanes p else [p]).map d.lane
  [(R.HPL_STATUS_STATE p, k.st.code), (R.HPL_STATUS_LOS p, b2n (ls.any (·.los))), (R.HPL_STATUS_CDR_LOCK p, b2n (ls.all (·.cdr))),
   (R.HPL_STATUS_BLOCK_LOCK p, b2n (ls.all (·.block))), (R.HPL_STATUS_AM_LOCK p, b2n (ls.all (·.am))),
   (R.HPL_STATUS_POL_INV p, b2n (ls.any (·.inv))), (R.HPL_STATUS_REVERSED p, b2n k.reversed),
   (R.HPL_STATUS_BONDED p, b2n k.bonded), (R.HPL_STATUS_PARTNER_READY p, b2n k.partner), (R.HPL_STATUS_RATE_NOW p, k.rate),
   (R.HPL_STATUS_LIVE p, b2n (d.live p)), (R.HPF_CREDITS p, d.credit p)]

/-- FAB: state, ditch map, roster (14 R379–R388). -/
def Dev.viewFab (d : Dev) (a : Nat) : List (Fld × Nat) :=
  let i := (a - 0x140400) / 4
  let n := (a - 0x140100) / 0x40
  [(R.FAB_STATUS_STATE, d.fab.st.code)] ++ (if n < 8 then [(R.FP_STATUS_STATE n, (d.link (fabLink n)).st.code)] else []) ++
    (if 0x140400 ≤ a ∧ a < 0x140500 then
      (match d.ditch i with
       | some (p, h) => [(R.DITCH_PORT i, p), (R.DITCH_VALID i, 1), (R.DITCH_HOPS i, h)]
       | none => [])
     else []) ++ view64 (R.ROSTER_LO ((a - 0x140600) / 8)) (d.rosterAt ((a - 0x140600) / 8))

/-- DRC c: COLD marks in effect (10 R310). -/
def Dev.viewDrc (d : Dev) (c : Nat) : List (Fld × Nat) := [(R.DRC_PD_STATUS_EFFECTIVE c, d.coldEffective c)]

/-- ECC: the selected log entry (11 R316). -/
def Dev.viewEcc (d : Dev) : List (Fld × Nat) :=
  let e := (d.ecc.log.drop (d.get R.ECC_LOG_SEL)).headD { mem := 0, word := 0, kind := 0, req := 0, syn := 0, rep := 0 }
  [(R.ECC_LOG0, e.mem + 32 * e.kind + 256 * e.req + 65536 * e.syn), (R.ECC_LOG1, e.word % 2 ^ 32), (R.ECC_LOG2, e.word / 2 ^ 32),
   (R.ECC_LOG3, e.rep), (R.ECC_LOG_COUNT, d.ecc.log.length)]

/-- CRC: result and owner (12 R344, R347). -/
def Dev.viewCrc (d : Dev) (a : Nat) : List (Fld × Nat) :=
  let u := (a - 0x1A0100) / 0x40
  [(R.CRC_RESULT u, d.crcResult u), (R.CRC_STATUS_OWNER u, d.crcOwner u)]

/-- TIM: time, stamps, keeper, MAC (15 Table 15.6). -/
def Dev.viewTim (d : Dev) (k : Keep) : List (Fld × Nat) :=
  [(R.TIM_STATUS_SYNC, d.sync), (R.TIM_STATUS_OWNER_NOW, if d.fabOwns then 2 else d.get R.TIM_CTRL_OWNER),
   (R.TIM_NOW_NS, d.tim.ns), (R.TS_TX_LEVEL, d.ptp.txq.length), (R.KEEP_SUB, k.sub), (R.KEEP_STATUS_PWRFAIL, b2n k.pwrFail)] ++
    view64 R.TIM_NOW_SEC_LO d.tim.latch ++ view64 R.KEEP_SEC_LO k.sec ++ view64 R.NET_MAC_LO d.mac

/-- UPD: fuses and the running bundle (19 Table 19.8). -/
def viewUpd (v : NonVol) : List (Fld × Nat) :=
  [(R.UPD_FUSE_CNT, v.fuses), (R.UPD_ACTIVE_VER, v.flash.version), (R.UPD_ACTIVE_SVN, v.flash.svn)]

/-- The fields of the word at `a` that show state held elsewhere. -/
def Dev.views (d : Dev) (v : NonVol) (a : Nat) : List (Fld × Nat) :=
  match a / 0x10000 with
  | 0x00 => d.viewDev
  | 0x01 => viewPwr v.keep a
  | 0x02 => d.viewEvt
  | 0x03 => d.viewPos a
  | 0x04 => d.viewItm a
  | 0x05 => d.viewFir
  | 0x08 => d.viewJob a
  | 0x09 => d.viewExp a
  | 0x0A => d.viewCmp
  | 0x0B => [(R.DOS_STATUS_CORR_VALID, b2n (d.is R.DOS_STATUS_CORR_VALID && !d.shadowLocked))]
  | 0x0C => d.viewLas a
  | 0x10 => d.viewHp ((a - 0x100000) / 0x1000)
  | 0x11 => d.viewHp ((a - 0x100000) / 0x1000)
  | 0x14 => d.viewFab a
  | 0x16 => d.viewDrc 0
  | 0x17 => d.viewDrc 1
  | 0x18 => d.viewEcc
  | 0x1A => d.viewCrc a
  | 0x1B => d.viewTim v.keep
  | 0x1D => viewUpd v
  | _ => []

/-- The value of the word at `a` as fields read it: stored, or shown from the state that holds it; write-only fields read 0
(R6). -/
def Dev.word (d : Dev) (v : NonVol) (a : Nat) : Nat :=
  match activeOf a with
  | some b => (profWord d.active b).toNat
  | none =>
    let x := ((d.cal.shown.find? a).getD (d.reg a)).toNat
    let y := (rowsAt a).foldl (fun x r => if r.acc = .wo then putBits x r.lo r.w 0 else x) x
    (d.views v a).foldl (fun x e => if e.1.addr = a then putBits x e.1.lo e.1.w e.2 else x) y

/-- A field as it reads. -/
def Dev.shown (d : Dev) (v : NonVol) (f : Fld) : Nat := bitsOf (d.word v f.addr) f.lo f.w

end Sys2Proof.Machine
end

