-- ==== Sys2Proof/Machine/Regs.lean ====
section
/-! DEFINITION. What a write of a setting does (00_scope R5–R7, 16 R424, R425): ranges, access codes, the profile lock, and what else
changes with the value. -/

namespace Sys2Proof.Machine

/-! ## Ranges (16 R425) -/

/-- A field row takes values from a write now: an RWL field not in RUN (R6). -/
def Dev.takes (d : Dev) (r : FieldRow) : Bool :=
  match r.acc with
  | .rw => true
  | .wo => true
  | .rwl => d.dstate != .run
  | _ => false

/-- A value lies in the intervals of a range; no interval admits every value. -/
def inRanges (l : List (Nat × Nat)) (x : Nat) : Bool := l.isEmpty || l.any (fun p => decide (p.1 ≤ x) && decide (x ≤ p.2))

/-- Every field a write of `v` would set at `a` lies in its range: the intervals of the register tables, the geometries of 10 R283,
the horizon above the reserve (05 Table 5.17), φ below 256 lines (02 R74). [DEDUCED, unsafe, log 17; DEDUCED, unsafe, log 19] -/
def Dev.wordOk (d : Dev) (a v : Nat) : Bool :=
  (rowsAt a).all (fun r => !d.takes r || inRanges r.rng (bitsOf v r.lo r.w)) &&
    (if a = 0x160000 ∨ a = 0x170000 then d.dstate == .run || drcCfgOk v
     else if a = R.CMP_HORIZON.addr then d.dstate == .run || decide (d.get R.CMP_RES < v % 2 ^ 13)
     else if 0x51000 ≤ a ∧ a < 0x53000 ∧ a % 16 = 4 then decide (v < 2 ^ 24)
     else true)

/-- A 64-bit value lies in its range: K (02 R51), multiples of 1 MiB (07 R213). `a` is the lower word's address. -/
def pairOk (a v : Nat) : Bool :=
  if 0x30100 ≤ a ∧ a < 0x30200 ∧ a % 0x40 = 8 then decide (2 ^ 32 ≤ v) && decide (v ≤ 2 ^ 48)
  else if [0xC0014, 0xC001C, 0xC0030, 0xC0038, 0xC0040, 0xC0048].contains a then v % 2 ^ 20 == 0
  else true

/-- A refused write is counted (R425). -/
def Dev.rangeDiscard (d : Dev) : Dev := d.bump R.DEV_RANGE_DISC_CNT 1

/-! ## Storing -/

/-- WO words that hold data: record staging and update buffer. -/
def isDataWindow (a : Nat) : Bool :=
  (decide (0xA1000 ≤ a) && decide (a < 0xA1400)) || (decide (0x1D1000 ≤ a) && decide (a < 0x1D2000))

/-- The word at `a` after a write of `v` over `old` (Table 0.4). -/
def Dev.merged (d : Dev) (a old v : Nat) : Nat :=
  (rowsAt a).foldl (fun x r =>
    let n := bitsOf v r.lo r.w
    let o := bitsOf x r.lo r.w
    match r.acc with
    | .rw => putBits x r.lo r.w n
    | .rwl => if d.dstate = .run then x else putBits x r.lo r.w n
    | .w1c => putBits x r.lo r.w (o - (o &&& n))
    | .w1s => putBits x r.lo r.w (o ||| n)
    | .wo => if isDataWindow a then putBits x r.lo r.w n else x
    | _ => x) old

/-- FAB_CFG was written: EN brings the fabric state from OFF to FORMING and back (14 Table 14.5, R386); a device that stands alone is no root. [DEDUCED, safe, log 103] -/
def Dev.fabConfigured (d : Dev) (was : Bool) : Dev :=
  if d.fabOn && !was then ({ d with fab := { d.fab with st := .forming, idleAt := d.now } }).fabRefresh
  else if was && !d.fabOn then
    (({ d with fab := { d.fab with st := .off, formTmo := false } }).setB R.FAB_STATUS_ROOT false).causeOff 1
  else d.fabRefresh

/-- A setting of the position block was written: position follows a new K of the source (02 R52), and every check is looked at again
(02 R50, R55), the backward travel among them: WEIR_DEPTH may have fallen below it, or position reached the weir level (R62). -/
def Dev.posSettled (d : Dev) (a : Nat) : Dev :=
  let mine := a % 0x40 = 0xC && decide (0x30100 ≤ a) && d.srcEnc == some ((a - 0x30100) / 0x40)
  let d1 := when mine (fun d => d.setPos d.srcPos) d
  let d2 := when (d.srcEnc.isSome && d.tracking && (mine || a == R.WEIR_DEPTH.addr)) Dev.checkBack d1
  (when mine Dev.weirRise d2).encReview

/-- What else a write changes, after the word at `a` went from `old` to `new`. -/
def Dev.settled (d : Dev) (a old new : Nat) : Dev :=
  if isClassAddr a then d.setB R.LAS_STATUS_REMAP_VALID false
  else if 0xB0100 ≤ a ∧ a < 0xB0180 then d.setB R.DOS_STATUS_SCR_VALID false
  else if 0x30000 ≤ a ∧ a < 0x30200 then d.posSettled a
  else if a = R.LAS_CFG_DEPTH.addr then d.reDepth
  else if a = R.CMP_RES.addr then (if d.get R.CMP_TMAX = 0 then d else d.set R.CMP_RATE_LIM (d.renderRate (d.get R.CMP_TMAX)))
  else if a = 0x160040 ∨ a = 0x160044 ∨ a = 0x170040 ∨ a = 0x170044 then d.reSize
  else if a = 0x160000 then d.drcEnable 0 (old % 2 == 1)
  else if a = 0x170000 then d.drcEnable 1 (old % 2 == 1)
  else if a = R.FAB_TIME_LIM.addr then d.offsetCheck (d.getS R.FAB_TIME_OFS)
  else if a = R.FAB_CFG_EN.addr then d.fabConfigured (old % 2 == 1)
  else if 0x140100 ≤ a ∧ a < 0x140300 ∧ a % 0x40 = 0 then d.fabRefresh
  else if a = R.TIM_CTRL_OWNER.addr then { d with ptp := { d.ptp with within := 0 } }
  else if a = R.NET_IP.addr then (if old = new then d else d.gratuitous)
  else if 0x198000 ≤ a ∧ a < 0x1A0000 then d.freshWords 9 ((a - 0x198000) / 4) ((a - 0x198000) / 4 + 1)
  else d

/-- Stores a word and lets what depends on it follow. -/
def Dev.putWord (d : Dev) (a new : Nat) : Dev :=
  let old := (d.reg a).toNat
  (d.setReg a (BitVec.ofNat 32 new)).settled a old new

/-! ## Writes -/

/-- A word of CRC unit `u` that a host write to a held unit does not reach (12 R347): CRC_CFG to CRC_VAL. -/
def crcUnitOf (a : Nat) : Option Nat :=
  if 0x1A0100 ≤ a ∧ a < 0x1A0100 + 0x40 * 36 ∧ (a - 0x1A0100) % 0x40 ≤ 0x10 then some ((a - 0x1A0100) / 0x40) else none

/-- The port whose HPL_CTRL stands at `a` is the odd port of a bonded pair (08 R235). -/
def Dev.oddCtrl (d : Dev) (a : Nat) : Bool :=
  decide (0x100000 ≤ a) && decide (a < 0x120000) && a % 0x1000 == 0 && (a - 0x100000) / 0x1000 % 2 == 1 &&
    d.oddBonded ((a - 0x100000) / 0x1000)

/-- A write of the plain fields of the word at `a`, in its range: the lock of the Shadow profile (01 R43), held CRC units, the owner of
TIM_ADJ (15 R404), SRC (02 R55), ENC_CFG during a calibration (18 R478), the odd port of a bonded pair, the MAC address outside
IDLE (15 R419). -/
def Dev.plainWrite (d : Dev) (a v : Nat) : Dev :=
  if isProfileAddr a && d.shadowLocked then d
  else if a = R.TIM_ADJ.addr then d.writeAdj false (toSigned 32 v)
  else if a = R.POS_CTRL_SRC.addr then
    if d.dstate = .run then d
    else
      let src := bitsOf v 0 3
      let was := d.get R.POS_CTRL_SRC
      let d1 := d.setReg a (BitVec.ofNat 32 (putBits (d.merged a (d.reg a).toNat v) 0 3 was))
      if src = was then d1.encReview else d1.srcChange src
  else if d.oddCtrl a then d
  else if 0x30100 ≤ a ∧ a < 0x30200 ∧ a % 0x40 = 0 ∧ d.encCalibrating ((a - 0x30100) / 0x40) = true then
    { d with cal := { d.cal with
        shown := d.cal.shown.put a (BitVec.ofNat 32 (d.merged a ((d.cal.shown.find? a).getD (d.reg a)).toNat v)) } }
  else if (a = R.NET_MAC_LO.addr ∨ a = R.NET_MAC_HI.addr) ∧ d.dstate ≠ .idle then d
  else match crcUnitOf a with
    | some u => d.crcHost u (fun d => d.putWord a (d.merged a (d.reg a).toNat v))
    | none =>
      let new := d.merged a (d.reg a).toNat v
      if new = (d.reg a).toNat ∧ !((rowsAt a).any d.takes) then d else d.putWord a new

/-- A write of a 64-bit setting as one value (R5): `a` is the lower word's address. Position follows the whole of a new K. [DEDUCED, safe, log 18] -/
def Dev.pairWrite (d : Dev) (a v : Nat) : Dev :=
  if !pairOk a v then d.rangeDiscard
  else if 0x30100 ≤ a ∧ a < 0x30200 ∧ a % 0x40 = 8 then
    ((d.setReg a (BitVec.ofNat 32 v)).setReg (a + 4) (BitVec.ofNat 32 (v / 2 ^ 32))).posSettled (a + 4)
  else (d.plainWrite a (v % 2 ^ 32)).plainWrite (a + 4) (v / 2 ^ 32)

/-- A write of the word at `a` by R5, R6 and R425, its fields having no action of their own. -/
def Dev.settingWrite (d : Dev) (a v : Nat) : Dev :=
  if (rowsAt a).any (fun r => r.half == 1 && (d.takes r || r.acc == .w1c)) then
    { d with held := d.held.put a (BitVec.ofNat 32 v) }
  else if (rowsAt a).any (fun r => r.half == 2 && (d.takes r || r.acc == .w1c)) then
    let lo := ((d.held.find? (a - 4)).getD (if (rowsAt a).any (fun r => r.acc == .w1c) then 0 else d.reg (a - 4))).toNat
    { d with held := d.held.drop (a - 4) }.pairWrite (a - 4) (lo + 2 ^ 32 * v)
  else match crcUnitOf a with
    | some u => d.crcHost u (fun d => if d.wordOk a v then d.plainWrite a v else d.rangeDiscard)
    | none => if d.wordOk a v then d.plainWrite a v else d.rangeDiscard

/-! ## Reads -/

/-- The restart value of a ROC field (R6): the value its description names, else 0. -/
def Dev.restart (d : Dev) (a : Nat) (r : FieldRow) : Nat :=
  if a = R.ITM_PEAK.addr ∧ r.lo = R.ITM_PEAK.lo then d.items.length
  else if a = R.CMP_IMG_PEAK.addr ∧ r.lo = R.CMP_IMG_PEAK.lo then d.imageUse
  else r.rst

/-- ROC fields of the word restart. -/
def Dev.restarted (d : Dev) (a : Nat) : Dev :=
  let l := (rowsAt a).filter (fun r => r.acc == .roc)
  if l.isEmpty then d
  else d.setReg a (BitVec.ofNat 32 (l.foldl (fun x r => putBits x r.lo r.w (d.restart a r)) (d.reg a).toNat))

/-- A read of TIM_NOW_NS latches the seconds for SEC_LO and SEC_HI (15 R402), over what a read of SEC_LO latched before (00_scope R5). -/
def Dev.latchNow (d : Dev) : Dev :=
  { d with tim := { d.tim with latch := d.tim.sec }, latch := d.latch.drop R.TIM_NOW_SEC_HI.addr }

/-- A read of the word at `a`: its value, and what the read does: a lower word latches its upper one (R5), TIM_NOW_NS latches the
seconds (15 R402), TS_TX_POP takes a stamp (15 R414), a word of a DMA descriptor comes out of memory 9 (11 R315, R316, R318), ROC fields
restart (R6). -/
def Dev.readWord (d : Dev) (v : NonVol) (a : Nat) : Nat × Dev :=
  if a = R.TIM_NOW_NS.addr then (d.tim.ns, d.latchNow)
  else if a = R.TS_TX_POP.addr then
    let d1 := d.txPop
    ((d1.resp.headD 0).toNat, { d1 with resp := d.resp })
  else if (rowsAt a).any (fun r => r.half == 1) then
    (d.word v a, { d.restarted a with latch := d.latch.put (a + 4) (BitVec.ofNat 32 (d.word v (a + 4))) })
  else if (rowsAt a).any (fun r => r.half == 2) then
    match d.latch.find? a with
    | some x => (x.toNat, { d with latch := d.latch.drop a })
    | none => (d.word v a, d.restarted a)
  else if 0x198000 ≤ a ∧ a < 0x1A0000 then
    match d.sramRead 9 ((a - 0x198000) / 4) 14 with
    | (some x, d1) => (x, d1)
    | (none, d1) => (0xFFFFFFFF, d1.emit (.poisoned 0 a))
  else (d.word v a, d.restarted a)

end Sys2Proof.Machine
end

