-- ==== Sys2Proof/Machine/ObjTable.lean ====
section
/-! DEFINITION. The object dictionary (16 R423–R428): every object of the spec's object tables with its type, access, level, default
and what it is backed by; the value an object reads, and what a write of a setting does. -/

namespace Sys2Proof.Machine

/-! ## Rows -/

/-- Object types (Table 16.1), in the order of their codes in an info result. -/
inductive OTy where
  | u8 | u16 | u32 | u64 | i32 | i64 | bool | str | dom
  deriving DecidableEq, Repr

/-- Type code of an info result. -/
def OTy.code : OTy → Nat
  | .u8 => 0 | .u16 => 1 | .u32 => 2 | .u64 => 3 | .i32 => 4 | .i64 => 5 | .bool => 6 | .str => 7 | .dom => 8

/-- Size of a numeric type in bytes. -/
def OTy.size : OTy → Nat
  | .u8 => 1 | .u16 => 2 | .u32 => 4 | .u64 => 8 | .i32 => 4 | .i64 => 8 | .bool => 1 | .str => 0 | .dom => 0

/-- The type is signed. -/
def OTy.signed (t : OTy) : Bool := t == .i32 || t == .i64

/-- Object accesses, in the order of their codes in an info result. -/
inductive OAcc where
  | ro | rw | wo | const
  deriving DecidableEq, Repr

/-- Access code of an info result. -/
def OAcc.code : OAcc → Nat
  | .ro => 0 | .rw => 1 | .wo => 2 | .const => 3

/-- The DOM objects that are no commands. -/
inductive Dom where
  | credential | events | remap | correction | templates | threshold | glyph | time | latencies | retention | roster | ditch | ring
  | history | elements | response | eyes | timings | delays | eccLog | testWord | crcUnit
  deriving DecidableEq, Repr

/-- The command objects (R440). -/
inductive ObjCmd where
  | store | level | profile | setTime | step | update | block | state | domain | reset | fab | fp | job | record | inject | link | loop
  | element | head | drc | ecc | dma | adc | test
  deriving DecidableEq, Repr

/-- RW objects whose write or read does more than its register field: MDIO access, W and F, BAR0 and BAR4 access. -/
inductive Access where
  | mdio | window | fetch | bar0 | bar4
  deriving DecidableEq, Repr

/-- What an object is backed by, by instance: a register field, unsigned or signed; a 64-bit register; a whole register; a field that
holds the value less one; the Active copy of a profile field; a value that firmware holds, with its range; a value shown from other
state; a string. -/
inductive Back where
  | fld (f : Nat → Fld)
  | sfld (f : Nat → Fld)
  | pair (f : Nat → Fld)
  | word (f : Nat → Fld)
  | plus1 (f : Nat → Fld)
  | active (f : Nat → Fld)
  | activePlus1 (f : Nat → Fld)
  | fw (lo hi : Int)
  | view (f : Dev → NonVol → Nat → Nat)
  | str (s : String)
  | access (a : Access)
  | dom (k : Dom)
  | cmd (k : ObjCmd)

/-- A row of an object table: index of the first instance, instances, stride, subindex; `exp` is level E; the default is `none` where it
is derived ("computed", "from fuses", "from manifest"). -/
structure ObjRow where
  idx : Nat
  n : Nat
  stride : Nat
  sub : Nat
  ty : OTy
  acc : OAcc
  exp : Bool
  dflt : Option Nat
  name : String
  back : Back

/-! ## Values shown from other state -/

/-- 0x1000.03 (00_scope R16). -/
def objStepping (_ : Dev) (_ : NonVol) (_ : Nat) : Nat := Config.stepping.toNat
/-- 0x1000.04 (00_scope R17). -/
def objDevice (_ : Dev) (_ : NonVol) (_ : Nat) : Nat := Config.deviceId.toNat
/-- 0x1010.04 (R432). -/
def objCred (d : Dev) (_ : NonVol) (_ : Nat) : Nat := b2n d.mgmt.cred.isSome
/-- 0x1010.05. -/
def objFailed (d : Dev) (_ : NonVol) (_ : Nat) : Nat := d.mgmt.failed
/-- 0x1210.07. -/
def objParent (d : Dev) (_ : NonVol) (_ : Nat) : Nat := d.ptp.parent.getD 0
/-- 0x1210.08. -/
def objOffset (d : Dev) (_ : NonVol) (_ : Nat) : Nat := ofSigned 64 d.ptp.offset
/-- 0x1210.09 (15 R412). -/
def objUtc (d : Dev) (_ : NonVol) (_ : Nat) : Nat := ofSigned 32 d.ptp.utc
/-- 0x1220.06: as NET_STATUS. -/
def objLink (d : Dev) (_ : NonVol) (_ : Nat) : Nat := d.get R.NET_STATUS_LINK + 2 * d.get R.NET_STATUS_SPEED
/-- 0x3410.03 (01 R31). -/
def objRate (d : Dev) (_ : NonVol) (_ : Nat) : Nat := d.job.rate
/-- 0x3220.06 (05 R156). -/
def objCtrNext (d : Dev) (_ : NonVol) (i : Nat) : Nat := (d.ctr i).next
/-- 0x3220.07 (05 R158). -/
def objCtrLoaded (d : Dev) (_ : NonVol) (i : Nat) : Nat := b2n (d.ctr i).loaded
/-- 0x4001.07: the flags byte of the last STATUS (09 Table 9.8) as the port's registers hold it. -/
def objHeadFlags (d : Dev) (_ : NonVol) (p : Nat) : Nat :=
  b2n (d.get (R.HPF_STATUS_FSTATE p) == 3) + 2 * d.get (R.HPF_STATUS_TEMP_WARN p) + 4 * d.get (R.HPF_STATUS_TEMP_LIMIT p) +
    8 * d.get (R.HPF_STATUS_FAULT p) + 16 * d.get (R.HPF_STATUS_ELEM_RUN p)
/-- 0x5000.01. -/
def objChannels (d : Dev) (_ : NonVol) (_ : Nat) : Nat := b2n (d.chIn 0) + b2n (d.chIn 1)
/-- 0x5000.02, MB/s (10 R289). -/
def objBandwidth (d : Dev) (_ : NonVol) (_ : Nat) : Nat := d.bandwidth / 1000000

/-! ## The tables -/

/-- Objects 0x1000–0x1020. -/
def objsGeneral : List ObjRow := [
  ⟨0x1000, 1, 0x1, 0x01, .str, .const, false, some 0, "vendor name", .str "Skovmon"⟩,
  ⟨0x1000, 1, 0x1, 0x02, .str, .const, false, some 0, "part number", .str "DX-2618"⟩,
  ⟨0x1000, 1, 0x1, 0x03, .u8, .const, false, none, "stepping", .view objStepping⟩,
  ⟨0x1000, 1, 0x1, 0x04, .u64, .ro, false, none, "device ID", .view objDevice⟩,
  ⟨0x1000, 1, 0x1, 0x05, .u32, .ro, false, none, "firmware bundle version", .fld (fun _ => R.UPD_ACTIVE_VER)⟩,
  ⟨0x1010, 1, 0x1, 0x01, .u8, .ro, false, some 0, "sessions open", .fld (fun _ => R.DEV_SESS_OPEN)⟩,
  ⟨0x1010, 1, 0x1, 0x02, .u32, .rw, false, some 0x2710, "session idle timeout", .fw (1000) 600000⟩,
  ⟨0x1010, 1, 0x1, 0x03, .dom, .wo, true, some 0, "Expert credential", .dom .credential⟩,
  ⟨0x1010, 1, 0x1, 0x04, .bool, .ro, false, some 0, "credential set", .view objCred⟩,
  ⟨0x1010, 1, 0x1, 0x05, .u32, .ro, false, some 0, "failed elevations", .view objFailed⟩,
  ⟨0x1020, 1, 0x1, 0x01, .u8, .wo, false, some 0, "store command", .cmd .store⟩,
  ⟨0x1020, 1, 0x1, 0x02, .u32, .ro, false, some 0, "store result", .word (fun _ => R.DEV_STORE_RESULT_CODE)⟩,
  ⟨0x1020, 1, 0x1, 0x03, .u8, .ro, false, some 0, "slot in use", .fld (fun _ => R.DEV_STORE_STATUS_SLOT)⟩,
  ⟨0x1020, 1, 0x1, 0x04, .u32, .ro, false, some 0, "save sequence", .fld (fun _ => R.DEV_STORE_SEQ)⟩,
  ⟨0x1020, 1, 0x1, 0x05, .u8, .rw, false, some 31, "tables stored", .fld (fun _ => R.DEV_STORE_CFG_TABLES)⟩,
  ⟨0x1020, 1, 0x1, 0x06, .u32, .ro, false, some 0, "store bytes used", .fld (fun _ => R.DEV_STORE_USED)⟩,
  ⟨0x1020, 1, 0x1, 0x07, .u32, .ro, false, some 0, "slot size", .fld (fun _ => R.DEV_STORE_SLOT)⟩,
  ⟨0x1020, 1, 0x1, 0x08, .u32, .ro, false, some 0, "schema version", .fld (fun _ => R.DEV_STORE_SCHEMA)⟩]

/-- Objects 0x1100–0x1121. -/
def objsStatus : List ObjRow := [
  ⟨0x1100, 1, 0x1, 0x01, .u8, .ro, false, some 0, "degradation level", .fld (fun _ => R.EVT_LEVEL_LEVEL)⟩,
  ⟨0x1100, 1, 0x1, 0x02, .u8, .ro, false, some 0, "active causes", .fld (fun _ => R.EVT_LEVEL_ACTIVE)⟩,
  ⟨0x1100, 1, 0x1, 0x03, .bool, .ro, false, some 0, "resume required", .fld (fun _ => R.EVT_LEVEL_RESUME_REQ)⟩,
  ⟨0x1100, 1, 0x1, 0x04, .u8, .wo, false, some 0, "level command", .cmd .level⟩,
  ⟨0x1100, 1, 0x1, 0x05, .u8, .ro, false, some 0, "level command result", .fld (fun _ => R.EVT_LEVEL_RESULT_CODE)⟩,
  ⟨0x1101, 1, 0x1, 0x01, .dom, .ro, false, some 0, "event log", .dom .events⟩,
  ⟨0x1101, 1, 0x1, 0x02, .u32, .ro, false, some 0, "events written", .fld (fun _ => R.EVT_HEAD)⟩,
  ⟨0x1101, 1, 0x1, 0x03, .u32, .ro, false, some 0, "events lost", .fld (fun _ => R.EVT_LOST)⟩,
  ⟨0x1101, 1, 0x1, 0x10, .u8, .rw, true, some 2, "interrupt class", .fld (fun _ => R.EVT_IRQ_CLASS)⟩,
  ⟨0x1120, 1, 0x1, 0x01, .u32, .ro, false, some 4, "profile validity", .word (fun _ => R.DEV_PROF_STATUS_TPL_VALID)⟩,
  ⟨0x1120, 1, 0x1, 0x02, .u8, .rw, false, some 0, "tables open", .fld (fun _ => R.DEV_PROF_OPEN)⟩,
  ⟨0x1120, 1, 0x1, 0x03, .u8, .wo, false, some 0, "profile command", .cmd .profile⟩,
  ⟨0x1120, 1, 0x1, 0x04, .u8, .ro, false, some 0, "profile command result", .fld (fun _ => R.DEV_PROF_RESULT)⟩,
  ⟨0x1121, 1, 0x1, 0x01, .dom, .rw, false, some 0, "remap table, Shadow", .dom .remap⟩,
  ⟨0x1121, 1, 0x1, 0x02, .dom, .rw, false, some 0, "correction table, Shadow", .dom .correction⟩,
  ⟨0x1121, 1, 0x1, 0x03, .dom, .rw, false, some 0, "template store, Shadow", .dom .templates⟩,
  ⟨0x1121, 1, 0x1, 0x04, .dom, .rw, false, some 0, "threshold store", .dom .threshold⟩,
  ⟨0x1121, 1, 0x1, 0x05, .dom, .rw, false, some 0, "glyph store", .dom .glyph⟩]

/-- Objects 0x1200–0x1220. -/
def objsTime : List ObjRow := [
  ⟨0x1200, 1, 0x1, 0x01, .dom, .ro, false, some 0, "device time", .dom .time⟩,
  ⟨0x1200, 1, 0x1, 0x02, .bool, .ro, false, some 0, "time valid", .fld (fun _ => R.TIM_STATUS_VALID)⟩,
  ⟨0x1200, 1, 0x1, 0x03, .u8, .ro, false, some 0, "servo state", .fld (fun _ => R.TIM_STATUS_SYNC)⟩,
  ⟨0x1200, 1, 0x1, 0x04, .dom, .wo, false, some 0, "set time", .cmd .setTime⟩,
  ⟨0x1200, 1, 0x1, 0x05, .u8, .rw, false, some 0, "servo owner", .fld (fun _ => R.TIM_CTRL_OWNER)⟩,
  ⟨0x1200, 1, 0x1, 0x10, .u32, .rw, true, some 0x2710, "step limit", .fld (fun _ => R.TIM_STEP_LIM)⟩,
  ⟨0x1200, 1, 0x1, 0x11, .u32, .rw, true, some 0x3E8, "step threshold", .fld (fun _ => R.TIM_STEP_THR)⟩,
  ⟨0x1200, 1, 0x1, 0x12, .u32, .rw, true, some 100, "lock threshold", .fld (fun _ => R.TIM_LOCK_THR)⟩,
  ⟨0x1200, 1, 0x1, 0x13, .i32, .rw, true, some 0, "frequency adjustment", .sfld (fun _ => R.TIM_ADJ)⟩,
  ⟨0x1200, 1, 0x1, 0x14, .i64, .wo, true, some 0, "step offset", .cmd .step⟩,
  ⟨0x1210, 1, 0x1, 0x01, .bool, .rw, false, some 0, "PTP enable", .fld (fun _ => R.TIM_CTRL_PTP_EN)⟩,
  ⟨0x1210, 1, 0x1, 0x02, .u8, .rw, false, some 0, "domain number", .fw (0) 127⟩,
  ⟨0x1210, 1, 0x1, 0x03, .u8, .rw, false, some 0, "transport", .fw (0) 1⟩,
  ⟨0x1210, 1, 0x1, 0x04, .u8, .rw, false, some 0, "delay mechanism", .fw (0) 1⟩,
  ⟨0x1210, 1, 0x1, 0x05, .bool, .rw, false, some 0, "one-step transmit", .fw (0) 1⟩,
  ⟨0x1210, 1, 0x1, 0x06, .bool, .rw, false, some 1, "slave only", .fw (0) 1⟩,
  ⟨0x1210, 1, 0x1, 0x07, .u64, .ro, false, some 0, "parent clock identity", .view objParent⟩,
  ⟨0x1210, 1, 0x1, 0x08, .i64, .ro, false, some 0, "offset from master", .view objOffset⟩,
  ⟨0x1210, 1, 0x1, 0x09, .i32, .ro, false, some 0, "current UTC offset", .view objUtc⟩,
  ⟨0x1210, 1, 0x1, 0x10, .u8, .rw, true, some 128, "priority1", .fw (0) 255⟩,
  ⟨0x1210, 1, 0x1, 0x11, .u8, .rw, true, some 128, "priority2", .fw (0) 255⟩,
  ⟨0x1210, 1, 0x1, 0x12, .i32, .rw, true, some 0, "log sync interval", .fw (-7) 1⟩,
  ⟨0x1210, 1, 0x1, 0x13, .i32, .rw, true, some 1, "log announce interval", .fw (-3) 4⟩,
  ⟨0x1210, 1, 0x1, 0x14, .i32, .rw, true, some 0, "log min delay request interval", .fw (-7) 5⟩,
  ⟨0x1210, 1, 0x1, 0x15, .u8, .rw, true, some 3, "announce receipt timeout", .fw (2) 255⟩,
  ⟨0x1210, 1, 0x1, 0x16, .dom, .rw, true, some 0, "PHY latencies", .dom .latencies⟩,
  ⟨0x1220, 1, 0x1, 0x01, .u64, .rw, false, none, "MAC address", .pair (fun _ => R.NET_MAC_LO)⟩,
  ⟨0x1220, 1, 0x1, 0x02, .u32, .rw, false, some 0, "IPv4 address", .fld (fun _ => R.NET_IP)⟩,
  ⟨0x1220, 1, 0x1, 0x03, .u32, .rw, false, some 0, "IPv4 mask", .fld (fun _ => R.NET_MASK)⟩,
  ⟨0x1220, 1, 0x1, 0x04, .u32, .rw, false, some 0, "IPv4 gateway", .fld (fun _ => R.NET_GW)⟩,
  ⟨0x1220, 1, 0x1, 0x05, .u16, .rw, false, some 0x15F4, "IOP port", .fld (fun _ => R.NET_IOP_PORT)⟩,
  ⟨0x1220, 1, 0x1, 0x06, .u8, .ro, false, some 0, "link state", .view objLink⟩,
  ⟨0x1220, 1, 0x1, 0x10, .bool, .rw, true, some 1, "RGMII transmit delay", .fld (fun _ => R.NET_CTRL_TXDLY)⟩,
  ⟨0x1220, 1, 0x1, 0x11, .u8, .rw, true, some 0, "forced speed", .fld (fun _ => R.NET_CTRL_FORCE)⟩,
  ⟨0x1220, 1, 0x1, 0x12, .u32, .rw, true, some 0, "MDIO access", .access .mdio⟩]

/-- Objects 0x1300–0x1400. -/
def objsPower : List ObjRow := [
  ⟨0x1300, 1, 0x1, 0x01, .u8, .ro, false, some 0, "staging state", .fld (fun _ => R.UPD_STATUS_STATE)⟩,
  ⟨0x1300, 1, 0x1, 0x02, .u32, .ro, false, some 0, "staged bundle version", .fld (fun _ => R.UPD_STAGED_VER)⟩,
  ⟨0x1300, 1, 0x1, 0x03, .u32, .ro, false, some 0, "next offset", .fld (fun _ => R.UPD_NEXT)⟩,
  ⟨0x1300, 1, 0x1, 0x04, .u8, .ro, false, none, "anti-rollback count", .fld (fun _ => R.UPD_FUSE_CNT)⟩,
  ⟨0x1300, 1, 0x1, 0x05, .u8, .ro, false, some 0, "last activation", .fld (fun _ => R.UPD_LAST_ACT)⟩,
  ⟨0x1300, 1, 0x1, 0x06, .u32, .ro, false, some 0, "flash size", .fld (fun _ => R.UPD_FLASH_SIZE)⟩,
  ⟨0x1301, 1, 0x1, 0x01, .dom, .wo, true, some 0, "update command", .cmd .update⟩,
  ⟨0x1301, 1, 0x1, 0x02, .dom, .wo, true, some 0, "update block", .cmd .block⟩,
  ⟨0x1301, 1, 0x1, 0x03, .u32, .ro, true, some 0, "update result", .word (fun _ => R.UPD_RESULT_CODE)⟩,
  ⟨0x1301, 1, 0x1, 0x04, .u16, .ro, true, some 0, "verify error", .word (fun _ => R.UPD_VERIFY_ERR_CHECK)⟩,
  ⟨0x1400, 1, 0x1, 0x01, .u8, .ro, false, some 1, "device state", .fld (fun _ => R.DEV_STATE_STATE)⟩,
  ⟨0x1400, 1, 0x1, 0x02, .u8, .wo, false, some 0, "state command", .cmd .state⟩,
  ⟨0x1400, 1, 0x1, 0x03, .u32, .ro, false, some 0, "state command result", .word (fun _ => R.DEV_STATE_RESULT_CODE)⟩,
  ⟨0x1400, 1, 0x1, 0x04, .u16, .ro, false, some 0x3FF, "domains on", .fld (fun _ => R.PWR_DOM_STATUS_ON)⟩,
  ⟨0x1400, 1, 0x1, 0x05, .u16, .wo, false, some 0, "domain command", .cmd .domain⟩,
  ⟨0x1400, 1, 0x1, 0x06, .u32, .ro, false, some 0, "domain command result", .word (fun _ => R.PWR_DOM_RESULT_CODE)⟩,
  ⟨0x1400, 1, 0x1, 0x07, .u16, .rw, false, some 0x3FF, "boot domains", .fld (fun _ => R.PWR_DOM_BOOT)⟩,
  ⟨0x1400, 1, 0x1, 0x08, .u8, .ro, false, some 0, "reset cause", .fld (fun _ => R.PWR_RST_CAUSE)⟩,
  ⟨0x1400, 1, 0x1, 0x09, .u32, .ro, false, some 0, "boot time", .fld (fun _ => R.DEV_BOOT_MS)⟩,
  ⟨0x1400, 1, 0x1, 0x0A, .dom, .ro, false, some 0, "keeper retention", .dom .retention⟩,
  ⟨0x1400, 1, 0x1, 0x10, .u32, .wo, true, some 0, "reset command", .cmd .reset⟩,
  ⟨0x1400, 1, 0x1, 0x11, .u16, .rw, true, some 0x7D0, "watchdog timeout", .fld (fun _ => R.PWR_WDT)⟩,
  ⟨0x1400, 1, 0x1, 0x12, .u8, .ro, true, some 127, "supply status", .fld (fun _ => R.PWR_SUPPLY_STATUS)⟩]

/-- Objects 0x1500–0x1510. -/
def objsFabric : List ObjRow := [
  ⟨0x1500, 1, 0x1, 0x01, .bool, .rw, false, some 0, "fabric enable", .fld (fun _ => R.FAB_CFG_EN)⟩,
  ⟨0x1500, 1, 0x1, 0x02, .bool, .rw, false, some 0, "anchor configured", .fld (fun _ => R.FAB_CFG_ANCHOR)⟩,
  ⟨0x1500, 1, 0x1, 0x03, .u8, .rw, false, some 1, "configured device count", .fld (fun _ => R.FAB_CFG_COUNT)⟩,
  ⟨0x1500, 1, 0x1, 0x04, .u8, .ro, false, some 0, "fabric state", .fld (fun _ => R.FAB_STATUS_STATE)⟩,
  ⟨0x1500, 1, 0x1, 0x05, .u8, .ro, false, some 63, "own address", .fld (fun _ => R.FAB_STATUS_ADDR)⟩,
  ⟨0x1500, 1, 0x1, 0x06, .bool, .ro, false, some 0, "quorum held", .fld (fun _ => R.FAB_STATUS_QUORUM)⟩,
  ⟨0x1500, 1, 0x1, 0x07, .dom, .ro, false, some 0, "roster", .dom .roster⟩,
  ⟨0x1500, 1, 0x1, 0x08, .u32, .wo, false, some 0, "fabric command", .cmd .fab⟩,
  ⟨0x1500, 1, 0x1, 0x09, .u32, .ro, false, some 0, "command result", .word (fun _ => R.FAB_RESULT_CODE)⟩,
  ⟨0x1500, 1, 0x1, 0x10, .u16, .rw, true, some 0x3E8, "formation timeout", .fld (fun _ => R.FAB_FORM_TMO)⟩,
  ⟨0x1500, 1, 0x1, 0x11, .u16, .rw, true, some 0x3E8, "position period", .fld (fun _ => R.FAB_POS_PER)⟩,
  ⟨0x1500, 1, 0x1, 0x12, .u16, .rw, true, some 20, "position timeout", .fld (fun _ => R.FAB_POS_TMO)⟩,
  ⟨0x1500, 1, 0x1, 0x13, .u16, .rw, true, some 100, "time offset limit", .fld (fun _ => R.FAB_TIME_LIM)⟩,
  ⟨0x1500, 1, 0x1, 0x14, .u16, .rw, true, some 64, "swap guard", .fld (fun _ => R.FAB_SWAP_GUARD)⟩,
  ⟨0x1500, 1, 0x1, 0x15, .i32, .ro, true, some 0, "time offset", .sfld (fun _ => R.FAB_TIME_OFS)⟩,
  ⟨0x1500, 1, 0x1, 0x16, .dom, .ro, true, some 0, "ditch map", .dom .ditch⟩,
  ⟨0x1510, 8, 0x1, 0x01, .bool, .rw, false, some 0, "port enable", .fld R.FP_CTRL_EN⟩,
  ⟨0x1510, 8, 0x1, 0x02, .u8, .ro, false, some 0, "port state", .fld R.FP_STATUS_STATE⟩,
  ⟨0x1510, 8, 0x1, 0x03, .u64, .ro, false, some 0, "neighbour ID", .pair R.FP_NBR_ID_LO⟩,
  ⟨0x1510, 8, 0x1, 0x04, .u8, .wo, false, some 0, "port command", .cmd .fp⟩,
  ⟨0x1510, 8, 0x1, 0x10, .u32, .ro, true, some 0, "link delay", .fld R.FP_DELAY⟩,
  ⟨0x1510, 8, 0x1, 0x11, .i32, .rw, true, some 0, "delay asymmetry", .sfld R.FP_ASYM⟩,
  ⟨0x1510, 8, 0x1, 0x12, .u16, .rw, true, some 100, "loss-of-signal time", .fld R.FP_LOS_T⟩]

/-- Objects 0x2000–0x2130. -/
def objsPosition : List ObjRow := [
  ⟨0x2000, 1, 0x1, 0x01, .u8, .rw, false, some 0, "position source", .fld (fun _ => R.POS_CTRL_SRC)⟩,
  ⟨0x2000, 1, 0x1, 0x02, .u64, .ro, false, some 0, "print position", .pair (fun _ => R.POS_LO)⟩,
  ⟨0x2000, 1, 0x1, 0x03, .u64, .ro, false, some 0, "weir level", .pair (fun _ => R.WEIR_LO)⟩,
  ⟨0x2000, 1, 0x1, 0x04, .i32, .ro, false, some 0, "velocity", .sfld (fun _ => R.VEL)⟩,
  ⟨0x2000, 1, 0x1, 0x05, .bool, .ro, false, some 0, "position valid", .fld (fun _ => R.POS_STATUS_VALID)⟩,
  ⟨0x2000, 1, 0x1, 0x06, .u16, .rw, true, some 4, "weir depth", .fld (fun _ => R.WEIR_DEPTH)⟩,
  ⟨0x2000, 1, 0x1, 0x07, .u8, .rw, true, some 14, "velocity window exponent", .fld (fun _ => R.VEL_WIN)⟩,
  ⟨0x2000, 1, 0x1, 0x08, .u8, .rw, true, some 1, "check encoder", .fld (fun _ => R.POS_CTRL_CHK_SRC)⟩,
  ⟨0x2000, 1, 0x1, 0x09, .bool, .rw, true, some 0, "check enable", .fld (fun _ => R.POS_CTRL_CHK_EN)⟩,
  ⟨0x2000, 1, 0x1, 0x0A, .u16, .rw, true, some 256, "check limit", .fld (fun _ => R.CHK_LIMIT)⟩,
  ⟨0x2010, 4, 0x1, 0x01, .u8, .rw, false, some 0, "encoder mode", .fld R.ENC_CFG_MODE⟩,
  ⟨0x2010, 4, 0x1, 0x02, .u8, .rw, false, some 0, "decode", .fld R.ENC_CFG_DECODE⟩,
  ⟨0x2010, 4, 0x1, 0x03, .bool, .rw, false, some 0, "direction invert", .fld R.ENC_CFG_DIR⟩,
  ⟨0x2010, 4, 0x1, 0x04, .u64, .rw, false, some 0x100000000, "counts per line", .pair R.ENC_CPL_LO⟩,
  ⟨0x2010, 4, 0x1, 0x05, .u8, .rw, false, some 0, "Z check", .fld R.ENC_CFG_ZCHK⟩,
  ⟨0x2010, 4, 0x1, 0x06, .u32, .rw, false, some 0, "counts per Z period", .fld R.ENC_CPR⟩,
  ⟨0x2010, 4, 0x1, 0x07, .u16, .rw, false, some 0, "Z tolerance", .fld R.ENC_ZTOL⟩,
  ⟨0x2100, 1, 0x1, 0x01, .u16, .ro, false, some 0, "items in flight", .fld (fun _ => R.ITM_STATUS_IN_FLIGHT)⟩,
  ⟨0x2100, 1, 0x1, 0x02, .u32, .rw, false, some 0, "next item number", .fld (fun _ => R.ITM_NEXT)⟩,
  ⟨0x2101, 1, 0x1, 0x01, .dom, .ro, false, some 0, "verdict ring", .dom .ring⟩,
  ⟨0x2101, 1, 0x1, 0x02, .u32, .ro, false, some 0, "verdicts written", .fld (fun _ => R.VRD_RING_HEAD)⟩,
  ⟨0x2101, 1, 0x1, 0x03, .u32, .ro, false, some 0, "verdicts lost", .fld (fun _ => R.VRD_RING_LOST)⟩,
  ⟨0x2101, 1, 0x1, 0x10, .u16, .rw, true, some 256, "remote verdict timeout", .fld (fun _ => R.VRD_REMOTE_TMO)⟩,
  ⟨0x2110, 8, 0x1, 0x01, .bool, .rw, false, some 0, "trigger enable", .fld R.TRG_CFG_EN⟩,
  ⟨0x2110, 8, 0x1, 0x02, .u8, .rw, false, some 0, "active edge", .fld R.TRG_CFG_EDGE⟩,
  ⟨0x2110, 8, 0x1, 0x03, .u64, .rw, false, some 0, "item offset", .pair R.TRG_OFS_LO⟩,
  ⟨0x2110, 8, 0x1, 0x04, .u32, .rw, false, some 0x100000, "hold-off", .fld R.TRG_HOLD⟩,
  ⟨0x2110, 8, 0x1, 0x05, .u32, .rw, true, some 0x1388, "trigger filter", .fld R.TRG_FILT⟩,
  ⟨0x2120, 4, 0x1, 0x01, .bool, .rw, false, some 0, "output enable", .fld R.VRD_CFG_EN⟩,
  ⟨0x2120, 4, 0x1, 0x02, .u8, .rw, false, some 14, "verdict mask", .fld R.VRD_CFG_VMASK⟩,
  ⟨0x2120, 4, 0x1, 0x03, .u16, .rw, false, some 255, "inputs", .fld R.VRD_CFG_INPUTS⟩,
  ⟨0x2120, 4, 0x1, 0x04, .u64, .rw, false, some 0, "gate offset", .pair R.VRD_GATE_LO⟩,
  ⟨0x2120, 4, 0x1, 0x05, .u32, .rw, false, some 0x2710, "pulse width", .fld R.VRD_WIDTH⟩,
  ⟨0x2120, 4, 0x1, 0x10, .u8, .rw, true, some 0, "polarity", .fld R.VRD_CFG_POL⟩,
  ⟨0x2120, 4, 0x1, 0x11, .u32, .ro, true, some 0xFFFFFFFF, "smallest margin", .fld R.VRD_MARGIN_MIN⟩,
  ⟨0x2130, 16, 0x1, 0x01, .u32, .rw, false, some 0xFFFFFFFF, "port mask", .fld R.VRD_IN_PORTS⟩]

/-- Objects 0x2200–0x2440. -/
def objsFire : List ObjRow := [
  ⟨0x2200, 1, 0x1, 0x01, .u32, .ro, false, some 0, "rate range low", .fld (fun _ => R.FIR_RATE_MIN)⟩,
  ⟨0x2200, 1, 0x1, 0x02, .u32, .ro, false, some 0, "rate range high", .fld (fun _ => R.FIR_RATE_MAX)⟩,
  ⟨0x2200, 1, 0x1, 0x03, .u32, .rw, true, some 0x3E8, "minimum moving rate", .fld (fun _ => R.FIR_VMIN)⟩,
  ⟨0x2200, 1, 0x1, 0x04, .u16, .rw, true, some 0x1000, "late limit", .fld (fun _ => R.FIR_LATE_LIM)⟩,
  ⟨0x2200, 1, 0x1, 0x05, .u16, .rw, true, some 40, "inhibit filter", .fld (fun _ => R.FIR_INH_FILT)⟩,
  ⟨0x2240, 512, 0x1, 0x01, .bool, .rw, false, some 0, "row enable", .fld R.ROW_EN⟩,
  ⟨0x2240, 512, 0x1, 0x02, .u8, .rw, false, some 0, "row port", .fld R.ROW_PORT⟩,
  ⟨0x2240, 512, 0x1, 0x03, .u8, .rw, false, some 0, "head row", .fld R.ROW_HEAD_ROW⟩,
  ⟨0x2240, 512, 0x1, 0x04, .u32, .rw, false, some 0, "row phase", .fld R.ROW_PHASE⟩,
  ⟨0x2240, 512, 0x1, 0x05, .i32, .rw, false, some 0, "drop flight time", .sfld R.ROW_TFLIGHT⟩,
  ⟨0x2440, 512, 0x1, 0x01, .bool, .ro, false, some 0, "row enable", .active R.ROW_EN⟩,
  ⟨0x2440, 512, 0x1, 0x02, .u8, .ro, false, some 0, "row port", .active R.ROW_PORT⟩,
  ⟨0x2440, 512, 0x1, 0x03, .u8, .ro, false, some 0, "head row", .active R.ROW_HEAD_ROW⟩,
  ⟨0x2440, 512, 0x1, 0x04, .u32, .ro, false, some 0, "row phase", .active R.ROW_PHASE⟩,
  ⟨0x2440, 512, 0x1, 0x05, .i32, .ro, false, some 0, "drop flight time", .active R.ROW_TFLIGHT⟩]

/-- Objects 0x3000–0x3020. -/
def objsJobs : List ObjRow := [
  ⟨0x3000, 1, 0x1, 0x01, .u8, .ro, false, some 0, "slots in use", .fld (fun _ => R.SEQ_STATUS_COUNT)⟩,
  ⟨0x3000, 1, 0x1, 0x02, .u8, .ro, false, some 0, "head slot", .fld (fun _ => R.SEQ_STATUS_HEAD)⟩,
  ⟨0x3000, 1, 0x1, 0x03, .u32, .ro, false, some 0, "profile generation", .fld (fun _ => R.PROFILE_GEN)⟩,
  ⟨0x3000, 1, 0x1, 0x04, .u64, .ro, false, some 0, "swap line", .pair (fun _ => R.SWAP_LINE_LO)⟩,
  ⟨0x3000, 1, 0x1, 0x05, .dom, .ro, false, some 0, "job history", .dom .history⟩,
  ⟨0x3000, 1, 0x1, 0x10, .u32, .ro, true, some 0, "intake discards", .fld (fun _ => R.INTAKE_DISC_CNT)⟩,
  ⟨0x3000, 1, 0x1, 0x11, .u8, .rw, true, some 0, "window well", .fld (fun _ => R.INTAKE_WIN_WELL)⟩,
  ⟨0x3000, 1, 0x1, 0x12, .u16, .rw, true, some 0, "window offset", .fld (fun _ => R.INTAKE_WIN_OFS)⟩,
  ⟨0x3001, 1, 0x1, 0x01, .dom, .wo, false, some 0, "command", .cmd .job⟩,
  ⟨0x3001, 1, 0x1, 0x02, .u32, .ro, false, some 0, "command result", .word (fun _ => R.JOB_RESULT_CODE)⟩,
  ⟨0x3010, 16, 0x1, 0x01, .u8, .ro, false, some 0, "well state", .fld R.WELL_STATE⟩,
  ⟨0x3010, 16, 0x1, 0x02, .u64, .ro, false, some 0, "well base", .pair R.WELL_BASE_LO⟩,
  ⟨0x3010, 16, 0x1, 0x03, .u64, .ro, false, some 0, "well size", .pair R.WELL_SIZE_LO⟩,
  ⟨0x3010, 16, 0x1, 0x04, .u32, .ro, false, some 0, "well J", .fld R.WELL_JMAX⟩,
  ⟨0x3020, 16, 0x1, 0x01, .u8, .ro, false, some 0, "slot state", .fld R.SLOT_STATE⟩,
  ⟨0x3020, 16, 0x1, 0x02, .u8, .ro, false, some 0, "outcome", .fld R.SLOT_OUTCOME⟩,
  ⟨0x3020, 16, 0x1, 0x03, .u64, .ro, false, some 0, "start line", .pair R.SLOT_S_LO⟩,
  ⟨0x3020, 16, 0x1, 0x04, .u32, .ro, false, some 0, "lines released", .fld R.SLOT_RELEASED⟩,
  ⟨0x3020, 16, 0x1, 0x05, .u64, .ro, false, some 0, "job ID", .pair R.SLOT_JOB_ID_LO⟩]

/-- Objects 0x3100–0x3130. -/
def objsExpand : List ObjRow := [
  ⟨0x3100, 1, 0x1, 0x01, .u32, .ro, false, some 0, "engines in error", .fld (fun _ => R.EXP_ERR)⟩,
  ⟨0x3100, 1, 0x1, 0x02, .u32, .ro, false, some 0, "unproven band-slices", .fld (fun _ => R.EXP_UNPROVEN_CNT)⟩,
  ⟨0x3100, 1, 0x1, 0x10, .u32, .ro, true, some 0, "CRC failures", .fld (fun _ => R.EXP_CRC_CNT)⟩,
  ⟨0x3100, 1, 0x1, 0x11, .u32, .ro, true, some 0, "decode errors", .fld (fun _ => R.EXP_ERR_CNT)⟩,
  ⟨0x3110, 32, 0x1, 0x01, .u8, .ro, false, some 0, "engine state", .fld R.ENG_STATUS_STATE⟩,
  ⟨0x3110, 32, 0x1, 0x02, .u16, .ro, false, some 0, "history per segment", .fld R.ENG_HIST⟩,
  ⟨0x3110, 32, 0x1, 0x03, .u8, .ro, false, some 0, "last error code", .fld R.ENG_STATUS_LAST_ERR⟩,
  ⟨0x3110, 32, 0x1, 0x04, .u32, .ro, true, some 0xFFFFFFFF, "smallest margin", .fld R.ENG_MARGIN_MIN⟩,
  ⟨0x3110, 32, 0x1, 0x05, .u64, .ro, true, some 0, "expanded bytes", .pair R.ENG_BYTES_LO⟩,
  ⟨0x3130, 2, 0x1, 0x01, .u8, .rw, false, some 1, "effort", .fld R.CMPR_CFG_EFFORT⟩,
  ⟨0x3130, 2, 0x1, 0x02, .u8, .ro, false, some 0, "last result", .fld R.CMPR_STATUS_RESULT⟩,
  ⟨0x3130, 2, 0x1, 0x03, .u32, .ro, false, some 0, "last output length", .fld R.CMPR_OUT_LEN⟩,
  ⟨0x3130, 2, 0x1, 0x04, .u8, .rw, true, some 7, "distance limit exponent", .fld R.CMPR_CFG_DIST_LIM⟩,
  ⟨0x3130, 2, 0x1, 0x05, .u32, .ro, true, some 0, "verify failures", .fld R.CMPR_VERIFY_CNT⟩]

/-- Objects 0x3200–0x3220. -/
def objsCompose : List ObjRow := [
  ⟨0x3200, 1, 0x1, 0x01, .bool, .ro, false, some 0, "templates valid", .fld (fun _ => R.CMP_STATUS_TPL_VALID)⟩,
  ⟨0x3200, 1, 0x1, 0x02, .u16, .ro, false, some 0, "records held", .fld (fun _ => R.CMP_REC_QUEUED)⟩,
  ⟨0x3200, 1, 0x1, 0x03, .u16, .ro, false, some 0, "records unbound", .fld (fun _ => R.CMP_REC_UNBOUND)⟩,
  ⟨0x3200, 1, 0x1, 0x04, .u32, .ro, false, some 0, "render rate limit", .fld (fun _ => R.CMP_RATE_LIM)⟩,
  ⟨0x3200, 1, 0x1, 0x05, .u32, .ro, false, some 0, "worst render time", .fld (fun _ => R.CMP_TMAX)⟩,
  ⟨0x3200, 1, 0x1, 0x10, .u16, .rw, true, some 8, "render reserve", .fld (fun _ => R.CMP_RES)⟩,
  ⟨0x3200, 1, 0x1, 0x11, .u16, .rw, true, some 256, "render horizon", .fld (fun _ => R.CMP_HORIZON)⟩,
  ⟨0x3200, 1, 0x1, 0x12, .u8, .rw, true, some 0, "mismatch action", .fld (fun _ => R.CMP_MISMATCH_ACT)⟩,
  ⟨0x3200, 1, 0x1, 0x13, .u32, .ro, true, some 0, "image store peak", .fld (fun _ => R.CMP_IMG_PEAK)⟩,
  ⟨0x3201, 1, 0x1, 0x01, .dom, .wo, false, some 0, "record push", .cmd .record⟩,
  ⟨0x3201, 1, 0x1, 0x02, .u32, .ro, false, some 0, "push result", .word (fun _ => R.CMP_REC_RESULT_CODE)⟩,
  ⟨0x3210, 8, 0x1, 0x01, .u8, .rw, false, some 0, "template index", .fld R.IN_TEMPLATE⟩,
  ⟨0x3210, 8, 0x1, 0x02, .bool, .rw, false, some 0, "takes records", .fld R.IN_DATA⟩,
  ⟨0x3220, 16, 0x1, 0x01, .u64, .rw, false, some 0, "counter start", .pair R.CNT_START_LO⟩,
  ⟨0x3220, 16, 0x1, 0x02, .u64, .rw, false, some 0xFFFFFFFFFFFFFFFF, "counter limit", .pair R.CNT_LIMIT_LO⟩,
  ⟨0x3220, 16, 0x1, 0x03, .u16, .rw, false, some 1, "counter step", .fld R.CNT_STEP⟩,
  ⟨0x3220, 16, 0x1, 0x04, .bool, .rw, false, some 0, "stop at limit", .fld R.CNT_MODE_STOP⟩,
  ⟨0x3220, 16, 0x1, 0x05, .bool, .rw, false, some 0, "load on swap", .fld R.CNT_MODE_LOAD_ON_SWAP⟩,
  ⟨0x3220, 16, 0x1, 0x06, .u64, .ro, false, some 0, "next value", .view objCtrNext⟩,
  ⟨0x3220, 16, 0x1, 0x07, .bool, .ro, false, some 0, "counter loaded", .view objCtrLoaded⟩]

/-- Objects 0x3300–0x3320. -/
def objsDose : List ObjRow := [
  ⟨0x3300, 1, 0x1, 0x01, .bool, .ro, false, some 0, "screens valid", .fld (fun _ => R.DOS_STATUS_SCR_VALID)⟩,
  ⟨0x3300, 1, 0x1, 0x02, .bool, .ro, false, some 1, "correction writable", .fld (fun _ => R.DOS_STATUS_CORR_VALID)⟩,
  ⟨0x3300, 1, 0x1, 0x03, .u32, .ro, false, some 0, "beat mismatches", .fld (fun _ => R.DOS_MISMATCH_CNT)⟩,
  ⟨0x3300, 1, 0x1, 0x04, .u32, .ro, false, some 0, "memory errors", .fld (fun _ => R.DOS_MEM_CNT)⟩,
  ⟨0x3300, 1, 0x1, 0x05, .u32, .ro, false, some 0, "plane conflicts", .fld (fun _ => R.DOS_PLANE_CNT)⟩,
  ⟨0x3300, 1, 0x1, 0x10, .u64, .ro, true, some 0, "retention end", .pair (fun _ => R.DOS_RETIRE_LO)⟩,
  ⟨0x3300, 1, 0x1, 0x11, .u32, .ro, true, some 0, "discarded table writes", .fld (fun _ => R.DOS_DISC_CNT)⟩,
  ⟨0x3300, 1, 0x1, 0x12, .bool, .wo, true, some 0, "inject mismatch", .cmd .inject⟩,
  ⟨0x3310, 8, 0x1, 0x01, .bool, .rw, false, some 0, "correction enable", .fld R.CORR_EN⟩,
  ⟨0x3310, 8, 0x1, 0x02, .u16, .rw, false, some 0, "screen base cell", .fld R.SCR_BASE⟩,
  ⟨0x3310, 8, 0x1, 0x03, .u16, .rw, false, some 1, "screen width", .plus1 R.SCR_WM1⟩,
  ⟨0x3310, 8, 0x1, 0x04, .u16, .rw, false, some 1, "screen height", .plus1 R.SCR_HM1⟩,
  ⟨0x3310, 8, 0x1, 0x05, .u8, .rw, true, some 0, "screen column phase", .fld R.SCR_XOFS⟩,
  ⟨0x3310, 8, 0x1, 0x06, .u8, .rw, true, some 0, "screen line phase", .fld R.SCR_YOFS⟩,
  ⟨0x3320, 8, 0x1, 0x01, .bool, .ro, false, some 0, "correction enable", .active R.CORR_EN⟩,
  ⟨0x3320, 8, 0x1, 0x02, .u16, .ro, false, some 0, "screen base cell", .active R.SCR_BASE⟩,
  ⟨0x3320, 8, 0x1, 0x03, .u16, .ro, false, some 1, "screen width", .activePlus1 R.SCR_WM1⟩,
  ⟨0x3320, 8, 0x1, 0x04, .u16, .ro, false, some 1, "screen height", .activePlus1 R.SCR_HM1⟩,
  ⟨0x3320, 8, 0x1, 0x05, .u8, .ro, true, some 0, "screen column phase", .active R.SCR_XOFS⟩,
  ⟨0x3320, 8, 0x1, 0x06, .u8, .ro, true, some 0, "screen line phase", .active R.SCR_YOFS⟩]

/-- Objects 0x3400–0x3600. -/
def objsLines : List ObjRow := [
  ⟨0x3400, 1, 0x1, 0x01, .u8, .rw, false, some 4, "storage depth", .fld (fun _ => R.LAS_CFG_DEPTH)⟩,
  ⟨0x3400, 1, 0x1, 0x02, .bool, .ro, false, some 0, "remap valid", .fld (fun _ => R.LAS_STATUS_REMAP_VALID)⟩,
  ⟨0x3400, 1, 0x1, 0x03, .bool, .rw, false, some 0, "hold request enable", .fld (fun _ => R.LAS_HOLD_EN)⟩,
  ⟨0x3400, 1, 0x1, 0x04, .u32, .ro, false, some 0, "dry port lines", .fld (fun _ => R.LAS_DRY_CNT)⟩,
  ⟨0x3400, 1, 0x1, 0x05, .u64, .rw, false, some 0, "region base", .pair (fun _ => R.LAS_REG_BASE_LO)⟩,
  ⟨0x3400, 1, 0x1, 0x06, .u64, .rw, false, some 0, "region size", .pair (fun _ => R.LAS_REG_SIZE_LO)⟩,
  ⟨0x3400, 1, 0x1, 0x07, .u8, .rw, false, some 0, "region placement", .fld (fun _ => R.LAS_REG_PLACE)⟩,
  ⟨0x3400, 1, 0x1, 0x08, .u64, .ro, false, some 0, "region needed", .pair (fun _ => R.LAS_NEED_LO)⟩,
  ⟨0x3400, 1, 0x1, 0x09, .u32, .ro, false, some 0x1D4C0, "cistern rate limit", .fld (fun _ => R.LAS_SIZE_RATE)⟩,
  ⟨0x3400, 1, 0x1, 0x10, .u8, .rw, true, some 4, "headrace records", .fld (fun _ => R.LAS_CFG_HR)⟩,
  ⟨0x3400, 1, 0x1, 0x11, .u8, .rw, true, some 4, "tailrace records", .fld (fun _ => R.LAS_CFG_TR)⟩,
  ⟨0x3400, 1, 0x1, 0x12, .u8, .rw, true, some 15, "hold causes", .fld (fun _ => R.LAS_HOLD_CAUSE)⟩,
  ⟨0x3400, 1, 0x1, 0x13, .u32, .ro, true, some 0, "admission waits", .fld (fun _ => R.LAS_ADMIT_WAIT)⟩,
  ⟨0x3400, 1, 0x1, 0x14, .u32, .ro, true, some 0, "sluice-shut steps", .fld (fun _ => R.LAS_SHUT_CNT)⟩,
  ⟨0x3401, 1, 0x1, 0x01, .u64, .rw, true, some 0, "fallback 0 base", .pair (fun _ => R.LAS_FB_BASE_LO 0)⟩,
  ⟨0x3401, 1, 0x1, 0x02, .u64, .rw, true, some 0, "fallback 0 size", .pair (fun _ => R.LAS_FB_SIZE_LO 0)⟩,
  ⟨0x3401, 1, 0x1, 0x03, .u64, .rw, true, some 0, "fallback 1 base", .pair (fun _ => R.LAS_FB_BASE_LO 1)⟩,
  ⟨0x3401, 1, 0x1, 0x04, .u64, .rw, true, some 0, "fallback 1 size", .pair (fun _ => R.LAS_FB_SIZE_LO 1)⟩,
  ⟨0x3410, 1, 0x1, 0x01, .u16, .rw, true, some 6, "work window W", .access .window⟩,
  ⟨0x3410, 1, 0x1, 0x02, .u16, .rw, true, some 2, "fetch lead F", .access .fetch⟩,
  ⟨0x3410, 1, 0x1, 0x03, .u32, .ro, false, none, "sustainable line rate", .view objRate⟩,
  ⟨0x3420, 32, 0x1, 0x01, .u8, .rw, false, some 0, "head rows exponent", .fld R.PORT_LAYOUT_ROWS⟩,
  ⟨0x3420, 32, 0x1, 0x02, .u8, .rw, false, some 0, "row order", .fld R.PORT_LAYOUT_ORDER⟩,
  ⟨0x3500, 256, 0x1, 0x01, .u16, .rw, false, some 0, "class delay", .fld R.LAS_CLASS_DELAY⟩,
  ⟨0x3500, 256, 0x1, 0x02, .u16, .ro, false, some 0, "active class delay", .active R.LAS_CLASS_DELAY⟩,
  ⟨0x3500, 256, 0x1, 0x03, .bool, .ro, false, some 0, "long cistern", .fld R.CIS_LONG⟩,
  ⟨0x3500, 256, 0x1, 0x04, .u32, .ro, false, some 0, "record width", .fld R.CIS_WIDTH⟩,
  ⟨0x3600, 512, 0x1, 0x01, .u8, .rw, false, some 0, "row class", .fld R.LAS_ROW_CLASS⟩,
  ⟨0x3600, 512, 0x1, 0x02, .u8, .ro, false, some 0, "active row class", .active R.LAS_ROW_CLASS⟩]

/-- Objects 0x4000–0x4000. -/
def objsLinks : List ObjRow := [
  ⟨0x4000, 32, 0x40, 0x01, .bool, .rw, false, some 0, "link enable", .fld R.HPL_CTRL_EN⟩,
  ⟨0x4000, 32, 0x40, 0x02, .u8, .rw, false, some 3, "lane rate", .fld R.HPL_CTRL_RATE⟩,
  ⟨0x4000, 32, 0x40, 0x03, .bool, .rw, false, some 0, "bonded", .fld R.HPL_CTRL_BOND⟩,
  ⟨0x4000, 32, 0x40, 0x04, .u8, .ro, false, some 0, "link state", .fld R.HPL_STATUS_STATE⟩,
  ⟨0x4000, 32, 0x40, 0x05, .u8, .ro, false, some 0, "last cause", .fld R.HPL_CAUSE⟩,
  ⟨0x4000, 32, 0x40, 0x06, .bool, .ro, false, some 0, "polarity inverted", .fld R.HPL_STATUS_POL_INV⟩,
  ⟨0x4000, 32, 0x40, 0x07, .bool, .ro, false, some 0, "lanes reversed", .fld R.HPL_STATUS_REVERSED⟩,
  ⟨0x4000, 32, 0x40, 0x08, .u8, .wo, false, some 0, "link command", .cmd .link⟩,
  ⟨0x4000, 32, 0x40, 0x10, .u16, .rw, true, some 0x2710, "training timeout", .fld R.HPL_TRAIN_TMO⟩,
  ⟨0x4000, 32, 0x40, 0x11, .u16, .rw, true, some 100, "loss-of-signal time", .fld R.HPL_LOS_T⟩,
  ⟨0x4000, 32, 0x40, 0x12, .u8, .rw, true, some 0, "loopback mode", .fld R.HPL_LOOP_CFG_MODE⟩,
  ⟨0x4000, 32, 0x40, 0x13, .u32, .rw, true, some 0, "loopback time", .fld R.HPL_LOOP_TIME⟩,
  ⟨0x4000, 32, 0x40, 0x14, .u8, .wo, true, some 0, "loopback command", .cmd .loop⟩,
  ⟨0x4000, 32, 0x40, 0x15, .u32, .ro, true, some 0, "code errors", .fld R.HPL_CODE_ERR_CNT⟩,
  ⟨0x4000, 32, 0x40, 0x16, .u32, .ro, true, some 0, "pattern bit errors", .fld R.HPL_PRBS_ERR⟩,
  ⟨0x4000, 32, 0x40, 0x17, .u64, .ro, true, some 0, "pattern bits checked", .pair R.HPL_PRBS_BITS_LO⟩]

/-- Objects 0x4001–0x4001. -/
def objsHeads : List ObjRow := [
  ⟨0x4001, 32, 0x40, 0x01, .u8, .ro, false, some 0, "frame state", .fld R.HPF_STATUS_FSTATE⟩,
  ⟨0x4001, 32, 0x40, 0x02, .u8, .ro, false, some 0, "line buffers", .fld R.HPF_HP⟩,
  ⟨0x4001, 32, 0x40, 0x03, .u16, .ro, false, some 0, "trigger delay", .fld R.HPF_DP⟩,
  ⟨0x4001, 32, 0x40, 0x04, .u32, .ro, false, some 0, "sluice rate limit", .fld R.HPF_SLUICE_RATE⟩,
  ⟨0x4001, 32, 0x40, 0x05, .u16, .rw, false, some 64, "echo timeout", .fld R.HPF_ECHO_TMO⟩,
  ⟨0x4001, 32, 0x40, 0x06, .i32, .ro, false, some 0, "head temperature", .sfld R.HPF_TEMP⟩,
  ⟨0x4001, 32, 0x40, 0x07, .u8, .ro, false, some 0, "head flags", .view objHeadFlags⟩,
  ⟨0x4001, 32, 0x40, 0x08, .u64, .ro, false, some 0, "head ID", .pair R.HPF_HEAD_ID_LO⟩,
  ⟨0x4001, 32, 0x40, 0x09, .u16, .rw, false, some 0x1000, "element check gap", .fld R.HPF_ELEM_GAP⟩,
  ⟨0x4001, 32, 0x40, 0x0A, .u8, .wo, false, some 0, "element check request", .cmd .element⟩,
  ⟨0x4001, 32, 0x40, 0x0B, .dom, .ro, false, some 0, "element check result", .dom .elements⟩,
  ⟨0x4001, 32, 0x40, 0x10, .bool, .rw, true, some 0, "trigger delay override enable", .fld R.HPF_DP_OVR_EN⟩,
  ⟨0x4001, 32, 0x40, 0x11, .u16, .rw, true, some 0, "trigger delay override", .fld R.HPF_DP_OVR_VALUE⟩,
  ⟨0x4001, 32, 0x40, 0x12, .u16, .rw, true, some 0x7D0, "status timeout", .fld R.HPF_STATUS_TMO⟩,
  ⟨0x4001, 32, 0x40, 0x13, .u32, .rw, true, some 0x2710, "command timeout", .fld R.HPF_CMD_TMO⟩,
  ⟨0x4001, 32, 0x40, 0x14, .dom, .wo, true, some 0, "head command", .cmd .head⟩,
  ⟨0x4001, 32, 0x40, 0x15, .dom, .ro, true, some 0, "head response", .dom .response⟩,
  ⟨0x4001, 32, 0x40, 0x16, .u32, .ro, true, some 0, "ping time", .fld R.HPF_TPING⟩,
  ⟨0x4001, 32, 0x40, 0x17, .u32, .ro, true, some 0, "credit round trip", .fld R.HPF_TRT⟩]

/-- Objects 0x5000–0x5040. -/
def objsDram : List ObjRow := [
  ⟨0x5000, 1, 0x1, 0x01, .u8, .ro, false, some 0, "channels in service", .view objChannels⟩,
  ⟨0x5000, 1, 0x1, 0x02, .u32, .ro, false, some 0, "usable bandwidth", .view objBandwidth⟩,
  ⟨0x5010, 2, 0x1, 0x01, .u8, .ro, false, some 0, "channel state", .fld R.DRC_STATUS_STATE⟩,
  ⟨0x5010, 2, 0x1, 0x02, .u16, .ro, false, some 0, "transfer rate", .fld R.DRC_MTS⟩,
  ⟨0x5010, 2, 0x1, 0x03, .u8, .ro, false, some 0, "point in use", .fld R.DRC_STATUS_POINT⟩,
  ⟨0x5010, 2, 0x1, 0x04, .u8, .rw, false, some 0, "COLD ranks", .fld R.DRC_RANK_COLD⟩,
  ⟨0x5010, 2, 0x1, 0x05, .u32, .wo, false, some 0, "channel command", .cmd .drc⟩,
  ⟨0x5010, 2, 0x1, 0x06, .u32, .ro, false, some 0, "command result", .word R.DRC_RESULT_CODE⟩,
  ⟨0x5010, 2, 0x1, 0x10, .u8, .rw, true, some 16, "minimum eye width", .fld R.DRC_EYE_MIN⟩,
  ⟨0x5010, 2, 0x1, 0x11, .u8, .rw, true, some 8, "RFM exponent", .fld R.DRC_RFM_K⟩,
  ⟨0x5010, 2, 0x1, 0x12, .bool, .rw, true, some 1, "RFM enable", .fld R.DRC_RFM_EN⟩,
  ⟨0x5010, 2, 0x1, 0x13, .u8, .rw, true, some 2, "host stop urgency", .fld R.DRC_HOST_STOP⟩,
  ⟨0x5010, 2, 0x1, 0x14, .u16, .rw, true, some 64, "page idle time", .fld R.DRC_PAGE_IDLE⟩,
  ⟨0x5010, 2, 0x1, 0x15, .u32, .rw, true, some 0x2710, "power-down timer", .fld R.DRC_PD_TIMER⟩,
  ⟨0x5010, 2, 0x1, 0x16, .dom, .ro, true, some 0, "eye results", .dom .eyes⟩,
  ⟨0x5010, 2, 0x1, 0x17, .u32, .ro, true, some 0, "forced refreshes", .fld R.DRC_REF_FORCED⟩,
  ⟨0x5020, 2, 0x1, 0x01, .u32, .rw, true, some 0x1F40, "cistern write target", .fld (fun c => R.DRC_TGT c 0)⟩,
  ⟨0x5020, 2, 0x1, 0x02, .u32, .rw, true, some 0xFA0, "cistern read target", .fld (fun c => R.DRC_TGT c 1)⟩,
  ⟨0x5020, 2, 0x1, 0x03, .u32, .rw, true, some 0x4B0, "job read target", .fld (fun c => R.DRC_TGT c 2)⟩,
  ⟨0x5020, 2, 0x1, 0x04, .u32, .rw, true, some 0x4E20, "host write target", .fld (fun c => R.DRC_TGT c 3)⟩,
  ⟨0x5020, 2, 0x1, 0x05, .u32, .rw, true, some 0x4E20, "DMA target", .fld (fun c => R.DRC_TGT c 4)⟩,
  ⟨0x5020, 2, 0x1, 0x06, .u32, .rw, true, some 0x4E20, "compressor target", .fld (fun c => R.DRC_TGT c 5)⟩,
  ⟨0x5020, 2, 0x1, 0x07, .u32, .rw, true, some 0xC350, "management target", .fld (fun c => R.DRC_TGT c 6)⟩,
  ⟨0x5020, 2, 0x1, 0x08, .u32, .rw, true, some 0xF4240, "scrub target", .fld (fun c => R.DRC_TGT c 7)⟩,
  ⟨0x5040, 8, 0x1, 0x01, .bool, .rw, true, some 0, "point stored", .fld (fun i => R.PT_VALID (i / 4) (i % 4))⟩,
  ⟨0x5040, 8, 0x1, 0x02, .u16, .rw, true, some 0, "point rate", .fld (fun i => R.PT_MTS (i / 4) (i % 4))⟩,
  ⟨0x5040, 8, 0x1, 0x03, .dom, .rw, true, some 0, "point timings", .dom .timings⟩,
  ⟨0x5040, 8, 0x1, 0x04, .dom, .rw, true, some 0, "point delays", .dom .delays⟩]

/-- Objects 0x5100–0x5110. -/
def objsIntegrity : List ObjRow := [
  ⟨0x5100, 1, 0x1, 0x01, .dom, .wo, false, some 0, "ECC command", .cmd .ecc⟩,
  ⟨0x5100, 1, 0x1, 0x02, .u32, .ro, false, some 0, "command result", .word (fun _ => R.ECC_RESULT_CODE)⟩,
  ⟨0x5100, 1, 0x1, 0x03, .dom, .ro, false, some 0, "error address log", .dom .eccLog⟩,
  ⟨0x5100, 1, 0x1, 0x10, .u32, .rw, true, some 100, "scrub gap", .fld (fun _ => R.ECC_SCRUB_GAP)⟩,
  ⟨0x5100, 1, 0x1, 0x11, .bool, .rw, true, some 0, "test mode", .fld (fun _ => R.ECC_TEST_EN)⟩,
  ⟨0x5100, 1, 0x1, 0x12, .dom, .rw, true, some 0, "test word", .dom .testWord⟩,
  ⟨0x5110, 32, 0x1, 0x01, .u32, .ro, false, some 0, "corrected reads", .fld R.ECC_CE_CNT⟩,
  ⟨0x5110, 32, 0x1, 0x02, .u32, .ro, false, some 0, "uncorrectable reads", .fld R.ECC_UE_CNT⟩,
  ⟨0x5110, 32, 0x1, 0x03, .u32, .ro, false, some 0, "partial writes fixed", .fld R.ECC_PW_FIX_CNT⟩,
  ⟨0x5110, 32, 0x1, 0x04, .u32, .ro, false, some 0, "writes refused", .fld R.ECC_WR_REF_CNT⟩,
  ⟨0x5110, 32, 0x1, 0x10, .u64, .ro, true, some 0, "last corrected word", .pair R.ECC_LAST_CE_LO⟩,
  ⟨0x5110, 32, 0x1, 0x11, .u32, .ro, true, some 0, "words poisoned", .fld R.ECC_POISON_CNT⟩]

/-- Objects 0x5200–0x5310. -/
def objsDma : List ObjRow := [
  ⟨0x5200, 1, 0x1, 0x01, .u64, .ro, false, some 0, "channels active", .pair (fun _ => R.DMA_ACTIVE_LO)⟩,
  ⟨0x5200, 1, 0x1, 0x02, .u64, .ro, false, some 0, "channels in error", .pair (fun _ => R.DMA_ERR_LO)⟩,
  ⟨0x5200, 1, 0x1, 0x10, .u32, .ro, true, some 0, "late withdrawals", .fld (fun _ => R.DMA_LATE_CNT)⟩,
  ⟨0x5200, 1, 0x1, 0x11, .u32, .ro, true, some 0, "longest drain", .fld (fun _ => R.DMA_DRAIN_MAX)⟩,
  ⟨0x5210, 64, 0x1, 0x01, .u8, .ro, false, some 0, "channel state", .fld R.DMA_CH_STATUS_STATE⟩,
  ⟨0x5210, 64, 0x1, 0x02, .u8, .ro, false, some 0, "end code", .fld R.DMA_CH_STATUS_END⟩,
  ⟨0x5210, 64, 0x1, 0x03, .u32, .ro, false, some 0, "bytes remaining", .fld R.DMA_REMAIN⟩,
  ⟨0x5210, 64, 0x1, 0x10, .u8, .rw, true, some 0, "priority", .fld R.DMA_CH_CFG_PRIO⟩,
  ⟨0x5210, 64, 0x1, 0x11, .u8, .rw, true, some 0, "interrupt vector", .fld R.DMA_CH_CFG_VEC⟩,
  ⟨0x5210, 64, 0x1, 0x12, .u32, .wo, true, some 0, "channel command", .cmd .dma⟩,
  ⟨0x5310, 36, 0x1, 0x01, .u8, .ro, false, some 0, "unit owner", .fld R.CRC_STATUS_OWNER⟩,
  ⟨0x5310, 36, 0x1, 0x02, .u32, .ro, false, some 0, "unit result", .fld R.CRC_RESULT⟩,
  ⟨0x5310, 36, 0x1, 0x10, .dom, .rw, true, some 0, "unit configuration", .dom .crcUnit⟩]

/-- Objects 0x5400–0x5410. -/
def objsCalib : List ObjRow := [
  ⟨0x5400, 1, 0x1, 0x01, .u16, .wo, false, some 0, "ADC calibration request", .cmd .adc⟩,
  ⟨0x5400, 1, 0x1, 0x02, .u32, .ro, false, some 0, "calibration result", .word (fun _ => R.CAL_RESULT_CODE)⟩,
  ⟨0x5400, 1, 0x1, 0x03, .u8, .ro, false, some 15, "spare in place of", .fld (fun _ => R.CAL_SPARE_FOR)⟩,
  ⟨0x5400, 1, 0x1, 0x04, .i32, .ro, false, some 0, "die temperature", .sfld (fun _ => R.CAL_TEMP)⟩,
  ⟨0x5400, 1, 0x1, 0x05, .dom, .wo, false, some 0, "test request", .cmd .test⟩,
  ⟨0x5400, 1, 0x1, 0x06, .u32, .ro, false, some 0, "test result", .word (fun _ => R.BIST_RESULT_CODE)⟩,
  ⟨0x5400, 1, 0x1, 0x07, .u8, .ro, false, some 0, "known-answer failures", .word (fun _ => R.BIST_KAT)⟩,
  ⟨0x5400, 1, 0x1, 0x08, .bool, .ro, false, some 0, "band-gap drift", .fld (fun _ => R.CAL_BG_DRIFT)⟩,
  ⟨0x5400, 1, 0x1, 0x10, .u8, .rw, true, some 20, "recalibration temperature step", .fld (fun _ => R.CAL_TEMP_DELTA)⟩,
  ⟨0x5400, 1, 0x1, 0x11, .u8, .rw, true, some 8, "handover tolerance", .fld (fun _ => R.CAL_HO_TOL)⟩,
  ⟨0x5400, 1, 0x1, 0x12, .u32, .rw, true, some 0x100008, "residual limits", .word (fun _ => R.CAL_RES_LIM_OFS)⟩,
  ⟨0x5410, 9, 0x1, 0x01, .i32, .ro, false, some 0, "temperature at calibration", .sfld R.ADC_CAL_TEMP⟩,
  ⟨0x5410, 9, 0x1, 0x10, .i32, .rw, true, some 0, "offset trim", .sfld R.ADC_TRIM_OFS⟩,
  ⟨0x5410, 9, 0x1, 0x11, .i32, .rw, true, some 0, "gain trim", .sfld R.ADC_TRIM_GAIN⟩]

/-- Objects 0x6000–0x6000. -/
def objsDiag : List ObjRow := [
  ⟨0x6000, 1, 0x1, 0x01, .u32, .rw, true, some 0, "BAR0 address", .fw (0) 4294967295⟩,
  ⟨0x6000, 1, 0x1, 0x02, .u32, .rw, true, some 0, "BAR0 value", .access .bar0⟩,
  ⟨0x6000, 1, 0x1, 0x03, .u32, .rw, true, some 0, "BAR4 address", .fw (0) 4294967295⟩,
  ⟨0x6000, 1, 0x1, 0x04, .u32, .rw, true, some 0, "BAR4 value", .access .bar4⟩]

/-- Every object of the dictionary with its first instance, in order of index and subindex. [DEDUCED, unsafe, log 97] -/
def objTable : List ObjRow :=
  objsGeneral ++ objsStatus ++ objsTime ++ objsPower ++ objsFabric ++ objsPosition ++ objsFire ++ objsJobs ++ objsExpand ++ objsCompose ++ objsDose ++ objsLines ++ objsLinks ++ objsHeads ++ objsDram ++ objsIntegrity ++ objsDma ++ objsCalib ++ objsDiag

/-! ## Finding an object (R11, R12, R428) -/

/-- The instance of a row that index `idx` names. -/
def ObjRow.instOf (r : ObjRow) (idx : Nat) : Option Nat :=
  if idx < r.idx then none
  else if (idx - r.idx) % r.stride = 0 ∧ (idx - r.idx) / r.stride < r.n then some ((idx - r.idx) / r.stride)
  else none

/-- ECC memories that exist (11 Table 11.1). -/
def eccMemExists (m : Nat) : Bool := decide (m ≤ 10) || m == 16 || m == 17

/-- The rows of the object at an index, and its instance. -/
def objRowsAt (idx : Nat) : List (ObjRow × Nat) :=
  objTable.filterMap (fun r => (r.instOf idx).map (fun i => (r, i))) |>.filter (fun e => e.1.idx != 0x5110 || eccMemExists e.2)

/-- Subindex 0 of an object: its highest subindex (00_scope R11); of 0x3410 it is Expert (01 Table 1.2). [DEDUCED, unsafe, log 97] -/
def subRow (idx : Nat) (l : List (ObjRow × Nat)) : ObjRow :=
  let top := l.foldl (fun m e => max m e.1.sub) 0
  ⟨idx, 1, 1, 0, .u8, .const, l.all (fun e => e.1.exp) || idx == 0x3410, some top, "highest subindex", .view (fun _ _ _ => top)⟩

/-- What an index and subindex name. -/
inductive ObjFind where
  | noObject
  | noSub
  | found (r : ObjRow) (i : Nat)

/-- Finds an object. -/
def findObj (idx sub : Nat) : ObjFind :=
  let l := objRowsAt idx
  if l.isEmpty then .noObject
  else if sub = 0 then .found (subRow idx l) 0
  else match l.find? (fun e => e.1.sub == sub) with
    | some e => .found e.1 e.2
    | none => .noSub

/-! ## Power domains (R428, 17 R459) -/

/-- The power domains an address of BAR0 needs (Table 16.11, 17 Table 17.2). -/
def addrDomains (a : Nat) : List Nat :=
  match a / 0x10000 with
  | 0x09 => if a < 0x99000 then [6] else [6, 7]
  | 0x10 => [1]
  | 0x11 => [2]
  | 0x14 => [3]
  | 0x16 => [4]
  | 0x17 => [5]
  | _ => []

/-- Every domain an address needs is on. -/
def Dev.addrOn (d : Dev) (a : Nat) : Bool := (addrDomains a).all d.domOn

/-- The BAR0 address of the block behind a command object. -/
def ObjCmd.base (k : ObjCmd) (i : Nat) : Nat :=
  match k with
  | .fab => 0x140004
  | .fp => 0x140104 + 0x40 * i
  | .link => 0x100004 + 0x1000 * i
  | .loop => 0x100004 + 0x1000 * i
  | .element => 0x100140 + 0x1000 * i
  | .head => 0x100140 + 0x1000 * i
  | .drc => 0x160004 + 0x10000 * i
  | _ => 0

/-- The BAR0 address of the block behind a DOM. [DEDUCED, unsafe, log 97] -/
def Dom.block (k : Dom) (i : Nat) : Nat :=
  match k with
  | .roster => 0x140600
  | .ditch => 0x140400
  | .elements => 0x100800 + 0x1000 * i
  | .response => 0x100800 + 0x1000 * i
  | .eyes => 0x160100 + 0x10000 * i
  | .timings => 0x160208 + 0x10000 * (i / 4)
  | .delays => 0x160240 + 0x10000 * (i / 4)
  | _ => 0

/-- The BAR0 address of the block behind an object; 0 for what lies in PD_CORE only. -/
def Back.block (b : Back) (i : Nat) : Nat :=
  match b with
  | .fld f => (f i).addr
  | .sfld f => (f i).addr
  | .pair f => (f i).addr
  | .word f => (f i).addr
  | .plus1 f => (f i).addr
  | .dom k => k.block i
  | .cmd k => k.base i
  | _ => 0

/-- The BAR0 address of the block behind a row's instance: the objects of a head port lie in its head domain whatever they show. -/
def ObjRow.block (r : ObjRow) (i : Nat) : Nat :=
  if 0x4000 ≤ r.idx ∧ r.idx < 0x4800 then 0x100000 + 0x1000 * i else r.back.block i

/-- The blocks behind an object are powered (R428, 17 R459); subindex 0 answers while any other subindex of its object does. [DEDUCED, unsafe, log 97] -/
def Dev.objOn (d : Dev) (r : ObjRow) (i : Nat) : Bool :=
  if r.sub = 0 then (objRowsAt r.idx).any (fun e => d.addrOn (e.1.block e.2)) else d.addrOn (r.block i)

/-! ## DOM contents -/

/-- The five tables: subindex of 0x1121, offset in BAR4, bytes (Table 16.12). -/
def Dom.table (k : Dom) : Option (Nat × Nat × Nat) :=
  match k with
  | .remap => some (1, 0, 524288)
  | .correction => some (2, 0x100000, 524288)
  | .templates => some (3, 0x500000, 131072)
  | .threshold => some (4, 0x200000, 1048576)
  | .glyph => some (5, 0x300000, 2097152)
  | _ => none

/-- Register words that make up a DOM: first address and words. -/
def Dom.words (k : Dom) (i : Nat) : Option (Nat × Nat) :=
  match k with
  | .latencies => some (0x1B0080, 3)
  | .elements => some (0x100800 + 0x1000 * i, 256)
  | .eyes => some (0x160100 + 0x10000 * i, 20)
  | .timings => some (0x160208 + 0x10000 * (i / 4) + 0x100 * (i % 4), 7)
  | .delays => some (0x160240 + 0x10000 * (i / 4) + 0x100 * (i % 4), 20)
  | .testWord => some (0x180044, 3)
  | .crcUnit => some (0x1A0100 + 0x40 * i, 5)
  | .ditch => some (0x140400, 64)
  | .roster => some (0x140600, 128)
  | .retention => some (0x10A00, 128)
  | _ => none

/-- Size of a DOM object in bytes. -/
def Dev.domSize (d : Dev) (k : Dom) (i : Nat) : Nat :=
  match k with
  | .credential => 32
  | .events => 32768
  | .ring => 65536
  | .time => 12
  | .history => 512
  | .eccLog => 256
  | .response => d.get (R.HPF_RSP_LEN i)
  | k => (k.table.map (fun t => t.2.2)).getD ((k.words i).map (fun w => 4 * w.2) |>.getD 0)

/-- Bytes of a list up to a length, zeros behind. -/
def zeroPad (n : Nat) (l : List Byte) : List Byte := l.take n ++ List.replicate (n - l.length) 0

/-- `n` words of BAR0 from address `a` as bytes. -/
def Dev.wordsAt (d : Dev) (v : NonVol) (a n : Nat) : List Byte :=
  (List.range n).flatMap (fun k => bytesOf 4 (d.word v (a + 4 * k)))

/-- The content of a DOM that is no table. -/
def Dev.domBytes (d : Dev) (v : NonVol) (k : Dom) (i : Nat) : List Byte :=
  match k with
  | .events => (List.range 1024).flatMap (fun n => match d.evt.log.find? n with
    | some e => e.bytes
    | none => List.replicate 32 0)
  | .ring => (List.range 4096).flatMap (fun n => match d.evt.ring.find? n with
    | some e => e.bytes
    | none => List.replicate 16 0)
  | .time => timeBytes d.timeNs
  | .history => zeroPad 512 (d.job.hist.flatMap (fun l => l.flatMap (bytesOf 4)))
  | .eccLog => zeroPad 256 (d.ecc.log.flatMap (fun e =>
      bytesOf 4 (e.mem + 32 * e.kind + 256 * e.req + 65536 * e.syn) ++ bytesOf 8 e.word ++ bytesOf 4 e.rep))
  | .response => (d.wordsAt v (0x100800 + 0x1000 * i) 256).take (d.get (R.HPF_RSP_LEN i))
  | k => match k.words i with
    | some (a, n) => d.wordsAt v a n
    | none => []

/-- Words of a table from offset `o` as management reads them (11 requester 15): none where one is uncorrectable (11 R319). -/
def Dev.tableBytes (d : Dev) (base o : Nat) : Nat → List Byte × Dev × Bool
  | 0 => ([], d, true)
  | n + 1 =>
    match d.bar4Read (base + o) 15 with
    | (none, d1) => ([], d1, false)
    | (some w, d1) =>
      let (l, d2, ok) := Dev.tableBytes d1 base (o + 4) n
      (bytesOf 4 w.toNat ++ l, d2, ok)

/-! ## Values of objects -/

/-- A read of a register field through an object: a ROC field restarts (R424). -/
def Dev.fieldRead (d : Dev) (v : NonVol) (f : Fld) : Nat × Dev :=
  (d.shown v f,
    match (rowsAt f.addr).find? (fun r => r.acc == .roc && r.lo == f.lo) with
    | some r => d.set f (d.restart f.addr r)
    | none => d)

/-- A firmware-held default as it is stored. -/
def ObjRow.default (r : ObjRow) : Nat := r.dflt.getD 0

/-- The number an object of numeric type reads, in the bits of its type, and what the read changes. -/
def Dev.objRead (d : Dev) (v : NonVol) (r : ObjRow) (i : Nat) : Nat × Dev :=
  match r.back with
  | .fld f => d.fieldRead v (f i)
  | .sfld f => let (x, d1) := d.fieldRead v (f i); (ofSigned (8 * r.ty.size) (toSigned (f i).w x), d1)
  | .pair f =>
    let (x, d1) := d.fieldRead v (f i)
    let (y, d2) := d1.fieldRead v (f i).hi
    (x + 2 ^ 32 * y, d2)
  | .word f => (d.word v (f i).addr % 2 ^ (8 * r.ty.size), d)
  | .plus1 f => (d.shown v (f i) + 1, d)
  | .active f => (ofSigned (8 * r.ty.size) (if r.ty.signed then toSigned (f i).w (d.aget (f i)) else d.aget (f i)), d)
  | .activePlus1 f => (d.aget (f i) + 1, d)
  | .fw _ _ => (d.obj (r.idx + r.stride * i) r.sub r.default, d)
  | .view f => (f d v i % 2 ^ (8 * r.ty.size), d)
  | .access .mdio => (d.get R.NET_MDIO, d)
  | .access .window => (d.job.workW, d)
  | .access .fetch => (d.job.fetchF, d)
  | _ => (0, d)

/-! ## Writes of settings -/

/-- The default of an object in the bits of its type; one given as from fuses, from the device ID, from the manifest or computed is what the
device derives (R426). [DEDUCED, unsafe, log 96] -/
def Dev.defaultOf (d : Dev) (v : NonVol) (r : ObjRow) (i : Nat) : Nat :=
  match r.dflt with
  | some n => n
  | none => if r.idx = 0x1220 then ownMac else (d.objRead v r i).1

/-- The rows a write of an object sets. -/
def Back.fieldRows (b : Back) (i : Nat) : List FieldRow :=
  match b with
  | .fld f => (rowsAt (f i).addr).filter (fun r => r.lo == (f i).lo)
  | .sfld f => (rowsAt (f i).addr).filter (fun r => r.lo == (f i).lo)
  | .plus1 f => (rowsAt (f i).addr).filter (fun r => r.lo == (f i).lo)
  | .pair f => rowsAt (f i).addr
  | .word f => rowsAt (f i).addr
  | _ => []

/-- The word at `a` for a write that sets one field: fields that a written 1 acts on are 0. -/
def Dev.wordFor (d : Dev) (a : Nat) : Nat :=
  (rowsAt a).foldl (fun x r => if r.acc = .w1c ∨ r.acc = .w1s ∨ r.acc = .wo then putBits x r.lo r.w 0 else x)
    ((d.cal.shown.find? a).getD (d.reg a)).toNat

/-- The value a setting's field takes for number `n` of the object, if it is in range of the field's width. -/
def ObjRow.fieldValue (r : ObjRow) (w n : Nat) : Option Nat :=
  if r.ty.signed then
    let x := toSigned (8 * r.ty.size) n
    if -(2 ^ (w - 1) : Int) ≤ x ∧ x < (2 ^ (w - 1) : Int) then some (ofSigned w x) else none
  else if n < 2 ^ w then some n
  else none

/-- The BAR0 writes that a write of `n` to a setting amounts to: `none` where the value does not fit. -/
def Dev.objWords (d : Dev) (r : ObjRow) (i n : Nat) : Option (List (Nat × Nat)) :=
  let one := fun (f : Fld) (x : Option Nat) => x.map (fun x => [(f.addr, putBits (d.wordFor f.addr) f.lo f.w x)])
  match r.back with
  | .fld f => one (f i) (r.fieldValue (f i).w n)
  | .sfld f => one (f i) (r.fieldValue (f i).w n)
  | .plus1 f => if n = 0 then none else one (f i) (r.fieldValue (f i).w (n - 1))
  | .word f => some [((f i).addr, n)]
  | .pair f => some [((f i).addr, n % 2 ^ 32), ((f i).addr + 4, n / 2 ^ 32)]
  | _ => none

/-- A number is in the range of a setting (R425). -/
def Dev.objInRange (d : Dev) (r : ObjRow) (i n : Nat) : Bool :=
  match r.back with
  | .fw lo hi =>
    let x : Int := if r.ty.signed then toSigned (8 * r.ty.size) n else n
    decide (lo ≤ x) && decide (x ≤ hi)
  | .access .window => decide (4 ≤ n) && decide (n ≤ 32) && decide (d.job.fetchF + 2 ≤ n)
  | .access .fetch => decide (1 ≤ n) && decide (n ≤ 4) && decide (n + 2 ≤ d.job.workW)
  | .access _ => true
  | .pair f => pairOk (f i).addr n && ((f i).addr != R.NET_MAC_LO.addr || decide (n < 2 ^ 48))
  | _ => match d.objWords r i n with
    | some l => l.all (fun e => d.wordOk e.1 e.2)
    | none => false

/-- The device state refuses a write of a setting (R27, R424, 15 R419). -/
def Dev.objStateBad (d : Dev) (r : ObjRow) (i : Nat) : Bool :=
  match r.back with
  | .access .window => d.printing
  | .access .fetch => d.printing
  | .pair f => if (f i).addr = R.NET_MAC_LO.addr then d.dstate != .idle
    else d.dstate == .run && (r.back.fieldRows i).any (fun x => x.acc == .rwl)
  | b => d.dstate == .run && (b.fieldRows i).any (fun x => x.acc == .rwl)

/-- The object is a profile setting (Table 16.9). -/
def ObjRow.profile (r : ObjRow) (i : Nat) : Bool :=
  match r.back with
  | .dom .remap => true
  | .dom .correction => true
  | .dom .templates => true
  | b => (b.fieldRows i).any (fun x => x.prof)

/-- F of 01 R27 was written: the sluice limits follow it (09 R266). -/
def Dev.putFetch (d : Dev) (n : Nat) : Dev := ({ d with job := { d.job with fetchF := n } }).reSluiceAll

/-- A write of `n` to a setting that passed its checks: through the register's own rules (R424). -/
def Dev.objPut (d : Dev) (r : ObjRow) (i n : Nat) : Dev :=
  match r.back with
  | .fw _ _ => { d with mgmt := { d.mgmt with objs := d.mgmt.objs.put ((r.idx + r.stride * i) * 256 + r.sub) n } }
  | .access .window => { d with job := { d.job with workW := n } }
  | .access .fetch => d.putFetch n
  | _ => match d.objWords r i n with
    | some l => forEach l (fun (d : Dev) e => d.plainWrite e.1 e.2) d
    | none => d

/-- A write of a DOM that is no table and no command: its register words (R441). -/
def Dev.domPut (d : Dev) (k : Dom) (i : Nat) (l : List Byte) : Dev :=
  match k with
  | .credential => { d with mgmt := { d.mgmt with cred := some l } }
  | .crcUnit => d.crcHost i (fun d =>
      forEach (List.range 5) (fun (d : Dev) n => d.plainWrite (0x1A0100 + 0x40 * i + 4 * n) (leAt l (4 * n) 4)) d)
  | k => match k.words i with
    | some (a, n) => forEach (List.range n) (fun (d : Dev) j => d.plainWrite (a + 4 * j) (leAt l (4 * j) 4)) d
    | none => d

/-- The words of a DOM write are in range. -/
def Dev.domInRange (d : Dev) (k : Dom) (i : Nat) (l : List Byte) : Bool :=
  match k.words i with
  | some (a, n) => (List.range n).all (fun j => d.wordOk (a + 4 * j) (leAt l (4 * j) 4))
  | none => true

end Sys2Proof.Machine
end

