-- ==== Sys2Proof/Machine/Store.lean ====
section
/-! DEFINITION. The settings store (16 R446–R449, 19 R498) and PROFILE REVERT (16 R445). -/

namespace Sys2Proof.Machine

/-! ## Content (R446) -/

/-- The store holds the object: RW, 0x1200–0x5FFF, no DOM, no command. ITM_NEXT is not held. -/
def ObjRow.stored (r : ObjRow) : Bool :=
  r.acc == .rw && r.ty != .dom && decide (0x1200 ≤ r.idx) && decide (r.idx < 0x6000) && !(r.idx == 0x2100 && r.sub == 2)

/-- A record: index, subindex, length, value padded to four bytes. -/
def storeRecord (idx sub : Nat) (l : List Byte) : List Byte :=
  bytesOf 2 idx ++ bytesOf 1 sub ++ bytesOf 1 0 ++ bytesOf 4 l.length ++ l ++ List.replicate ((4 - l.length % 4) % 4) 0

/-- The records of an object's instances. -/
def Dev.objRecords (d : Dev) (v : NonVol) (r : ObjRow) : List Byte :=
  (List.range r.n).flatMap (fun i => storeRecord (r.idx + r.stride * i) r.sub (bytesOf r.ty.size (d.objRead v r i).1))

/-- The words of a table as reads deliver them (11 R315). -/
def Dev.tableMap (d : Dev) (k : Dom) : SMap Word :=
  match k with
  | .remap => d.remapRead false
  | .correction => d.corrShadow
  | .templates => d.tplShadow
  | .threshold => d.readTable 5 0 131072 2 d.dos.thr
  | .glyph => d.glyphStore
  | _ => []

/-- Where a table stands: memory, first word, words. -/
def Dev.tableWords (d : Dev) (k : Dom) : Nat × Nat × Nat :=
  match k with
  | .remap => (3, 131072 * d.remapHalf false, 131072)
  | .correction => (4, 0, 262144)
  | .templates => (6, 0, tplActiveWord)
  | .threshold => (5, 0, 131072)
  | _ => (2, 0, 524288)

/-- The tables in the order of DEV_STORE_CFG.TABLES. -/
def storeTables : List Dom := [.remap, .correction, .templates, .threshold, .glyph]

/-- The record of a table, where DEV_STORE_CFG.TABLES selects it. -/
def Dev.tableRecord (d : Dev) (k : Dom) : List Byte :=
  match k.table with
  | some (s, _, n) =>
    if hasBit (d.get R.DEV_STORE_CFG_TABLES) (s - 1) then
      storeRecord 0x1121 s ((List.range (n / 4)).flatMap (fun w => bytesOf 4 ((d.tableMap k).get 0 w).toNat))
    else []
  | none => []

/-- Subindex of the store record of a channel's DRC_CFG (10 R283, 17 R469), which is no object: one that no object of the channel's index has. [DESIGN CHOICE, unsafe, log 125] -/
def channelSub : Nat := 0xFE

/-- The store records of the channels' DRC_CFG. [DESIGN CHOICE, unsafe, log 125] -/
def Dev.channelRecords (d : Dev) : List Byte :=
  [0, 1].flatMap (fun c => storeRecord (0x5010 + c) channelSub (bytesOf 4 (d.reg (0x160000 + 0x10000 * c)).toNat))

/-- The content of a SAVE: objects, channels, tables, credential. [DEDUCED, unsafe, log 92] -/
def Dev.storeContent (d : Dev) (v : NonVol) : List Byte :=
  (objTable.filter ObjRow.stored).flatMap (d.objRecords v) ++ d.channelRecords ++ storeTables.flatMap d.tableRecord ++
    (match d.mgmt.cred with
     | some c => storeRecord 0x1010 3 c
     | none => [])

/-- The header of Table 16.10 with a CRC. -/
def storeHeader (schema seq len tables crc : Nat) : List Byte :=
  bytesOf 4 0x54535844 ++ bytesOf 4 schema ++ bytesOf 4 seq ++ bytesOf 4 len ++ bytesOf 1 tables ++ List.replicate 43 0 ++ bytesOf 4 crc

/-- A slot: header and content. -/
def storeSlot (schema seq tables : Nat) (l : List Byte) : List Byte :=
  storeHeader schema seq l.length tables (crc32c (storeHeader schema seq l.length tables 0 ++ l)) ++ l

/-! ## Slots (R448, 19 R498) -/

/-- Content of a slot. -/
def slotContent (l : List Byte) : List Byte := sliceOf l 64 (leAt l 0xC 4)

/-- Save sequence of a slot. -/
def slotSeq (l : List Byte) : Nat := leAt l 8 4

/-- Magic and CRC of a slot are correct. -/
def slotSound (l : List Byte) : Bool :=
  leAt l 0 4 == 0x54535844 && decide (64 + leAt l 0xC 4 ≤ l.length) &&
    crc32c (l.take 0x3C ++ List.replicate 4 0 ++ slotContent l) == leAt l 0x3C 4

/-- A slot is valid: sound, and of the running schema. -/
def slotValid (schema : Nat) (l : List Byte) : Bool := slotSound l && leAt l 4 4 == schema

/-- The valid slot with the higher save sequence: 1 A, 2 B, with its bytes. -/
def Flash.newest (f : Flash) : Option (Nat × List Byte) :=
  let a := slotValid f.schema f.slotA
  let b := slotValid f.schema f.slotB
  if a && (!b || decide (slotSeq f.slotB ≤ slotSeq f.slotA)) then some (1, f.slotA)
  else if b then some (2, f.slotB)
  else none

/-- No slot is valid, and a sound one is of another schema (19 R498). -/
def Flash.schemaLost (f : Flash) : Bool := f.newest.isNone && (slotSound f.slotA || slotSound f.slotB)

/-- SCHEMA_RESET: the schema of the sound slot with the higher save sequence, the running schema. [DEDUCED, unsafe, log 92] -/
def Flash.lostDetail (f : Flash) : Nat :=
  let a := slotSound f.slotA && (!slotSound f.slotB || decide (slotSeq f.slotB ≤ slotSeq f.slotA))
  leAt (if a then f.slotA else f.slotB) 4 4 + 2 ^ 32 * f.schema

/-! ## Loading -/

/-- The records of a content: index, subindex, value. -/
def recordsOf : Nat → List Byte → List (Nat × Nat × List Byte)
  | 0, _ => []
  | f + 1, l =>
    if l.length < 8 then []
    else
      let n := leAt l 4 4
      (leAt l 0 2, leAt l 2 1, sliceOf l 8 n) :: recordsOf f (l.drop (8 + (n + 3) / 4 * 4))

/-- A setting takes its stored value: through its register's rules; W, F and the MAC address whatever the state, TIM_ADJ whoever owns it; NET_MDIO
takes it with no access to the PHY, which the device does not write on its own (15 R418). [DEDUCED, unsafe, log 92] -/
def Dev.storePut (d : Dev) (r : ObjRow) (i n : Nat) : Dev :=
  match r.back with
  | .pair f =>
    if (f i).addr = R.NET_MAC_LO.addr then d.set64 R.NET_MAC_LO n else d.objPut r i n
  | .sfld f => if (f i).addr = R.TIM_ADJ.addr then d.putAdj (toSigned 32 n) else d.objPut r i n
  | .access .mdio => d.set R.NET_MDIO (n % 2 ^ 31)
  | _ => d.objPut r i n

/-- The words of a table record that change their table, and how many of them a lock discards. -/
def loadWords (lock : Nat → Bool) (m : SMap Word) (l : List Byte) : SMap Word × Nat :=
  let ws := (List.range (l.length / 4)).map (fun w => (w, BitVec.ofNat 32 (leAt l (4 * w) 4)))
  ((ws.filter (fun e => !lock e.1)).foldl (fun (m : SMap Word) e => if m.get 0 e.1 == e.2 then m else m.put e.1 e.2) m,
    (ws.filter (fun e => lock e.1)).length)

/-- A table is loaded: words that are locked are discarded and counted, as from any writer (05 R162, 06 R184, R188, 07 R208), but at boot,
where the Active profile is made equal to the store only afterwards (16 R448), none is locked;
the others are written whole. [DEDUCED, unsafe, log 92] -/
def Dev.storeTable (d : Dev) (k : Dom) (l : List Byte) : Dev :=
  let n := l.length / 4
  match k with
  | .remap =>
    let r := loadWords (fun _ => !d.remapWritable) d.las.remapS l
    if d.remapWritable then
      ({ d with las := { d.las with remapS := r.1 } }.freshWords 3 (131072 * d.remapHalf false) (131072 * d.remapHalf false + n)).setB
        R.LAS_STATUS_REMAP_VALID false
    else d.bump R.LAS_DISC_CNT r.2
  | .correction =>
    let r := loadWords (fun _ => d.corrShut) d.dos.corrS l
    if d.corrShut then d.bump R.DOS_DISC_CNT r.2
    else d.corrLoad 0 (2 * n) 15 (fun d => (loadWords (fun _ => false) d.dos.corrS l).1)
  | .templates =>
    if d.shadowLocked then d
    else
      ({ d with cmp := { d.cmp with tplS := (loadWords (fun _ => false) d.cmp.tplS l).1 } }.freshWords 6 0 (n / 2)).setB
        R.CMP_STATUS_TPL_VALID false
  | .threshold =>
    let lock := fun c => d.dstate != .boot && d.cellLocked c
    let r := loadWords (fun w => lock (w / 4)) d.dos.thr l
    ({ d with dos := { d.dos with thr := r.1 }, ecc := { d.ecc with diffs := d.ecc.diffs.filter (fun e =>
        decide (e.1 < eccKey 5 0) || decide (eccKey 5 (n / 2) ≤ e.1) || lock ((e.1 - eccKey 5 0) / 2)) } }.setB
      R.DOS_STATUS_SCR_VALID false).bump R.DOS_DISC_CNT r.2
  | .glyph =>
    let lock := fun w => d.dstate != .boot && d.glyphLocked w
    let r := loadWords lock d.cmp.glyph l
    { d with cmp := { d.cmp with glyph := r.1 }, ecc := { d.ecc with diffs := d.ecc.diffs.filter (fun e =>
        decide (e.1 < eccKey 2 0) || decide (eccKey 2 n ≤ e.1) || lock (e.1 - eccKey 2 0)) } }.bump R.CMP_GLYPH_DISC r.2
  | _ => d

/-- The stored DRC_CFG of a channel is loaded (10 R283): an invalid one is refused as a write of it is; at boot the channel then stands OFF until its
training (17 Table 17.6). [DESIGN CHOICE, unsafe, log 125] -/
def Dev.storeChannel (d : Dev) (c v : Nat) : Dev :=
  let a := 0x160000 + 0x10000 * c
  let was := d.chOn c
  if !d.domOn (4 + c) then d
  else if !d.wordOk a v then d.rangeDiscard
  else
    let d1 := d.setReg a (BitVec.ofNat 32 (d.merged a (d.reg a).toNat v))
    if d.dstate = .boot then (if d1.chOn c then d1.set (R.DRC_STATUS_STATE c) 1 else d1) else d1.drcEnable c was

/-- One record is loaded; one that names nothing stored is passed over. -/
def Dev.storeRecordIn (d : Dev) (e : Nat × Nat × List Byte) : Dev :=
  if e.1 = 0x1010 ∧ e.2.1 = 3 then { d with mgmt := { d.mgmt with cred := some e.2.2 } }
  else if (e.1 = 0x5010 ∨ e.1 = 0x5011) ∧ e.2.1 = channelSub ∧ e.2.2.length = 4 then d.storeChannel (e.1 - 0x5010) (leOf e.2.2)
  else if e.1 = 0x1121 then
    match storeTables.find? (fun k => (k.table.map (·.1)) == some e.2.1) with
    | some k => d.storeTable k e.2.2
    | none => d
  else match findObj e.1 e.2.1 with
    | .found r i => if r.stored && e.2.2.length == r.ty.size then d.storePut r i (leOf e.2.2) else d
    | _ => d

/-- Values of a slot go into device settings and the Shadow profile; the slot is in use. [DEDUCED, unsafe, log 92] -/
def Dev.storeIn (d : Dev) (slot : Nat) (l : List Byte) : Dev :=
  let d1 := forEach (recordsOf l.length (slotContent l)) Dev.storeRecordIn d
  ((d1.set R.DEV_STORE_STATUS_SLOT slot).set R.DEV_STORE_SEQ (slotSeq l)).set R.DEV_STORE_USED (leAt l 0xC 4)

/-- The event detail of a slot. -/
def slotDetail (slot : Nat) (l : List Byte) : Nat := slot + 2 ^ 32 * slotSeq l

/-- Firmware starts: the objects it holds take their values from the newest valid slot, or their defaults (17 R464). -/
def Dev.firmwareObjects (d : Dev) (f : Flash) : Dev :=
  let recs := match f.newest with
    | some (_, l) => recordsOf l.length (slotContent l)
    | none => []
  let held := fun (m : SMap Nat) (e : Nat × Nat × List Byte) =>
    match findObj e.1 e.2.1 with
    | .found r _ => (match r.back with
      | .fw _ _ => if r.stored then m.put (e.1 * 256 + e.2.1) (leOf e.2.2) else m
      | _ => m)
    | _ => m
  { d with mgmt := { d.mgmt with
      objs := recs.foldl held [], cred := (recs.find? (fun e => e.1 == 0x1010 && e.2.1 == 3)).map (fun e => e.2.2) } }

/-! ## Commands (R447, R449) -/

/-- The result of a store command. -/
def Dev.storeResult (d : Dev) (code : Nat) : Dev := d.set R.DEV_STORE_RESULT_CODE code

/-- A store command is accepted. -/
def Dev.storeTake (d : Dev) : Dev := (d.storeResult 0).wrap R.DEV_STORE_RESULT_SEQ 1

/-- A store command: one at a time; BUSY while an update command holds the flash (19 R488). -/
def storeCmd (f : Dev → NonVol → Dev × NonVol) (d : Dev) (v : NonVol) : Dev × NonVol :=
  if d.storeBusy then ((d.storeResult 1).setB R.DEV_STORE_RESULT_OVR true, v)
  else if d.is R.UPD_RESULT_BUSY then (d.storeResult 1, v)
  else f d v

/-- The tables a SAVE stores: DEV_STORE_CFG.TABLES selects them. -/
def Dev.savedTables (d : Dev) : List Dom :=
  storeTables.filter (fun k => match k.table with
    | some (s, _, _) => hasBit (d.get R.DEV_STORE_CFG_TABLES) (s - 1)
    | none => false)

/-- Management reads the tables a SAVE stores, up to the first word that cannot be read, at which it stops (11 R315, R316, R319). [DEDUCED, unsafe, log 92] -/
def Dev.saveReads (d : Dev) : Dev :=
  d.savedTables.foldl (fun (d : Dev) k =>
    let (m, a, n) := d.tableWords k
    if d.pwr.mgmtStop then d
    else match (d.badIn m a (a + n)).head? with
      | some w => (d.sramReads m a (w + 1) 15).mgmtHalt w
      | none => d.sramReads m a (a + n) 15) d

/-- SAVE takes the values that stand (R447); content that exceeds the slot ends it at once, and where management stops at an unreadable word of a table
nothing is written and BUSY stays (11 R319). [DEDUCED, unsafe, log 92] -/
def storeSave (d : Dev) (v : NonVol) : Dev × NonVol :=
  storeCmd (fun d v =>
    let c := d.storeContent v
    if d.get R.DEV_STORE_SLOT < 64 + c.length then (((d.storeTake).storeResult 3).raise Ev.STORE_FAILED 3, v)
    else
      let seq := ((v.flash.newest.map (fun e => slotSeq e.2)).getD 0 + 1) % 2 ^ 32
      let d1 := d.storeTake.setB R.DEV_STORE_RESULT_BUSY true
      let d2 := d1.saveReads
      (if d2.pwr.mgmtStop then d2
       else { d2 with mgmt := { d2.mgmt with
          saving := some (storeSlot v.flash.schema seq (d.get R.DEV_STORE_CFG_TABLES) c) } }, v)) d v

/-- SAVE. -/
def execSave (s : State) : Out := onDevNv storeSave s

/-- The slot a SAVE writes: the one that does not hold the newest valid store. -/
def Flash.saveSlot (f : Flash) : Nat := if (f.newest.map (·.1)) = some 1 then 2 else 1

/-- Writes a store slot. -/
def Flash.putSlot (f : Flash) (n : Nat) (l : List Byte) : Flash := if n = 1 then { f with slotA := l } else { f with slotB := l }

/-- The end of a SAVE (R447): after a failed write or read-back the slot written is not valid. -/
def storeSaved (flashErr : Bool) (d : Dev) (v : NonVol) : Dev × NonVol :=
  match d.mgmt.saving with
  | none => (d, v)
  | some l =>
    let n := v.flash.saveSlot
    let d1 := { d with mgmt := { d.mgmt with saving := none } }.setB R.DEV_STORE_RESULT_BUSY false
    if flashErr then ((d1.storeResult 4).raise Ev.STORE_FAILED 4, { v with flash := v.flash.putSlot n [] })
    else
      ((((((d1.storeResult 0).set R.DEV_STORE_STATUS_SLOT n).set R.DEV_STORE_SEQ (slotSeq l)).set R.DEV_STORE_USED (leAt l 0xC 4))).raise
        Ev.STORE_SAVED (slotDetail n l), { v with flash := v.flash.putSlot n l })

/-- STORE_SAVED. -/
def execStoreSaved (flashErr : Bool) (s : State) : Out := onDevNv (storeSaved flashErr) s

/-- LOAD (R449). With no valid slot nothing is written; which code it then has is not stated, a free value. [DEDUCED, unsafe, log 92] -/
def storeLoad (d : Dev) (v : NonVol) : Dev × NonVol :=
  storeCmd (fun d v =>
    if d.dstate ≠ .idle ∨ d.job.swap.isSome = true then (d.storeResult 2, v)
    else match v.flash.newest with
      | some (n, l) => (((d.storeTake).storeIn n l).raise Ev.STORE_LOADED (slotDetail n l), v)
      | none =>
        let (c, d1) := d.storeTake.fresh 0x449 8
        (d1.storeResult c, v)) d v

/-- STORE_LOAD. -/
def execStoreLoad (s : State) : Out := onDevNv storeLoad s

/-- ERASE (R449): both slots become invalid; what was loaded stays until the next start. -/
def storeErase (flashErr : Bool) (d : Dev) (v : NonVol) : Dev × NonVol :=
  storeCmd (fun d v =>
    if d.dstate ≠ .idle then (d.storeResult 2, v)
    else if flashErr then (d.storeTake.storeResult 4, v)
    else (d.storeTake, { v with flash := { v.flash with slotA := [], slotB := [] } })) d v

/-- ERASE. -/
def execErase (flashErr : Bool) (s : State) : Out := onDevNv (storeErase flashErr) s

/-! ## REVERT (R445) -/

/-- The validity flags as they read when the Active profile took effect: all set by a swap (01 R44), reset values before one. -/
def Dev.revertFlags (d : Dev) : Dev :=
  (((d.setB R.CMP_STATUS_TPL_VALID d.job.swapped).setB R.DOS_STATUS_SCR_VALID d.job.swapped).setB R.DOS_STATUS_CORR_VALID true).setB
    R.LAS_STATUS_REMAP_VALID d.job.swapped

/-- The Shadow profile takes a profile's settings. -/
def Dev.shadowFrom (d : Dev) (m : SMap Word) : Dev :=
  { d with regs := m.foldl (fun (r : SMap Word) e => r.put e.1 e.2) (d.regs.filter (fun e => !isProfileAddr e.1)) }

/-- A copy of R184 or R208 is under way. -/
def Dev.profileCopying (d : Dev) : Bool := !d.is R.DOS_STATUS_CORR_VALID || d.is R.LAS_STATUS_COPYING

/-- PROFILE REVERT: of the tables each word is read and corrected, and a copy of an unreadable one cannot be read either
(11 R315, R316, R320–R322). [DEDUCED, unsafe, log 92] -/
def Dev.revert (d : Dev) : Dev :=
  if d.shadowLocked then d.set R.DEV_PROF_RESULT 9
  else if d.profileCopying then d.set R.DEV_PROF_RESULT 10
  else
    let d1 := d.shadowFrom d.active
    let h := d1.remapHalf false
    let d2 := { d1 with
      las := { d1.las with remapS := d1.remapRead true }
      cmp := { d1.cmp with tplS := d1.readTable 6 tplActiveWord tplActiveWord 2 d1.cmp.tplA } }
    let d3 := (((d2.copyMarks 3 (131072 * d2.remapHalf true) (131072 * h) 131072 9).freshWords 8 (scatterWord h 0)
      (scatterWord (h + 1) 0)).copyMarks 6 tplActiveWord 0 tplActiveWord 11).corrLoad 0 (eccSramWords 4) 8 (fun d => d.dos.corrA)
    d3.revertFlags.set R.DEV_PROF_RESULT 0

/-- REVERT. -/
def execRevert (s : State) : Out := onDev Dev.revert s

end Sys2Proof.Machine
end

