-- ==== Sys2Proof/Machine/Power.lean ====
section
/-! DEFINITION. Power domains, resets, the boot sequence, device states (17 R453–R473). -/

namespace Sys2Proof.Machine

/-! ## Power domains (R455–R459, R311, R341, R342) -/

/-- Why the switch-off of a domain is refused: the result code (Table 17.2). -/
def Dev.offRefused (d : Dev) (c : Nat) : Option Nat :=
  match c with
  | 1 => if d.domainLive 0 then some 5 else none
  | 2 => if d.domainLive 16 then some 5 else none
  | 3 => if d.fabOn then some 2 else none
  | 4 => if d.get (R.DRC_STATUS_STATE 0) = 3 ∧ d.printing = true then some 2 else none
  | 5 => if d.get (R.DRC_STATUS_STATE 1) = 3 ∧ d.printing = true then some 2 else none
  | 6 => if d.printing then some 2 else none
  | 7 => if (d.cmpr 0).busy || (d.cmpr 1).busy then some 5 else none
  | 8 => if (List.range 4).any (fun n => d.is (R.ENC_CFG_EN n) && d.is (R.ENC_CFG_MODE n)) || d.cal.run.isSome then some 5 else none
  | _ => some 3

/-- The result of a domain command. -/
def Dev.domResult (d : Dev) (code : Nat) : Dev := d.set R.PWR_DOM_RESULT_CODE code

/-- An accepted domain command. -/
def Dev.domTake (d : Dev) : Dev := (d.domResult 0).wrap R.PWR_DOM_RESULT_SEQ 1

/-- One domain command at a time (R456). -/
def Dev.domCmd (d : Dev) (f : Dev → Dev) : Dev :=
  if d.is R.PWR_DOM_RESULT_BUSY then d.setB R.PWR_DOM_RESULT_OVR true else f d

/-- A domain command goes on after its acceptance. -/
def Dev.domBusy (d : Dev) (b : Bool) : Dev := d.setB R.PWR_DOM_RESULT_BUSY b

/-- A running switch-off or switch-on of a domain ends. -/
def Dev.domForget (d : Dev) (c : Nat) : Dev :=
  { d with pwr := { d.pwr with offs := d.pwr.offs.filter (fun x => x.1 != c), ons := d.pwr.ons.filter (fun x => x != c) } }.set
    R.PWR_DOM_PENDING (setMask (d.get R.PWR_DOM_PENDING) c false)

/-- Every register of the addresses `q` selects takes its reset value. [DEDUCED, unsafe, log 98] -/
def Dev.resetRegs (d : Dev) (q : Nat → Bool) : Dev := { d with regs := d.regs.filter (fun e => !q e.1) }

/-- PWR_DOM_ON. [DEDUCED, unsafe, log 98] -/
def Dev.pwrDomOn (d : Dev) (c : Nat) : Dev :=
  d.domCmd (fun d =>
    if 9 < c then d.domResult 3
    else if d.domOn c then d.domTake
    else { d.domTake.domBusy true with pwr := { d.pwr with ons := c :: d.pwr.ons } })

/-- PWR_DOM_ON. -/
def execPwrDomOn (domain : Nat) (s : State) : Out := onDev (fun d => d.pwrDomOn domain) s

/-- PWR_DOM_OFF (R456, R457): the drain starts. [DEDUCED, unsafe, log 98] -/
def Dev.pwrDomOff (d : Dev) (c : Nat) : Dev :=
  d.domCmd (fun d =>
    if c = 0 ∨ 9 ≤ c then d.domResult 3
    else if !d.domOn c then d.domTake
    else match d.offRefused c with
      | some code => d.domResult code
      | none =>
        ({ d.domTake.domBusy true with pwr := { d.pwr with offs := (c, d.now) :: d.pwr.offs } }.set R.PWR_DOM_PENDING
          (setMask (d.get R.PWR_DOM_PENDING) c true)).drainDomain c)

/-- PWR_DOM_OFF. -/
def execPwrDomOff (domain : Nat) (s : State) : Out := onDev (fun d => d.pwrDomOff domain) s

/-- The blocks of a domain quiesce and go off (R457, R253, R311, 04 Table 4.3). -/
def Dev.quiesce (d : Dev) (c : Nat) : Dev :=
  match c with
  | 1 => forEach (List.range 16) (fun (d : Dev) p => d.headOff p) d
  | 2 => forEach (List.range 16) (fun (d : Dev) p => d.headOff (16 + p)) d
  | 3 => { d with fab := {}, links := d.links.filter (fun e => decide (e.1 < 32)), lanes := d.lanes.filter (fun e => decide (e.1 < 32)) }
  | 4 => d.channelOff 0
  | 5 => d.channelOff 1
  | 6 => { d with exp := { d.exp with engines := (List.range 32).map (fun e => (e, { st := .off })) } }
  | 7 => { d with exp := { d.exp with cmprs := [] } }
  | _ => d

/-- A domain is off: DOMAIN_OFF; `forced` by its VDDQ rail (R455). [DEDUCED, unsafe, log 98] -/
def Dev.switchOff (d : Dev) (c : Nat) (forced : Bool) : Dev :=
  let d1 := (d.quiesce c).domForget c
  (d1.set R.PWR_DOM_STATUS_ON (setMask (d1.get R.PWR_DOM_STATUS_ON) c false)).raise Ev.DOMAIN_OFF (c + if forced then 16 else 0)

/-- A switch-off of a domain is in progress. -/
def Dev.offRuns (d : Dev) (c : Nat) : Bool := d.pwr.offs.any (fun x => x.1 == c)

/-- DOMAIN_OFF: the drain is complete and the domain goes off. -/
def Dev.domainOff (d : Dev) (c : Nat) : Dev :=
  if d.offRuns c && (d.undrained c).isEmpty then ((d.switchOff c false).domBusy false).domResult 0 else d

/-- DOMAIN_OFF. A host write that waits for a channel that is now out of service fails (10 R287). -/
def execDomainOff (domain : Nat) (s : State) : Out :=
  landed (onDevIf (decide (1 ≤ domain) && decide (domain ≤ 8)) (fun d => d.domainOff domain) s)

/-- DRAIN_TIMEOUT: channels that have not drained refuse the switch-off (12 R342). -/
def Dev.drainTimeout (d : Dev) (c : Nat) : Dev :=
  if d.offRuns c && !(d.undrained c).isEmpty then (((d.drainRefused c).domForget c).domBusy false).domResult 4 else d

/-- DRAIN_TIMEOUT. -/
def execDrainTimeout (domain : Nat) (s : State) : Out :=
  onDevIf (decide (1 ≤ domain) && decide (domain ≤ 8)) (fun d => d.drainTimeout domain) s

/-- The rail of a DRAM domain is in range. -/
def Dev.railIn (d : Dev) (c : Nat) : Bool := !(c == 4 || c == 5) || hasBit (d.get R.PWR_SUPPLY_STATUS) (c - 1)

/-- A DRAM channel starts again with its domain: OFF until a RETRAIN (R458, 10 R311), so DRC_CFG, which enables it, is kept; an absent
one stays absent. -/
def Dev.channelStart (d : Dev) (ch cfg : Nat) : Dev :=
  let d1 := { d.setReg (0x160000 + 0x10000 * ch) (BitVec.ofNat 32 cfg) with dram := d.dram.drop ch }
  if d1.chOn ch then d1.set (R.DRC_STATUS_STATE ch) 1 else d1

/-- The blocks of a domain start at their reset values (R458). -/
def Dev.startBlocks (d : Dev) (c : Nat) : Dev :=
  let d1 := d.resetRegs (fun a => (addrDomains a).contains c)
  match c with
  | 4 => (d1.channelStart 0 (d.reg 0x160000).toNat).reSize
  | 5 => (d1.channelStart 1 (d.reg 0x170000).toNat).reSize
  | 6 => { d1 with exp := { d1.exp with engines := [] } }
  | _ => d1

/-- DOMAIN_ON: a domain being powered is on; a DRAM domain waits for its rail (R455). -/
def Dev.domainOn (d : Dev) (c : Nat) : Dev :=
  if d.pwr.ons.contains c && d.railIn c then
    let d1 := (d.startBlocks c).domForget c
    (((d1.set R.PWR_DOM_STATUS_ON (setMask (d1.get R.PWR_DOM_STATUS_ON) c true)).domBusy false).domResult 0).raise Ev.DOMAIN_ON c
  else d

/-- DOMAIN_ON. -/
def execDomainOn (domain : Nat) (s : State) : Out :=
  onDevIf (decide (1 ≤ domain) && decide (domain ≤ 8)) (fun d => d.domainOn domain) s

/-- A bit of PWR_SUPPLY_STATUS. -/
def Dev.rail (d : Dev) (r : Nat) (inRange : Bool) : Dev :=
  d.set R.PWR_SUPPLY_STATUS (setMask (d.get R.PWR_SUPPLY_STATUS) r inRange)

/-- A channel's contents are lost. [DESIGN CHOICE, unsafe, log 8] -/
def Mem.lose (m : Mem) (ch : Nat) : Mem := if ch = 0 then { m with ch0 := [], x0 := [] } else { m with ch1 := [], x1 := [] }

/-- A VDDQ rail fails (R455): forced switch-off without a drain; a switch-off in progress has then ended. [DEDUCED, unsafe, log 98] -/
def Dev.vddqFault (d : Dev) (ch : Nat) : Dev :=
  let c := 4 + ch
  let d1 := (d.rail (3 + ch) false).raise Ev.VDDQ_FAULT ch
  if d1.domOn c then
    let d2 := d1.switchOff c true
    if d1.offRuns c then (d2.domBusy false).domResult 0 else d2
  else d1

/-- VDDQ_FAULT. -/
def execVddqFault (ch : Nat) (s : State) : Out :=
  landed (onDevMemIf (decide (ch < 2)) (fun d m => (d.vddqFault ch, m.lose ch)) s)

/-! ## Reset (R454, R462–R465, Table 17.4) -/

/-- The device after a reset of everything but PD_KEEP. Clock, the model's records, pin levels, rails and PERST_N are not state
of the device that a reset changes. -/
def Dev.atReset (d : Dev) : Dev :=
  { now := d.now, free := d.free, sent := d.sent
    regs := if d.get R.PWR_SUPPLY_STATUS = 0x7F then [] else [(R.PWR_SUPPLY_STATUS.addr, BitVec.ofNat 32 (d.get R.PWR_SUPPLY_STATUS))]
    pos := { encs := d.pos.encs.map (fun (e : Nat × Enc) => (e.1, { a := e.2.a, b := e.2.b }))
             trgs := d.pos.trgs.map (fun (e : Nat × Trg) => (e.1, { level := e.2.level })), inhibit := d.pos.inhibit }
    pwr := { perst := d.pwr.perst, porst := d.pwr.porst, noClock := d.pwr.noClock } }

/-- A SAVE that is cut off leaves the slot it writes not valid (16 R447). -/
def cutSave (d : Dev) (f : Flash) : Flash := if d.mgmt.saving.isSome then f.putSlot f.saveSlot [] else f

/-- The reset of Table 17.4 that leads to BOOT. DRAM contents count as never written. [DESIGN CHOICE, unsafe, log 9] -/
def deviceReset (s : State) : State :=
  { s with dev := s.dev.atReset, mem := {}, nv := { s.nv with flash := cutSave s.dev s.nv.flash } }

/-- Records a cause in PWR_RST_CAUSE. -/
def State.cause (s : State) (b : Nat) : State :=
  { s with nv := { s.nv with keep := { s.nv.keep with cause := orBit s.nv.keep.cause b } } }

/-- PORST_ASSERT: reset, and the device is held in it. Without supplies there is nothing to reset. -/
def execPorstAssert (s : State) : Out :=
  let s1 := if s.dev.dstate = .keep then s else deviceReset s
  .next { s1 with dev := { s1.dev with pwr := { s1.dev.pwr with porst := true } }, tap := s1.tap.atPorst true }

/-- CLOCK_FAILURE (R465). -/
def execClockFailure (s : State) : Out :=
  if s.dev.dstate = .keep then .next s
  else
    let s1 := (deviceReset s).cause 3
    .next { s1 with dev := { s1.dev with pwr := { s1.dev.pwr with noClock := true } } }

/-- A main rail fails (Table 17.1): supply reset, logged at the next boot; without VAUX the keeper runs from VKEEP (R460). -/
def supplyFault (r : Nat) (s : State) : State :=
  if s.dev.dstate = .keep then s
  else
    let s1 := (deviceReset s).cause 1
    let k := s1.nv.keep
    { s1 with dev := s1.dev.rail r false,
              nv := { s1.nv with keep := { k with
                rail := orBit k.rail r, supply := orBit k.supply r, onVkeep := k.onVkeep || r == 5 } } }

/-- SUPPLY_FAULT. [DEDUCED, safe, log 14] -/
def execSupplyFault (rail : Nat) (s : State) : Out :=
  if [0, 1, 2, 5, 6].contains rail then .next (supplyFault rail s) else .fault .noSuchInstance

/-- MAIN_POWER_LOSS: the main supplies are lost, the keeper runs from VKEEP: KEEP (R460, Table 17.7). [DEDUCED, unsafe, log 99] -/
def execMainPowerLoss (s : State) : Out :=
  let s1 := deviceReset s
  .next { s1 with dev := { s1.dev with dstate := .keep, regs := [(R.PWR_SUPPLY_STATUS.addr, 0)] },
                  nv := { s1.nv with keep := { s1.nv.keep with onVkeep := true } } }

/-- KEEPER_SUPPLY_LOW: VKEEP falls below 1.8 V while the keeper runs from it (R460). [DEDUCED, unsafe, log 99] -/
def execKeeperSupplyLow (s : State) : Out :=
  if s.nv.keep.onVkeep then
    .next { s with nv := { s.nv with keep := { s.nv.keep with pwrFail := true, low := true } } }
  else .next s

/-- KEEPER_POWER_UP: after a supply too low, counters and retention start at 0 (R460, Table 17.11 bit 4). -/
def execKeeperPowerUp (s : State) : Out :=
  if s.nv.keep.low then
    .next { s with nv := { s.nv with keep := { s.nv.keep with
      sec := 0, sub := 0, frac := 0, ret := [], low := false, lost := true, cause := orBit s.nv.keep.cause 4 } } }
  else .next s

/-! ## The PCIe endpoint and the management processors (R463, R464) -/

/-- A DMA transfer with a HOST endpoint ends (R463, 12 R339). [DEDUCED, unsafe, log 101] -/
def Dev.hostGone (d : Dev) (n : Nat) : Dev :=
  let x := d.dch n
  if !([1, 2, 3, 4].contains (d.dstat n)) then d
  else if x.srcKind = 0 then (d.set64 (R.DMA_ERR_ADDR_LO n) (x.src + x.seen)).chainEnd n 5
  else if x.dstKind = 0 then (d.set64 (R.DMA_ERR_ADDR_LO n) (x.dst + x.seen)).chainEnd n 6
  else d

/-- PERST_N falls. -/
def Dev.perstAssert (d : Dev) : Dev :=
  if d.pwr.perst then d
  else
    let d1 := { d with pwr := { d.pwr with perst := true } }
    if d.awake then
      forEach (d1.dma.chs.map (·.1)) (fun (d : Dev) n => d.hostGone n) ((d1.bump R.PWR_PERST_CNT 1).raise Ev.PCIE_RESET 0)
    else d1

/-- PERST_ASSERT. -/
def execPerstAssert (s : State) : Out := onPin true Dev.perstAssert s

/-- PERST_RELEASE: the endpoint answers again. -/
def execPerstRelease (s : State) : Out := onPin true (fun d => { d with pwr := { d.pwr with perst := false } }) s

/-- The management processors, memory 7 and the IOP sessions are reset (R464): firmware starts again with the objects it holds,
PTP in FREE, no mailbox request; a SAVE in progress is cut off. [DEDUCED, unsafe, log 95; DEDUCED, unsafe, log 101] -/
def mgmtReset (watchdog : Bool) (d : Dev) (v : NonVol) : Dev × NonVol :=
  let f := cutSave d v.flash
  let d1 := ({ d with mgmt := {}, ptp := {}, pwr := { d.pwr with mgmtStop := false, kickAt := some d.now } }.freshWords 7 0
    (eccSramWords 7)).firmwareObjects f
  let d2 := (d1.setB R.DEV_MBX_STATUS_BUSY false).setB R.DEV_STORE_RESULT_BUSY false
  (((d2.set R.TIM_STATUS_SYNC 0).bump R.PWR_MGMT_RST_CNT 1).raise Ev.MGMT_RESET (if watchdog then 1 else 0), { v with flash := f })

/-- MGMT, accepted in any state. -/
def execMgmt (s : State) : Out := onDevNv (fun d v => mgmtReset false (d.set R.PWR_RST_RESULT 0) v) s

/-- PWR_WDT_KICK. -/
def Dev.kick (d : Dev) : Dev := { d with pwr := { d.pwr with kickAt := some d.now } }

/-- PWR_WDT_KICK. [DEDUCED, unsafe, log 17] -/
def execPwrWdtKick (s : State) : Out := onDev Dev.kick s

/-- PWR_WDT ms have passed since the last kick; 0 disables the watchdog. [DEDUCED, unsafe, log 101] -/
def Dev.watchdogDue (d : Dev) : Bool :=
  let t := d.get R.PWR_WDT
  t != 0 && (match d.pwr.kickAt with
    | some k => decide (k + t * 1000000 ≤ d.now)
    | none => true)

/-- WATCHDOG_EXPIRY. -/
def execWatchdogExpiry (s : State) : Out :=
  onDevNv (fun d v => if d.watchdogDue then mgmtReset true d v else (d, v)) s

/-! ## Device states (R471–R473) -/

/-- The result of a state command. -/
def Dev.stateResult (d : Dev) (code : Nat) : Dev := d.set R.DEV_STATE_RESULT_CODE code

/-- An accepted state command. -/
def Dev.stateTake (d : Dev) : Dev := (d.stateResult 0).wrap R.DEV_STATE_RESULT_SEQ 1

/-- The device changes its state: STATE_CHANGE, and the own REPORT in a fabric (14 R384). -/
def Dev.toState (d : Dev) (x : DevState) : Dev :=
  let e := { d with dstate := x }.raise Ev.STATE_CHANGE (x.code + 16 * d.dstate.code)
  if e.fabOn then e.report else e

/-- IDLE is entered: a resume ends (03 R115), and a swap still scheduled takes effect, but for a fabric swap without COMMIT (01 R41). -/
def Dev.enterIdle (d : Dev) : Dev :=
  let d1 := d.toState .idle
  let d2 := { d1 with fab := { d1.fab with idleAt := d1.now } }.resumeLeft
  match d2.job.swap with
  | some q => if q.fabric && !q.granted then d2 else d2.swapNow.reSluiceAll
  | none => d2

/-- The head job is primed anew: its first band is walked (R100). -/
def Dev.prime (d : Dev) : Dev :=
  match d.headSlot with
  | none => d
  | some q =>
    if (d.slot q).st ≠ .head then d
    else
      ({ d with exp := { d.exp with walkPend := d.exp.walkPend.filter (fun w => w.1 != q),
                                    walks := d.exp.walks.filter (fun w => w.slot != q) } }).askWalk q (d.slot q).firstBand

/-- ARM, in the order of R471. -/
def Dev.arm (d : Dev) : Dev :=
  if d.dstate ≠ .idle then d.stateResult 2
  else if d.level = .basic then d.stateResult 3
  else if d.fabOn = true ∧ d.fab.st ≠ .ready then (d.raise Ev.ARM_REFUSED_FABRIC d.fab.st.code).stateResult 4
  else if !d.domOn 6 then d.stateResult 8
  else
    let r := d.plan d.active
    if !r.2 then r.1.stateResult 5
    else match r.1.shortInput r.1.active with
      | some i => (r.1.raise Ev.ITEM_OFFSET_SHORT i).stateResult 6
      | none =>
        if r.1.job.swap.isSome && r.1.swapChangesClasses then r.1.stateResult 9
        else (r.1.toState .armed).stateTake.prime.bistTouch

/-- ARM. -/
def execArm (s : State) : Out := onDev Dev.arm s

/-- RUN. -/
def Dev.toRun (d : Dev) : Dev :=
  if d.dstate ≠ .armed then d.stateResult 2
  else if d.level = .basic then d.stateResult 3
  else (d.toState .run).stateTake.jobsAtRun

/-- RUN. -/
def execRun (s : State) : Out := onDev Dev.toRun s

/-- DISARM. -/
def Dev.disarm (d : Dev) : Dev := if d.dstate ≠ .armed then d.stateResult 2 else d.enterIdle.stateTake

/-- DISARM. -/
def execDisarm (s : State) : Out := onDev Dev.disarm s

/-- STOP (R472). -/
def Dev.stop (d : Dev) : Dev :=
  if d.dstate ≠ .run then d.stateResult 2
  else if d.job.order.any (fun q => (d.slot q).st == .active) then d.stateResult 7
  else d.enterIdle.stateTake

/-- STOP. -/
def execStop (s : State) : Out := onDev Dev.stop s

/-! ## Boot (R465–R470, Table 17.6) -/

/-- Boot goes on with a step. -/
def Dev.bootStep (d : Dev) (n : Nat) : Dev := d.set R.DEV_STATE_BOOT_STEP n

/-- A failure halts the device in BOOT (R467). -/
def Dev.bootHalt (d : Dev) (step code : Nat) : Dev :=
  ((d.bootStep step).set R.DEV_BOOT_ERR (step + 256 * code)).raise Ev.BOOT_HALT (step + 256 * code)

/-- The size of a store slot in a flash of `n` bytes (19 R487). -/
def slotSize (n : Nat) : Nat := (n - 0x610000) / 131072 * 65536

/-- Device time from the keeper (15 R410, R411), KEEPER_LOST where the keeper was cleared since the last boot (R460). -/
def Dev.bootTime (d : Dev) (k : Keep) : Dev :=
  let d := when k.lost (fun (d : Dev) => d.raise Ev.KEEPER_LOST 0) d
  if k.pwrFail then d.raise Ev.TIME_INVALID 0
  else
    ({ d with tim := { d.tim with sec := k.sec, ns := k.sub * nsPerSec / 32768 } }.setB R.TIM_STATUS_VALID true).setB
      R.TIM_STATUS_KEEPER true

/-- The Active profile is made equal to the Shadow profile (16 R448). [DEDUCED, unsafe, log 99] -/
def Dev.activate0 (d : Dev) : Dev :=
  { d with active := d.shadow, las := { d.las with remapA := d.las.remapS }, dos := { d.dos with corrA := d.dos.corrS }
           cmp := { d.cmp with tplA := d.cmp.tplS } }

/-- The settings store at boot (16 R448, 19 R498). -/
def Dev.bootStore (d : Dev) (f : Flash) : Dev :=
  match f.newest with
  | some (n, l) => ((d.storeIn n l).raise Ev.STORE_LOADED (slotDetail n l)).activate0
  | none =>
    let d1 := if f.schemaLost then d.raise Ev.SCHEMA_RESET (f.lostDetail) else d
    (d1.setB R.DEV_STORE_STATUS_DEFAULTS true).raise Ev.STORE_DEFAULTS 0

/-- Domains that PWR_DOM_BOOT leaves out go off; bits 0 and 9 are ignored (Table 17.11). -/
def Dev.bootDomains (d : Dev) : Dev :=
  forEach ((List.range 8).map (· + 1)) (fun (d : Dev) c => if hasBit (d.get R.PWR_DOM_BOOT) c then d else d.switchOff c false) d

/-- Boot-time self-test: the failing tests of domains that are on (18 R484); memory 7 is never tested (18 R482). -/
def Dev.bootBist (d : Dev) (l : List BistRes) : Dev :=
  forEach (l.filter (fun (r : BistRes) => r.test != 1 || r.target != 7)) (fun (d : Dev) r => if d.domOn (bistDomain r.test r.target) then d.bistReport r.test r.target r.failed r.first else d) d

/-- DDR5 training of an enabled channel at DRC_CFG.TRAIN_LVL; one that the environment does not give passes at no delay. [DEDUCED, unsafe, log 101] -/
def Dev.bootTrain (d : Dev) (l : List TrainRes) (c : Nat) : Dev :=
  if d.chOn c && d.domOn (4 + c) then
    let r := (l.find? (fun t => t.ch == c)).getD { ch := c, eyes := [], rfm := false }
    (d.retrain c (d.get (R.DRC_CFG_TRAIN_LVL c))).trainDone c r.eyes r.rfm
  else d

/-- Step 8: the die temperature is measured, and every converter is calibrated where PD_ANA is on (18 R481). [DEDUCED, unsafe, log 88] -/
def Dev.bootAdc (d : Dev) (temp : Int) (l : List AdcMeas) : Dev :=
  let e := d.dieTemp temp
  if e.domOn 8 then (e.calibrate 0x1FF l).d else e

/-- Step 9: enabled fabric ports enter SEARCH (14 R373). -/
def Dev.bootFabric (d : Dev) : Dev :=
  if d.domOn 3 then forEach (List.range 8) (fun (d : Dev) n => d.fpTrain n) d else d

/-- Step 10: the level from the active causes (R469), IDLE, BOOT_DONE. FIRE_INHIBIT_N low is reported on the entry to IDLE. -/
def Dev.bootEnd (d : Dev) (ms cause : Nat) : Dev :=
  let on := 1 + (if hasBit d.evt.lvlActive 1 then 2 else 0) + (if d.chOut 0 then 4 else 0) + (if d.chOut 1 then 8 else 0)
  let d1 := { d with level := .full, evt := { d.evt with lvlActive := on, lvlLatched := on } }.levelUp
  let d2 := d1.enterIdle
  let d3 := when d2.pos.inhibit (fun (d : Dev) => d.raise Ev.INHIBIT_ASSERTED 0) d2
  (((d3.kick.bootStep 10).set R.DEV_BOOT_MS ms).raise Ev.BOOT_DONE (ms % 65536 + 65536 * cause))

/-- Steps 5 to 10. -/
def Dev.bootOn (d : Dev) (env : BootEnv) (v : NonVol) : Dev :=
  let d5 := ((((d.set R.DEV_STORE_SCHEMA v.flash.schema).bootTime v.keep).firmwareObjects v.flash).bootStore v.flash).bootDomains
  let d7 := (List.range 2).foldl (fun (d : Dev) c => d.bootTrain env.train c) (d5.bootBist env.bist)
  ((d7.bootAdc env.temp env.adc).bootFabric).bootEnd env.ms v.keep.cause

/-- A DRAM domain whose rail is out of range when the device starts is off: R455 brings its channel back only by a switch-on and a RETRAIN. [DEDUCED, unsafe, log 98] -/
def Dev.railDomains (d : Dev) : Dev :=
  forEach [4, 5] (fun (d : Dev) c =>
    if d.railIn c then d else d.set R.PWR_DOM_STATUS_ON (setMask (d.get R.PWR_DOM_STATUS_ON) c false)) d

/-- Step 4: the second stage compares the hash of each part again; the code of the halt is not stated: a free value (19 R497, R467). [DEDUCED, unsafe, log 101] -/
def Dev.partHalt (d : Dev) : Dev :=
  let x := d.fresh 0x497 8
  x.2.bootHalt 4 x.1

/-- The boot sequence on a device that stands at its reset values. [DEDUCED, unsafe, log 21; DEDUCED, unsafe, log 101] -/
def bootRun (env : BootEnv) (d : Dev) (v : NonVol) : Dev × NonVol :=
  let d1 := { d with dstate := .boot }.railDomains
  if env.flash < 8388608 ∨ 67108864 < env.flash then (d1.bootHalt 1 0x10, v)
  else
    let d2 := (d1.set R.UPD_FLASH_SIZE env.flash).set R.DEV_STORE_SLOT (slotSize env.flash)
    let d3 := when (v.keep.supply != 0) (fun (d : Dev) => d.raise Ev.SUPPLY_FAULT v.keep.supply) d2
    let v3 := { v with keep := { v.keep with supply := 0 } }
    let x := bundleStart env (d3.bootStep 3) v3
    match x.halt with
    | some (step, code) => (x.d.bootHalt step code, x.v)
    | none =>
      if x.lost then (x.d, x.v)
      else
        let d4 := (x.d.set R.UPD_LAST_ACT x.last).set R.UPD_STATUS_STATE (stagingAfter x.v.flash).code
        if env.partBad then (d4.partHalt, x.v)
        else (d4.bootOn env x.v, { x.v with keep := { x.v.keep with lost := false } })

/-- A device that is no longer held in reset boots. [DESIGN CHOICE, safe, log 4; DESIGN CHOICE, unsafe, log 104] -/
def startUp (env : BootEnv) (s : State) : State :=
  let d := { s.dev.atReset with dstate := .boot }
  if d.awake then
    let r := bootRun env d s.nv
    { s with dev := r.1, nv := r.2 }
  else s

/-- PORST_RELEASE: PORST_N rises. First the pins return to functional control (20 R513). A device that stands in BOOT or KEEP starts
once its supplies and clock are there. [DESIGN CHOICE, safe, log 4; DEDUCED, unsafe, log 99; DESIGN CHOICE, unsafe, log 104] -/
def execPorstRelease (env : BootEnv) (s : State) : Out :=
  let waits := s.dev.get R.DEV_BOOT_ERR == 0 && s.dev.get R.DEV_STATE_BOOT_STEP == 1
  let s0 := if s.dev.pwr.porst && s.dev.dstate != .keep then s.cause 0 else s
  let s1 := { s0 with dev := { s0.dev with pwr := { s0.dev.pwr with porst := false } }, tap := s0.tap.atPorst false }
  .next (if (s1.dev.dstate == .boot && (s.dev.pwr.porst || waits)) || (s1.dev.dstate == .keep && s1.dev.mainRails) then
    startUp env s1 else s1)

/-- RAILS_BACK_IN_RANGE: every rail is in range; VAUX carries the keeper. A device held for want of a main supply starts (R454). [DESIGN CHOICE, unsafe, log 104] -/
def execRailsBackInRange (env : BootEnv) (s : State) : Out :=
  let held := s.dev.dstate == .keep || !s.dev.mainRails
  let s1 := { s with dev := s.dev.set R.PWR_SUPPLY_STATUS 0x7F, nv := { s.nv with keep := { s.nv.keep with onVkeep := false } } }
  .next (if held then startUp env { s1 with dev := { s1.dev with dstate := .boot } } else s1)

/-- SYSCLK_IN_RESTORED (R465). [DESIGN CHOICE, unsafe, log 104] -/
def execSysclkInRestored (env : BootEnv) (s : State) : Out :=
  if s.dev.pwr.noClock then
    .next (startUp env { s with dev := { s.dev with pwr := { s.dev.pwr with noClock := false } } })
  else .next s

/-- A SYSTEM reset that is accepted (R462), up to the start of the boot. [DEDUCED, unsafe, log 100] -/
def systemReset (s : State) : State := deviceReset (s.cause 2)

/-- SYSTEM is accepted in BOOT and IDLE, and in any state with FORCE. -/
def Dev.systemOk (d : Dev) (force : Bool) : Bool := force || d.dstate == .boot || d.dstate == .idle

/-- SYSTEM. [DEDUCED, unsafe, log 100] -/
def execSystem (force : Bool) (env : BootEnv) (s : State) : Out :=
  if !s.dev.awake then .next s
  else if s.dev.systemOk force then .next (startUp env (systemReset s))
  else .next { s with dev := s.dev.set R.PWR_RST_RESULT 2 }

end Sys2Proof.Machine
end

