-- ==== Sys2Proof/Machine/Bus.lean ====
section
/-! DEFINITION. Accesses to BAR0 (00_scope R4–R7, 16 R424, R425, R450): command words, settings, reads. -/

namespace Sys2Proof.Machine

/-! ## Commands behind a word -/

/-- The state an outcome leaves; what names no instance leaves it as it is. -/
def after (f : State → Out) (s : State) : State :=
  match f s with
  | .next t => t
  | _ => s

/-- A word of command bits runs the commands of its set bits, lowest first. [DEDUCED, unsafe, log 17] -/
def runBits (v : Nat) (l : List (State → Out)) (s : State) : State :=
  l.zipIdx.foldl (fun s e => if hasBit v e.2 then after e.1 s else s) s

/-- A word with an opcode, 1 first, runs its command. [DEDUCED, unsafe, log 17] -/
def runOp (op : Nat) (l : List (State → Out)) (s : State) : State :=
  match op with
  | 0 => s
  | n + 1 => match (l.drop n).head? with
    | some f => after f s
    | none => s

/-- JOB_ARG. -/
def Dev.jobArg (d : Dev) (i : Nat) : Nat := d.get (R.JOB_ARG i)

/-- Two JOB_ARG words as one value. [DEDUCED, safe, log 18] -/
def Dev.jobPair (d : Dev) (i : Nat) : Nat := d.jobArg i + 2 ^ 32 * d.jobArg (i + 1)

/-- JOB_CMD with its arguments (03 Table 3.9). -/
def jobWord (op : Nat) (s : State) : State :=
  let a := s.dev.jobArg
  let p := s.dev.jobPair
  runOp op [execWellDefine (a 0) (a 1 % 4) (p 2) (p 4), execWellOpen (a 0), execWellSeal (a 0), execWellRelease (a 0),
    execEnqueue (a 0) (a 1 % 4) (bitsOf (a 1) 4 3) (bitsOf (a 1) 16 16) (p 2) (a 4), execAbort (a 0),
    execSwap (a 0 % 4) (hasBit (a 0) 8) (a 1) (p 2), execSwapCancel, execResume (p 2)] s

/-- TIM_CMD with its arguments (15 Table 15.6). -/
def timWord (op : Nat) (s : State) : State :=
  let d := s.dev
  runOp op [execSet false (d.get64 R.TIM_ARG_SEC_LO) (d.get R.TIM_ARG_NS), execStep false (toSigned 64 (d.get64 R.TIM_ARG_OFS_LO))] s

/-- PWR_RST_CMD (17 R462). A SYSTEM reset so requested leaves the device in BOOT, at its start. [DEDUCED, unsafe, log 100] -/
def resetWord' (v : Nat) (s : State) : State :=
  if bitsOf v 16 16 ≠ 0x2618 then s
  else if v % 4 = 2 then after execMgmt s
  else if v % 4 = 1 then
    if s.dev.systemOk (hasBit v 8) then systemReset s else { s with dev := s.dev.set R.PWR_RST_RESULT 2 }
  else s

/-- The doorbell of the mailbox: a message of `len` bytes waits; one at a time (16 R442). [DEDUCED, unsafe, log 95] -/
def Dev.ring (d : Dev) (len : Nat) : Dev :=
  if d.is R.DEV_MBX_STATUS_BUSY then d.setB R.DEV_MBX_STATUS_OVR true
  else
    ({ d with mgmt := { d.mgmt with bell := some len } }.setB R.DEV_MBX_STATUS_BUSY true).setB R.DEV_MBX_STATUS_DONE false

/-- An MDIO access by NET_MDIO: what the PHY answers is a free value. [DESIGN CHOICE, safe, log 86] -/
def mdioWord (v : Nat) (s : State) : State :=
  let (x, d) := s.dev.fresh 0x418 16
  after (execNetMdioAccess (BitVec.ofNat 32 v) x) { s with dev := d }

/-- MERGE by a write of FAB_CMD: the roster of the far component, which no operand gives, is a free value. [DESIGN CHOICE, unsafe, log 71] -/
def mergeByWrite (port : Nat) (s : State) : Out :=
  execFabCmdMerge port ((Config.farRoster s.dev.free).filter (fun e => decide (e.1 < 64) && e.2 != 0))
    { s with dev := { s.dev with free := s.dev.free + 1 } }

/-- The keeper's W1C words. -/
def keepWord (f : Keep → Keep) (s : State) : State := { s with nv := { s.nv with keep := f s.nv.keep } }

/-- DMA_CH_CMD: an opcode that names no command completes with BAD_ARG (12 R337, 16 R425). -/
def dmaWord (n op : Nat) (s : State) : State :=
  if op = 0 ∨ 4 < op then { s with dev := s.dev.dmaCmd n (fun d => (d, 3)) }
  else runOp op [execDmaStart n false, execDmaPause n, execDmaResume n, execDmaStop n] s

/-- CRC_CMD: a write to a held unit is discarded and counted whatever its LOAD bit (12 R347). -/
def crcWord (u v : Nat) (s : State) : State :=
  if hasBit v 0 then after (execCrcLoad u) s else { s with dev := s.dev.crcHost u id }

/-- A command on the flash that a register or object write starts: whether the flash errs is a free value. [DEDUCED, unsafe, log 16] -/
def flashWord (f : Bool → State → Out) (s : State) : State :=
  let x := s.dev.fresh 0x493 1
  after (f (x.1 == 1)) { s with dev := x.2 }

/-- UPD_CMD (19 R491). -/
def updWord (op : Nat) (s : State) : State :=
  match op with
  | 1 => after execUpdBegin s
  | 2 => flashWord execUpdBlock s
  | 3 => after execUpdVerify s
  | 4 => flashWord execUpdActivate s
  | 5 => flashWord execUpdCancel s
  | _ => s

/-- DEV_STORE_CMD (16 Table 16.13). -/
def storeWord (op : Nat) (s : State) : State :=
  match op with
  | 1 => after execSave s
  | 2 => after execStoreLoad s
  | 3 => flashWord execErase s
  | _ => s

/-- Command words of blocks that exist once. Commands that ask something of the outside run as where nothing goes wrong. [DEDUCED, unsafe, log 16] -/
def cmdFixed (a v : Nat) : Option (State → State) :=
  match a with
  | 0x4 => some (runOp (v % 8) [execArm, execRun, execDisarm, execStop])
  | 0x108 => some (runBits v [execRevert])
  | 0x120 => some (storeWord (v % 4))
  | 0x160 => some (fun s => { s with dev := s.dev.ring (v % 4096) })
  | 0x10000 => some (runOp (bitsOf v 8 2) [execPwrDomOn (v % 16), execPwrDomOff (v % 16)])
  | 0x10014 => some (resetWord' v)
  | 0x10020 => some (after execPwrWdtKick)
  | 0x10800 => some (keepWord (fun k => { k with cause := k.cause - (k.cause &&& (v % 32)) }))
  | 0x10804 => some (keepWord (fun k => { k with rail := k.rail - (k.rail &&& (v % 128)) }))
  | 0x20004 => some (runOp (v % 4) [execClear, execRestore])
  | 0x30008 => some (runBits v [execLoad, execRestoreKeep, execRestoreLoad])
  | 0x80000 => some (jobWord (v % 16))
  | 0xA0000 => some (runBits v [execCmpValidate, execFlush, execGlyphCommit, execCntLoad])
  | 0xA0020 => some (after (execRecPush (v % 2048)))
  | 0xB0000 => some (runBits v [execDosValidate])
  | 0xB0028 => some (runBits v [execInject])
  | 0xC0000 => some (runBits v [execLasValidate, execPlan, execFillIdentity])
  | 0xC0010 => some (fun s => runBits (bitsOf v 8 1) [execLasHoldClr] { s with dev := s.dev.settingWrite 0xC0010 v })
  | 0x140004 => some (runOp (v % 8) [mergeByWrite (bitsOf v 8 6), execFabCmdAnchor (bitsOf v 8 6)])
  | 0x180000 => some (runOp (v % 8) [execScrub, execFill, execEccAbort, execTestWrite, execTestRead, execTestGen])
  | 0x1B0004 => some (timWord (v % 4))
  | 0x1B0420 => some (mdioWord v)
  | 0x1C0000 => some (runOp (v % 4) [execCalAdc, execBist, execCalAbort])
  | 0x1D0000 => some (updWord (v % 8))
  | _ => none

/-- Command words of replicated blocks. [DEDUCED, unsafe, log 16] -/
def cmdArray (a v : Nat) : Option (State → State) :=
  let p := (a - 0x100000) / 0x1000
  let n := (a - 0x191000) / 0x100
  let u := (a - 0x1A0100) / 0x40
  if a = 0x99000 ∨ a = 0x99400 then some (runBits v [execCmprStart ((a - 0x99000) / 0x400), execCmprAbort ((a - 0x99000) / 0x400)])
  else if 0x100000 ≤ a ∧ a < 0x120000 ∧ a % 0x1000 = 0x4 then
    some (runBits v [execTrain p, execEiEnter p, execEiExit p, execLoopStart p, execLoopStop p])
  else if 0x100000 ≤ a ∧ a < 0x120000 ∧ a % 0x1000 = 0x140 then
    some (runOp (v % 8) [execPing p, execStatusReq p, execElemCheck p, execSetParam p, execGetParam p, execClearFault p, execElemCancel p])
  else if 0x140104 ≤ a ∧ a < 0x140304 ∧ a % 0x40 = 0x4 then
    some (runOp (v % 4) [execFpTrain ((a - 0x140100) / 0x40), execFpLoopStart ((a - 0x140100) / 0x40), execFpLoopStop ((a - 0x140100) / 0x40)])
  else if a = 0x160004 ∨ a = 0x170004 then
    some (runOp (v % 8) [execRetrain ((a - 0x160000) / 0x10000) (bitsOf v 8 1), execFreq ((a - 0x160000) / 0x10000) (bitsOf v 4 2)])
  else if 0x191000 ≤ a ∧ a < 0x195000 ∧ a % 0x100 = 0 then
    some (dmaWord n (v % 8))
  else if 0x1A0100 ≤ a ∧ u < 36 ∧ a % 0x40 = 0x18 then some (after (execCrcData u (BitVec.ofNat 32 v)))
  else if 0x1A0100 ≤ a ∧ u < 36 ∧ a % 0x40 = 0x1C then some (after (execCrcData8 u (BitVec.ofNat 8 v)))
  else if 0x1A0100 ≤ a ∧ u < 36 ∧ a % 0x40 = 0x20 then some (crcWord u v)
  else none

/-- The commands behind the word at `a`, if any. -/
def cmdWord (a v : Nat) : Option (State → State) := (cmdFixed a v).or (cmdArray a v)

/-! ## Accesses -/

/-- No register answers at `a`: none exists there, its power domain is off, or boot has not reached IDLE (16 R450, 17 R468). [DESIGN CHOICE, safe, log 15] -/
def Dev.barSilent (d : Dev) (a : Nat) : Bool :=
  (d.dstate == .boot && decide (2 ≤ a / 0x10000)) || ((rowsAt a).isEmpty && (activeOf a).isNone) || !d.addrOn a

/-- A DMA_CH_CMD word, whose chapter gives an undefined opcode a result of its own. -/
def dmaCmdAddr (a : Nat) : Bool := decide (0x191000 ≤ a) && decide (a < 0x195000) && a % 0x100 == 0

/-- Command words that take one command at a time: BUSY, OVR, where the opcode stands, and the last opcode (03 R116, 10 R309, 11 R329,
15 R407, 16 Table 16.13, 17 R456, 19 R491). -/
def busyWord (a : Nat) : Option (Fld × Fld × Nat × Nat × Nat) :=
  match a with
  | 0x120 => some (R.DEV_STORE_RESULT_BUSY, R.DEV_STORE_RESULT_OVR, 0, 2, 3)
  | 0x10000 => some (R.PWR_DOM_RESULT_BUSY, R.PWR_DOM_RESULT_OVR, 8, 2, 2)
  | 0x80000 => some (R.JOB_RESULT_BUSY, R.JOB_RESULT_OVR, 0, 4, 9)
  | 0x160004 => some (R.DRC_RESULT_BUSY 0, R.DRC_RESULT_OVR 0, 0, 3, 2)
  | 0x170004 => some (R.DRC_RESULT_BUSY 1, R.DRC_RESULT_OVR 1, 0, 3, 2)
  | 0x180000 => some (R.ECC_RESULT_BUSY, R.ECC_RESULT_OVR, 0, 3, 6)
  | 0x1B0004 => some (R.TIM_RESULT_BUSY, R.TIM_RESULT_OVR, 0, 2, 2)
  | 0x1D0000 => some (R.UPD_RESULT_BUSY, R.UPD_RESULT_OVR, 0, 3, 5)
  | _ => none

/-- The OVR bit that a write of no command sets while the command word's block is BUSY: the write is discarded whatever its opcode. -/
def Dev.strayCommand (d : Dev) (a v : Nat) : Option Fld :=
  match busyWord a with
  | some (busy, ovr, lo, w, n) =>
    if d.is busy && (bitsOf v lo w == 0 || decide (n < bitsOf v lo w) || !d.wordOk a v) then some ovr else none
  | none => none

/-- A write of the aligned word at `a`. [DEDUCED, unsafe, log 16] -/
def busWrite (a v : Nat) (s : State) : State :=
  if s.dev.barSilent a then { s with dev := s.dev.barMiss }
  else match s.dev.strayCommand a v with
  | some ovr => { s with dev := s.dev.setB ovr true }
  | none => match cmdWord a v with
    | some f => if dmaCmdAddr a || s.dev.wordOk a v then f s else { s with dev := s.dev.rangeDiscard }
    | none => { s with dev := s.dev.settingWrite a v }

/-- A read of the aligned word at `a`. -/
def busRead (a : Nat) (s : State) : Nat × State :=
  if s.dev.barSilent a then (0, { s with dev := s.dev.barMiss })
  else
    let r := s.dev.readWord s.nv a
    (r.1, { s with dev := r.2 })

/-- The endpoint answers the host: the device is awake and PERST_N high (17 R463). -/
def Dev.hostUp (d : Dev) : Bool := d.awake && !d.pwr.perst

end Sys2Proof.Machine
end

