-- ==== Sys2Proof/Machine/ObjWrite.lean ====
section
/-! DEFINITION. Writes and reads of objects (16 R423–R428, R436, R440–R443, R452): the checks of an item in their order, command
objects, DOM objects. -/

namespace Sys2Proof.Machine

/-! ## Items -/

/-- A read or write item (Table 16.6): index, subindex, flags, DOM offset, value length or length wanted, value. -/
structure IopItem where
  idx : Nat
  sub : Nat
  flags : Nat
  ofs : Nat
  len : Nat
  val : List Byte
  deriving DecidableEq, Repr

/-- SEGMENT of a write item. -/
def IopItem.segment (w : IopItem) : Bool := hasBit w.flags 0

/-- FINAL of a write item. -/
def IopItem.final (w : IopItem) : Bool := hasBit w.flags 1

/-- Zeros that pad `n` bytes to a multiple of four. -/
def padTo4 (n : Nat) : List Byte := List.replicate ((4 - n % 4) % 4) 0

/-- `l` padded with zeros to a multiple of four bytes. -/
def padded (l : List Byte) : List Byte := l ++ padTo4 l.length

/-- `n` items that fill a body (Table 16.6): none where they do not fit it (R433). -/
def parseItems (write : Bool) : Nat → List Byte → Option (List IopItem)
  | 0, l => if l.isEmpty then some [] else none
  | n + 1, l =>
    if l.length < 12 then none
    else
      let len := leAt l 8 2
      let size := if write then 12 + (len + 3) / 4 * 4 else 12
      if l.length < size then none
      else
        let w : IopItem := { idx := leAt l 0 2, sub := leAt l 2 1, flags := leAt l 3 1, ofs := leAt l 4 4, len := len,
                             val := if write then sliceOf l 12 len else [] }
        (parseItems write n (l.drop size)).map (fun r => w :: r)

/-! ## Command objects (R440) -/

/-- What a write of a command object hands to its block: argument words, the command word and its address, the field that says the
command is running, the field of its result. -/
structure ObjRun where
  args : List (Nat × Nat) := []
  addr : Nat
  word : Nat
  busy : Option Fld := none
  code : Option Fld := none

/-- Words of a byte string, stored from address `a` up. [DEDUCED, unsafe, log 97] -/
def argWords (a n : Nat) (l : List Byte) : List (Nat × Nat) := (List.range n).map (fun j => (a + 4 * j, leAt l (4 * j) 4))

/-- Head command: an opcode and its argument bytes (09 Table 9.9). -/
def headRun (i : Nat) (l : List Byte) : ObjRun :=
  { args := (R.HPF_CMD_LEN i |>.addr, l.length - 1) :: argWords (0x100400 + 0x1000 * i) ((l.length + 2) / 4) (l.drop 1)
    addr := 0x100140 + 0x1000 * i, word := leAt l 0 1, busy := some (R.HPF_CMD_RESULT_BUSY i), code := some (R.HPF_CMD_RESULT_CODE i) }

/-- The command behind a value of a command object; the update block and the record push carry data and have no such form. [DEDUCED, unsafe, log 16; DEDUCED, unsafe, log 97] -/
def ObjCmd.run (k : ObjCmd) (i : Nat) (l : List Byte) : ObjRun :=
  let n := leOf l
  match k with
  | .store => { addr := 0x120, word := n, busy := some R.DEV_STORE_RESULT_BUSY, code := some R.DEV_STORE_RESULT_CODE }
  | .level => { addr := 0x20004, word := n, code := some R.EVT_LEVEL_RESULT_CODE }
  | .profile => { addr := 0x108, word := n, code := some R.DEV_PROF_RESULT }
  | .setTime =>
    { args := argWords 0x1B0024 2 l ++ argWords 0x1B0020 1 (l.drop 8), addr := 0x1B0004, word := 1, busy := some R.TIM_RESULT_BUSY, code := some R.TIM_RESULT_CODE }
  | .step =>
    { args := argWords 0x1B002C 2 l, addr := 0x1B0004, word := 2, busy := some R.TIM_RESULT_BUSY, code := some R.TIM_RESULT_CODE }
  | .update =>
    { args := if leAt l 0 1 = 1 then [(R.UPD_TOTAL.addr, leAt l 4 4)] else [], addr := 0x1D0000, word := leAt l 0 1
      busy := some R.UPD_RESULT_BUSY, code := some R.UPD_RESULT_CODE }
  | .block => { addr := 0x1D0000, word := 2, busy := some R.UPD_RESULT_BUSY, code := some R.UPD_RESULT_CODE }
  | .state => { addr := 0x4, word := n, code := some R.DEV_STATE_RESULT_CODE }
  | .domain => { addr := 0x10000, word := n, busy := some R.PWR_DOM_RESULT_BUSY, code := some R.PWR_DOM_RESULT_CODE }
  | .reset => { addr := 0x10014, word := n, code := some R.PWR_RST_RESULT }
  | .fab => { addr := 0x140004, word := n, code := some R.FAB_RESULT_CODE }
  | .fp => { addr := 0x140104 + 0x40 * i, word := n }
  | .job =>
    { args := argWords 0x80010 6 (l.drop 4), addr := 0x80000, word := leAt l 0 4, busy := some R.JOB_RESULT_BUSY
      code := some R.JOB_RESULT_CODE }
  | .record => { addr := 0xA0020, word := l.length, code := some R.CMP_REC_RESULT_CODE }
  | .inject => { addr := 0xB0028, word := n }
  | .link => { addr := 0x100004 + 0x1000 * i, word := 2 ^ (n - 1), code := some (R.HPL_RESULT_CODE i) }
  | .loop => { addr := 0x100004 + 0x1000 * i, word := 2 ^ (n + 2), code := some (R.HPL_RESULT_CODE i) }
  | .element =>
    { addr := 0x100140 + 0x1000 * i, word := if n = 1 then 3 else 7, busy := if n = 1 then some (R.HPF_CMD_RESULT_BUSY i) else none
      code := some (R.HPF_CMD_RESULT_CODE i) }
  | .head => headRun i l
  | .drc =>
    { addr := 0x160004 + 0x10000 * i, word := n, busy := some (R.DRC_RESULT_BUSY i), code := some (R.DRC_RESULT_CODE i) }
  | .ecc =>
    { args := (0x180008, leAt l 4 4) :: argWords 0x180010 4 (l.drop 8), addr := 0x180000, word := leAt l 0 4
      busy := some R.ECC_RESULT_BUSY, code := some R.ECC_RESULT_CODE }
  | .dma => { addr := 0x191000 + 0x100 * i, word := n, code := some (R.DMA_CH_RESULT_CODE i) }
  | .adc =>
    { args := [(0x1C0004, n)], addr := 0x1C0000, word := 1, busy := some R.CAL_RESULT_BUSY, code := some R.CAL_RESULT_CODE }
  | .test =>
    { args := argWords 0x1C0004 5 l, addr := 0x1C0000, word := 2, busy := some R.BIST_RESULT_BUSY, code := some R.BIST_RESULT_CODE }

/-- Lengths a DOM command takes: least and greatest. -/
def ObjCmd.domLength (k : ObjCmd) : Nat × Nat :=
  match k with
  | .setTime => (12, 12)
  | .update => (8, 8)
  | .block => (8, 1028)
  | .job => (28, 28)
  | .record => (20, 1024)
  | .head => (1, 1025)
  | .ecc => (24, 24)
  | .test => (20, 20)
  | _ => (0, 0)

/-- The opcode in a command word of layout: DOM 9:8 of a domain command, all of a reset command, else the low field of its register. -/
def ObjCmd.opcode (k : ObjCmd) (w : Nat) : Nat :=
  match k with
  | .domain => bitsOf w 8 2
  | .reset => w
  | .job => w % 16
  | .fp => w % 4
  | _ => w % 8

/-- The value of a command object is one its entry defines (R425). Where the entry names a register's layout, reserved bits follow R7. -/
def Dev.cmdDefined (d : Dev) (k : ObjCmd) (i : Nat) (l : List Byte) : Bool :=
  let n := leOf l
  match k with
  | .block => true
  | .record => true
  | .setTime => true
  | .step => true
  | .inject => true
  | .store => decide (1 ≤ n) && decide (n ≤ 3)
  | .level => decide (1 ≤ n) && decide (n ≤ 2)
  | .profile => n == 1
  | .link => decide (1 ≤ n) && decide (n ≤ 3)
  | .loop => decide (1 ≤ n) && decide (n ≤ 2)
  | .element => decide (1 ≤ n) && decide (n ≤ 2)
  | .adc => decide (n < 512)
  | .test => true
  | k => k.opcode (k.run i l).word != 0 && d.wordOk (k.run i l).addr (k.run i l).word

/-- The command of an object is running (R436 BUSY). The blocks take ABORT of the ECC block (11 R329) and FREQ during a level 1 sweep
(10 R309) while they run. -/
def Dev.cmdBusy (d : Dev) (k : ObjCmd) (i : Nat) (l : List Byte) : Bool :=
  let busy := match (k.run i l).busy with
    | some f => d.is f
    | none => false
  match k with
  | .ecc => busy && leAt l 0 4 != 3
  | .drc => busy && !(leOf l % 8 == 2 && (match (d.drc i).train with
      | some (level, _) => level != 0
      | none => false))
  | _ => busy

/-- The detail of a command object's write: its result code, or all ones while it runs (R440). -/
def Dev.cmdDetail (d : Dev) (x : ObjRun) : Nat :=
  if (match x.busy with
    | some f => d.is f
    | none => false) then 0xFFFFFFFF
  else match x.code with
    | some f => d.get f
    | none => 0

/-- A command object's value goes to its block. -/
def cmdRun (k : ObjCmd) (i : Nat) (l : List Byte) (s : State) : State :=
  match k with
  | .block => flashWord (fun err => onDevNv (updBlock (leAt l 0 4) (l.drop 4) err)) s
  | .record => { s with dev := s.dev.pushRec l }
  | k =>
    let x := k.run i l
    let s1 := { s with dev := forEach x.args (fun (d : Dev) e => d.setReg e.1 (BitVec.ofNat 32 e.2)) s.dev }
    match cmdWord x.addr x.word with
    | some f => f s1
    | none => s1

/-! ## Checks of a write item (R436) -/

/-- The length of the value is one the object takes (R423). -/
def ObjRow.lengthOk (r : ObjRow) (n : Nat) : Bool :=
  match r.ty, r.back with
  | .dom, .cmd k => decide (k.domLength.1 ≤ n) && decide (n ≤ k.domLength.2)
  | .dom, .dom k => if k.table.isSome then n != 0 && n % 4 == 0 else n == (Dev.domSize {} k 0)
  | .str, _ => decide (n ≤ 255)
  | t, _ => n == t.size

/-- DOM offset or segmentation that the object does not take (R441). -/
def ObjRow.segmentBad (r : ObjRow) (w : IopItem) : Bool :=
  match r.ty, r.back with
  | .dom, .dom k => match k.table with
    | some (_, _, size) => w.ofs % 4 != 0 || decide (size < w.ofs + w.val.length)
    | none => w.ofs != 0 || w.segment
  | .dom, _ => w.ofs != 0 || w.segment
  | _, _ => false

/-- Locked table cells or slots, or the Shadow profile locked by a scheduled swap (R43, R162, R188). [DEDUCED, unsafe, log 96] -/
def Dev.itemLocked (d : Dev) (r : ObjRow) (i : Nat) (w : IopItem) : Bool :=
  (r.profile i && d.shadowLocked) ||
    (match r.back with
     | .dom .threshold => (List.range (w.val.length / 4)).any (fun j => d.cellLocked ((w.ofs / 4 + j) / 4))
     | .dom .glyph => (List.range (w.val.length / 4)).any (fun j => d.glyphLocked (w.ofs / 4 + j))
     | _ => false)

/-- The value is in the object's range (R423, R425). -/
def Dev.itemInRange (d : Dev) (r : ObjRow) (i : Nat) (l : List Byte) : Bool :=
  (r.ty != .bool || decide (leOf l ≤ 1)) &&
    (match r.back with
     | .dom k => d.domInRange k i l
     | .cmd k => d.cmdDefined k i l
     | _ => d.objInRange r i (leOf l))

/-- OVR of the block that takes a write of a command object while BUSY as a discarded command (15 R405, R407, 19 R491). -/
def ObjCmd.ovr (k : ObjCmd) : Option Fld :=
  match k with
  | .setTime => some R.TIM_RESULT_OVR
  | .step => some R.TIM_RESULT_OVR
  | .update => some R.UPD_RESULT_OVR
  | .block => some R.UPD_RESULT_OVR
  | _ => none

/-- A write item refused with `code` leaves its mark: OVR where the command's block is BUSY. [DEDUCED, unsafe, log 96] -/
def Dev.refusedItem (d : Dev) (r : ObjRow) (code : Nat) : Dev :=
  match r.back with
  | .cmd k => match k.ovr with
    | some f => if code = 10 then d.setB f true else d
    | none => d
  | _ => d

/-- The object's command is running. [DEDUCED, unsafe, log 96] -/
def Dev.itemBusy (d : Dev) (r : ObjRow) (i : Nat) (l : List Byte) : Bool :=
  match r.back with
  | .cmd k => d.cmdBusy k i l
  | _ => false

/-- The first failing check of a write item, 0 where all pass (R436, Table 16.7). [DEDUCED, unsafe, log 96] -/
def Dev.writeCode (d : Dev) (expert : Bool) (w : IopItem) : Nat :=
  match findObj w.idx w.sub with
  | .noObject => 1
  | .noSub => 2
  | .found r i =>
    if r.acc = .ro ∨ r.acc = .const then 3
    else if (r.exp || decide (0x6000 ≤ w.idx)) && !expert then 5
    else if !r.lengthOk w.val.length then 6
    else if r.segmentBad w then 11
    else if !d.objOn r i then 12
    else if d.objStateBad r i then 8
    else if d.itemLocked r i w then 9
    else if !d.itemInRange r i w.val then 7
    else if d.itemBusy r i w.val then 10
    else 0

/-! ## Host accesses of 0x6000 (R452) -/

/-- The BAR0 or BAR4 address that object 0x6000.`sub` holds. -/
def Dev.barAddr (d : Dev) (sub : Nat) : Nat := d.obj 0x6000 sub 0

/-- 0x6000.02 written: a host write of BAR0; an unaligned address has no effect (00_scope R4). -/
def bar0Put (v : Nat) (s : State) : State :=
  let a := s.dev.barAddr 1
  if a % 4 = 0 then busWrite a v s else s

/-- 0x6000.02 read: a host read of BAR0. -/
def bar0Get (s : State) : Nat × State :=
  let a := s.dev.barAddr 1
  if a % 4 = 0 then busRead a s else (0, s)

/-- 0x6000.04 written: a host write of BAR4. -/
def bar4Put (v : Nat) (s : State) : State :=
  let a := s.dev.barAddr 3
  if a % 4 = 0 then { s with dev := (s.dev.bar4Write a (BitVec.ofNat 32 v) 14).2 } else s

/-- 0x6000.04 read: a host read of BAR4; an uncorrectable word is answered all ones, with EP set (11 R318). -/
def bar4Get (s : State) : Nat × State :=
  let a := s.dev.barAddr 3
  if a % 4 = 0 then
    match s.dev.bar4Read a 14 with
    | (some v, d) => (v.toNat, { s with dev := d })
    | (none, d) => (0xFFFFFFFF, { s with dev := d.emit (.poisoned 4 a) })
  else (0, s)

/-! ## Applying a write -/

/-- A write of words to a table through BAR4 (R441); the session's segmented writes follow SEGMENT and FINAL (R443). [DEDUCED, unsafe, log 81] -/
def tablePut (base : Nat) (w : IopItem) (s : State) : State :=
  { s with dev := forEach (List.range (w.val.length / 4)) (fun (d : Dev) j =>
      (d.bar4Write (base + w.ofs + 4 * j) (wordAt w.val (4 * j)) 15).2) s.dev }

/-- The value of a write item whose checks passed takes effect; answers the detail (R440). -/
def itemPut (r : ObjRow) (i : Nat) (w : IopItem) (s : State) : Nat × State :=
  let n := leOf w.val
  match r.back with
  | .cmd k =>
    let s1 := cmdRun k i w.val s
    (s1.dev.cmdDetail (k.run i w.val), s1)
  | .dom k => match k.table with
    | some (_, base, _) => (0, tablePut base w s)
    | none => (0, { s with dev := s.dev.domPut k i w.val })
  | .access .bar0 => (0, bar0Put n s)
  | .access .bar4 => (0, bar4Put n s)
  | .access .mdio => (0, mdioWord n s)
  | _ => (0, { s with dev := s.dev.objPut r i n })

/-- The table a write item names, as its subindex of 0x1121. -/
def IopItem.tableSub (w : IopItem) : Option Nat := if w.idx = 0x1121 ∧ 1 ≤ w.sub ∧ w.sub ≤ 5 then some w.sub else none

/-- Open segmented writes of a session after an accepted write item (R443). -/
def IopItem.segsAfter (w : IopItem) (l : List Nat) : List Nat :=
  match w.tableSub with
  | some k =>
    if w.final then l.filter (fun x => x != k)
    else if w.segment && !l.contains k then k :: l
    else l
  | none => l

/-! ## Reading -/

/-- Characters of a string as bytes. -/
def strBytes (t : String) : List Byte := t.toList.map (fun c => BitVec.ofNat 8 c.toNat)

/-- Size of an object in bytes. -/
def Dev.objSize (d : Dev) (r : ObjRow) (i : Nat) : Nat :=
  match r.back with
  | .str t => (strBytes t).length
  | .dom k => d.domSize k i
  | .cmd k => if r.ty = .dom then k.domLength.2 else r.ty.size
  | _ => r.ty.size

/-- The result of reading one object: bytes, or the word of the memory at which management met an uncorrectable word (11 R319). -/
abbrev ReadRes := List Byte ⊕ Nat

/-- The first failing check of a read item, 0 where all pass (R436). -/
def Dev.readCode (d : Dev) (expert : Bool) (w : IopItem) : Nat :=
  match findObj w.idx w.sub with
  | .noObject => 1
  | .noSub => 2
  | .found r i =>
    if r.acc = .wo then 4
    else if decide (0x6000 ≤ w.idx) && !expert then 5
    else if r.ty = .dom ∧ (w.ofs % 4 ≠ 0 ∨ d.objSize r i < w.ofs + w.len) then 11
    else if !d.objOn r i then 12
    else 0

/-- The word of its memory that could not be read where management met one at 32-bit word `j` of a table (11 R319). -/
def Dev.tableWord (d : Dev) (k : Dom) (j : Nat) : Nat :=
  match k with
  | .remap => 131072 * d.remapHalf (d.is R.LAS_STATUS_COPYING) + j
  | .correction => if d.sramBad 4 (2 * j) then 2 * j else 2 * j + 1
  | .templates => j / 2
  | .threshold => j / 2
  | _ => j

/-- Reads an object that passed its checks; of a DOM, `n` bytes. [DEDUCED, unsafe, log 96] -/
def itemGet (r : ObjRow) (i : Nat) (w : IopItem) (n : Nat) (s : State) : ReadRes × State :=
  match r.back with
  | .str t => (.inl (strBytes t), s)
  | .dom k => match k.table with
    | some (_, base, _) =>
      let (l, d, ok) := Dev.tableBytes s.dev base w.ofs ((n + 3) / 4)
      (if ok then .inl (l.take n) else .inr (s.dev.tableWord k (w.ofs / 4 + l.length / 4)), { s with dev := d })
    | none => (.inl (sliceOf (s.dev.domBytes s.nv k i) w.ofs n), s)
  | .access .bar0 =>
    let (v, s1) := bar0Get s
    (.inl (bytesOf 4 v), s1)
  | .access .bar4 =>
    let (v, s1) := bar4Get s
    (.inl (bytesOf 4 v), s1)
  | _ =>
    let (v, d) := s.dev.objRead s.nv r i
    (.inl (bytesOf r.ty.size v), { s with dev := d })

end Sys2Proof.Machine
end

