-- ==== Sys2Proof/Machine/Iop.lean ====
section
/-! DEFINITION. The object protocol (16 R429–R445): messages, sessions, requests and their answers, the mailbox; host accesses of
BAR0, after which a waiting mailbox message is handled. -/

namespace Sys2Proof.Machine

/-! ## Messages (Tables 16.4, 16.5) -/

/-- A message: version, flags, session, sequence, opcode, item count, body. -/
structure IopMsg where
  version : Nat := 1
  flags : Nat := 0
  session : Nat
  seq : Nat
  op : Nat
  count : Nat := 0
  body : List Byte := []
  deriving DecidableEq, Repr

/-- Header and body. -/
def IopMsg.core (m : IopMsg) : List Byte :=
  bytesOf 2 0x4F49 ++ bytesOf 1 m.version ++ bytesOf 1 m.flags ++ bytesOf 2 m.session ++ bytesOf 2 m.seq ++ bytesOf 1 m.op ++
    bytesOf 1 m.count ++ bytesOf 2 m.body.length ++ m.body

/-- A message as sent, with its CRC. -/
def IopMsg.bytes (m : IopMsg) : List Byte := m.core ++ bytesOf 4 (crc32c m.core)

/-- A message read; none where it is discarded silently (R433). [DEDUCED, unsafe, log 93] -/
def parseMsg (l : List Byte) : Option IopMsg :=
  let n := leAt l 0xA 2
  if 16 ≤ l.length ∧ leAt l 0 2 = 0x4F49 ∧ l.length = 16 + n ∧ crc32c (l.take (12 + n)) = leAt l (12 + n) 4 ∧ leAt l 3 1 % 2 = 0 then
    some { version := leAt l 2 1, flags := leAt l 3 1, session := leAt l 4 2, seq := leAt l 6 2, op := leAt l 8 1,
           count := leAt l 9 1, body := sliceOf l 12 n }
  else none

/-- The answer to a message: RESPONSE set. [DEDUCED, unsafe, log 93] -/
def IopMsg.answer (m : IopMsg) (count : Nat) (body : List Byte) : List Byte :=
  { m with version := 1, flags := 1, count := count, body := body }.bytes

/-- A message-level result (Table 16.8). -/
def IopMsg.result (m : IopMsg) (code : Nat) : List Byte := m.answer 0 (bytesOf 1 code)

/-- A stored response with REPLAY set; none is stored before the first request of the mailbox. [DEDUCED, unsafe, log 93] -/
def replayOf (l : List Byte) : List Byte :=
  if l.isEmpty then []
  else
    let c := l.take 3 ++ [5] ++ sliceOf l 4 (l.length - 8)
    c ++ bytesOf 4 (crc32c c)

/-! ## Sources and sessions -/

/-- Where a request comes from. -/
inductive IopSrc where
  | udp (ip port : Nat)
  | mbx
  deriving DecidableEq, Repr

/-- Most bytes of a message (R434). -/
def IopSrc.limit : IopSrc → Nat
  | .udp _ _ => 1472
  | .mbx => 2048

/-- The session of a source and ID (R429, R444). -/
def Dev.session (d : Dev) (src : IopSrc) (id : Nat) : Option Session :=
  match src with
  | .mbx => if id = 0xFFFF then some d.mgmt.mbx else none
  | .udp ip port => d.mgmt.sessions.find? (fun x => x.id == id && x.ip == ip && x.port == port)

/-- Stores a session again. -/
def Dev.putSession (d : Dev) (src : IopSrc) (x : Session) : Dev :=
  match src with
  | .mbx => { d with mgmt := { d.mgmt with mbx := x } }
  | .udp _ _ => { d with mgmt := { d.mgmt with sessions := d.mgmt.sessions.map (fun (y : Session) => if y.id = x.id then x else y) } }

/-- A session ends, and with it its segmented writes (R429, R443). -/
def Dev.endSession (d : Dev) (id : Nat) : Dev :=
  { d with mgmt := { d.mgmt with sessions := d.mgmt.sessions.filter (fun (y : Session) => y.id != id) } }

/-- An ID for a new session: a free value among those not in use. [DEDUCED, unsafe, log 94] -/
def newId (l : List Session) (r : Nat) : Nat :=
  match ((List.range 9).map (fun k => (r + k) % 65534 + 1)).find? (fun n => !l.any (fun x => x.id == n)) with
  | some n => n
  | none => 1

/-- The idle timeout of sessions, ms. -/
def Dev.idleMs (d : Dev) : Nat := d.obj 0x1010 2 10000

/-- Opens a session: its ID and nonce are free values (R431). [DEDUCED, unsafe, log 94] -/
def Dev.openSession (d : Dev) (ip port seq : Nat) (m : IopMsg) : List Byte × Dev :=
  let (r, d1) := d.fresh 0x429 16
  let (nn, d2) := d1.fresh 0x431 128
  let id := newId d.mgmt.sessions r
  let nonce := bytesOf 16 nn
  let resp := m.answer 0 (bytesOf 2 id ++ bytesOf 2 0 ++ nonce ++ bytesOf 4 d.idleMs)
  let x : Session := { id := id, ip := ip, port := port, seq := seq, openSeq := seq, untouched := true, nonce := nonce,
                       resp := resp, at_ := d.now }
  (resp, { d2 with mgmt := { d2.mgmt with sessions := d2.mgmt.sessions ++ [x] } })

/-- SESSION_OPEN (R429, R430). -/
def Dev.sessionOpen (d : Dev) (ip port : Nat) (m : IopMsg) : List Byte × Dev :=
  match d.mgmt.sessions.find? (fun x => x.ip == ip && x.port == port) with
  | some x =>
    if x.openSeq = m.seq ∧ x.untouched = true then (replayOf x.resp, d)
    else (d.endSession x.id).openSession ip port m.seq m
  | none => if 8 ≤ d.mgmt.sessions.length then (m.result 0x88, d) else d.openSession ip port m.seq m

/-! ## Requests -/

/-- Management meets a word of its own memory that has become uncorrectable (11 R316, R319). -/
def Dev.mgmtFault (d : Dev) (word : Nat) : Dev := (d.wordFault 7 word 15).mgmtHalt word

/-- The proof that ELEVATE must carry (R431). [PRESUMED, unsafe, log 87] -/
def proofOf (cred nonce : List Byte) (id : Nat) : List Byte := (sha256 (cred ++ nonce ++ bytesOf 2 id)).take 16

/-- An ELEVATE is refused: ELEVATE_REFUSED carries the address and the code. -/
def Dev.elevateRefused (d : Dev) (x : Session) (code : Nat) : Dev := d.raise Ev.ELEVATE_REFUSED (x.ip + 2 ^ 32 * code)

/-- ELEVATE (R431): the code of the answer; a wrong proof closes the session. [DEDUCED, unsafe, log 94] -/
def Dev.elevate (d : Dev) (x : Session) (proof : List Byte) : Nat × Dev :=
  if x.expert then (0x89, d)
  else match d.mgmt.cred with
    | none => (0x87, d.elevateRefused x 0x87)
    | some c =>
      if (match d.mgmt.failAt with
          | some t => decide (d.now < t + nsPerSec)
          | none => false) then (0x86, d.elevateRefused x 0x86)
      else if proof = proofOf c x.nonce x.id then
        (0, (d.putSession (.udp x.ip x.port) { x with expert := true }).raise Ev.SESSION_EXPERT x.id)
      else
        (0x85, ({ d.endSession x.id with mgmt := { (d.endSession x.id).mgmt with
          failed := d.mgmt.failed + 1, failAt := some d.now } }).elevateRefused x 0x85)

/-- A read result (Table 16.6). -/
def readResult (w : IopItem) (code size : Nat) (v : List Byte) : List Byte :=
  bytesOf 2 w.idx ++ bytesOf 1 w.sub ++ bytesOf 1 code ++ bytesOf 4 size ++ bytesOf 2 v.length ++ bytesOf 2 0 ++ padded v

/-- Bytes the result of a read item needs at least; of a DOM, its head. [DEDUCED, unsafe, log 96] -/
def readNeeds (w : IopItem) : Nat :=
  match findObj w.idx w.sub with
  | .found r _ => match r.back with
    | .str t => 12 + ((strBytes t).length + 3) / 4 * 4
    | _ => 12 + (r.ty.size + 3) / 4 * 4
  | _ => 12

/-- Answers a read item; `room` is what a DOM value may fill. [DEDUCED, unsafe, log 96] -/
def readOne (expert : Bool) (room : Nat) (w : IopItem) (s : State) : ReadRes × State :=
  let c := s.dev.readCode expert w
  match findObj w.idx w.sub with
  | .found r i =>
    if c ≠ 0 then (.inl (readResult w c 0 []), s)
    else match itemGet r i w (min w.len (room / 4 * 4)) s with
      | (.inl v, s1) => (.inl (readResult w 0 (s.dev.objSize r i) v), s1)
      | (.inr n, s1) => (.inr n, s1)
  | _ => (.inl (readResult w c 0 []), s)

/-- Answers the items of a READ in order (R434, R437); `left` is the room for their results. -/
def readAll (expert : Bool) : Nat → List IopItem → State → ReadRes × State
  | _, [], s => (.inl [], s)
  | left, w :: r, s =>
    let later := (r.map readNeeds).foldl (· + ·) 0
    match readOne expert (left - later - 12) w s with
    | (.inr n, s1) => (.inr n, s1)
    | (.inl a, s1) => match readAll expert (left - a.length) r s1 with
      | (.inl b, s2) => (.inl (a ++ b), s2)
      | (.inr n, s2) => (.inr n, s2)

/-- A write result (Table 16.6). -/
def writeResult (w : IopItem) (code detail : Nat) : List Byte :=
  bytesOf 2 w.idx ++ bytesOf 1 w.sub ++ bytesOf 1 code ++ bytesOf 4 detail

/-- Handles a write item (R436, R437, R443). -/
def writeOne (src : IopSrc) (id : Nat) (expert : Bool) (w : IopItem) (s : State) : List Byte × State :=
  let c := s.dev.writeCode expert w
  match findObj w.idx w.sub with
  | .found r i =>
    if c ≠ 0 then (writeResult w c 0, { s with dev := s.dev.refusedItem r c })
    else
      let (detail, s1) := itemPut r i w s
      let d := match s1.dev.session src id with
        | some x => s1.dev.putSession src { x with segs := w.segsAfter x.segs }
        | none => s1.dev
      (writeResult w 0 detail, { s1 with dev := d })
  | _ => (writeResult w c 0, s)

/-- Handles the items of a WRITE in order. -/
def writeAll' (src : IopSrc) (id : Nat) (expert : Bool) : List IopItem → State → List Byte × State
  | [], s => ([], s)
  | w :: r, s =>
    let (a, s1) := writeOne src id expert w s
    let (b, s2) := writeAll' src id expert r s1
    (a ++ b, s2)

/-- An item that an ATOMIC request may hold: no command and no DOM (R439). -/
def IopItem.plain (w : IopItem) : Bool :=
  match findObj w.idx w.sub with
  | .found r _ => r.ty != .dom && (match r.back with
    | .cmd _ => false
    | _ => true)
  | _ => true

/-- Result code of each item of a WRITE answer. -/
def writeCodes : Nat → List Byte → List Nat
  | 0, _ => []
  | n + 1, l => leAt l 3 1 :: writeCodes n (l.drop 8)

/-- The answer of an ATOMIC request that is not applied: the items that do not fail answer NOT_DONE (R439). -/
def notDone (l : List IopItem) (codes : List Nat) : List Byte :=
  (l.zip codes).flatMap (fun e => writeResult e.1 (if e.2 = 0 then 13 else e.2) 0)

/-- An ATOMIC WRITE (R439): all items or none. An item that only an earlier one of the request makes fail is a failing item too. [DEDUCED, unsafe, log 96] -/
def writeAtomic (src : IopSrc) (id : Nat) (expert : Bool) (l : List IopItem) (s : State) : List Byte × State :=
  let codes := l.map (s.dev.writeCode expert)
  if codes.any (· != 0) then (notDone l codes, s)
  else
    let r := writeAll' src id expert l s
    let after := writeCodes l.length r.1
    if after.any (· != 0) then (notDone l after, s) else r

/-- An info result (Table 16.6); `room` is what the name may fill with its length byte. [DEDUCED, unsafe, log 96] -/
def Dev.infoOne (d : Dev) (v : NonVol) (room : Nat) (w : IopItem) : List Byte :=
  let head := fun (c : Nat) => bytesOf 2 w.idx ++ bytesOf 1 w.sub ++ bytesOf 1 c
  let body := fun (a b : List Byte) (name : List Byte) => a ++ b ++ bytesOf 1 name.length ++ name
  match findObj w.idx w.sub with
  | .noObject => padded (body (head 1) (List.replicate 16 0) [])
  | .noSub => padded (body (head 2) (List.replicate 16 0) [])
  | .found r i =>
    let flags := b2n (r.profile i) + 2 * b2n r.stored + 4 * b2n w.tableSub.isSome
    padded (body (head 0)
      (bytesOf 1 r.ty.code ++ bytesOf 1 r.acc.code ++ bytesOf 1 (b2n r.exp) ++ bytesOf 1 flags ++ bytesOf 4 (d.objSize r i) ++
        bytesOf 8 (if r.ty = .dom ∨ r.ty = .str then 0 else d.defaultOf v r i))
      ((strBytes r.name).take (min 32 (room / 4 * 4 - 1))))

/-- The items of an INFO. -/
def Dev.infoAll (d : Dev) (v : NonVol) : Nat → List IopItem → List Byte
  | _, [] => []
  | left, w :: r =>
    let a := d.infoOne v (left - 24 * r.length - 20) w
    a ++ Dev.infoAll d v (left - a.length) r

/-- The form of a request (R433, R439): opcode, item count, items that fill the body. The code of a message-level result, or the items. [DEDUCED, unsafe, log 93] -/
def IopMsg.form (m : IopMsg) : Nat ⊕ List IopItem :=
  if m.version ≠ 1 then .inl 0x82
  else if [1, 2, 4].contains m.op then (if m.count = 0 ∧ m.body = [] ∧ hasBit m.flags 1 = false then .inr [] else .inl 0x83)
  else if m.op = 3 then (if m.count = 0 ∧ m.body.length = 16 ∧ hasBit m.flags 1 = false then .inr [] else .inl 0x83)
  else if [0x10, 0x11, 0x12].contains m.op then
    if m.count < 1 ∨ 32 < m.count then .inl 0x83
    else match parseItems (m.op == 0x11) m.count m.body with
      | none => .inl 0x83
      | some l => if hasBit m.flags 1 && (m.op != 0x11 || !l.all IopItem.plain) then .inl 0x83 else .inr l
  else .inl 0x84

/-- The request itself, of session `x`: the answer, or the word management stopped at. -/
def doRequest (src : IopSrc) (x : Session) (m : IopMsg) (l : List IopItem) (s : State) : ReadRes × State :=
  let room := src.limit - 16
  match m.op with
  | 2 => (.inl (m.answer 0 []), { s with dev := if src = .mbx then s.dev else s.dev.endSession x.id })
  | 3 =>
    let (c, d) := s.dev.elevate x m.body
    (.inl (m.result c), { s with dev := d })
  | 4 => (.inl (m.answer 0 (bytesOf 1 s.dev.dstate.code ++ bytesOf 1 s.dev.level.code)), s)
  | 0x10 => match readAll x.expert room l s with
    | (.inl b, s1) => (.inl (m.answer m.count b), s1)
    | (.inr n, s1) => (.inr n, s1)
  | 0x11 =>
    let (b, s1) := if hasBit m.flags 1 then writeAtomic src x.id x.expert l s else writeAll' src x.id x.expert l s
    (.inl (m.answer m.count b), s1)
  | _ => (.inl (m.answer m.count (s.dev.infoAll s.nv room l)), s)

/-- The session of a request takes note of it: last sequence, stored response, time. [DEDUCED, unsafe, log 94] -/
def Dev.noteRequest (d : Dev) (src : IopSrc) (id seq : Nat) (resp : List Byte) : Dev :=
  match d.session src id with
  | some x => d.putSession src { x with seq := seq, resp := resp, untouched := false, at_ := d.now }
  | none => d

/-- A request of a known session by its sequence (R435). No answer: management stopped, or was reset by the request. [DEDUCED, unsafe, log 94] -/
def sessionRequest (src : IopSrc) (x : Session) (m : IopMsg) (l : List IopItem) (s : State) : Option (List Byte) × State :=
  if m.seq = (x.seq + 1) % 65536 then
    match doRequest src x m l { s with dev := s.dev.noteRequest src x.id m.seq [] } with
    | (.inl r, s1) =>
      if (m.op == 0x10 || m.op == 0x11) && (s1.dev.session src x.id).isNone then (none, s1)
      else (some r, { s1 with dev := s1.dev.noteRequest src x.id m.seq r })
    | (.inr n, s1) => (none, { s1 with dev := s1.dev.mgmtHalt n })
  else if m.seq = x.seq then (some (replayOf x.resp), { s with dev := s.dev.noteRequest src x.id x.seq x.resp })
  else (some (m.result 0x81), { s with dev := s.dev.putSession src { x with untouched := false } })

/-- Handles a message that was not discarded (R429–R445). -/
def iopHandle (src : IopSrc) (m : IopMsg) (s : State) : Option (List Byte) × State :=
  match m.form with
  | .inl c => (some (m.result c), s)
  | .inr l =>
    match src, m.op with
    | .udp ip port, 1 =>
      let (r, d) := s.dev.sessionOpen ip port m
      (some r, { s with dev := d })
    | src, _ => match s.dev.session src m.session with
      | none => (some (m.result 0x80), s)
      | some x => sessionRequest src x m l s

/-! ## Mailbox (R442) -/

/-- The request of `n` bytes in DEV_MBX_REQ. -/
def Dev.mbxReq (d : Dev) (n : Nat) : List Byte :=
  ((List.range ((n + 3) / 4)).flatMap (fun i => bytesOf 4 (d.reg (R.DEV_MBX_REQ i).addr).toNat)).take n

/-- The response stands in DEV_MBX_RSP; DONE, and the interrupt where it is enabled. -/
def Dev.mbxAnswer (d : Dev) (l : List Byte) : Dev :=
  let d1 := forEach (List.range ((l.length + 3) / 4)) (fun (d : Dev) i =>
    d.setReg (R.DEV_MBX_RSP i).addr (BitVec.ofNat 32 (leAt l (4 * i) 4))) d
  let d2 := ((d1.set R.DEV_MBX_STATUS_RSP_LEN l.length).setB R.DEV_MBX_STATUS_DONE true).setB R.DEV_MBX_STATUS_BUSY false
  if d2.is R.DEV_MBX_CFG_IRQ_EN then d2.emit (.msix (d2.get R.DEV_MBX_CFG_VEC)) else d2

/-- A message is discarded silently and counted (R433). [DEDUCED, unsafe, log 95] -/
def Dev.iopDiscard (d : Dev) : Dev := d.occur Ev.IOP_DISCARD 0 1

/-- The management processors handle requests: not before IDLE, not once stopped (R438). -/
def Dev.mgmtUp (d : Dev) : Bool := d.awake && d.dstate != .boot && !d.pwr.mgmtStop

/-- A waiting mailbox message is handled. [DEDUCED, unsafe, log 95] -/
def serveBell (s : State) : State :=
  match s.dev.mgmt.bell with
  | none => s
  | some n =>
    if !s.dev.mgmtUp then s
    else
      let s0 := { s with dev := { s.dev with mgmt := { s.dev.mgmt with bell := none } } }
      match (if 2048 < n then none else parseMsg (s.dev.mbxReq n)) with
      | none => { s0 with dev := s0.dev.iopDiscard.setB R.DEV_MBX_STATUS_BUSY false }
      | some m => match iopHandle .mbx m s0 with
        | (some r, s1) =>
          if s1.dev.mgmtUp && s1.dev.is R.DEV_MBX_STATUS_BUSY then { s1 with dev := s1.dev.mbxAnswer r } else s1
        | (none, s1) => s1

/-- An effect of the management network, of an object or of the host on BAR0, and then of the mailbox message it left waiting. -/
def served (f : State → State) (s : State) : Out := .next (serveBell (f s))

/-! ## Requests from the network -/

/-- A request arrives by UDP; its answer goes back to its source. -/
def udpRequest (ip port : Nat) (m : IopMsg) (s : State) : State :=
  if s.dev.mgmtUp then
    match iopHandle (.udp ip port) m s with
    | (some r, s1) =>
      if s1.dev.mgmtUp then { s1 with dev := s1.dev.iopSend ip port r } else s1
    | (none, s1) => s1
  else s

/-- A datagram to NET_IOP_PORT. -/
def udpMessage (ip port : Nat) (l : List Byte) (s : State) : State :=
  if !s.dev.mgmtUp then s
  else match parseMsg l with
    | none => { s with dev := s.dev.iopDiscard }
    | some m => udpRequest ip port m s

/-- A request in whose handling management may meet word `memErr` of memory 7 uncorrectable (11 R319). -/
def udpRequestErr (memErr : Option Nat) (ip port : Nat) (m : IopMsg) (s : State) : State :=
  match memErr with
  | some n => if s.dev.mgmtUp then { s with dev := s.dev.mgmtFault n } else s
  | none => udpRequest ip port m s

/-- SESSION_OPEN. -/
def execSessionOpen (ip port seq : Nat) (s : State) : Out :=
  served (udpRequest ip port { session := 0, seq := seq, op := 1 }) s

/-- SESSION_CLOSE. -/
def execSessionClose (ip port session seq : Nat) (s : State) : Out :=
  served (udpRequest ip port { session := session, seq := seq, op := 2 }) s

/-- SESSION_TIMEOUT: a session has had no valid request for the idle timeout (R429). [DEDUCED, unsafe, log 94] -/
def execSessionTimeout (session : Nat) (s : State) : Out := onDev (fun d => if d.mgmtUp then d.endSession session else d) s

/-- ELEVATE. -/
def execElevate (ip port session seq : Nat) (proof : List Byte) (s : State) : Out :=
  served (udpRequest ip port { session := session, seq := seq, op := 3, body := proof }) s

/-- KEEPALIVE. -/
def execKeepalive (ip port session seq : Nat) (s : State) : Out :=
  served (udpRequest ip port { session := session, seq := seq, op := 4 }) s

/-- READ. -/
def execRead (ip port session seq count : Nat) (body : List Byte) (memErr : Option Nat) (s : State) : Out :=
  served (udpRequestErr memErr ip port { session := session, seq := seq, op := 0x10, count := count, body := body }) s

/-- WRITE. -/
def execWrite (ip port session seq count : Nat) (atomic : Bool) (body : List Byte) (memErr : Option Nat) (s : State) : Out :=
  served (udpRequestErr memErr ip port
    { flags := if atomic then 2 else 0, session := session, seq := seq, op := 0x11, count := count, body := body }) s

/-- INFO. -/
def execInfo (ip port session seq count : Nat) (body : List Byte) (s : State) : Out :=
  served (udpRequest ip port { session := session, seq := seq, op := 0x12, count := count, body := body }) s

/-! ## Host accesses of BAR0 (00_scope R4–R7) -/

/-- An access of the host while its endpoint answers. -/
def hostAccess (f : State → State) (s : State) : State := if s.dev.hostUp then f s else s

/-- A read's value stands in `resp`. -/
def readInto (f : State → Nat × State) (s : State) : State :=
  let (v, s1) := f s
  { s1 with dev := { s1.dev with resp := [BitVec.ofNat 32 v] } }

/-- REGISTER_WRITE: an aligned write; other accesses have no effect (R4). Host writes to wells that waited for what it changed land. -/
def execRegisterWrite (addr : Nat) (val : Word) (s : State) : Out :=
  landed <| served (hostAccess (fun s => if addr % 4 = 0 then busWrite addr val.toNat s else s)) s

/-- UPPER_WORD_WRITE (R5). -/
def execUpperWordWrite (addr : Nat) (val : Word) (s : State) : Out :=
  served (hostAccess (fun s => if addr % 4 = 0 then busWrite addr val.toNat s else s)) s

/-- BAR0_UNALIGNED_ACCESS (R4): no effect; a read returns 0. -/
def execBar0UnalignedAccess (write : Bool) (_addr : Nat) (s : State) : Out :=
  .next (hostAccess (if write then id else readInto (fun s => (0, s))) s)

/-- LOWER_WORD_READ (R5). -/
def execLowerWordRead (addr : Nat) (s : State) : Out :=
  served (hostAccess (readInto (fun s => if addr % 4 = 0 then busRead addr s else (0, s)))) s

/-- ROC_READ (R6). -/
def execRocRead (addr : Nat) (s : State) : Out :=
  served (hostAccess (readInto (fun s => if addr % 4 = 0 then busRead addr s else (0, s)))) s

/-- DEV_MBX_DOORBELL: a message of `len` bytes waits (R442). -/
def execDevMbxDoorbell (len : Nat) (s : State) : Out :=
  served (hostAccess (fun s => { s with dev := s.dev.ring (len % 4096) })) s

/-- BAR0_VALUE_ACCESS (R452): object 0x6000.02 is written or read. -/
def execBar0ValueAccess (write : Bool) (val : Word) (s : State) : Out :=
  served (fun s => if s.dev.mgmtUp then (if write then bar0Put val.toNat s else readInto bar0Get s) else s) s

/-- BAR4_VALUE_ACCESS (R452): object 0x6000.04 is written or read. -/
def execBar4ValueAccess (write : Bool) (val : Word) (s : State) : Out :=
  served (fun s => if s.dev.mgmtUp then (if write then bar4Put val.toNat s else readInto bar4Get s) else s) s

end Sys2Proof.Machine
end

