-- ==== Sys2Proof/Machine/NetFrame.lean ====
section
/-! DEFINITION. Frames at the management MAC (15 R419–R422): filter, receive queue, and the frames' way to ARP, ICMP, PTP and the
object protocol. -/

namespace Sys2Proof.Machine

/-! ## Fields of a frame -/

/-- A big-endian field of `n` bytes at offset `o`. -/
def beAt (l : List Byte) (o n : Nat) : Nat := beOf (sliceOf l o n)

/-- The frame check sequence at the end of a frame is valid. -/
def fcsOk (l : List Byte) : Bool := fcs (l.take (l.length - 4)) == leAt l (l.length - 4) 4

/-- A checksum over bytes that hold it is valid. -/
def sumOk (l : List Byte) (start : Nat) : Bool := onesSum l (start % 65536 + start / 65536) == 65535

/-- Multicast MAC addresses of PTP (Table 15.2): L2, and those of the IPv4 groups. -/
def ptpMacs : List Nat := [0x011B19000000, 0x0180C200000E, 0x01005E000181, 0x01005E00006B]

/-- IPv4 groups of PTP. -/
def ptpGroups : List Nat := [0xE0000181, 0xE000006B]

/-- The MAC takes a frame (R419). -/
def Dev.macTakes (d : Dev) (l : List Byte) : Bool :=
  decide (64 ≤ l.length) && decide (l.length ≤ 1518) && fcsOk l && beAt l 12 2 != 0x8100 && beAt l 12 2 != 0x88A8 &&
    (let a := beAt l 0 6
     a == d.mac || a == 0xFFFFFFFFFFFF || ptpMacs.contains a)

/-- A frame or datagram is discarded and counted. -/
def Dev.netDiscard (d : Dev) : Dev := d.bump R.NET_RX_DISC_CNT 1

/-! ## PTP messages (IEEE 1588-2019) -/

/-- A PTP timestamp in ns. -/
def ptpTime (l : List Byte) (o : Nat) : Nat := beAt l o 6 * nsPerSec + beAt l (o + 6) 4

/-- The data of an Announce. -/
def masterOf (m : List Byte) : Master :=
  { src := beAt m 20 8, gm := beAt m 53 8, prio1 := beAt m 47 1, quality := beAt m 48 4, prio2 := beAt m 52 1,
    steps := beAt m 61 2, utc := toSigned 16 (beAt m 44 2), leap := leAt m 7 1 % 4 }

/-- A PTP message stamped `t`. Management and Signaling messages are discarded and counted (Table 15.2). [PRESUMED, unsafe, log 84] -/
def Dev.ptpIn (d : Dev) (t : Nat) (m : List Byte) : Dev :=
  let dom := leAt m 4 1
  let two := hasBit (leAt m 6 1) 1
  let corr := toSigned 64 (beAt m 8 8)
  let src := beAt m 20 8
  let seq := beAt m 30 2
  if m.length < 44 ∨ leAt m 1 1 % 16 ≠ 2 then d
  else match leAt m 0 1 % 16 with
    | 0x0 => d.syncIn t dom src seq two (ptpTime m 34) corr
    | 0x1 => d.delayReqIn t dom src (beAt m 28 2) seq
    | 0x2 => d.pdelayReqIn t dom src (beAt m 28 2) seq
    | 0x3 => d.pdelayRespIn t dom src seq two (ptpTime m 34) corr (beAt m 44 8)
    | 0x8 => d.followUpIn dom src seq (ptpTime m 34) corr
    | 0x9 => d.delayRespIn dom src seq (ptpTime m 34) corr (beAt m 44 8)
    | 0xA => d.pdelayFollowIn dom src seq (ptpTime m 34) corr (beAt m 44 8)
    | 0xB => d.announce dom (hasBit (leAt m 7 1) 3) (masterOf m)
    | 0xC => d.netDiscard
    | 0xD => d.netDiscard
    | _ => d

/-! ## IPv4 (R420–R422) -/

/-- The device accepts a datagram's header (R420). -/
def Dev.ipTakes (d : Dev) (p : List Byte) : Bool :=
  d.ip != 0 && leAt p 0 1 == 0x45 && sumOk (p.take 20) 0 && beAt p 6 2 % 0x4000 == 0 && decide (20 ≤ beAt p 2 2) &&
    decide (beAt p 2 2 ≤ p.length) && (beAt p 16 4 == d.ip || ptpGroups.contains (beAt p 16 4))

/-- A UDP datagram's length and checksum are right; a checksum of 0 is not verified (R422). -/
def udpOk (src dst : Nat) (u : List Byte) : Bool :=
  let n := beAt u 4 2
  decide (8 ≤ n) && decide (n ≤ u.length) &&
    (beAt u 6 2 == 0 || sumOk (beBytes 4 src ++ beBytes 4 dst ++ [0, 17] ++ beBytes 2 n ++ u.take n) 0)

/-- A UDP datagram (R422), received at `t`. -/
def udpIn (t src dst : Nat) (u : List Byte) (s : State) : State :=
  let port := beAt u 2 2
  let data := sliceOf u 8 (beAt u 4 2 - 8)
  if !udpOk src dst u then { s with dev := s.dev.netDiscard }
  else if port = 319 ∨ port = 320 then
    { s with dev := if s.dev.obj 0x1210 3 0 = 1 then s.dev.ptpIn t data else s.dev }
  else if port = s.dev.get R.NET_IOP_PORT ∧ dst = s.dev.ip then udpMessage src (beAt u 0 2) data s
  else { s with dev := s.dev.netDiscard }

/-- An IPv4 datagram: accepted traffic refreshes the ARP entry of its source (R421). [PRESUMED, unsafe, log 84] -/
def ipIn (t mac : Nat) (p : List Byte) (s : State) : State :=
  if !s.dev.ipTakes p then { s with dev := s.dev.netDiscard }
  else
    let src := beAt p 12 4
    let dst := beAt p 16 4
    let u := sliceOf p 20 (beAt p 2 2 - 20)
    let d := if s.dev.mgmt.arp.any (fun e => e.1 == src) then
        { s.dev with mgmt := { s.dev.mgmt with arp := arpLearn s.dev.mgmt.arp src mac } } else s.dev
    let s1 := { s with dev := d }
    match leAt p 9 1 with
    | 1 => if leAt u 0 2 = 8 ∧ sumOk u 0 = true then { s1 with dev := s1.dev.icmpIn src dst (u.drop 4) } else s1
    | 17 => udpIn t src dst u s1
    | _ => s1

/-- An ARP packet for Ethernet and IPv4. -/
def Dev.arpFrame (d : Dev) (p : List Byte) : Dev :=
  if beAt p 0 6 = 0x000108000604 then d.arpIn (beAt p 6 2) (beAt p 8 6) (beAt p 14 4) (beAt p 24 4) else d

/-- A frame out of the receive queue, received at `t`. -/
def frameIn (t : Nat) (l : List Byte) (s : State) : State :=
  let p := sliceOf l 14 (l.length - 18)
  match beAt l 12 2 with
  | 0x0800 => ipIn t (beAt l 6 6) p s
  | 0x0806 => { s with dev := s.dev.arpFrame p }
  | 0x88F7 => { s with dev := if s.dev.obj 0x1210 3 0 = 0 then s.dev.ptpIn t p else s.dev }
  | _ => s

/-! ## The receive queue (R419) -/

/-- A frame arrives: discarded and counted, queued, or lost where 64 wait. [PRESUMED, unsafe, log 84] -/
def Dev.macIn (d : Dev) (l : List Byte) : Dev :=
  if !d.macTakes l then d.netDiscard
  else if d.mgmt.rxq.length < 64 then { d with mgmt := { d.mgmt with rxq := d.mgmt.rxq ++ [(d.ingress, l)] } }
  else (d.bump R.NET_RX_OVF_CNT 1).occur Ev.NET_RX_OVF 0 1

/-- The management processors take every frame that waits, oldest first; once they stop, the rest stays. [DESIGN CHOICE, safe, log 86] -/
def drainRx (s : State) : State :=
  forEach s.dev.mgmt.rxq (fun (s : State) e =>
    if s.dev.mgmtUp then
      frameIn e.1 e.2 { s with dev := { s.dev with mgmt := { s.dev.mgmt with rxq := s.dev.mgmt.rxq.drop 1 } } }
    else s) s

/-- NET_FRAME_RECEIVED; `taken` that the management processors come to the queue. The MAC works from IDLE on. [DESIGN CHOICE, safe, log 86] -/
def execNetFrameReceived (frame : List Byte) (taken : Bool) (s : State) : Out :=
  if s.dev.awake && s.dev.dstate != .boot then
    served (fun s =>
      let s1 := { s with dev := s.dev.macIn frame }
      if taken then drainRx s1 else s1) s
  else .next s

end Sys2Proof.Machine
end

