-- ==== Sys2Proof/Machine/Dispatch.lean ====
section
/-! DEFINITION. One arm per command: its meaning, or rejected by name. -/

namespace Sys2Proof.Machine

/-- The effect of one command on everything but the queue. -/
def exec (i : Instr) (s : State) : Host.Outcome State Fault Refusal :=
  match i with
  | .registerWrite addr val => Sys2Proof.Machine.execRegisterWrite addr val s
  | .bar0UnalignedAccess write addr => Sys2Proof.Machine.execBar0UnalignedAccess write addr s
  | .lowerWordRead addr => Sys2Proof.Machine.execLowerWordRead addr s
  | .upperWordWrite addr val => Sys2Proof.Machine.execUpperWordWrite addr val s
  | .rocRead addr => Sys2Proof.Machine.execRocRead addr s
  | .bar2Write ofs data => Sys2Proof.Machine.execBar2Write ofs data s
  | .bar4Write ofs words => Sys2Proof.Machine.execBar4Write ofs words s
  | .interval1ms => Sys2Proof.Machine.execInterval1ms s
  | .positionUpdate enc edge => Sys2Proof.Machine.execPositionUpdate enc edge s
  | .encoderCheckFail enc cause phase => Sys2Proof.Machine.execEncoderCheckFail enc cause phase s
  | .zRisingEdge enc => Sys2Proof.Machine.execZRisingEdge enc s
  | .posSrcChange src => Sys2Proof.Machine.execPosSrcChange src s
  | .load => Sys2Proof.Machine.execLoad s
  | .restoreKeep => Sys2Proof.Machine.execRestoreKeep s
  | .restoreLoad => Sys2Proof.Machine.execRestoreLoad s
  | .predictionWindowEnd => Sys2Proof.Machine.execPredictionWindowEnd s
  | .triggerEdge input level => Sys2Proof.Machine.execTriggerEdge input level s
  | .triggerAccept input => Sys2Proof.Machine.execTriggerAccept input s
  | .trigIssue row => Sys2Proof.Machine.execTrigIssue row s
  | .inhibitAsserted => Sys2Proof.Machine.execInhibitAsserted s
  | .inhibitReleased => Sys2Proof.Machine.execInhibitReleased s
  | .wellDefine well place base size => Sys2Proof.Machine.execWellDefine well place base size s
  | .wellOpen well => Sys2Proof.Machine.execWellOpen well s
  | .wellSeal well => Sys2Proof.Machine.execWellSeal well s
  | .sealComplete => Sys2Proof.Machine.execSealComplete s
  | .wellRelease well => Sys2Proof.Machine.execWellRelease well s
  | .enqueue well mode input gap line band => Sys2Proof.Machine.execEnqueue well mode input gap line band s
  | .abort slot => Sys2Proof.Machine.execAbort slot s
  | .swap form fabric arg line => Sys2Proof.Machine.execSwap form fabric arg line s
  | .swapCancel => Sys2Proof.Machine.execSwapCancel s
  | .resume line => Sys2Proof.Machine.execResume line s
  | .resumeReady => Sys2Proof.Machine.execResumeReady s
  | .bandWalkDone slot band => Sys2Proof.Machine.execBandWalkDone slot band s
  | .engineStagingFreed engine => Sys2Proof.Machine.execEngineStagingFreed engine s
  | .sliceLineDone engine readErr => Sys2Proof.Machine.execSliceLineDone engine readErr s
  | .cmprStart c => Sys2Proof.Machine.execCmprStart c s
  | .cmprAbort c => Sys2Proof.Machine.execCmprAbort c s
  | .compressorInput c well ofs data => Sys2Proof.Machine.execCompressorInput c well ofs data s
  | .compressorBlockDone c verify => Sys2Proof.Machine.execCompressorBlockDone c verify s
  | .cmpValidate => Sys2Proof.Machine.execCmpValidate s
  | .cmpValidateDone => Sys2Proof.Machine.execCmpValidateDone s
  | .flush => Sys2Proof.Machine.execFlush s
  | .glyphCommit => Sys2Proof.Machine.execGlyphCommit s
  | .cntLoad => Sys2Proof.Machine.execCntLoad s
  | .recPush len => Sys2Proof.Machine.execRecPush len s
  | .renderStart => Sys2Proof.Machine.execRenderStart s
  | .renderCompareDone memErr differ => Sys2Proof.Machine.execRenderCompareDone memErr differ s
  | .doseLineStart => Sys2Proof.Machine.execDoseLineStart s
  | .doseBeat railErr memErr => Sys2Proof.Machine.execDoseBeat railErr memErr s
  | .spillWriteDone cls poison => Sys2Proof.Machine.execSpillWriteDone cls poison s
  | .refillDone cls line busErr => Sys2Proof.Machine.execRefillDone cls line busErr s
  | .dosValidate => Sys2Proof.Machine.execDosValidate s
  | .dosValidateDone => Sys2Proof.Machine.execDosValidateDone s
  | .inject => Sys2Proof.Machine.execInject s
  | .correctionCopyDone => Sys2Proof.Machine.execCorrectionCopyDone s
  | .lasValidate => Sys2Proof.Machine.execLasValidate s
  | .lasValidateDone => Sys2Proof.Machine.execLasValidateDone s
  | .plan => Sys2Proof.Machine.execPlan s
  | .fillIdentity => Sys2Proof.Machine.execFillIdentity s
  | .remapCopyDone => Sys2Proof.Machine.execRemapCopyDone s
  | .lasHoldClr => Sys2Proof.Machine.execLasHoldClr s
  | .train port => Sys2Proof.Machine.execTrain port s
  | .eiEnter port => Sys2Proof.Machine.execEiEnter port s
  | .eiExit port => Sys2Proof.Machine.execEiExit port s
  | .loopStart port => Sys2Proof.Machine.execLoopStart port s
  | .loopStop port => Sys2Proof.Machine.execLoopStop port s
  | .loopTimeExpiry port => Sys2Proof.Machine.execLoopTimeExpiry port s
  | .blockReceived lane bits act => Sys2Proof.Machine.execBlockReceived lane bits act s
  | .amReceived lane payload inverted => Sys2Proof.Machine.execAmReceived lane payload inverted s
  | .trainBlockReceived lane payload => Sys2Proof.Machine.execTrainBlockReceived lane payload s
  | .pllLocked port => Sys2Proof.Machine.execPllLocked port s
  | .trainTimeout port => Sys2Proof.Machine.execTrainTimeout port s
  | .laneLoss lane cause => Sys2Proof.Machine.execLaneLoss lane cause s
  | .eiEnterReceived port => Sys2Proof.Machine.execEiEnterReceived port s
  | .signalDetected lane => Sys2Proof.Machine.execSignalDetected lane s
  | .lineFrameSend port => Sys2Proof.Machine.execLineFrameSend port s
  | .credit port block errored => Sys2Proof.Machine.execCredit port block errored s
  | .status port frame => Sys2Proof.Machine.execStatus port frame s
  | .statusTimeout port => Sys2Proof.Machine.execStatusTimeout port s
  | .echo port frame => Sys2Proof.Machine.execEcho port frame s
  | .cmdRsp port tPing frame => Sys2Proof.Machine.execCmdRsp port tPing frame s
  | .cmdTimeout port => Sys2Proof.Machine.execCmdTimeout port s
  | .ping port => Sys2Proof.Machine.execPing port s
  | .statusReq port => Sys2Proof.Machine.execStatusReq port s
  | .elemCheck port => Sys2Proof.Machine.execElemCheck port s
  | .setParam port => Sys2Proof.Machine.execSetParam port s
  | .getParam port => Sys2Proof.Machine.execGetParam port s
  | .clearFault port => Sys2Proof.Machine.execClearFault port s
  | .elemCancel port => Sys2Proof.Machine.execElemCancel port s
  | .retrain ch level => Sys2Proof.Machine.execRetrain ch level s
  | .trainDone ch rd wr rfm => Sys2Proof.Machine.execTrainDone ch rd wr rfm s
  | .freq ch point => Sys2Proof.Machine.execFreq ch point s
  | .freqDone ch eyes => Sys2Proof.Machine.execFreqDone ch eyes s
  | .dramRequest port place addr write len data => Sys2Proof.Machine.execDramRequest port place addr write len data s
  | .dramBurstComplete ch id => Sys2Proof.Machine.execDramBurstComplete ch id s
  | .burstLate ch id => Sys2Proof.Machine.execBurstLate ch id s
  | .refreshInterval ch sub rank => Sys2Proof.Machine.execRefreshInterval ch sub rank s
  | .mr4Poll ch rank doubled => Sys2Proof.Machine.execMr4Poll ch rank doubled s
  | .pageIdleExpiry ch bank => Sys2Proof.Machine.execPageIdleExpiry ch bank s
  | .powerDownTimer ch rank => Sys2Proof.Machine.execPowerDownTimer ch rank s
  | .scrub => Sys2Proof.Machine.execScrub s
  | .fill => Sys2Proof.Machine.execFill s
  | .eccAbort => Sys2Proof.Machine.execEccAbort s
  | .scrubDone handled => Sys2Proof.Machine.execScrubDone handled s
  | .testWrite => Sys2Proof.Machine.execTestWrite s
  | .testRead => Sys2Proof.Machine.execTestRead s
  | .testGen => Sys2Proof.Machine.execTestGen s
  | .dmaStart n descErr => Sys2Proof.Machine.execDmaStart n descErr s
  | .dmaPause n => Sys2Proof.Machine.execDmaPause n s
  | .dmaResume n => Sys2Proof.Machine.execDmaResume n s
  | .dmaStop n => Sys2Proof.Machine.execDmaStop n s
  | .dmaBurstIssue => Sys2Proof.Machine.execDmaBurstIssue s
  | .dmaBurstDone n host descErr => Sys2Proof.Machine.execDmaBurstDone n host descErr s
  | .drainTimeout domain => Sys2Proof.Machine.execDrainTimeout domain s
  | .crcLoad u => Sys2Proof.Machine.execCrcLoad u s
  | .crcData u val => Sys2Proof.Machine.execCrcData u val s
  | .crcData8 u val => Sys2Proof.Machine.execCrcData8 u val s
  | .itemDecided item => Sys2Proof.Machine.execItemDecided item s
  | .pulseEnd output => Sys2Proof.Machine.execPulseEnd output s
  | .eventLogWrite => Sys2Proof.Machine.execEventLogWrite s
  | .clear => Sys2Proof.Machine.execClear s
  | .restore => Sys2Proof.Machine.execRestore s
  | .fpTrain port => Sys2Proof.Machine.execFpTrain port s
  | .fpLoopStart port => Sys2Proof.Machine.execFpLoopStart port s
  | .fpLoopStop port => Sys2Proof.Machine.execFpLoopStop port s
  | .fabCmdMerge port far => Sys2Proof.Machine.execFabCmdMerge port far s
  | .fabCmdAnchor addr => Sys2Proof.Machine.execFabCmdAnchor addr s
  | .helloPeriod => Sys2Proof.Machine.execHelloPeriod s
  | .hello port frame => Sys2Proof.Machine.execHello port frame s
  | .helloTimeout port => Sys2Proof.Machine.execHelloTimeout port s
  | .lsa port frame => Sys2Proof.Machine.execLsa port frame s
  | .formTimeout => Sys2Proof.Machine.execFormTimeout s
  | .assign port frame => Sys2Proof.Machine.execAssign port frame s
  | .report port frame => Sys2Proof.Machine.execReport port frame s
  | .ready port frame => Sys2Proof.Machine.execReady port frame s
  | .posPeriod => Sys2Proof.Machine.execPosPeriod s
  | .pos port frame => Sys2Proof.Machine.execPos port frame s
  | .posTimeout => Sys2Proof.Machine.execPosTimeout s
  | .timePeriod => Sys2Proof.Machine.execTimePeriod s
  | .time port frame => Sys2Proof.Machine.execTime port frame s
  | .item port frame => Sys2Proof.Machine.execItem port frame s
  | .verdict port frame => Sys2Proof.Machine.execVerdict port frame s
  | .swapReq port frame => Sys2Proof.Machine.execSwapReq port frame s
  | .swapPrep port frame => Sys2Proof.Machine.execSwapPrep port frame s
  | .swapVote port frame => Sys2Proof.Machine.execSwapVote port frame s
  | .swapDecide port frame => Sys2Proof.Machine.execSwapDecide port frame s
  | .merge port frame far => Sys2Proof.Machine.execMerge port frame far s
  | .anchor port frame => Sys2Proof.Machine.execAnchor port frame s
  | .set servo sec ns => Sys2Proof.Machine.execSet servo sec ns s
  | .step servo ofs => Sys2Proof.Machine.execStep servo ofs s
  | .timAdjWrite servo val => Sys2Proof.Machine.execTimAdjWrite servo val s
  | .timNowRead => Sys2Proof.Machine.execTimNowRead s
  | .keeperWrite => Sys2Proof.Machine.execKeeperWrite s
  | .announce dom src timescale gm prio1 quality prio2 steps utc leap => Sys2Proof.Machine.execAnnounce dom src timescale gm prio1 quality prio2 steps utc leap s
  | .announceReceiptTimeout => Sys2Proof.Machine.execAnnounceReceiptTimeout s
  | .sync dom src seq twoStep origin corr => Sys2Proof.Machine.execSync dom src seq twoStep origin corr s
  | .followUp dom src seq origin corr => Sys2Proof.Machine.execFollowUp dom src seq origin corr s
  | .delayReq dom src seq => Sys2Proof.Machine.execDelayReq dom src seq s
  | .delayResp dom src seq recv corr req => Sys2Proof.Machine.execDelayResp dom src seq recv corr req s
  | .pdelayReq dom src seq => Sys2Proof.Machine.execPdelayReq dom src seq s
  | .pdelayResp dom src seq twoStep recv corr req => Sys2Proof.Machine.execPdelayResp dom src seq twoStep recv corr req s
  | .pdelayRespFollowUp dom src seq resp corr req => Sys2Proof.Machine.execPdelayRespFollowUp dom src seq resp corr req s
  | .stepRetry => Sys2Proof.Machine.execStepRetry s
  | .tsTxPop => Sys2Proof.Machine.execTsTxPop s
  | .phyPoll r0 r1 r5 r10 => Sys2Proof.Machine.execPhyPoll r0 r1 r5 r10 s
  | .netMdioAccess val phy => Sys2Proof.Machine.execNetMdioAccess val phy s
  | .arp op sha spa tpa => Sys2Proof.Machine.execArp op sha spa tpa s
  | .arpExpiry ip => Sys2Proof.Machine.execArpExpiry ip s
  | .icmpEcho src dst data => Sys2Proof.Machine.execIcmpEcho src dst data s
  | .sessionOpen ip port seq => Sys2Proof.Machine.execSessionOpen ip port seq s
  | .sessionClose ip port session seq => Sys2Proof.Machine.execSessionClose ip port session seq s
  | .sessionTimeout session => Sys2Proof.Machine.execSessionTimeout session s
  | .elevate ip port session seq proof => Sys2Proof.Machine.execElevate ip port session seq proof s
  | .keepalive ip port session seq => Sys2Proof.Machine.execKeepalive ip port session seq s
  | .read ip port session seq count body memErr => Sys2Proof.Machine.execRead ip port session seq count body memErr s
  | .write ip port session seq count atomic body memErr => Sys2Proof.Machine.execWrite ip port session seq count atomic body memErr s
  | .info ip port session seq count body => Sys2Proof.Machine.execInfo ip port session seq count body s
  | .devMbxDoorbell len => Sys2Proof.Machine.execDevMbxDoorbell len s
  | .revert => Sys2Proof.Machine.execRevert s
  | .save => Sys2Proof.Machine.execSave s
  | .storeSaved flashErr => Sys2Proof.Machine.execStoreSaved flashErr s
  | .storeLoad => Sys2Proof.Machine.execStoreLoad s
  | .erase flashErr => Sys2Proof.Machine.execErase flashErr s
  | .bar0ValueAccess write val => Sys2Proof.Machine.execBar0ValueAccess write val s
  | .bar4ValueAccess write val => Sys2Proof.Machine.execBar4ValueAccess write val s
  | .pwrDomOn domain => Sys2Proof.Machine.execPwrDomOn domain s
  | .domainOn domain => Sys2Proof.Machine.execDomainOn domain s
  | .pwrDomOff domain => Sys2Proof.Machine.execPwrDomOff domain s
  | .domainOff domain => Sys2Proof.Machine.execDomainOff domain s
  | .vddqFault ch => Sys2Proof.Machine.execVddqFault ch s
  | .supplyFault rail => Sys2Proof.Machine.execSupplyFault rail s
  | .porstAssert => Sys2Proof.Machine.execPorstAssert s
  | .porstRelease env => Sys2Proof.Machine.execPorstRelease env s
  | .clockFailure => Sys2Proof.Machine.execClockFailure s
  | .mainPowerLoss => Sys2Proof.Machine.execMainPowerLoss s
  | .keeperSupplyLow => Sys2Proof.Machine.execKeeperSupplyLow s
  | .perstAssert => Sys2Proof.Machine.execPerstAssert s
  | .system force env => Sys2Proof.Machine.execSystem force env s
  | .mgmt => Sys2Proof.Machine.execMgmt s
  | .pwrWdtKick => Sys2Proof.Machine.execPwrWdtKick s
  | .watchdogExpiry => Sys2Proof.Machine.execWatchdogExpiry s
  | .arm => Sys2Proof.Machine.execArm s
  | .run => Sys2Proof.Machine.execRun s
  | .disarm => Sys2Proof.Machine.execDisarm s
  | .stop => Sys2Proof.Machine.execStop s
  | .trst low => Sys2Proof.Machine.execTrst low s
  | .calAdc => Sys2Proof.Machine.execCalAdc s
  | .calDone meas => Sys2Proof.Machine.execCalDone meas s
  | .bist => Sys2Proof.Machine.execBist s
  | .calAbort => Sys2Proof.Machine.execCalAbort s
  | .bistDone handled failed first => Sys2Proof.Machine.execBistDone handled failed first s
  | .bandgapCheck diff => Sys2Proof.Machine.execBandgapCheck diff s
  | .dieTempChange temp => Sys2Proof.Machine.execDieTempChange temp s
  | .updBegin => Sys2Proof.Machine.execUpdBegin s
  | .updEraseDone ok => Sys2Proof.Machine.execUpdEraseDone ok s
  | .updBlock flashErr => Sys2Proof.Machine.execUpdBlock flashErr s
  | .updVerify => Sys2Proof.Machine.execUpdVerify s
  | .updVerified => Sys2Proof.Machine.execUpdVerified s
  | .updActivate flashErr => Sys2Proof.Machine.execUpdActivate flashErr s
  | .updCancel flashErr => Sys2Proof.Machine.execUpdCancel flashErr s
  | .extest pins load => Sys2Proof.Machine.execExtest pins load s
  | .idcode => Sys2Proof.Machine.execIdcode s
  | .samplePreload pins load => Sys2Proof.Machine.execSamplePreload pins load s
  | .clamp => Sys2Proof.Machine.execClamp s
  | .highz => Sys2Proof.Machine.execHighz s
  | .bypass => Sys2Proof.Machine.execBypass s
  | .railsBackInRange env => Sys2Proof.Machine.execRailsBackInRange env s
  | .sysclkInRestored env => Sys2Proof.Machine.execSysclkInRestored env s
  | .perstRelease => Sys2Proof.Machine.execPerstRelease s
  | .keeperPowerUp => Sys2Proof.Machine.execKeeperPowerUp s
  | .netFrameReceived frame taken => Sys2Proof.Machine.execNetFrameReceived frame taken s
  | .ptpMessageInterval kind => Sys2Proof.Machine.execPtpMessageInterval kind s

end Sys2Proof.Machine
end

