-- ==== Sys2Proof/Machine/Step.lean ====
section
/-! DEFINITION. One step: the command at the front of the queue, or one clock of time where none waits. -/

namespace Sys2Proof.Machine

/-- One step. On an empty queue the block idles for one clock (DESIGN CHOICE). [DESIGN CHOICE, safe, log 2; DESIGN CHOICE, unsafe, log 3; DESIGN CHOICE, safe, log 109] -/
def step (s : State) : Host.Outcome State Fault Refusal :=
  match s.pending with
  | [] => .next s.idleClock
  | c :: rest => exec c { s with pending := rest }

/-- `s` with the command that a word spells put at the front of its queue; unchanged where it spells none. [DESIGN CHOICE, safe, log 2] -/
def State.withFetchWord (s : State) (nbits w : Nat) : State :=
  match decodeTableWord nbits w with
  | some c => { s with pending := c :: s.pending }
  | none => s

end Sys2Proof.Machine
end

