-- ==== Sys2Proof/Laws/Memory.lean ====
section
/-! SUPPORT. DRAM contents: reads after writes, and that every memory operation keeps the canonical form. -/

namespace Sys2Proof.Machine

/-! ## One channel -/

theorem cellsFrom_mono {lo lo' : Nat} {l : List Host.Cell} (h : lo' ≤ lo) (hl : cellsFrom lo l = true) : cellsFrom lo' l = true := by
  cases l with
  | nil => rfl
  | cons p r =>
    obtain ⟨a, b⟩ := p
    simp only [cellsFrom, Bool.and_eq_true, decide_eq_true_eq] at hl ⊢
    exact ⟨⟨by omega, hl.1.2⟩, hl.2⟩

/-- A write keeps the canonical form. -/
theorem cellsFrom_put {lo k : Nat} {b : Byte} {l : List Host.Cell} (hk : lo ≤ k) (hl : cellsFrom lo l = true) :
    cellsFrom lo (cellPut l k b) = true := by
  induction l generalizing lo with
  | nil =>
    simp only [cellPut]
    split
    · rfl
    · simp [cellsFrom, *]
  | cons p r ih =>
    obtain ⟨a, c⟩ := p
    simp only [cellsFrom, Bool.and_eq_true, decide_eq_true_eq, bne_iff_ne, ne_eq] at hl
    obtain ⟨⟨ha, hc⟩, hr⟩ := hl
    simp only [cellPut]
    split
    · split
      · simp [cellsFrom, ha, hc, hr]
      · simp only [cellsFrom, Bool.and_eq_true, decide_eq_true_eq, bne_iff_ne, ne_eq]
        exact ⟨⟨hk, by assumption⟩, ⟨⟨by omega, hc⟩, hr⟩⟩
    · split
      · subst_vars
        split
        · exact cellsFrom_mono (by omega) hr
        · simp only [cellsFrom, Bool.and_eq_true, decide_eq_true_eq, bne_iff_ne, ne_eq]
          exact ⟨⟨hk, by assumption⟩, hr⟩
      · simp only [cellsFrom, Bool.and_eq_true, decide_eq_true_eq, bne_iff_ne, ne_eq]
        exact ⟨⟨ha, hc⟩, ih (by omega) hr⟩

theorem cellGet_below {lo k : Nat} {l : List Host.Cell} (hl : cellsFrom lo l = true) (hk : k < lo) : cellGet l k = unlisted := by
  cases l with
  | nil => rfl
  | cons p r =>
    obtain ⟨a, b⟩ := p
    simp only [cellsFrom, Bool.and_eq_true, decide_eq_true_eq] at hl
    simp only [cellGet]
    rw [if_pos (by omega)]

/-- A read after a write to the same address, in canonical form. -/
theorem cellGet_put_self {lo k : Nat} {b : Byte} {l : List Host.Cell} (hl : cellsFrom lo l = true) :
    cellGet (cellPut l k b) k = b := by
  induction l generalizing lo with
  | nil =>
    simp only [cellPut]
    split
    · simp [cellGet, *]
    · simp [cellGet]
  | cons p r ih =>
    obtain ⟨a, c⟩ := p
    simp only [cellsFrom, Bool.and_eq_true, decide_eq_true_eq, bne_iff_ne, ne_eq] at hl
    simp only [cellPut]
    split
    · split
      · subst_vars; simp [cellGet, *]
      · simp [cellGet]
    · split
      · subst_vars
        split
        · subst_vars; exact cellGet_below hl.2 (by omega)
        · simp [cellGet]
      · simp only [cellGet]
        rw [if_neg (by assumption), if_neg (by assumption)]
        exact ih hl.2

/-- A write leaves every other address alone. -/
theorem cellGet_put_of_ne {lo k j : Nat} {b : Byte} {l : List Host.Cell} (hl : cellsFrom lo l = true) (h : j ≠ k) :
    cellGet (cellPut l k b) j = cellGet l j := by
  induction l generalizing lo with
  | nil =>
    simp only [cellPut]
    split
    · rfl
    · simp only [cellGet]; split <;> simp
  | cons p r ih =>
    obtain ⟨a, c⟩ := p
    simp only [cellsFrom, Bool.and_eq_true, decide_eq_true_eq, bne_iff_ne, ne_eq] at hl
    simp only [cellPut]
    split
    · split
      · rfl
      · simp only [cellGet]
        split
        · rw [if_pos (by omega)]
        · rfl
    · split
      · subst_vars
        split
        · simp only [cellGet]
          by_cases hj : j < a
          · rw [if_pos hj]; exact cellGet_below hl.2 (by omega)
          · rw [if_neg hj, if_neg h]
        · simp only [cellGet]
          split
          · rfl
          · rfl
      · simp only [cellGet]
        rw [ih hl.2]

/-! ## Code-word differences -/

theorem diffsFrom_mono {lo lo' : Nat} {l : SMap Nat} (h : lo' ≤ lo) (hl : diffsFrom lo l = true) : diffsFrom lo' l = true := by
  cases l with
  | nil => rfl
  | cons p r =>
    simp only [diffsFrom, Bool.and_eq_true, decide_eq_true_eq] at hl ⊢
    exact ⟨⟨by omega, hl.1.2⟩, hl.2⟩

/-- Listing a difference keeps the canonical form. -/
theorem diffsFrom_put {lo k x : Nat} {l : SMap Nat} (hk : lo ≤ k) (hx : x ≠ 0) (hl : diffsFrom lo l = true) :
    diffsFrom lo (l.put k x) = true := by
  induction l generalizing lo with
  | nil => simp [SMap.put, diffsFrom, hk, hx]
  | cons p r ih =>
    obtain ⟨a, c⟩ := p
    simp only [diffsFrom, Bool.and_eq_true, decide_eq_true_eq, bne_iff_ne, ne_eq] at hl
    obtain ⟨⟨ha, hc⟩, hr⟩ := hl
    simp only [SMap.put]
    split
    · simp only [diffsFrom, Bool.and_eq_true, decide_eq_true_eq, bne_iff_ne, ne_eq]
      exact ⟨⟨hk, hx⟩, ⟨⟨by omega, hc⟩, hr⟩⟩
    · split
      · subst_vars; simp [diffsFrom, ha, hx, hr]
      · simp only [diffsFrom, Bool.and_eq_true, decide_eq_true_eq, bne_iff_ne, ne_eq]
        exact ⟨⟨ha, hc⟩, ih (by omega) hr⟩

/-- Taking a difference out keeps the canonical form. -/
theorem diffsFrom_drop {lo k : Nat} {l : SMap Nat} (hl : diffsFrom lo l = true) : diffsFrom lo (l.drop k) = true := by
  induction l generalizing lo with
  | nil => rfl
  | cons p r ih =>
    simp only [diffsFrom, Bool.and_eq_true, decide_eq_true_eq] at hl
    obtain ⟨⟨ha, hc⟩, hr⟩ := hl
    simp only [SMap.drop, List.filter_cons]
    split
    · simp only [diffsFrom, Bool.and_eq_true, decide_eq_true_eq]
      exact ⟨⟨ha, hc⟩, ih hr⟩
    · exact diffsFrom_mono (by omega) (ih hr)

/-! ## Both channels -/

theorem Mem.wf_iff (m : Mem) : m.wf = true ↔
    cellsFrom 0 m.ch0 = true ∧ cellsFrom 0 m.ch1 = true ∧ diffsFrom 0 m.x0 = true ∧ diffsFrom 0 m.x1 = true := by
  simp [Mem.wf, and_assoc]

theorem Mem.putByte_wf {m : Mem} (ch a : Nat) (b : Byte) (h : m.wf = true) : (m.putByte ch a b).wf = true := by
  rw [Mem.wf_iff] at *
  unfold Mem.putByte
  split
  · exact ⟨cellsFrom_put (Nat.zero_le _) h.1, h.2⟩
  · exact ⟨h.1, cellsFrom_put (Nat.zero_le _) h.2.1, h.2.2⟩

theorem Mem.putDiff_wf {m : Mem} (ch w x : Nat) (h : m.wf = true) : (m.putDiff ch w x).wf = true := by
  rw [Mem.wf_iff] at *
  unfold Mem.putDiff
  split
  · refine ⟨h.1, h.2.1, ?_, h.2.2.2⟩
    simp only
    split
    · exact diffsFrom_drop h.2.2.1
    · exact diffsFrom_put (Nat.zero_le _) (by assumption) h.2.2.1
  · refine ⟨h.1, h.2.1, h.2.2.1, ?_⟩
    simp only
    split
    · exact diffsFrom_drop h.2.2.2
    · exact diffsFrom_put (Nat.zero_le _) (by assumption) h.2.2.2

theorem Mem.lose_wf' {m : Mem} (h : m.wf = true) :
    ({ m with ch0 := [], x0 := [] } : Mem).wf = true ∧ ({ m with ch1 := [], x1 := [] } : Mem).wf = true := by
  simp only [Mem.wf_iff] at *
  exact ⟨⟨rfl, h.2.1, rfl, h.2.2.2⟩, ⟨h.1, rfl, h.2.2.1, rfl⟩⟩

theorem Mem.poison_wf {m : Mem} (ch w : Nat) (h : m.wf = true) : (m.poison ch w).wf = true := Mem.putDiff_wf ch w 3 h

theorem Mem.putBytes_wf {m : Mem} (ch a : Nat) (l : List Byte) (h : m.wf = true) : (m.putBytes ch a l).wf = true := by
  induction l generalizing m a with
  | nil => exact h
  | cons b r ih => exact ih (a + 1) (Mem.putByte_wf ch a b h)

theorem Mem.repair_wf {m : Mem} (ch w : Nat) (h : m.wf = true) : (m.repair ch w).wf = true := by
  unfold Mem.repair
  split
  · exact Mem.putDiff_wf ch w 0 (Mem.putByte_wf ch _ _ h)
  · exact Mem.putDiff_wf ch w 0 h
  · exact h

theorem Mem.writeWord_wf {m : Mem} (ch a : Nat) (l : List Byte) (h : m.wf = true) : (m.writeWord ch a l).wf = true := by
  unfold Mem.writeWord
  split
  · exact Mem.putDiff_wf ch _ 0 (Mem.putBytes_wf ch a l h)
  · split
    · exact h
    · exact Mem.putBytes_wf ch a l (Mem.repair_wf ch _ h)

theorem Mem.writeLoop_wf (f : Nat) {m : Mem} (place x : Nat) (l : List Byte) (h : m.wf = true) :
    (Mem.writeLoop f m place x l).wf = true := by
  induction f generalizing m x l with
  | zero => exact h
  | succ f ih =>
    unfold Mem.writeLoop
    split
    · exact h
    · exact ih _ _ (Mem.writeWord_wf _ _ _ h)

theorem Mem.write_wf {m : Mem} (place x : Nat) (l : List Byte) (h : m.wf = true) : (m.write place x l).wf = true :=
  Mem.writeLoop_wf _ place x l h

/-- A byte read back after it was stored. -/
theorem Mem.byteAt_putByte_self {m : Mem} (ch a : Nat) (b : Byte) (h : m.wf = true) : (m.putByte ch a b).byteAt ch a = b := by
  rw [Mem.wf_iff] at h
  unfold Mem.putByte Mem.byteAt Mem.cells
  split
  · exact cellGet_put_self h.1
  · exact cellGet_put_self h.2.1

end Sys2Proof.Machine
end

