-- ==== Sys2Proof/WellFormed.lean ====
section
/-! DEFINITION. Well-formed commands: the instances they name exist and their operands fit the fields they stand for. -/

namespace Sys2Proof

/-- Every instance a command names exists: encoders, trigger inputs, rows, slots, engines, compressors, classes, ports, lanes, channels,
banks, DMA channels, CRC units, outputs, domains, rails. -/
def Instr.instanceOk (i : Instr) : Bool :=
  match i with
  | .registerWrite _ _ => true
  | .bar0UnalignedAccess _ _ => true
  | .lowerWordRead _ => true
  | .upperWordWrite _ _ => true
  | .rocRead _ => true
  | .bar2Write _ _ => true
  | .bar4Write _ _ => true
  | .interval1ms => true
  | .positionUpdate enc _ => decide (enc < 4)
  | .encoderCheckFail enc _ _ => decide (enc < 4)
  | .zRisingEdge enc => decide (enc < 4)
  | .posSrcChange _ => true
  | .load => true
  | .restoreKeep => true
  | .restoreLoad => true
  | .predictionWindowEnd => true
  | .triggerEdge input _ => decide (input < 8)
  | .triggerAccept input => decide (input < 8)
  | .trigIssue row => decide (row < 512)
  | .inhibitAsserted => true
  | .inhibitReleased => true
  | .wellDefine _ _ _ _ => true
  | .wellOpen _ => true
  | .wellSeal _ => true
  | .sealComplete => true
  | .wellRelease _ => true
  | .enqueue _ _ _ _ _ _ => true
  | .abort _ => true
  | .swap _ _ _ _ => true
  | .swapCancel => true
  | .resume _ => true
  | .resumeReady => true
  | .bandWalkDone slot _ => decide (slot < 16)
  | .engineStagingFreed engine => decide (engine < 32)
  | .sliceLineDone engine _ => decide (engine < 32)
  | .cmprStart c => decide (c < 2)
  | .cmprAbort c => decide (c < 2)
  | .compressorInput c well _ _ => decide (c < 2) && decide (well < 16)
  | .compressorBlockDone c _ => decide (c < 2)
  | .cmpValidate => true
  | .cmpValidateDone => true
  | .flush => true
  | .glyphCommit => true
  | .cntLoad => true
  | .recPush _ => true
  | .renderStart => true
  | .renderCompareDone memErr _ => memErr.all (fun e => e.2 == 2 || e.2 == 6)
  | .doseLineStart => true
  | .doseBeat _ memErr => memErr.all (fun x => decide (1 ≤ x ∧ x ≤ 4))
  | .spillWriteDone cls _ => decide (cls < 256)
  | .refillDone cls _ _ => decide (cls < 256)
  | .dosValidate => true
  | .dosValidateDone => true
  | .inject => true
  | .correctionCopyDone => true
  | .lasValidate => true
  | .lasValidateDone => true
  | .plan => true
  | .fillIdentity => true
  | .remapCopyDone => true
  | .lasHoldClr => true
  | .train port => decide (port < 32)
  | .eiEnter port => decide (port < 32)
  | .eiExit port => decide (port < 32)
  | .loopStart port => decide (port < 32)
  | .loopStop port => decide (port < 32)
  | .loopTimeExpiry port => decide (port < 32)
  | .blockReceived lane _ _ => decide (lane < 48)
  | .amReceived lane _ _ => decide (lane < 48)
  | .trainBlockReceived lane _ => decide (lane < 48)
  | .pllLocked port => decide (port < 32)
  | .trainTimeout port => decide (port < 32)
  | .laneLoss lane cause => decide (lane < 48) && decide (1 ≤ cause) && decide (cause ≤ 5)
  | .eiEnterReceived port => decide (port < 32)
  | .signalDetected lane => decide (lane < 48)
  | .lineFrameSend port => decide (port < 32)
  | .credit port _ _ => decide (port < 32)
  | .status port _ => decide (port < 32)
  | .statusTimeout port => decide (port < 32)
  | .echo port _ => decide (port < 32)
  | .cmdRsp port _ _ => decide (port < 32)
  | .cmdTimeout port => decide (port < 32)
  | .ping port => decide (port < 32)
  | .statusReq port => decide (port < 32)
  | .elemCheck port => decide (port < 32)
  | .setParam port => decide (port < 32)
  | .getParam port => decide (port < 32)
  | .clearFault port => decide (port < 32)
  | .elemCancel port => decide (port < 32)
  | .retrain ch level => decide (ch < 2) && decide (level < 2)
  | .trainDone ch _ _ _ => decide (ch < 2)
  | .freq ch point => decide (ch < 2) && decide (point < 4)
  | .freqDone ch _ => decide (ch < 2)
  | .dramRequest port place _ _ _ _ => decide (port < 8) && decide (place < 3)
  | .dramBurstComplete ch _ => decide (ch < 2)
  | .burstLate ch _ => decide (ch < 2)
  | .refreshInterval ch sub rank => decide (ch < 2) && decide (sub < 2) && decide (rank < 2)
  | .mr4Poll ch rank _ => decide (ch < 2) && decide (rank < 2)
  | .pageIdleExpiry ch bank => decide (ch < 2) && decide (bank < 128)
  | .powerDownTimer ch rank => decide (ch < 2) && decide (rank < 2)
  | .scrub => true
  | .fill => true
  | .eccAbort => true
  | .scrubDone _ => true
  | .testWrite => true
  | .testRead => true
  | .testGen => true
  | .dmaStart n _ => decide (n < 64)
  | .dmaPause n => decide (n < 64)
  | .dmaResume n => decide (n < 64)
  | .dmaStop n => decide (n < 64)
  | .dmaBurstIssue => true
  | .dmaBurstDone n _ _ => decide (n < 64)
  | .drainTimeout domain => decide (1 ≤ domain) && decide (domain ≤ 8)
  | .crcLoad u => decide (u < 36)
  | .crcData u _ => decide (u < 36)
  | .crcData8 u _ => decide (u < 36)
  | .itemDecided _ => true
  | .pulseEnd output => decide (output < 4)
  | .eventLogWrite => true
  | .clear => true
  | .restore => true
  | .fpTrain port => decide (port < 8)
  | .fpLoopStart port => decide (port < 8)
  | .fpLoopStop port => decide (port < 8)
  | .fabCmdMerge _ _ => true
  | .fabCmdAnchor _ => true
  | .helloPeriod => true
  | .hello port _ => decide (port < 8)
  | .helloTimeout port => decide (port < 8)
  | .lsa port _ => decide (port < 8)
  | .formTimeout => true
  | .assign port _ => decide (port < 8)
  | .report port _ => decide (port < 8)
  | .ready port _ => decide (port < 8)
  | .posPeriod => true
  | .pos port _ => decide (port < 8)
  | .posTimeout => true
  | .timePeriod => true
  | .time port _ => decide (port < 8)
  | .item port _ => decide (port < 8)
  | .verdict port _ => decide (port < 8)
  | .swapReq port _ => decide (port < 8)
  | .swapPrep port _ => decide (port < 8)
  | .swapVote port _ => decide (port < 8)
  | .swapDecide port _ => decide (port < 8)
  | .merge port _ _ => decide (port < 8)
  | .anchor port _ => decide (port < 8)
  | .set _ _ _ => true
  | .step _ _ => true
  | .timAdjWrite _ _ => true
  | .timNowRead => true
  | .keeperWrite => true
  | .announce _ _ _ _ _ _ _ _ _ _ => true
  | .announceReceiptTimeout => true
  | .sync _ _ _ _ _ _ => true
  | .followUp _ _ _ _ _ => true
  | .delayReq _ _ _ => true
  | .delayResp _ _ _ _ _ _ => true
  | .pdelayReq _ _ _ => true
  | .pdelayResp _ _ _ _ _ _ _ => true
  | .pdelayRespFollowUp _ _ _ _ _ _ => true
  | .stepRetry => true
  | .tsTxPop => true
  | .phyPoll _ _ _ _ => true
  | .netMdioAccess _ _ => true
  | .arp _ _ _ _ => true
  | .arpExpiry _ => true
  | .icmpEcho _ _ _ => true
  | .sessionOpen _ _ _ => true
  | .sessionClose _ _ _ _ => true
  | .sessionTimeout _ => true
  | .elevate _ _ _ _ _ => true
  | .keepalive _ _ _ _ => true
  | .read _ _ _ _ _ _ _ => true
  | .write _ _ _ _ _ _ _ _ => true
  | .info _ _ _ _ _ _ => true
  | .devMbxDoorbell _ => true
  | .revert => true
  | .save => true
  | .storeSaved _ => true
  | .storeLoad => true
  | .erase _ => true
  | .bar0ValueAccess _ _ => true
  | .bar4ValueAccess _ _ => true
  | .pwrDomOn _ => true
  | .domainOn domain => decide (1 ≤ domain) && decide (domain ≤ 8)
  | .pwrDomOff _ => true
  | .domainOff domain => decide (1 ≤ domain) && decide (domain ≤ 8)
  | .vddqFault ch => decide (ch < 2)
  | .supplyFault rail => [0, 1, 2, 5, 6].contains rail
  | .porstAssert => true
  | .porstRelease _ => true
  | .clockFailure => true
  | .mainPowerLoss => true
  | .keeperSupplyLow => true
  | .perstAssert => true
  | .system _ _ => true
  | .mgmt => true
  | .pwrWdtKick => true
  | .watchdogExpiry => true
  | .arm => true
  | .run => true
  | .disarm => true
  | .stop => true
  | .trst _ => true
  | .calAdc => true
  | .calDone _ => true
  | .bist => true
  | .calAbort => true
  | .bistDone _ _ _ => true
  | .bandgapCheck _ => true
  | .dieTempChange _ => true
  | .updBegin => true
  | .updEraseDone _ => true
  | .updBlock _ => true
  | .updVerify => true
  | .updVerified => true
  | .updActivate _ => true
  | .updCancel _ => true
  | .extest _ _ => true
  | .idcode => true
  | .samplePreload _ _ => true
  | .clamp => true
  | .highz => true
  | .bypass => true
  | .railsBackInRange _ => true
  | .sysclkInRestored _ => true
  | .perstRelease => true
  | .keeperPowerUp => true
  | .netFrameReceived _ _ => true
  | .ptpMessageInterval kind => decide (kind < 4)

/-- The operands fit: addresses in their window, IOP fields, lengths. -/
def Instr.operandsFit (i : Instr) : Bool :=
  match i with
  | .registerWrite addr _ => decide (addr < 2 ^ 26)
  | .bar0UnalignedAccess _ addr => decide (addr < 2 ^ 26)
  | .lowerWordRead addr => decide (addr < 2 ^ 26)
  | .upperWordWrite addr _ => decide (addr < 2 ^ 26)
  | .rocRead addr => decide (addr < 2 ^ 26)
  | .bar2Write _ _ => true
  | .bar4Write ofs words => decide (ofs < 2 ^ 24) && decide (words.length ≤ 128)
  | .interval1ms => true
  | .positionUpdate _ _ => true
  | .encoderCheckFail _ cause _ => decide (cause < 6)
  | .zRisingEdge _ => true
  | .posSrcChange _ => true
  | .load => true
  | .restoreKeep => true
  | .restoreLoad => true
  | .predictionWindowEnd => true
  | .triggerEdge _ _ => true
  | .triggerAccept _ => true
  | .trigIssue _ => true
  | .inhibitAsserted => true
  | .inhibitReleased => true
  | .wellDefine _ _ _ _ => true
  | .wellOpen _ => true
  | .wellSeal _ => true
  | .sealComplete => true
  | .wellRelease _ => true
  | .enqueue _ _ _ _ _ _ => true
  | .abort _ => true
  | .swap form _ _ _ => decide (form < 4)
  | .swapCancel => true
  | .resume _ => true
  | .resumeReady => true
  | .bandWalkDone _ _ => true
  | .engineStagingFreed _ => true
  | .sliceLineDone _ _ => true
  | .cmprStart _ => true
  | .cmprAbort _ => true
  | .compressorInput _ _ _ _ => true
  | .compressorBlockDone _ _ => true
  | .cmpValidate => true
  | .cmpValidateDone => true
  | .flush => true
  | .glyphCommit => true
  | .cntLoad => true
  | .recPush len => decide (len < 2 ^ 11)
  | .renderStart => true
  | .renderCompareDone _ _ => true
  | .doseLineStart => true
  | .doseBeat _ _ => true
  | .spillWriteDone _ _ => true
  | .refillDone _ _ _ => true
  | .dosValidate => true
  | .dosValidateDone => true
  | .inject => true
  | .correctionCopyDone => true
  | .lasValidate => true
  | .lasValidateDone => true
  | .plan => true
  | .fillIdentity => true
  | .remapCopyDone => true
  | .lasHoldClr => true
  | .train _ => true
  | .eiEnter _ => true
  | .eiExit _ => true
  | .loopStart _ => true
  | .loopStop _ => true
  | .loopTimeExpiry _ => true
  | .blockReceived _ _ _ => true
  | .amReceived _ _ _ => true
  | .trainBlockReceived _ _ => true
  | .pllLocked _ => true
  | .trainTimeout _ => true
  | .laneLoss _ _ => true
  | .eiEnterReceived _ => true
  | .signalDetected _ => true
  | .lineFrameSend _ => true
  | .credit _ _ _ => true
  | .status _ _ => true
  | .statusTimeout _ => true
  | .echo _ _ => true
  | .cmdRsp _ _ _ => true
  | .cmdTimeout _ => true
  | .ping _ => true
  | .statusReq _ => true
  | .elemCheck _ => true
  | .setParam _ => true
  | .getParam _ => true
  | .clearFault _ => true
  | .elemCancel _ => true
  | .retrain _ _ => true
  | .trainDone _ _ _ _ => true
  | .freq _ _ => true
  | .freqDone _ _ => true
  | .dramRequest _ _ _ _ _ _ => true
  | .dramBurstComplete _ _ => true
  | .burstLate _ _ => true
  | .refreshInterval _ _ _ => true
  | .mr4Poll _ _ _ => true
  | .pageIdleExpiry _ _ => true
  | .powerDownTimer _ _ => true
  | .scrub => true
  | .fill => true
  | .eccAbort => true
  | .scrubDone _ => true
  | .testWrite => true
  | .testRead => true
  | .testGen => true
  | .dmaStart _ _ => true
  | .dmaPause _ => true
  | .dmaResume _ => true
  | .dmaStop _ => true
  | .dmaBurstIssue => true
  | .dmaBurstDone _ _ _ => true
  | .drainTimeout _ => true
  | .crcLoad _ => true
  | .crcData _ _ => true
  | .crcData8 _ _ => true
  | .itemDecided _ => true
  | .pulseEnd _ => true
  | .eventLogWrite => true
  | .clear => true
  | .restore => true
  | .fpTrain _ => true
  | .fpLoopStart _ => true
  | .fpLoopStop _ => true
  | .fabCmdMerge _ _ => true
  | .fabCmdAnchor _ => true
  | .helloPeriod => true
  | .hello _ _ => true
  | .helloTimeout _ => true
  | .lsa _ _ => true
  | .formTimeout => true
  | .assign _ _ => true
  | .report _ _ => true
  | .ready _ _ => true
  | .posPeriod => true
  | .pos _ _ => true
  | .posTimeout => true
  | .timePeriod => true
  | .time _ _ => true
  | .item _ _ => true
  | .verdict _ _ => true
  | .swapReq _ _ => true
  | .swapPrep _ _ => true
  | .swapVote _ _ => true
  | .swapDecide _ _ => true
  | .merge _ _ _ => true
  | .anchor _ _ => true
  | .set _ _ _ => true
  | .step _ _ => true
  | .timAdjWrite _ _ => true
  | .timNowRead => true
  | .keeperWrite => true
  | .announce _ _ _ _ _ _ _ _ _ _ => true
  | .announceReceiptTimeout => true
  | .sync _ _ _ _ _ _ => true
  | .followUp _ _ _ _ _ => true
  | .delayReq _ _ _ => true
  | .delayResp _ _ _ _ _ _ => true
  | .pdelayReq _ _ _ => true
  | .pdelayResp _ _ _ _ _ _ _ => true
  | .pdelayRespFollowUp _ _ _ _ _ _ => true
  | .stepRetry => true
  | .tsTxPop => true
  | .phyPoll _ _ _ _ => true
  | .netMdioAccess _ _ => true
  | .arp _ _ _ _ => true
  | .arpExpiry _ => true
  | .icmpEcho _ _ _ => true
  | .sessionOpen ip port seq => decide (ip < 2 ^ 32) && decide (port < 2 ^ 16) && decide (seq < 2 ^ 16)
  | .sessionClose ip port session seq => decide (ip < 2 ^ 32) && decide (port < 2 ^ 16) && decide (session < 2 ^ 16) && decide (seq < 2 ^ 16)
  | .sessionTimeout session => decide (session < 2 ^ 16)
  | .elevate ip port session seq _ => decide (ip < 2 ^ 32) && decide (port < 2 ^ 16) && decide (session < 2 ^ 16) && decide (seq < 2 ^ 16)
  | .keepalive ip port session seq => decide (ip < 2 ^ 32) && decide (port < 2 ^ 16) && decide (session < 2 ^ 16) && decide (seq < 2 ^ 16)
  | .read ip port session seq count _ _ => decide (ip < 2 ^ 32) && decide (port < 2 ^ 16) && decide (session < 2 ^ 16) && decide (seq < 2 ^ 16) && decide (count < 2 ^ 8)
  | .write ip port session seq count _ _ _ => decide (ip < 2 ^ 32) && decide (port < 2 ^ 16) && decide (session < 2 ^ 16) && decide (seq < 2 ^ 16) && decide (count < 2 ^ 8)
  | .info ip port session seq count _ => decide (ip < 2 ^ 32) && decide (port < 2 ^ 16) && decide (session < 2 ^ 16) && decide (seq < 2 ^ 16) && decide (count < 2 ^ 8)
  | .devMbxDoorbell len => decide (len < 2 ^ 12)
  | .revert => true
  | .save => true
  | .storeSaved _ => true
  | .storeLoad => true
  | .erase _ => true
  | .bar0ValueAccess _ _ => true
  | .bar4ValueAccess _ _ => true
  | .pwrDomOn _ => true
  | .domainOn _ => true
  | .pwrDomOff _ => true
  | .domainOff _ => true
  | .vddqFault _ => true
  | .supplyFault _ => true
  | .porstAssert => true
  | .porstRelease _ => true
  | .clockFailure => true
  | .mainPowerLoss => true
  | .keeperSupplyLow => true
  | .perstAssert => true
  | .system _ _ => true
  | .mgmt => true
  | .pwrWdtKick => true
  | .watchdogExpiry => true
  | .arm => true
  | .run => true
  | .disarm => true
  | .stop => true
  | .trst _ => true
  | .calAdc => true
  | .calDone _ => true
  | .bist => true
  | .calAbort => true
  | .bistDone _ _ _ => true
  | .bandgapCheck _ => true
  | .dieTempChange _ => true
  | .updBegin => true
  | .updEraseDone _ => true
  | .updBlock _ => true
  | .updVerify => true
  | .updVerified => true
  | .updActivate _ => true
  | .updCancel _ => true
  | .extest _ _ => true
  | .idcode => true
  | .samplePreload _ _ => true
  | .clamp => true
  | .highz => true
  | .bypass => true
  | .railsBackInRange _ => true
  | .sysclkInRestored _ => true
  | .perstRelease => true
  | .keeperPowerUp => true
  | .netFrameReceived _ _ => true
  | .ptpMessageInterval _ => true

/-- A command is well-formed. -/
def Instr.wellFormed (i : Instr) : Bool := i.instanceOk && i.operandsFit

end Sys2Proof
end

