-- ==== Sys2Proof/Safety.lean ====
section
/-! DEFINITION. What a safe run is, in the terms the statements use. -/

namespace Sys2Proof

open Sys2Proof.Machine

/-- Every command that waits is well-formed. -/
def queueOk (s : State) : Bool := s.pending.all Instr.wellFormed

/-- A run of `k` steps that neither faults nor is refused. -/
def SafeFor (k : Nat) (s : State) : Prop := ∃ t : State, core.run k s = Host.Outcome.next t

/-- Command `c` answers a next state at `s` in which the device is `d` and everything but the device is as it was. -/
def Runs (c : Instr) (s : State) (d : Dev) : Prop := exec c s = Host.Outcome.next { s with dev := d }

/-- Command `c` answers the next state `t` at `s`. -/
def Gives (c : Instr) (s t : State) : Prop := exec c s = Host.Outcome.next t

/-- Command `c` leaves the device `d`, and host writes that waited for a channel land then, as far as they may. -/
def Lands (c : Instr) (s : State) (d : Dev) : Prop :=
  Gives c s { s with dev := (drainIntake d s.mem).1, mem := (drainIntake d s.mem).2 }

/-- Frame `f` brings this device, by fabric port `n`, an intact message of type `t` that it takes (14 R374–R376): sent to its neighbour,
routed to its address, or a flood that is new, which it passes on first. `h` and `pl` are its header and payload, `e` is the
device that takes it. -/
def ForMe (d : Dev) (n : Nat) (f : HFrame) (t : Nat) (h : FabHdr) (pl : List Byte) (e : Dev) : Prop :=
  d.fabOn = true ∧ d.fabUp n = true ∧ frameOk f = true ∧ leAt f.start 0 1 = 0xA0 ∧ h = parseFab f.body ∧
    pl = (f.body.take (f.body.length - 4)).drop 16 ∧ h.type = t ∧ (d.fmember n = true ∨ t = 1 ∨ t = 14) ∧
    ((h.dest = 0xFE ∨ h.dest ≠ 0xFF ∧ h.dest = d.ownAddr) ∧ e = d ∨
      h.dest = 0xFF ∧ d.floodNew h = true ∧
        e = { d with fab := { d.fab with seqIn := (h.id, h.seq) :: d.fab.seqIn.filter (fun e => e.1 != h.id) } }.forward n
          (if t = 7 then passTime n d f.body else f.body))

/-- The device works: powered, out of reset, and past BOOT. -/
def Up (s : State) : Prop := s.dev.awake = true ∧ s.dev.dstate ≠ DevState.boot

/-- The device works, its management processors run, and no mailbox message waits. -/
def Managed (s : State) : Prop := Up s ∧ s.dev.pwr.mgmtStop = false ∧ s.dev.mgmt.bell = none

/-- Command `c` leaves the device `d` and answers `r` to the address and port it came from. -/
def Answers (c : Instr) (s : State) (ip port : Nat) (d : Dev) (r : List Byte) : Prop :=
  Runs c s (d.iopSend ip port r)

/-- Commands by which any block can be reached: host accesses of BAR0, objects, frames of the management network, and what is
served after them. -/
def Instr.wide (c : Instr) : Bool :=
  match c with
  | .registerWrite .. | .upperWordWrite .. | .lowerWordRead .. | .rocRead .. | .devMbxDoorbell .. | .bar0ValueAccess ..
  | .bar4ValueAccess .. | .sessionOpen .. | .sessionClose .. | .elevate .. | .keepalive .. | .read .. | .write .. | .info ..
  | .netFrameReceived .. => true
  | _ => false

/-- Commands that may change DRAM. -/
def Instr.onDram (c : Instr) : Bool :=
  match c with
  | .bar2Write .. | .compressorInput .. | .compressorBlockDone .. | .dmaBurstDone .. | .dramBurstComplete .. | .spillWriteDone ..
  | .scrubDone .. | .testWrite | .trainDone .. | .freqDone .. | .domainOff .. | .vddqFault .. | .supplyFault .. | .porstAssert | .clockFailure
  | .mainPowerLoss | .system .. => true
  | _ => false

/-- Commands that may change the keeper, the flash or the fuses. -/
def Instr.onKept (c : Instr) : Bool :=
  match c with
  | .positionUpdate .. | .load | .restoreLoad | .pos .. | .itemDecided .. | .verdict .. | .eventLogWrite | .set .. | .keeperWrite
  | .storeSaved .. | .erase .. | .updBegin | .updBlock .. | .updActivate .. | .updCancel .. | .mgmt | .watchdogExpiry
  | .keeperSupplyLow | .keeperPowerUp | .supplyFault .. | .porstAssert | .porstRelease .. | .clockFailure | .mainPowerLoss
  | .railsBackInRange .. | .sysclkInRestored .. | .system .. => true
  | _ => false

/-- Commands that may change the test port. -/
def Instr.onTap (c : Instr) : Bool :=
  match c with
  | .trst .. | .extest .. | .idcode | .samplePreload .. | .clamp | .highz | .bypass | .porstAssert | .porstRelease .. => true
  | _ => false

/-- Encoder edges and the other pin events, supplies and the test port: commands that act also on a device that is held. -/
def Instr.onPins (c : Instr) : Bool :=
  match c with
  | .positionUpdate .. | .triggerEdge .. | .inhibitAsserted | .inhibitReleased | .perstAssert | .perstRelease | .supplyFault .. | .porstAssert
  | .porstRelease .. | .clockFailure | .mainPowerLoss | .railsBackInRange .. | .sysclkInRestored .. | .keeperSupplyLow
  | .keeperPowerUp | .trst .. | .extest .. | .idcode | .samplePreload .. | .clamp | .highz | .bypass => true
  | _ => false

end Sys2Proof
end

