-- ==== Sys2Proof/Certificates/Slice0/Obligations.lean ====
section
/-! DEFINITION. The statements for the provers. Each names the rules of the spec it rests on; `Runs c s d` says that command `c` at
state `s` answers a next state that differs from `s` in the device only, which becomes `d`; `Gives c s t` that it answers `t`. -/

open Sys2Proof Sys2Proof.Machine

/-! ## Steps, commands, what they touch -/

/-- A step runs the command at the front of the queue on the state with the queue's rest (the model's queue: log entry 2). On an empty queue one
clock passes (the model's choice, log entry 3): with no step whose ECHO is awaited, no gate that is due and no item record on its way to the keeper,
or while the device is held, device time and the keeper's crystal advance and nothing else changes. -/
def Obligations.StepRunsFront : Prop :=
  (∀ (c : Instr) (s : State) (l : List Instr), step { s with pending := c :: l } = exec c { s with pending := l }) ∧
  (∀ s : State, s.pending = [] → (s.dev.awake = false ∨ (∀ p < 32, (s.dev.port p).steps = []) ∧ (∀ i ∈ s.dev.items, i.due = []) ∧
      s.dev.evt.latched = []) →
    step s = .next { s with
      dev := { s.dev.ifAwake Dev.tickTime with now := s.dev.now + 1 }, nv := { s.nv with keep := s.nv.keep.tick } })

/-- At reset the DRAM contents have their canonical form, the device is in BOOT, held by PORST_N, no command waits, and registers read the reset values of
their tables (values that the spec states). -/
def Obligations.ResetState : Prop :=
  State.reset.mem.wf = true ∧ State.reset.mem.byteAt 0 0 = State.reset.mem.byteAt 1 5 ∧ State.reset.pending = [] ∧
  State.reset.dev.dstate = .boot ∧ State.reset.dev.awake = false ∧
  State.reset.dev.get R.TIM_STEP_LIM = 10000 ∧ State.reset.dev.get R.TIM_STEP_THR = 1000 ∧
  State.reset.dev.get R.NET_IOP_PORT = 5620 ∧ State.reset.dev.is R.TIM_STATUS_VALID = false ∧
  State.reset.dev.job.order = [] ∧ State.reset.dev.items = []

/-- Every command whose instance exists completes, in every state (so no stop is reached by ordinary data); one whose instance does not
exist faults under its own name. Every well-formed command completes. -/
def Obligations.CommandsComplete : Prop :=
  (∀ (c : Instr) (s : State), c.instanceOk = true → ∃ t : State, exec c s = .next t) ∧
  (∀ (c : Instr) (s : State), c.instanceOk = false → exec c s = .fault .noSuchInstance) ∧
  (∀ c : Instr, c.wellFormed = true → c.instanceOk = true)

/-- What a command may touch, over the whole machine: no command changes the queue of those that wait; only the test port's
commands and PORST_N change the test port; besides the commands that reach any block (`Instr.wide`), only those of `Instr.onDram` change
DRAM, and only those of `Instr.onKept` change keeper, flash or fuses (11 R317–R322, 17 R453, 19 R487, 20 R511). -/
def Obligations.OwnState : Prop :=
  ∀ (c : Instr) (s t : State), exec c s = .next t →
    t.pending = s.pending ∧ (c.onTap = false → t.tap = s.tap) ∧
    (c.wide = false → c.onDram = false → t.mem = s.mem) ∧ (c.wide = false → c.onKept = false → t.nv = s.nv)

/-- A device that is held in reset, without supplies or without its clock takes part in nothing (17 R454, R465): every command other
than pin events, supply events and the test port leaves the whole state as it was. -/
def Obligations.HeldDevice : Prop :=
  ∀ (c : Instr) (s t : State), s.dev.awake = false → c.onPins = false → exec c s = .next t → t = s

/-- The DRAM contents keep their canonical form through every step, whatever command runs: addresses strictly rising, no byte listed that an
unlisted address would read as, no code word listed without a difference. -/
def Obligations.DramCanonical : Prop :=
  ∀ s t : State, s.mem.wf = true → step s = .next t → t.mem.wf = true

/-! ## Registers and tables (00, 16) -/

/-- REGISTER_WRITE, UPPER_WORD_WRITE (00_scope R4–R6, 16 R425, R450). At every aligned address the write is that of the bus, the mailbox is served
after it, and host writes that waited for it land. Where a register stands that is no command word, the access codes and ranges of its fields
decide (`settingWrite`). So for the words of verdict output `o` and the event interrupt's pending bit: outside RUN a VRD_WIDTH of 1–1,000,000 is
stored, 0 counts in DEV_RANGE_DISC_CNT and changes nothing else; in RUN the RWL field takes nothing; a 1 clears the W1C bit and a 0 leaves it; the
lower word of VRD_GATE is held, the upper one then writes both. A write where no register stands counts in DEV_BAR_DISC_CNT; one not aligned
has no effect.
LOWER_WORD_READ, ROC_READ, BAR0_UNALIGNED_ACCESS (00_scope R4–R6, Table 0.4, 11 R315, R318): a read of any lower word answers it and latches the upper one; a read of
any word that is no half answers it and restarts its ROC fields: VRD_PULSE_CNT at 0, VRD_MARGIN_MIN at 0xFFFFFFFF; a read of the descriptor table
reads memory 9, corrected, and answers all ones where its word is uncorrectable; an access not aligned to four
bytes changes nothing, a read of this kind returns 0. -/
def Obligations.RegisterAccesses : Prop :=
  (∀ (s : State) (a : Nat) (v : Word), s.dev.hostUp = true → a % 4 = 0 →
    Gives (.registerWrite a v) s (let t := serveBell (busWrite a v.toNat s); let r := drainIntake t.dev t.mem; { t with dev := r.1, mem := r.2 }) ∧
    Gives (.upperWordWrite a v) s (serveBell (busWrite a v.toNat s)) ∧
    (s.dev.barSilent a = false → cmdWord a v.toNat = none → s.dev.strayCommand a v.toNat = none →
      Gives (.upperWordWrite a v) s (serveBell { s with dev := s.dev.settingWrite a v.toNat }))) ∧
  (∀ (s : State) (o : Nat) (v : Word), s.dev.hostUp = true → s.dev.mgmt.bell = none → s.dev.noneWait = true → s.dev.dstate ≠ .boot →
    s.dev.dstate ≠ .run → o < 4 →
    (1 ≤ v.toNat % 2 ^ 20 → v.toNat % 2 ^ 20 ≤ 1000000 →
      Runs (.registerWrite (0x2010C + 0x20 * o) v) s (s.dev.set (R.VRD_WIDTH o) v.toNat)) ∧
    (v.toNat % 2 ^ 20 = 0 → Runs (.registerWrite (0x2010C + 0x20 * o) v) s (s.dev.bump R.DEV_RANGE_DISC_CNT 1)) ∧
    Runs (.registerWrite (0x20104 + 0x20 * o) v) s { s.dev with held := s.dev.held.put (0x20104 + 0x20 * o) v } ∧
    (∀ lo : Word, s.dev.held.find? (0x20104 + 0x20 * o) = some lo →
      Runs (.upperWordWrite (0x20108 + 0x20 * o) v) s (({ s.dev with held := s.dev.held.drop (0x20104 + 0x20 * o) }.setReg
        (0x20104 + 0x20 * o) lo).setReg (0x20108 + 0x20 * o) v))) ∧
  (∀ (s : State) (o : Nat) (v : Word), s.dev.hostUp = true → s.dev.mgmt.bell = none → s.dev.noneWait = true → s.dev.dstate = .run → o < 4 →
    Runs (.registerWrite (0x2010C + 0x20 * o) v) s s.dev) ∧
  (∀ (s : State) (v : Word), s.dev.hostUp = true → s.dev.mgmt.bell = none → s.dev.noneWait = true → s.dev.dstate ≠ .boot →
    Runs (.registerWrite 0x20020 v) s (if v.toNat % 2 = 1 ∧ s.dev.is R.EVT_IRQ_STATUS_PEND = true
      then s.dev.setB R.EVT_IRQ_STATUS_PEND false else s.dev)) ∧
  (∀ (s : State) (a : Nat) (v : Word), s.dev.hostUp = true → s.dev.mgmt.bell = none → s.dev.noneWait = true → a % 4 = 0 → rowsAt a = [] →
    activeOf a = none → Runs (.registerWrite a v) s (s.dev.bump R.DEV_BAR_DISC_CNT 1)) ∧
  (∀ (s : State) (a : Nat) (v : Word), s.dev.mgmt.bell = none → s.dev.noneWait = true → a % 4 ≠ 0 → Runs (.registerWrite a v) s s.dev) ∧
  (∀ (s : State) (a : Nat), s.dev.hostUp = true → s.dev.mgmt.bell = none → a % 4 = 0 → s.dev.barSilent a = false →
    a ≠ R.TIM_NOW_NS.addr → a ≠ R.TS_TX_POP.addr →
    ((rowsAt a).any (fun r => r.half == 1) = true → Runs (.lowerWordRead a) s { s.dev.restarted a with
      latch := s.dev.latch.put (a + 4) (BitVec.ofNat 32 (s.dev.word s.nv (a + 4))), resp := [BitVec.ofNat 32 (s.dev.word s.nv a)] }) ∧
    ((rowsAt a).any (fun r => r.half == 1) = false → (rowsAt a).any (fun r => r.half == 2) = false → ¬(0x198000 ≤ a ∧ a < 0x1A0000) →
      Runs (.rocRead a) s { s.dev.restarted a with resp := [BitVec.ofNat 32 (s.dev.word s.nv a)] })) ∧
  (∀ (s : State) (a : Nat) (x : Nat) (e : Dev), s.dev.hostUp = true → a % 4 = 0 → s.dev.barSilent a = false → 0x198000 ≤ a → a < 0x1A0000 →
    (rowsAt a).any (fun r => r.half == 1) = false → (rowsAt a).any (fun r => r.half == 2) = false →
    (s.dev.sramRead 9 ((a - 0x198000) / 4) 14 = (some x, e) →
      Gives (.rocRead a) s (serveBell { s with dev := { e with resp := [BitVec.ofNat 32 x] } })) ∧
    (s.dev.sramRead 9 ((a - 0x198000) / 4) 14 = (none, e) →
      Gives (.rocRead a) s (serveBell { s with dev := { e.emit (.poisoned 0 a) with resp := [0xFFFFFFFF#32] } }))) ∧
  (∀ (d : Dev) (o : Nat), o < 4 → d.restarted (0x20110 + 0x20 * o) = d.setReg (0x20110 + 0x20 * o) 0 ∧
    d.restarted (0x20114 + 0x20 * o) = d.setReg (0x20114 + 0x20 * o) 0xFFFFFFFF) ∧
  (∀ (s : State) (a : Nat), s.dev.hostUp = true → a % 4 ≠ 0 →
    Runs (.bar0UnalignedAccess true a) s s.dev ∧ Runs (.bar0UnalignedAccess false a) s { s.dev with resp := [0] })

/-- BAR4_WRITE, BAR2_WRITE (16 R451, Table 16.12, 03 R94, R95, 01 R33, 11 R321): a word of the remap table of the Shadow profile, or of the correction
table or the template store (in memory words that hold no error), is stored while no swap holds the profile, and clears the validity flag the table
has; a word of an Active copy is not stored; bytes for a LOADING well are written, or wait in order while its channel is not ready or holds
host intake; bytes for any other well are discarded whole and counted. -/
def Obligations.TableWrites : Prop :=
  (∀ (s : State) (i : Nat) (v : Word), s.dev.hostOpen = true → i < 0x20000 → s.dev.remapWritable = true →
    Runs (.bar4Write (4 * i) [v]) s (({ s.dev with las := { s.dev.las with remapS := s.dev.las.remapS.put i v } }.freshWords 3
      (131072 * s.dev.remapHalf false + i) (131072 * s.dev.remapHalf false + i + 1)).setB R.LAS_STATUS_REMAP_VALID false)) ∧
  (∀ (s : State) (i : Nat) (v : Word), s.dev.hostOpen = true → i < 0x20000 →
    Runs (.bar4Write (0x80000 + 4 * i) [v]) s (s.dev.bump R.LAS_DISC_CNT 1)) ∧
  (∀ (s : State) (i : Nat) (v : Word), s.dev.hostOpen = true → i < 0x20000 → s.dev.corrShut = false →
    s.dev.sramKind 4 (2 * i) = .clean → s.dev.sramKind 4 (2 * i + 1) = .clean →
    Runs (.bar4Write (0x100000 + 4 * i) [v]) s { s.dev with dos := { s.dev.dos with corrS := s.dev.dos.corrS.put i v } }) ∧
  (∀ (s : State) (i : Nat) (v : Word), s.dev.hostOpen = true → i < 0x8000 → s.dev.job.swap = none → s.dev.sramKind 6 (i / 2) = .clean →
    Runs (.bar4Write (0x500000 + 4 * i) [v]) s ({ s.dev with cmp := { s.dev.cmp with tplS := s.dev.cmp.tplS.put i v } }.setB
      R.CMP_STATUS_TPL_VALID false)) ∧
  (∀ (s : State) (o : Nat) (l : List Byte), s.dev.hostOpen = true → s.dev.noneWait = true →
    s.dev.wellTakes (s.dev.get R.INTAKE_WIN_WELL) (s.dev.get R.INTAKE_WIN_OFS * 2 ^ 20 + o) l.length = true →
    Gives (.bar2Write o l) s (let w := s.dev.well (s.dev.get R.INTAKE_WIN_WELL); let x := w.base + (s.dev.get R.INTAKE_WIN_OFS * 2 ^ 20 + o)
      if s.dev.intakeStop w.place then { s with dev := { s.dev with job := { s.dev.job with intake := [(w.place, x, l)] } } }
      else { s with dev := (regionWrite s.dev s.mem 3 w.place x l).2.1, mem := (regionWrite s.dev s.mem 3 w.place x l).2.2 })) ∧
  (∀ (s : State) (o : Nat) (l : List Byte), s.dev.hostOpen = true →
    s.dev.wellTakes (s.dev.get R.INTAKE_WIN_WELL) (s.dev.get R.INTAKE_WIN_OFS * 2 ^ 20 + o) l.length = false →
    Runs (.bar2Write o l) s ((s.dev.bump R.INTAKE_DISC_CNT 1).occur Ev.INTAKE_DISCARD 0 1))

/-! ## Position, triggers, firing (02) -/

/-- POSITION_UPDATE (02 R46–R50, R52, R61): an edge of an enabled encoder that is neither source nor check encoder changes that
encoder's levels and signed 64-bit count, and sets ENC_STATUS bit 0 when A and B changed together in digital mode; a sample of such an analog
encoder within its amplitude limits and less than 1/4 period from the one before gives the count, the angle and ENC_AMP. A count of the source encoder
moves pos_int by R52, and backward travel and the weir level, with all it sets off, follow. Backward travel within WEIR_DEPTH is counted once in
REV_ABS_CNT and leaves the weir level where it is. -/
def Obligations.PositionUpdateCounts : Prop :=
  (∀ (s : State) (n : Nat) (a b : Bool) (d : Dev), Up s → n < 4 → s.dev.is (R.ENC_CFG_EN n) = true → s.dev.evt.latched = [] →
    s.dev.srcEnc ≠ some n → s.dev.chkEnc ≠ some n → d = s.dev.setEnc n { s.dev.enc n with
      c := toSigned 64 (ofSigned 64 ((s.dev.enc n).c + s.dev.edgeDelta n (.quad a b))), a := a, b := b } →
    Runs (.positionUpdate n (.quad a b)) s
      (if (s.dev.enc n).a ≠ a ∧ (s.dev.enc n).b ≠ b ∧ s.dev.is (R.ENC_CFG_MODE n) = false
        then d.set (R.ENC_STATUS n) (orBit (d.get (R.ENC_STATUS n)) 0) else d)) ∧
  (∀ (s : State) (n : Nat) (x y : Int) (e : Enc), Up s → n < 4 → s.dev.is (R.ENC_CFG_EN n) = true → s.dev.evt.latched = [] →
    s.dev.srcEnc ≠ some n → s.dev.chkEnc ≠ some n → ampOk (sampleAmp x y) = true →
    (angleStep (s.dev.enc n).ang (sampleAngle x y)).natAbs ≤ 1024 →
    e = { s.dev.enc n with
      c := toSigned 64 (ofSigned 64 ((s.dev.enc n).c + s.dev.edgeDelta n (.analog x y))), ang := (sampleAngle x y).or (s.dev.enc n).ang
      ampBad := 0 } →
    Runs (.positionUpdate n (.analog x y)) s (((s.dev.setEnc n e).set (R.ENC_AMP n) (sampleAmp x y)).setEnc n
      { e with failing := e.failing.erase 4 })) ∧
  (∀ (s : State) (n : Nat) (a b : Bool) (c : Int), Up s → n < 4 → s.dev.is (R.ENC_CFG_EN n) = true → s.dev.srcEnc = some n →
    s.dev.chkEnc = none → (s.dev.enc n).a = a ∨ (s.dev.enc n).b = b → s.dev.edgeDelta n (.quad a b) ≠ 0 →
    c = toSigned 64 (ofSigned 64 ((s.dev.enc n).c + s.dev.edgeDelta n (.quad a b))) →
    Gives (.positionUpdate n (.quad a b)) s (keepCommit { s with
      dev := ((s.dev.setEnc n { s.dev.enc n with c := c, a := a, b := b }).setPos
        (posFrom (s.dev.ratio n) c s.dev.pos.cL s.dev.pos.pL)).checkBack.weirRise })) ∧
  (∀ (s : State) (n : Nat) (a b : Bool) (c p : Int), Up s → n < 4 → s.dev.is (R.ENC_CFG_EN n) = true → s.dev.evt.latched = [] →
    s.dev.srcEnc = some n → s.dev.chkEnc = none → (s.dev.enc n).a = a ∨ (s.dev.enc n).b = b → s.dev.edgeDelta n (.quad a b) ≠ 0 →
    s.dev.pos.reversal = false → s.dev.pos.excursion = false →
    c = toSigned 64 (ofSigned 64 ((s.dev.enc n).c + s.dev.edgeDelta n (.quad a b))) →
    p = posFrom (s.dev.ratio n) c s.dev.pos.cL s.dev.pos.pL →
    0 < s.dev.pos.cW - c → s.dev.pos.cW - c ≤ s.dev.get R.WEIR_DEPTH → p ≤ s.dev.pos.weir →
    Runs (.positionUpdate n (.quad a b)) s
      ({ s.dev with pos := { s.dev.pos with
          encs := s.dev.pos.encs.put n { s.dev.enc n with c := c, a := a, b := b }, posInt := p
          hist := (s.dev.now, p) :: pruneHist s.dev.now s.dev.pos.hist, excursion := true } }.bump R.REV_ABS_CNT 1))

/-- ENCODER_CHECK_FAIL, Z_RISING_EDGE, PREDICTION_WINDOW_END, POS_SRC_CHANGE (02 R50, R54, R55, R63): a failing check of an enabled
encoder sets its ENC_STATUS bit, and makes position invalid where it is the source or check encoder; a Z edge with ZCHK 0 stores the count; a Z
edge whose count difference misses ENC_CPR by more than ENC_ZTOL raises ENC_Z_MISMATCH under ZCHK 1; a full window ends the elapsed-time
velocity; a new source outside RUN latches position so that it carries on without a step, and the checks that fail are looked at again.
LOAD, RESTORE_KEEP, RESTORE_LOAD (02 R52, R56, R66): in IDLE, LOAD of a position not above the weir level sets position and weir level
to POS_LD and forgets what was issued at the old one (13 R353), one above it lets the weir rise there with all that sets off; RESTORE_KEEP with no persisting cause makes position valid, counting on
from the current count; RESTORE_LOAD latches POS_LD first, the steps it passes staying withheld. -/
def Obligations.PositionKept : Prop :=
  (∀ (s : State) (n cause bit : Nat), Up s → n < 4 → s.dev.is (R.ENC_CFG_EN n) = true → encStatusBit cause = some bit →
    checkApplies cause (s.dev.is (R.ENC_CFG_MODE n)) = true →
    Runs (.encoderCheckFail n cause .momentary) s (let d := s.dev.set (R.ENC_STATUS n) (orBit (s.dev.get (R.ENC_STATUS n)) bit)
      if s.dev.srcEnc = some n ∨ s.dev.chkEnc = some n then d.posInvalid cause n else d)) ∧
  (∀ (s : State) (n : Nat), Up s → n < 4 → s.dev.is (R.ENC_CFG_EN n) = true → s.dev.get (R.ENC_CFG_ZCHK n) = 0 →
    Runs (.zRisingEdge n) s (s.dev.setEnc n { s.dev.enc n with lastZ := some (s.dev.enc n).c })) ∧
  (∀ (s : State) (n : Nat) (z : Int), Up s → n < 4 → s.dev.is (R.ENC_CFG_EN n) = true → s.dev.get (R.ENC_CFG_ZCHK n) = 1 → (s.dev.enc n).lastZ = some z →
    ((s.dev.enc n).c - z).natAbs + s.dev.get (R.ENC_ZTOL n) < s.dev.get (R.ENC_CPR n) →
    Runs (.zRisingEdge n) s ((s.dev.setEnc n { s.dev.enc n with lastZ := some (s.dev.enc n).c }).raise Ev.ENC_Z_MISMATCH
      (((s.dev.enc n).c - z).natAbs % 2 ^ 32 + 2 ^ 32 * n))) ∧
  (∀ s : State, Up s → s.dev.windowFull = true →
    Runs .predictionWindowEnd s { s.dev with pos := { s.dev.pos with tClr := none } }) ∧
  (∀ (s : State) (src : Nat), Up s → s.dev.dstate ≠ .run → src < 4 →
    Runs (.posSrcChange src) s
      ((s.dev.set R.POS_CTRL_SRC src).latchAt s.dev.pos.posInt).encReview) ∧
  (∀ (s : State) (d : Dev) (p : Nat), Up s → s.dev.dstate = .idle → s.dev.evt.latched = [] → s.dev.get R.POS_CTRL_SRC ≠ 4 →
    p = s.dev.get64 R.POS_LD_LO → d = ((s.dev.latchAt p).setPos p).forgetIssued →
    (p ≤ s.dev.pos.weir → s.dev.pos.reversal = false → Runs .load s { d with pos := { d.pos with weir := p } }) ∧
    (s.dev.pos.weir < p → Gives .load s (keepCommit { s with dev := d.weirJump p Dev.endReversal }))) ∧
  (∀ s : State, Up s → s.dev.is R.POS_STATUS_VALID = false → s.dev.causePersists = false → s.dev.pos.reversal = false →
    Runs .restoreKeep s ((((s.dev.latchAt s.dev.pos.posInt).setB R.POS_STATUS_VALID true).causeOff 0).raise Ev.POS_RESTORED 0)) ∧
  (∀ (s : State) (d : Dev) (p : Nat), Up s → s.dev.is R.POS_STATUS_VALID = false → s.dev.causePersists = false →
    s.dev.get R.POS_CTRL_SRC ≠ 4 → s.dev.evt.latched = [] → p = s.dev.get64 R.POS_LD_LO → d = (s.dev.latchAt p).setPos p →
    (p ≤ s.dev.pos.weir → s.dev.pos.reversal = false →
      Runs .restoreLoad s (((d.setB R.POS_STATUS_VALID true).causeOff 0).raise Ev.POS_RESTORED 1)) ∧
    (s.dev.pos.weir < p → Gives .restoreLoad s (keepCommit { s with dev := d.weirJump p (fun d => d.restored 1) })))

/-- TRIGGER_EDGE and TRIGGER_ACCEPT (02 R67–R69): an active edge of an enabled input starts the filter time; the accepted trigger is
stamped at the pin edge, FILT + 3 clocks back, counted, and offered as an item; one inside the hold-off is counted in TRG_REJ_CNT only. -/
def Obligations.TriggersAccepted : Prop :=
  (∀ (s : State) (i : Nat) (v : Bool), i < 8 → s.dev.is (R.TRG_CFG_EN i) = true → (v != s.dev.is (R.TRG_CFG_EDGE i)) = true →
    (s.dev.trg i).level = !v →
    Runs (.triggerEdge i v) s (s.dev.setTrg i { s.dev.trg i with level := v, edgeAt := some s.dev.now })) ∧
  (∀ (s : State) (i c pos : Nat), Up s → i < 8 → s.dev.is (R.TRG_CFG_EN i) = true → (s.dev.trg i).edgeAt = some c →
    pos = satPos (s.dev.extrap ((s.dev.now : Int) - (s.dev.get (R.TRG_FILT i) + 3 : Nat))).toNat →
    (∀ p, (s.dev.trg i).lastPos = some p → p + s.dev.get (R.TRG_HOLD i) ≤ pos) →
    Runs (.triggerAccept i) s
      ((((s.dev.setTrg i { s.dev.trg i with edgeAt := none }).setTrg i { s.dev.trg i with edgeAt := none, lastPos := some pos }).bump
        (R.TRG_CNT i) 1).triggerItem i pos (s.dev.timeNs - (s.dev.get (R.TRG_FILT i) + 3)))) ∧
  (∀ (s : State) (i c p : Nat), Up s → i < 8 → s.dev.is (R.TRG_CFG_EN i) = true → (s.dev.trg i).edgeAt = some c →
    (s.dev.trg i).lastPos = some p →
    satPos (s.dev.extrap ((s.dev.now : Int) - (s.dev.get (R.TRG_FILT i) + 3 : Nat))).toNat < p + s.dev.get (R.TRG_HOLD i) →
    Runs (.triggerAccept i) s ((s.dev.setTrg i { s.dev.trg i with edgeAt := none }).bump (R.TRG_REJ_CNT i) 1))

/-- TRIG_ISSUE, INHIBIT_ASSERTED, INHIBIT_RELEASED (02 R79–R82): at the issue clock of an enabled row, with every condition of R35 and
the window met and the path free, the row is issued for its step; with a condition failing the step is withheld and the row goes on; a
change of the filtered inhibit level is taken and raised. -/
def Obligations.RowsIssue : Prop :=
  (∀ (s : State) (r : Nat), Up s → r < 512 → rowOn (s.dev.fireProf (s.dev.row r).next) r = true → s.dev.pos.reversal = false →
    0 ≤ s.dev.lateness r (s.dev.row r).next →
    s.dev.withhold r (s.dev.row r).next (rowPort (s.dev.fireProf (s.dev.row r).next) r) (s.dev.firePoint r (s.dev.row r).next) = [] →
    s.dev.pathFree (rowPort (s.dev.fireProf (s.dev.row r).next) r) (s.dev.row r).next = true →
    Runs (.trigIssue r) s (s.dev.issue r (s.dev.row r).next (rowPort (s.dev.fireProf (s.dev.row r).next) r)
      (s.dev.firePoint r (s.dev.row r).next) (s.dev.lateness r (s.dev.row r).next))) ∧
  (∀ (s : State) (r : Nat) (c : Cause) (cs : List Cause), Up s → r < 512 → rowOn (s.dev.fireProf (s.dev.row r).next) r = true →
    s.dev.pos.reversal = false → 0 ≤ s.dev.lateness r (s.dev.row r).next →
    s.dev.withhold r (s.dev.row r).next (rowPort (s.dev.fireProf (s.dev.row r).next) r) (s.dev.firePoint r (s.dev.row r).next) =
      c :: cs →
    Runs (.trigIssue r) s
      ((((s.dev.withheldEvents r (s.dev.row r).next (rowPort (s.dev.fireProf (s.dev.row r).next) r) (c :: cs)).causeStep r
        (s.dev.row r).next (c :: cs)).nextStep r (s.dev.row r).next none).checkDecided
          (rowPort (s.dev.fireProf (s.dev.row r).next) r) (s.dev.row r).next)) ∧
  (∀ s : State, Up s → s.dev.pos.inhibit = false →
    Runs .inhibitAsserted s ({ s.dev with pos := { s.dev.pos with inhibit := true } }.raise Ev.INHIBIT_ASSERTED 0)) ∧
  (∀ s : State, Up s → s.dev.pos.inhibit = true →
    Runs .inhibitReleased s ({ s.dev with pos := { s.dev.pos with inhibit := false } }.raise Ev.INHIBIT_RELEASED 0))

/-! ## Wells and jobs (03) -/

/-- WELL_OPEN and WELL_RELEASE are refused with WELL_IN_USE while any job slot that is not EMPTY references the well (03 R90); the job queue lists
the slots that are not EMPTY. Nothing but JOB_RESULT changes. -/
def Obligations.WellsInUse : Prop :=
  ∀ (s : State) (w q : Nat), Up s → s.dev.is R.JOB_RESULT_BUSY = false → w < 16 → q ∈ s.dev.job.order → (s.dev.slot q).well = w →
    Runs (.wellOpen w) s ((s.dev.wrap R.JOB_RESULT_SEQ 1).set R.JOB_RESULT_CODE 7) ∧
    Runs (.wellRelease w) s ((s.dev.wrap R.JOB_RESULT_SEQ 1).set R.JOB_RESULT_CODE 7)

/-- WELL_DEFINE, WELL_OPEN, WELL_SEAL, WELL_RELEASE, SEAL_COMPLETE (03 R89–R91, R116, R519, Table 3.4): an accepted command counts in
JOB_RESULT.SEQ and answers OK as it completes; DEFINE makes a FREE well CLOSED with its placement, base and size; OPEN makes a CLOSED or SEALED one
LOADING; RELEASE frees it; SEAL of a LOADING well makes it SEALING, the command in progress; once the host writes before it have landed and the well's
channels are ready, the check reads the well and leaves it SEALED with its header and J, or CLOSED with its error, SEAL_FAIL and the SEAL_LAST
registers. -/
def Obligations.WellCommands : Prop :=
  (∀ (s : State) (d : Dev) (w place base size : Nat), Up s → s.dev.is R.JOB_RESULT_BUSY = false → d = s.dev.wrap R.JOB_RESULT_SEQ 1 →
    w < 16 → place < 3 → (d.well w).st = .free → base % 2 ^ 20 = 0 → size % 2 ^ 20 = 0 → 0 < size →
    base + size ≤ d.placeCapacity place → d.meetsWell (some w) place base size = false →
    regionsOverlap place base size (d.get R.LAS_REG_PLACE) (d.get64 R.LAS_REG_BASE_LO) (d.get64 R.LAS_REG_SIZE_LO) = false →
    d.placeIn place = true →
    Runs (.wellDefine w place base size) s
      ((d.setWell w { st := .closed, place := place, base := base, size := size }).set R.JOB_RESULT_CODE 0)) ∧
  (∀ (s : State) (d : Dev) (w : Nat), Up s → s.dev.is R.JOB_RESULT_BUSY = false → d = s.dev.wrap R.JOB_RESULT_SEQ 1 → w < 16 →
    d.wellInUse w = false → ((d.well w).st = .closed ∨ (d.well w).st = .sealed) →
    Runs (.wellOpen w) s ((d.setWell w { d.well w with st := .loading }).set R.JOB_RESULT_CODE 0) ∧
    Runs (.wellRelease w) s ((d.setWell w {}).set R.JOB_RESULT_CODE 0)) ∧
  (∀ (s : State) (d : Dev) (w : Nat), Up s → s.dev.is R.JOB_RESULT_BUSY = false → d = s.dev.wrap R.JOB_RESULT_SEQ 1 → w < 16 →
    (d.well w).st = .loading → d.cmprOnWell w = false →
    Runs (.wellSeal w) s ({ d.setWell w { d.well w with st := .sealing } with
      job := { (d.setWell w { d.well w with st := .sealing }).job with sealing := some w } }.setB R.JOB_RESULT_BUSY true)) ∧
  (∀ s : State, Up s → Runs .sealComplete s (s.dev.sealRead s.mem)) ∧
  (∀ (d : Dev) (m : Mem) (w : Nat), d.job.sealing = some w → d.memHeld (d.well w).place = false → d.job.intake = [] →
    d.sealRead m = (d.wellReads m 6 w (sealReads (fun o n => d.wellRead m w o n) (d.well w).size)).sealComplete m) ∧
  (∀ (d e : Dev) (m : Mem) (w j : Nat) (h : DxsHdr), d.job.sealing = some w →
    e = { d with job := { d.job with sealing := none } }.setB R.JOB_RESULT_BUSY false →
    sealCheck (fun o n => d.wellRead m w o n) (d.well w).size = .pass h j →
    d.sealComplete m = (e.setWell w { d.well w with st := .sealed, hdr := h, jmax := j }).set R.JOB_RESULT_CODE 0) ∧
  (∀ (d e : Dev) (m : Mem) (w c o : Nat), d.job.sealing = some w →
    e = { d with job := { d.job with sealing := none } }.setB R.JOB_RESULT_BUSY false →
    sealCheck (fun o n => d.wellRead m w o n) (d.well w).size = .fail c o →
    d.sealComplete m = ((((e.setWell w { d.well w with st := .closed, sealErr := c, sealOfs := o % 2 ^ 32 }).set
      R.JOB_RESULT_CODE JobCode.sealFail.num).set R.SEAL_LAST_WELL w).set64 R.SEAL_LAST_OFS_LO o).raise Ev.SEAL_FAIL
        (w + 256 * c + 65536 * (o % 2 ^ 48)))

/-- ENQUEUE, ABORT (03 R97–R103): a job on a SEALED well takes the lowest EMPTY slot at the back of the queue, which then advances;
ABORT of an ended job raises ABORT_LATE; ABORT of an ACTIVE one ends it ABORTED after the lines it released, of a waiting one removes it.
SWAP, SWAP_CANCEL, RESUME, RESUME_READY (01 R41, 03 R107–R116): a swap that R107 does not refuse is scheduled; in ARMED and RUN it converts once
its N is known, in IDLE it takes effect at once with the plan made again; SWAP_CANCEL drops a scheduled swap, and without one raises
SWAP_CANCEL_LATE; RESUME of a line far enough ahead in RUN starts the resume; its end sets RESUME_READY and raises the event. The result code is
written as each completes. -/
def Obligations.JobCommands : Prop :=
  (∀ (s : State) (d : Dev) (w mode input gap line band q : Nat), Up s → s.dev.is R.JOB_RESULT_BUSY = false →
    d = s.dev.wrap R.JOB_RESULT_SEQ 1 → (List.range 16).find? (fun q => (d.slot q).st == .empty) = some q → w < 16 →
    (d.well w).st = .sealed → mode < 3 → input < 8 → gap < 65536 → band < (d.well w).hdr.bandCount →
    (mode = 0 → ∀ e, d.endBefore d.job.order.getLast? = some e → e ≤ line) →
    posFits (if mode = 0 then line else (d.endBefore d.job.order.getLast?).getD (ceilLine d.pos.weir)) (d.well w).hdr.lines = true →
    ∀ e : Dev, e = d.setSlot q { st := .queued, well := w, mode := mode, input := input, gap := gap, argS := line, firstBand := band, hdr := (d.well w).hdr, jmax := (d.well w).jmax } →
    Runs (.enqueue w mode input gap line band) s
      (jobEnd ({ e with job := { e.job with order := d.job.order ++ [q] } }.advance, .ok))) ∧
  (∀ (s : State) (d : Dev) (q : Nat), Up s → s.dev.is R.JOB_RESULT_BUSY = false → d = s.dev.wrap R.JOB_RESULT_SEQ 1 → q < 16 →
    ((d.slot q).st = .ended →
      Runs (.abort q) s (jobEnd ((d.setSlot q { d.slot q with abortLate := true }).raise Ev.ABORT_LATE q, .abortLate))) ∧
    ((d.slot q).st = .active → Runs (.abort q) s (jobEnd ((d.endActive q 2).advance, .ok))) ∧
    (((d.slot q).st = .queued ∨ (d.slot q).st = .head) → Runs (.abort q) s (jobEnd ((d.endUnstarted q 2).advance, .ok)))) ∧
  (∀ (s : State) (d e x : Dev) (form arg line : Nat), Up s → s.dev.is R.JOB_RESULT_BUSY = false → d = s.dev.wrap R.JOB_RESULT_SEQ 1 →
    form ≤ 2 → (form = 2 → arg < 16 ∧ (d.slot arg).st ≠ .empty ∧ (d.slot arg).st ≠ .ended) →
    d.swapRefused (d.swapLine form arg line) = none →
    e = { d with job := { d.job with swap := some { form := form, arg := arg, n := none, fabric := false, granted := false } } }.raise
      Ev.SWAP_SCHEDULED (65536 * ((d.swapLine form arg line).getD 0 % 2 ^ 48)) →
    x = (if d.printing = false then e.swapAccepted else match d.swapLine form arg line with
      | some n => e.convertSwap n
      | none => e) →
    Runs (.swap form false arg line) s (jobEnd (if x.job.gen = d.job.gen then x else x.reSluiceAll, .ok))) ∧
  (∀ (s : State) (d : Dev), Up s → s.dev.is R.JOB_RESULT_BUSY = false → d = s.dev.wrap R.JOB_RESULT_SEQ 1 →
    (s.dev.job.swap.isSome = true →
      Runs .swapCancel s (jobEnd ({ d with job := { d.job with swap := none } }.replanAll, .ok))) ∧
    (s.dev.job.swap = none → Runs .swapCancel s (jobEnd (d.raise Ev.SWAP_CANCEL_LATE 0, .swapCancelLate)))) ∧
  (∀ (s : State) (d : Dev) (n : Nat), Up s → s.dev.is R.JOB_RESULT_BUSY = false → d = s.dev.wrap R.JOB_RESULT_SEQ 1 →
    s.dev.dstate = .run → s.dev.level ≠ .basic → s.dev.job.resume = none →
    floorLine s.dev.pos.weir + s.dev.job.workW + 1 ≤ n →
    Runs (.resume n) s (jobEnd (d.resumeAt n, .ok))) ∧
  (∀ (s : State) (r : Resume), Up s → s.dev.job.resume = some r → s.dev.refilled r = true →
    Runs .resumeReady s ({ s.dev with job := { s.dev.job with resume := none, resumeReady := true } }.raise Ev.RESUME_READY
      (65536 * (r.n % 2 ^ 48))))

/-! ## Expansion and compression (04) -/

/-- BAND_WALK_DONE, SLICE_LINE_DONE, ENGINE_STAGING_FREED (04 R118, R125–R128, R134–R137): a walk that was asked for reads the band with its counts, is
recorded and no longer waits; a running engine reads what its waiting line needs and expands each segment on from the context it kept: where no
segment has ended with a code, the line's bytes of every segment join its staging, the contexts are kept to the next line of the band and the
line no longer waits; a segment that ends with a code on or before that line halts the engine with
SEG_ERROR's registers and the band-slice unproven; a waiting engine with 64 bytes of staging free is settled anew, one without stays as it is; neither
a walk nor an engine goes on while the well's channel is not ready. -/
def Obligations.EnginesExpand : Prop :=
  (∀ (s : State) (n b q : Nat), Up s → n < 16 → q = s.dev.walkSlot n b →
    Runs (.bandWalkDone n b) s (if s.dev.exp.walkPend.contains (q, b) = true ∧ s.dev.memHeld (s.dev.well (s.dev.slot q).well).place = false
      then (s.dev.wellReads s.mem 2 (s.dev.slot q).well (s.dev.walkReads s.mem q b)).walkDone s.mem q b else s.dev)) ∧
  (∀ (d : Dev) (n b : Nat), (∀ w ∈ d.exp.walkPend, w.1 < 16) → d.walkSlot n b = n) ∧
  (∀ (d : Dev) (m : Mem) (q b : Nat), d.exp.walkPend.contains (q, b) = true →
    (d.walkDone m q b).exp.walks = d.exp.walks ++ [{ slot := q, band := b, segs := d.walkBand m q b }] ∧
    (d.walkDone m q b).exp.walkPend = d.exp.walkPend.erase (q, b)) ∧
  (∀ (s : State) (e : Nat) (l : RelLine) (rest : List RelLine), Up s → e < 32 → (s.dev.eng e).st = .run → (s.dev.eng e).pend = l :: rest →
    s.dev.memHeld (s.dev.well (s.dev.slot l.slot).well).place = false →
    Runs (.sliceLineDone e none) s ((s.dev.wellReads s.mem 2 (s.dev.slot l.slot).well (s.dev.lineReads s.mem e)).sliceLine s.mem e none)) ∧
  (∀ (d : Dev) (m : Mem) (e b i n : Nat) (l : RelLine) (rest : List RelLine) (all segs : List Seg) (h : DxsHdr)
    (res : List SegRun) (parts : List (Seg × List Byte)),
    (d.eng e).st = .run → (d.eng e).pend = l :: rest → h = (d.slot l.slot).hdr → b = l.jline / h.bandLines → i = l.jline % h.bandLines →
    n = bandLinesOf h b → d.walkOf l.slot b = some all → segs = segsOfSlice all e →
    res = (segs.zip ((d.eng e).ctxsFor (l.slot, b) segs.length)).map (fun p => d.expandSeg m (d.slot l.slot).well p.1 (histOf segs.length)
      (if i + 1 = n then p.1.rawLen + 1 else h.segLine p.1 * (i + 1)) p.2) →
    ((∀ r ∈ res, endedBy (planeFormat h) h.depth n i r = false) → l.toStage = true → d.ledgerAt l.line ≠ .dry →
      parts = res.map (fun r => (r.seg, sliceOf r.out (h.segLine r.seg * i) (h.segLine r.seg))) →
      d.stagedBytes e + (parts.map (fun p => p.2.length)).sum ≤ 32768 →
      ((d.sliceLine m e none).eng e).pend = rest ∧
      ((d.sliceLine m e none).eng e).staged = (d.eng e).staged ++ [{ line := l.line, slot := l.slot, parts := parts }] ∧
      ((d.sliceLine m e none).eng e).ctxs = if i + 1 = n then [] else res.map (·.ctx)) ∧
    (∀ (good more : List SegRun) (r : SegRun) (c : Nat),
      res = good ++ r :: more → (∀ g ∈ good, endedBy (planeFormat h) h.depth n i g = false) → r.code = some c →
      endedBy (planeFormat h) h.depth n i r = true →
      d.stagedBytes e + ((good ++ [r]).map (fun r => (sliceOf r.out (h.segLine r.seg * i) (h.segLine r.seg)).length)).sum ≤ 32768 →
      ∃ x : Dev, (x.eng e).pend = rest ∧
        d.sliceLine m e none = ((x.haltEngine e l.slot b r.seg.plane c (r.seg.ofs + r.errAt)).settle e).sweep)) ∧
  (∀ (s : State) (e : Nat), Up s → e < 32 → (s.dev.eng e).st ≠ .run → Runs (.sliceLineDone e none) s s.dev) ∧
  (∀ (s : State) (e : Nat), Up s → e < 32 → (s.dev.eng e).st = .wait → s.dev.stagedBytes e + 64 ≤ 32768 →
    Runs (.engineStagingFreed e) s (s.dev.settle e)) ∧
  (∀ (s : State) (e : Nat), Up s → e < 32 → 32768 < s.dev.stagedBytes e + 64 → Runs (.engineStagingFreed e) s s.dev)

/-- CMPR_START, CMPR_ABORT (04 R139, R147): START of a task within its limits makes the compressor BUSY with the task of its registers,
RAW_LEN set and IN_CNT 0; a task outside them ends BAD_TASK; ABORT of a running task ends it ABORTED, after the commit it sets
ABORT_LATE, and without a task it does nothing.
COMPRESSOR_INPUT, COMPRESSOR_BLOCK_DONE (04 R139–R148): the first input of a task writes the 32 zero bytes of the header at the
segment offset once the well's channel is ready; input is gathered up to RAW_LEN, what is beyond it waits behind the task; input after the task is
excess; a verified block writes what it adds to the payload, the last one then the
padding and the true header; a task whose payload would be longer than its input ends NO_GAIN; a block that fails verification ends the task
VERIFY_FAIL with the offset. -/
def Obligations.CompressorRuns : Prop :=
  (∀ (s : State) (c : Nat), Up s → s.dev.domOn 6 = true → s.dev.domOn 7 = true → c < 2 → (s.dev.cmpr c).busy = false →
    (s.dev.cmprTaskOk c = true → ∃ d : Dev, Runs (.cmprStart c) s (d.pace (fun i => (s.dev.cmpr i).busy)) ∧ (d.cmpr c).busy = true ∧ (d.cmpr c).inp = [] ∧
      d.is (R.CMPR_STATUS_BUSY c) = true ∧ d.is (R.CMPR_STATUS_DONE c) = false ∧ d.get (R.CMPR_IN_CNT c) = 0 ∧
      (d.cmpr c).rawLen = s.dev.get (R.CMPR_SEG2_LINES c) *
        lineLen (s.dev.get (R.CMPR_CFG_FORMAT c)) (s.dev.get (R.CMPR_CFG_DEPTH c)) (s.dev.get (R.CMPR_SEG2_COL_COUNT c))) ∧
    (s.dev.cmprTaskOk c = false → Runs (.cmprStart c) s ((s.dev.cmprEnd c .badTask).pace (fun i => (s.dev.cmpr i).busy))) ∧
    ((s.dev.cmpr c).committed = true → Runs (.cmprAbort c) s ((s.dev.setB (R.CMPR_STATUS_ABORT_LATE c) true).pace (fun i => (s.dev.cmpr i).busy))) ∧
    ((s.dev.cmpr c).committed = false → Runs (.cmprAbort c) s (s.dev.pace (fun i => (s.dev.cmpr i).busy)))) ∧
  (∀ (s : State) (c : Nat), Up s → s.dev.domOn 6 = true → s.dev.domOn 7 = true → c < 2 → (s.dev.cmpr c).busy = true →
    Runs (.cmprStart c) s (s.dev.pace (fun i => (s.dev.cmpr i).busy)) ∧
    Runs (.cmprAbort c) s ((s.dev.cmprEnd c .aborted).pace (fun i => (s.dev.cmpr i).busy))) ∧
  (∀ (s : State) (d : Dev) (c w o : Nat) (l : List Byte) (x y : Cmpr) (r : Dev × Mem), Up s → c < 2 → w < 16 → x = s.dev.cmpr c →
    x.busy = true →
    y = { x with started := true, well := if x.started then x.well else w, ofs := if x.started then x.ofs else o
                 inp := x.inp ++ l.take (x.rawLen - x.inp.length), beyond := x.beyond + (l.length - (x.rawLen - x.inp.length))
                 hdrDue := x.hdrDue || !x.started } →
    d = (s.dev.setCmpr c y).set (R.CMPR_IN_CNT c) y.inp.length → r = cmprZero d s.mem c →
    Gives (.compressorInput c w o l) s { s with dev := r.1.pace (fun i => (s.dev.cmpr i).busy), mem := r.2 }) ∧
  (∀ (d : Dev) (m : Mem) (c : Nat) (x : Cmpr) (r : Option Nat × Dev × Mem), x = d.cmpr c →
    (x.hdrDue = false ∨ d.memHeld (d.well x.well).place = true → cmprZero d m c = (d, m)) ∧
    (x.hdrDue = true → d.memHeld (d.well x.well).place = false → d.wellTakes x.well x.ofs 32 = true →
      r = regionWrite (d.setCmpr c { x with hdrDue := false }) m 5 (d.well x.well).place ((d.well x.well).base + x.ofs) (List.replicate 32 0) →
      cmprZero d m c = (r.2.1, r.2.2))) ∧
  (∀ (s : State) (c w o : Nat) (l : List Byte), Up s → c < 2 → w < 16 → (s.dev.cmpr c).busy = false →
    Runs (.compressorInput c w o l) s ((s.dev.cmprExcess c l.length).pace (fun i => (s.dev.cmpr i).busy))) ∧
  (∀ (s : State) (c v n : Nat) (x : Cmpr) (block pay : List Byte) (r : Option Nat × Dev × Mem) (d : Dev), Up s → c < 2 → x = s.dev.cmpr c →
    x.busy = true → x.started = true → s.dev.memHeld (s.dev.well x.well).place = false → x.coded < x.rawLen →
    n = min 65536 (x.rawLen - x.coded) → x.coded + n ≤ x.inp.length → block = sliceOf x.inp x.coded n →
    pay = (x.blockPay block (x.coded + n == x.rawLen)).1 →
    Runs (.compressorBlockDone c (some v)) s (((((s.dev.cmprEnd c .verifyFail).set64 (R.CMPR_ERR_OFS_LO c) v).bump
      (R.CMPR_VERIFY_CNT c) 1).raise Ev.CMPR_VERIFY (c + 65536 * (v % 2 ^ 48))).pace (fun i => (s.dev.cmpr i).busy)) ∧
    (x.effort ≠ 0 → x.coded + n = x.rawLen → x.rawLen < x.pay.length + pay.length →
      Runs (.compressorBlockDone c none) s (((s.dev.cmprEnd c .noGain).raise Ev.CMPR_NO_GAIN
        (c + 2 ^ 32 * ((x.pay.length + pay.length) % 2 ^ 32))).pace (fun i => (s.dev.cmpr i).busy))) ∧
    ((x.effort = 0 ∨ x.coded + n ≠ x.rawLen ∨ x.pay.length + pay.length ≤ x.rawLen) →
      s.dev.wellTakes x.well (x.ofs + 32 + x.pay.length) pay.length = true →
      r = regionWrite s.dev s.mem 5 (s.dev.well x.well).place ((s.dev.well x.well).base + (x.ofs + 32 + x.pay.length)) pay →
      d = r.2.1.setCmpr c { x with pay := x.pay ++ pay, tail := (x.blockPay block (x.coded + n == x.rawLen)).2, coded := x.coded + n } →
      Gives (.compressorBlockDone c none) s (if x.coded + n = x.rawLen
        then { s with dev := (cmprCommit d r.2.2 c).1.pace (fun i => (s.dev.cmpr i).busy), mem := (cmprCommit d r.2.2 c).2 }
        else { s with dev := d.pace (fun i => (s.dev.cmpr i).busy), mem := r.2.2 })))

/-! ## Composition (05) -/

/-- CMP_VALIDATE, CMP_VALIDATE_DONE, FLUSH, GLYPH_COMMIT, CNT_LOAD, REC_PUSH (05 R151–R157, R162): VALIDATE sets BUSY; its end reads
the store with its counts and leaves CMP_TMAX, the rate limit and TPL_VALID with no failing check, or the check, its offset and VALIDATE_FAIL; with
no stored word in error the reads count nothing; FLUSH discards the unbound
NEXT records and raises their number; GLYPH_COMMIT writes VALID by its check, refused for a locked slot; CNT_LOAD loads the selected
counter, refused in RUN; a record that is accepted joins the queue, one that is refused is counted; every push counts in SEQ.
RENDER_START, RENDER_COMPARE_DONE (05 R170–R173): with no rendering in progress, the first item in order with one waiting that has
its record, needs none or is past its deadline reads what it needs and starts when the image store has room; while one runs nothing starts; a compare
without a rendering in progress has no effect; one of a running rendering ends it DONE with the compared fields. -/
def Obligations.CompositionRuns : Prop :=
  (∀ s : State, Up s → s.dev.cmp.validating = false →
    Runs .cmpValidate s ({ s.dev with cmp := { s.dev.cmp with validating := true } }.setB R.CMP_STATUS_BUSY true) ∧
    Runs .flush s (({ s.dev with cmp := { s.dev.cmp with
      recs := s.dev.cmp.recs.filter (fun (r : Rec) => !(r.bound.isNone && !r.byNumber)) } }.set R.CMP_STATUS_RESULT 0).raise Ev.REC_FLUSHED
        (s.dev.cmp.recs.filter (fun (r : Rec) => r.bound.isNone && !r.byNumber)).length) ∧
    (∀ (n : Nat) (ok : Bool), n = s.dev.get R.CMP_GLYPH_SEL → s.dev.fontLocked n = false →
      ok = (fontOk s.dev.glyphStore n && (s.dev.fontBad n).isEmpty) →
      Runs .glyphCommit s (((s.dev.fontReads n).sramPartial 2 (2 * n + 1) 11 (fun w => putBits w 0 1 (if ok then 1 else 0))).2.set
        R.CMP_STATUS_RESULT (if ok then 0 else 1))) ∧
    (∀ n w : Nat, n = s.dev.get R.CMP_GLYPH_SEL → w = (s.dev.cmp.glyph.get 0 (2 * n + 1)).toNat → s.dev.fontLocked n = false →
      s.dev.ecc.diffs = [] → fontOk s.dev.glyphStore n = true →
      Runs .glyphCommit s ({ s.dev with cmp := { s.dev.cmp with
        glyph := s.dev.cmp.glyph.put (2 * n + 1) (BitVec.ofNat 32 (putBits w 0 1 1)) } }.set R.CMP_STATUS_RESULT 0)) ∧
    (s.dev.dstate ≠ .run → ∀ n, n = s.dev.get R.CMP_CNT_SEL →
      Runs .cntLoad s ({ s.dev with cmp := { s.dev.cmp with
        ctrs := s.dev.cmp.ctrs.put n { next := s.dev.get64 (R.CNT_START_LO n), loaded := true, wrapped := false } } }.set
          R.CMP_STATUS_RESULT 0)) ∧
    (s.dev.dstate = .run → Runs .cntLoad s (s.dev.set R.CMP_STATUS_RESULT 3)) ∧
    (s.dev.fontLocked (s.dev.get R.CMP_GLYPH_SEL) = true → Runs .glyphCommit s (s.dev.set R.CMP_STATUS_RESULT 2))) ∧
  (∀ (s : State) (d : Dev) (t : Nat), Up s → s.dev.cmp.validating = true → t = storeTime s.dev.tplShadow →
    d = forEach (tplFonts s.dev.tplShadow) Dev.fontReads (((({ s.dev with cmp := { s.dev.cmp with validating := false } }.setB
      R.CMP_STATUS_BUSY false).set R.CMP_TMAX t).set R.CMP_RATE_LIM (s.dev.renderRate t)).sramReads 6 0 tplActiveWord 11) →
    (s.dev.tplFailure = none →
      Runs .cmpValidateDone s ((d.setB R.CMP_STATUS_TPL_VALID true).set R.CMP_STATUS_RESULT 0)) ∧
    (∀ c o, s.dev.tplFailure = some (c, o) →
      Runs .cmpValidateDone s (((((d.setB R.CMP_STATUS_TPL_VALID false).set R.CMP_STATUS_RESULT 1).set R.CMP_STATUS_CHECK c).set
        R.CMP_CHECK_OFS o).raise Ev.VALIDATE_FAIL (c + 2 ^ 32 * o)))) ∧
  (∀ d : Dev, d.ecc.diffs = [] → d.sramReads 6 0 tplActiveWord 11 = d ∧ d.tplFailure = firstFailure d.cmp.tplS d.cmp.glyph) ∧
  (∀ (s : State) (n : Nat) (l : List Byte), Up s → n ≤ 1024 →
    l = (bytesOfWords ((List.range 256).map (fun i => s.dev.reg (R.CMP_REC_WIN i).addr))).take n →
    (∀ r, s.dev.pushResult l = (0, some r) →
      Runs (.recPush n) s (((s.dev.set R.CMP_REC_RESULT_CODE 0).wrap R.CMP_REC_RESULT_SEQ 1).queueRec r)) ∧
    (∀ c, s.dev.pushResult l = (c, none) →
      Runs (.recPush n) s (((s.dev.set R.CMP_REC_RESULT_CODE c).wrap R.CMP_REC_RESULT_SEQ 1).bump R.CMP_REC_REF_CNT 1))) ∧
  (∀ (s : State) (i : Item) (rest : List Item) (r : Rend) (fs : List FieldImg) (d : Dev), Up s → s.dev.cmp.rendering = none →
    s.dev.inOrder (fun i => i.rends.any (fun r => r.st == .waiting)) = i :: rest →
    (i.takesRec && i.record.isNone && !i.dataLate) = false → i.rends.find? (fun r => r.st == .waiting) = some r →
    fs = s.dev.renderAll i r.gen → s.dev.imageUse + 2 * (fs.map (fun f => f.img.size)).sum ≤ 1310720 →
    d = { s.dev.renderReads i r.gen with cmp := { (s.dev.renderReads i r.gen).cmp with rendering := some (i.num, r.gen) } }.updItem i.num (fun i =>
      i.setRend r.gen (fun r => { r with st := .running, fields := fs.map (fun (f : FieldImg) => { f with stamped := false }) })) →
    Runs .renderStart s (d.keepMax R.CMP_IMG_PEAK d.imageUse)) ∧
  (∀ (s : State) (x : Nat × Nat), Up s → s.dev.cmp.rendering = some x → Runs .renderStart s s.dev) ∧
  (∀ (s : State) (n g : Nat) (i : Item) (r : Rend) (act : Nat) (fs : List FieldImg) (b : List (Nat × Nat)), Up s →
    s.dev.cmp.rendering = some (n, g) → s.dev.item? n = some i → i.rends.find? (fun r => r.gen == g) = some r → r.st = .running →
    act = profGet (s.dev.genProf g) R.CMP_MISMATCH_ACT → fs = r.fields.map (comparedField act [] b) →
    Runs (.renderCompareDone [] b) s (fs.foldl (fun d f => d.fieldReport n act b f)
      ({ s.dev with cmp := { s.dev.cmp with rendering := none } }.updItem n (fun i =>
        i.setRend g (fun r => { r with st := .done, fields := fs, again := false }))))) ∧
  (∀ (s : State) (b : List (Nat × Nat)), Up s → s.dev.cmp.rendering = none → Runs (.renderCompareDone [] b) s s.dev) ∧
  (∀ (act : Nat) (f : FieldImg) (b : Nat), (comparedField act [] [(f.idx, b)] f).resB = b ∧
    (comparedField act [] [(f.idx, b)] f).stamped = (act == 1) ∧ (comparedField act [] [] f).stamped = true)

/-! ## Dose mapping and cisterns (06, 07) -/

/-- DOSE_LINE_START, DOSE_BEAT, INJECT (06 R187, R193–R199, 07 R211, 11 R315, R316): the next released line starts, its screen rows loaded, when no line
is in progress and every long cistern has a free headrace slot; a wait is counted once; a beat on which the rails differ, or after INJECT, is written
as level 0, counted and raised, and the items on its line receive DOSE; so is one of which a stored word reads uncorrectable, with DOSE_MEMORY; a
beat without an error takes its computed levels.
DOS_VALIDATE, DOS_VALIDATE_DONE, CORRECTION_COPY_DONE (06 R184, R189, 11 R321, R322): VALIDATE sets BUSY; its end sets SCR_VALID when
no check fails, else clears it and names check and place, the cells read with their counts; the copy, a partial write of each word that one in error may refuse,
leaves the table writable, and both correction halves equal where no stored word is in error. -/
def Obligations.DoseRuns : Prop :=
  (∀ (s : State) (l : RelLine) (rest : List RelLine), Up s → s.dev.dos.line = none → s.dev.dos.queue = l :: rest →
    (s.dev.admits = true → s.dev.waitsRendering l.line = false →
      Runs .doseLineStart s ({ s.dev with dos := { s.dev.dos with
        line := some l.line, rowBuf := [], taken := [], levels := [], memRaised := [], waited := false } }.loadRows l)) ∧
    (s.dev.admits = false → s.dev.dos.waited = false →
      Runs .doseLineStart s ({ s.dev with dos := { s.dev.dos with waited := true } }.bump R.LAS_ADMIT_WAIT 1)) ∧
    (s.dev.admits = false → s.dev.dos.waited = true → Runs .doseLineStart s s.dev)) ∧
  (∀ (s : State) (l sl i : Nat) (x : RelLine) (rest : List RelLine) (parts : List (Seg × List Byte)) (lv faults : List Nat) (d : Dev)
      (err : Bool), Up s → s.dev.dos.line = some l → s.dev.dos.queue = x :: rest → s.dev.nextSlice x = some sl →
    i = s.dev.dos.taken.get 0 sl → s.dev.sliceParts x sl = some parts →
    planeConflicts ((List.range 64).map (fun j => (8192 * sl + 64 * i + j, planeAt parts (64 * i + j)))) l (s.dev.fieldsOn l) = [] →
    faults = (s.dev.beatFaults (s.dev.slot x.slot).hdr parts l sl i).eraseDups →
    lv = (if err || s.dev.dos.inject || !faults.isEmpty then zeroBeat else s.dev.beatLevels (s.dev.slot x.slot).hdr parts l sl i) →
    d = { s.dev with dos := { s.dev.dos with taken := s.dev.dos.taken.put sl (i + 1)
                                             levels := s.dev.dos.levels.put (128 * sl + i) lv, lastSlice := sl, inject := false } } →
    Runs (.doseBeat err []) s ((forEach faults (fun (d : Dev) src => d.doseMemory l sl src)
      ((if err || s.dev.dos.inject then ((d.raise Ev.DOSE_MISMATCH (sl + 32 * i + 65536 * l)).bump
        R.DOS_MISMATCH_CNT 1).causeItems .dose (fun it => it.touchesLine l) else d).sramReads 4 (8192 * sl + 64 * i)
          (8192 * sl + 64 * i + 64) 8)).doseFinish l)) ∧
  (∀ s : State, Up s → Runs .inject s { s.dev with dos := { s.dev.dos with inject := true } }) ∧
  (∀ s : State, Up s → s.dev.dos.validating = false →
    Runs .dosValidate s ({ s.dev with dos := { s.dev.dos with validating := true } }.setB R.DOS_STATUS_BUSY true)) ∧
  (∀ (s : State) (d : Dev), Up s → s.dev.dos.validating = true →
    d = ({ s.dev with dos := { s.dev.dos with validating := false } }.setB R.DOS_STATUS_BUSY false).screenReads →
    (s.dev.screenCheck = none → Runs .dosValidateDone s (d.setB R.DOS_STATUS_SCR_VALID true)) ∧
    (∀ c i, s.dev.screenCheck = some (c, i) →
      Runs .dosValidateDone s ((((d.setB R.DOS_STATUS_SCR_VALID false).set R.DOS_STATUS_CHECK c).set R.DOS_CHECK_INFO i).raise
        Ev.SCREEN_INVALID (c + 65536 * i)))) ∧
  (∀ s : State, Up s → s.dev.is R.DOS_STATUS_COPYING = true →
    Runs .correctionCopyDone s (((s.dev.corrLoad 0 (eccSramWords 4) 8 (fun d => d.dos.corrA)).setB R.DOS_STATUS_COPYING false).setB
      R.DOS_STATUS_CORR_VALID true)) ∧
  (∀ d : Dev, d.ecc.diffs = [] → d.screenReads = d ∧
    d.corrLoad 0 (eccSramWords 4) 8 (fun d => d.dos.corrA) = { d with dos := { d.dos with corrS := d.dos.corrA } }) ∧
  (∀ s : State, Up s → s.dev.is R.DOS_STATUS_COPYING = false → Runs .correctionCopyDone s s.dev)

/-- SPILL_WRITE_DONE, REFILL_DONE (07 R213, R215, R219, 10 R287, 11 R315–R317): once its channels are ready the oldest headrace record is written to its
middle slot in DRAM, leaves the headrace, and its line joins the middle, its words that were uncorrectable poisoned; the lowest line of the middle
reaches the tailrace with what the read delivers; a read that failed leaves no record; a refill of another line is discarded; a class whose headrace or
middle is empty is left as it is. -/
def Obligations.CisternTraffic : Prop :=
  (∀ (s : State) (c l : Nat) (x : Cis) (r : List Byte) (rest : List (Nat × List Byte)) (w : Option Nat × Dev × Mem), Up s → c < 256 →
    x = s.dev.las.cis.get {} c → x.head = (l, r) :: rest → s.dev.memHeld s.dev.las.place = false → s.dev.ledgerAt l = .data →
    s.dev.passedLine c l = false → s.dev.inResume (l + classDelay s.dev.active c) = false →
    ((∀ b ∈ x.bad, b.1 ≠ l) →
      w = regionWrite { s.dev with las := { s.dev.las with cis := s.dev.las.cis.put c { x with head := rest, mid := x.mid ++ [l] } } } s.mem 0
        s.dev.las.place (s.dev.recordAddr x l) r →
      Gives (.spillWriteDone c []) s { s with dev := w.2.1, mem := w.2.2 }) ∧
    (∀ p : List Nat, ∃ t : State, Gives (.spillWriteDone c p) s t ∧
      (t.dev.las.cis.get {} c).head = rest ∧ (t.dev.las.cis.get {} c).mid = x.mid ++ [l])) ∧
  (∀ (s : State) (c l : Nat) (x : Cis) (rest : List Nat) (got : (List Byte ⊕ Nat) × Dev), Up s → c < 256 → x = s.dev.las.cis.get {} c →
    x.mid = l :: rest → x.tail.length < s.dev.las.tr → s.dev.memHeld s.dev.las.place = false →
    got = regionRead s.dev s.mem 1 s.dev.las.place (s.dev.recordAddr x l) x.width →
    (∀ b, got.1 = .inl b → Runs (.refillDone c l false) s { got.2 with las := { got.2.las with cis := got.2.las.cis.put c { x with
      mid := rest, tail := x.tail ++ [(l, some b)] } } }) ∧
    (∀ o, got.1 = .inr o → Runs (.refillDone c l false) s { got.2 with las := { got.2.las with cis := got.2.las.cis.put c { x with
      mid := rest, tail := x.tail ++ [(l, none)] } } }) ∧
    Runs (.refillDone c l true) s { s.dev with las := { s.dev.las with cis := s.dev.las.cis.put c { x with
      mid := rest, tail := x.tail ++ [(l, none)] } } } ∧
    (∀ k e, k ≠ l → Runs (.refillDone c k e) s s.dev)) ∧
  (∀ (s : State) (c l : Nat) (e : Bool), Up s → c < 256 → (s.dev.las.cis.get {} c).mid = [] → Runs (.refillDone c l e) s s.dev) ∧
  (∀ (s : State) (c : Nat) (p : List Nat), Up s → c < 256 → (s.dev.las.cis.get {} c).head = [] → Runs (.spillWriteDone c p) s s.dev)

/-- LAS_VALIDATE, LAS_VALIDATE_DONE, PLAN, FILL_IDENTITY, REMAP_COPY_DONE, LAS_HOLD_CLR (07 R204–R208, R212–R214, R223): VALIDATE sets
BUSY and its end reads the map with its counts, writes the scatter map and sets REMAP_VALID, but not during a copy, or names the failing
check; PLAN in IDLE plans from the Active profile, elsewhere it does nothing;
FILL_IDENTITY writes the identity map of the Shadow profile unless a swap or a copy holds it; the copy's end makes the other half what the Active one
reads as, and valid; with no stored word in error all reads are plain; HOLD_CLR drives the hold output low. -/
def Obligations.RemapAndPlan : Prop :=
  (∀ s : State, Up s → s.dev.las.validating = false →
    Runs .lasValidate s ({ s.dev with las := { s.dev.las with validating := true } }.setB R.LAS_STATUS_BUSY true) ∧
    (s.dev.dstate = .idle → Runs .plan s (s.dev.plan s.dev.active).1) ∧
    (s.dev.dstate ≠ .idle → Runs .plan s s.dev) ∧
    (s.dev.remapWritable = true → Runs .fillIdentity s (({ s.dev with las := { s.dev.las with
      remapS := identityMap s.dev.regs } }.freshWords 3 (131072 * s.dev.remapHalf false) (131072 * (s.dev.remapHalf false + 1))).setB
        R.LAS_STATUS_REMAP_VALID false)) ∧
    (s.dev.remapWritable = false → Runs .fillIdentity s (s.dev.bump R.LAS_DISC_CNT 1))) ∧
  (∀ (s : State) (d : Dev) (h : Nat) (res : Option (Nat × Nat)), Up s → s.dev.las.validating = true → h = 131072 * s.dev.remapHalf false →
    d = ({ s.dev with las := { s.dev.las with validating := false } }.setB R.LAS_STATUS_BUSY false).sramReads 3 h (h + 131072) 9 →
    (s.dev.rowCheck = none → res = (remapCheck s.dev.regs (remapEntries (s.dev.remapRead false)) []).or
      (((s.dev.badIn 3 h (h + 131072)).map (fun w => 2 * (w - h))).head?.map (fun n => (1, n)))) →
    (∀ r, s.dev.rowCheck = some r → res = some (4, r)) →
    (res = none →
      Runs .lasValidateDone s ((d.freshWords 8 (scatterWord (s.dev.remapHalf false) 0) (scatterWord (s.dev.remapHalf false + 1) 0)).setB
        R.LAS_STATUS_REMAP_VALID (!s.dev.is R.LAS_STATUS_COPYING))) ∧
    (∀ c i, res = some (c, i) →
      Runs .lasValidateDone s ((((d.setB R.LAS_STATUS_REMAP_VALID false).set R.LAS_STATUS_CHECK c).set R.LAS_CHECK_INFO i).raise
        Ev.REMAP_INVALID (c + 2 ^ 32 * i)))) ∧
  (∀ (s : State) (h : Nat), Up s → s.dev.is R.LAS_STATUS_COPYING = true → h = s.dev.remapHalf false →
    Runs .remapCopyDone s (((({ s.dev with las := { s.dev.las with remapS := s.dev.remapRead true } }.copyMarks 3
      (131072 * s.dev.remapHalf true) (131072 * h) 131072 9).freshWords 8 (scatterWord h 0) (scatterWord (h + 1) 0)).setB
        R.LAS_STATUS_COPYING false).setB R.LAS_STATUS_REMAP_VALID true)) ∧
  (∀ (d : Dev) (a b : Nat), d.ecc.diffs = [] → d.remapRead true = d.las.remapA ∧ d.remapRead false = d.las.remapS ∧
    d.copyMarks 3 a b 131072 9 = d.freshWords 3 b (b + 131072) ∧ d.sramReads 3 a b 9 = d) ∧
  (∀ s : State, Up s → s.dev.is R.LAS_STATUS_HOLD = true →
    Runs .lasHoldClr s ((s.dev.setB R.LAS_STATUS_HOLD false).raise Ev.HOLD_RELEASED 0)) ∧
  (∀ s : State, Up s → s.dev.is R.LAS_STATUS_HOLD = false → Runs .lasHoldClr s s.dev)

/-! ## Lanes and links (08, 14) -/

/-- TRAIN, EI_ENTER, EI_EXIT, LOOP_START, LOOP_STOP, LOOP_TIME_EXPIRY (08 R241, R246–R252): each command counts in HPL_RESULT.SEQ and
answers 0 with its effect where its state admits it: TRAIN of an enabled port that is not live enters SEARCH, EI_ENTER of an UP port
that is not live goes to EI, EI_EXIT leaves EI by a burst, LOOP_START enters LOOP, LOOP_STOP ends an open-ended loopback, and the time
of a timed one ends it.
FP_TRAIN, FP_LOOP_START, FP_LOOP_STOP (14 R372, R373, 18 R485): an enabled fabric port that is not in loopback enters SEARCH bonded at its
rate, leaving UP first; from OFF, UP, DOWN or FAILED, and not as MEMBER, a loopback starts, local or near-end (which of the two is a free value,
log 69); the end of a loopback leaves it DOWN. -/
def Obligations.LinkCommands : Prop :=
  (∀ (s : State) (d : Dev) (p : Nat), Up s → p < 32 → s.dev.domOn (headDomain p) = true → d = s.dev.wrap (R.HPL_RESULT_SEQ p) 1 →
    (d.oddBonded p = false → d.is (R.HPL_CTRL_EN p) = true → (d.link p).st ≠ .loop →
      ((d.link p).st = .up → d.live p = false) → d.crcTaken p = false →
      (p % 2 = 0 → d.is (R.HPL_CTRL_BOND p) = true → d.crcTaken (p + 1) = false) →
      Runs (.train p) s ((d.startTrain p).set (R.HPL_RESULT_CODE p) 0)) ∧
    ((d.link (d.linkOf p)).st = .up → d.live p = false →
      Runs (.eiEnter p) s ((d.enterEi (d.linkOf p) false).set (R.HPL_RESULT_CODE p) 0)) ∧
    ((d.link (d.linkOf p)).st = .up → d.live p = true → Runs (.eiEnter p) s (d.set (R.HPL_RESULT_CODE p) 1)) ∧
    ((d.link (d.linkOf p)).st = .ei → Runs (.eiExit p) s ((d.leaveEi (d.linkOf p)).set (R.HPL_RESULT_CODE p) 0)) ∧
    (∀ m, m = d.get (R.HPL_LOOP_CFG_MODE (d.linkOf p)) → m ≠ 0 → (m = 3 → (d.link (d.linkOf p)).st = .up) →
      ((d.link (d.linkOf p)).st = .off ∨ (d.link (d.linkOf p)).st = .up ∨ (d.link (d.linkOf p)).st = .down ∨
        (d.link (d.linkOf p)).st = .failed) → d.domainLive p = false → (d.linkLanes (d.linkOf p)).any d.crcTaken = false →
      Runs (.loopStart p) s (((forEach (d.linkLanes (d.linkOf p)) (fun d q => d.takeCrc q) d).startLoop (d.linkOf p) m).set
        (R.HPL_RESULT_CODE p) 0)) ∧
    ((d.link (d.linkOf p)).st = .loop → d.get (R.HPL_LOOP_TIME (d.linkOf p)) = 0 →
      Runs (.loopStop p) s ((d.endLoop (d.linkOf p) 0).set (R.HPL_RESULT_CODE p) 0))) ∧
  (∀ (s : State) (p l : Nat), Up s → p < 32 → l = s.dev.linkOf p → (s.dev.link l).st = .loop → s.dev.get (R.HPL_LOOP_TIME l) ≠ 0 →
    Runs (.loopTimeExpiry p) s (s.dev.endLoop l 0)) ∧
  (∀ (d : Dev) (p : Nat), ((d.startTrain p).link p).st = .search ∧ ((d.startTrain p).link p).reversed = false) ∧
  (∀ (s : State) (n : Nat) (d e : Dev) (f : Nat × Dev), Up s → n < 8 → s.dev.domOn 3 = true → f = s.dev.fresh 0x372 1 →
    d = (if (s.dev.link (fabLink n)).st = .up then s.dev.fabPortLeave n else s.dev) →
    e = (if (s.dev.link (fabLink n)).st = .up then f.2.fabPortLeave n else f.2) →
    (s.dev.is (R.FP_CTRL_EN n) = true → (s.dev.link (fabLink n)).st ≠ .loop →
      Runs (.fpTrain n) s (((d.setLink (fabLink n) { d.link (fabLink n) with bonded := true, target := 3 }).enterSearch
        (fabLink n)).set (R.FP_STATUS_FSTATE n) 0)) ∧
    (s.dev.is (R.FP_CTRL_EN n) = false → Runs (.fpTrain n) s s.dev) ∧
    (s.dev.get (R.FP_STATUS_FSTATE n) ≠ 2 → ((s.dev.link (fabLink n)).st = .off ∨ (s.dev.link (fabLink n)).st = .up ∨
      (s.dev.link (fabLink n)).st = .down ∨ (s.dev.link (fabLink n)).st = .failed) →
      Runs (.fpLoopStart n) s (e.startLoop (fabLink n) (1 + f.1 % 2))) ∧
    ((s.dev.link (fabLink n)).st = .loop →
      Runs (.fpLoopStop n) s (((s.dev.setLink (fabLink n) { s.dev.link (fabLink n) with
        st := .down, loopMode := 0, loopAck := false }).sendTrain (fabLink n) 0 0).set (R.FP_STATUS_FSTATE n) 3)) ∧
    ((s.dev.link (fabLink n)).st ≠ .loop → Runs (.fpLoopStop n) s s.dev))

/-- BLOCK_RECEIVED (08 R229–R234, R239, R240, R245, R251): on a lane without block lock a valid block counts as one good candidate and the 64th in a
row gives lock; an invalid one restarts the count one bit further and counts in HPL_SLIP_CNT; with block lock the block is seen by the lock
detector and taken in: as an AM by its payload under either header, whatever its T-bits, as a missed AM where one was due, and any other descrambled
and handed on; an invalid one on an UP link is a code error and is handed on errored, also where an AM was due; so is a reserved type a code error. 16 invalid of 64, two missed AM
positions or four TRAIN blocks without RX_READY are a loss. The receiver of an OFF link takes nothing. -/
def Obligations.BlocksReceived : Prop :=
  (∀ (s : State) (p b a : Nat) (x : Lane), Up s → p < 48 → s.dev.receiving p = true → a < 3 →
    x = { s.dev.lane p with los := false, cdr := true } →
    (x.block = false → blockValid (if x.inv then invertBlock b else b) = true →
      Runs (.blockReceived p b a) s ((s.dev.setLane p x).setLane p { x with good := x.good + 1, block := decide (64 ≤ x.good + 1) })) ∧
    (x.block = false → blockValid (if x.inv then invertBlock b else b) = false → isHead (s.dev.linkOf p) = true →
      Runs (.blockReceived p b a) s (((s.dev.setLane p x).setLane p { x with good := 0, ofs := (x.ofs + 1) % 70 }).wrap
        (R.HPL_SLIP_CNT (s.dev.linkOf p)) 1)) ∧
    (x.block = true → Runs (.blockReceived p b a) s (((s.dev.setLane p (x.sight (!blockValid (if x.inv then invertBlock b else b)))).laneBlock p
      (if x.inv then invertBlock b else b) a).detect p))) ∧
  (∀ (s : State) (p b a : Nat), Up s → p < 48 → s.dev.receiving p = false → Runs (.blockReceived p b a) s s.dev) ∧
  (∀ (d : Dev) (p b a l pl : Nat) (x : Lane), x = d.lane p → l = d.linkOf p → pl = blockPayload b ^^^ (scrBits 64 x.scr).1 →
    (∀ v, hasBit b 0 ≠ hasBit b 1 → amKind (blockData b) (bytesOf 8 (blockPayload b)) = some v →
      d.laneBlock p b a = (if blockValid b = false ∧ (d.link l).st = .up then d.codeErr l else d).amIn p
        (bytesOf 8 (if v then 2 ^ 64 - 1 - blockPayload b else blockPayload b)) v) ∧
    (blockValid b = true → amKind (blockData b) (bytesOf 8 (blockPayload b)) = none →
      (x.due = true → d.laneBlock p b a = (d.setLane p (x.missAm (d.seed l))).deskewAll l) ∧
      (x.due = false → x.seeded = true → d.laneBlock p b a = ((d.setLane p (x.pass.watch (b % 4) pl)).elastic l (if a = 3 then 0 else a)
        (b % 4 == 2 && pl % 256 == 0x1E)).handOn p (b % 4) true pl)) ∧
    (blockValid b = false → (hasBit b 0 = hasBit b 1 ∨ amKind (blockData b) (bytesOf 8 (blockPayload b)) = none) → (d.link l).st = .up →
      (x.due = false → a < 3 → d.laneBlock p b a = ((d.codeErr l).setLane p x.pass).handOn p (b % 4) false pl) ∧
      (x.due = true → d.laneBlock p b a = ((((d.codeErr l).setLane p (x.missAm (d.seed l))).deskewAll l).linkBlock l (b % 4) false
        (blockPayload b)))) ∧
    (16 ≤ ((List.range 64).filter (hasBit x.hist)).length → d.detect p = d.laneLoss p 3) ∧
    (((List.range 64).filter (hasBit x.hist)).length < 16 → (2 ≤ x.missed → d.detect p = d.laneLoss p 4) ∧
      (x.missed < 2 → 4 ≤ x.notReady → d.detect p = d.laneLoss p 5))) ∧
  (∀ (d : Dev) (l pl : Nat), leAt (bytesOf 8 pl) 0 1 ≠ 0x2D → isStart l (leAt (bytesOf 8 pl) 0 1) = false →
    isKnown l (leAt (bytesOf 8 pl) 0 1) = false → d.plainBlock l false pl = d.codeErr l)

/-- AM_RECEIVED, TRAIN_BLOCK_RECEIVED, PLL_LOCKED, SIGNAL_DETECTED (08 R236–R242, R247–R250): an alignment marker on a lane with block
lock is taken in; a TRAIN block needs AM lock, passes the descrambler and goes on to its link, and where an AM was expected it counts as a missed one; RATE is left by a burst at the target rate; signal in
EI starts a burst, elsewhere it only ends loss of signal.
TRAIN_TIMEOUT, LANE_LOSS, EI_ENTER_RECEIVED (08 R238, R243–R247): the timeout fails a bring-up with its first unmet condition and
ends an unanswered far-end loopback; a detector that fires on an UP link takes it DOWN with its cause, counted and raised; electrical
idle asked for by the head is granted on a port that is not live and is a loss on a live one. -/
def Obligations.LinksRise : Prop :=
  (∀ (s : State) (p pl : Nat) (b : List Byte) (v : Bool), Up s → p < 48 → pl = 0x2D + 256 * leOf (b.drop 1) →
    (s.dev.receiving p = true → (s.dev.lane p).block = true →
      Runs (.amReceived p b v) s ((s.dev.setLane p ((s.dev.lane p).sight false)).amIn p b v)) ∧
    ((s.dev.lane p).block = false → Runs (.amReceived p b v) s s.dev) ∧
    (s.dev.receiving p = true → (s.dev.lane p).am = true → (s.dev.lane p).due = true →
      Runs (.trainBlockReceived p b) s (((s.dev.setLane p (((s.dev.lane p).sight false).missAm (s.dev.seed (s.dev.linkOf p)))).deskewAll
        (s.dev.linkOf p)).detect p)) ∧
    (s.dev.receiving p = true → (s.dev.lane p).am = true → (s.dev.lane p).due = false →
      Runs (.trainBlockReceived p b) s (((s.dev.setLane p (((s.dev.lane p).sight false).pass.watch 2 pl)).handOn p 2 true pl).detect p)) ∧
    ((s.dev.lane p).am = false → Runs (.trainBlockReceived p b) s s.dev)) ∧
  (∀ (d : Dev) (l : Nat) (b : List Byte), ((d.trainIn l b).link l).seen = ((d.link l).seen || hasBit (leAt b 1 1) 0)) ∧
  (∀ (s : State) (p l : Nat), Up s → p < 32 → l = s.dev.linkOf p →
    ((s.dev.link l).st = .rate → Runs (.pllLocked p) s
      ((s.dev.setLink l { s.dev.link l with rate := (s.dev.link l).target }).enterBurst l)) ∧
    ((s.dev.link l).st ≠ .rate → Runs (.pllLocked p) s s.dev)) ∧
  (∀ (s : State) (p : Nat) (d : Dev), Up s → p < 48 → d = s.dev.setLane p { s.dev.lane p with los := false } →
    ((d.link (d.linkOf p)).st = .ei → Runs (.signalDetected p) s (d.leaveEi (d.linkOf p))) ∧
    ((d.link (d.linkOf p)).st ≠ .ei → Runs (.signalDetected p) s d)) ∧
  (∀ (d : Dev) (l : Nat), ((d.enterBurst l).link l).st = .burst ∧ ((d.enterBurst l).link l).further = 0) ∧
  (∀ (s : State) (p l : Nat), Up s → p < 32 → l = s.dev.linkOf p →
    (((s.dev.link l).st = .search ∨ (s.dev.link l).st = .ready ∨ (s.dev.link l).st = .rate ∨ (s.dev.link l).st = .burst) →
      Runs (.trainTimeout p) s (s.dev.trainFail l (s.dev.unmet l))) ∧
    ((s.dev.link l).st = .loop → (s.dev.link l).loopMode = 3 → (s.dev.link l).loopAck = false →
      Runs (.trainTimeout p) s (s.dev.endLoop l 5)) ∧
    ((s.dev.link l).st = .up → Runs (.trainTimeout p) s s.dev) ∧
    ((s.dev.link l).st = .up → s.dev.live p = true → Runs (.eiEnterReceived p) s (s.dev.linkLoss l 9)) ∧
    ((s.dev.link l).st = .up → s.dev.live p = false → Runs (.eiEnterReceived p) s (s.dev.enterEi l true))) ∧
  (∀ (s : State) (p c l : Nat), Up s → p < 48 → 1 ≤ c → c ≤ 5 → l = s.dev.linkOf p →
    ((s.dev.link l).st = .up → (c ≠ 3 → Runs (.laneLoss p c) s ((s.dev.setLane p ((s.dev.lane p).lost c)).linkLoss l c)) ∧
      (c = 3 → Runs (.laneLoss p c) s (((s.dev.setLane p ((s.dev.lane p).lost c)).freshSlips l).linkLoss l c))) ∧
    ((s.dev.link l).st ≠ .up → Runs (.laneLoss p c) s s.dev)) ∧
  (∀ (s : State) (p c : Nat), p < 48 → (c = 0 ∨ 5 < c) → exec (.laneLoss p c) s = .fault .noSuchInstance) ∧
  (∀ (d : Dev) (l c : Nat), isHead l = true → ((d.linkLoss l c).link l).st = .down)

/-! ## Frames and heads (09) -/

/-- LINE_FRAME_SEND, CREDIT (09 R257, R261, R263): a READY port with credit sends its oldest staged line with the next sequence and
counts it; without credit or not READY nothing leaves; an intact CREDIT within SENT frees, an errored one or one beyond SENT is
discarded and counted. -/
def Obligations.LinesAndCredits : Prop :=
  (∀ (s : State) (p : Nat) (x : Port) (r : StepRec) (q : List Byte × List Nat × Dev), Up s → p < 32 → x = s.dev.port p →
    s.dev.portReady p = true → 1 ≤ s.dev.credit p → x.steps.find? (fun r => !r.sent) = some r → q = s.dev.stagingRead p r.k r.bytes →
    Runs (.lineFrameSend p) s (((q.2.2.setPort p { x with
      sentCnt := (x.sentCnt + 1) % 65536, seqLine := (x.seqLine + 1) % 256, steps := sendStep r.k x.seqLine x.steps }).wrap
        (R.HPF_LINE_CNT p) 1).emit (.line p r.k r.dry x.seqLine r.check q.2.2.depthS q.1 q.2.1))) ∧
  (∀ (d : Dev) (p k : Nat) (b : List Byte), d.ecc.diffs = [] → d.stagingRead p k b = (b, [], d)) ∧
  (∀ (s : State) (p : Nat), Up s → p < 32 → (s.dev.portReady p = false ∨ s.dev.credit p = 0) → Runs (.lineFrameSend p) s s.dev) ∧
  (∀ (s : State) (p : Nat) (b : List Byte), Up s → p < 32 → s.dev.portUp p = true →
    (blockOk b = true → ((s.dev.port p).sentCnt + 65536 - leAt b 2 2) % 65536 < 32768 →
      Runs (.credit p b false) s (s.dev.setPort p { s.dev.port p with freed := leAt b 2 2 })) ∧
    Runs (.credit p b true) s ((s.dev.bump (R.HPF_FRAME_ERR_CNT p) 1).occur Ev.FRAME_ERROR p 1)) ∧
  (∀ (s : State) (p : Nat) (b : List Byte) (e : Bool), Up s → p < 32 → s.dev.portUp p = false → Runs (.credit p b e) s s.dev)

/-- STATUS, STATUS_TIMEOUT (09 R259, R275, R276): an intact STATUS fills the registers of Table 9.8, raises what its flags call for and
restarts the timeout; in WAIT_STATUS it answers the request and PING is sent, elsewhere no more; a malformed one is discarded and
counted; a timeout raises its event and nothing else.
ECHO (09 R271–R273, Table 9.7): an ECHO of a step in flight leaves the flight and is compared with it; one of no step in flight
counts in HPF_ECHO_LATE_CNT; where the fired mask and the readback are those of the step, no counter, event or cause changes and every
item the fired rows touch counts as attempted. -/
def Obligations.HeadsReport : Prop :=
  (∀ (s : State) (d : Dev) (p : Nat) (f : HFrame), Up s → p < 32 → s.dev.portUp p = true → frameOk f = true → f.body.length = 32 →
    d = (s.dev.statusRegs p f.body).statusEvents p (s.dev.is (R.HPF_STATUS_TEMP_WARN p)) (s.dev.is (R.HPF_STATUS_TEMP_LIMIT p))
      (s.dev.is (R.HPF_STATUS_FAULT p)) f.body →
    (s.dev.fstate p ≠ 1 → Runs (.status p f) s (d.setPort p { d.port p with
      statusAt := s.dev.now, depths := leAt f.body 0xA 1, rowExp := leAt f.body 0xB 1 })) ∧
    (s.dev.fstate p = 1 → Runs (.status p f) s ((((d.setPort p { d.port p with
      statusAt := s.dev.now, depths := leAt f.body 0xA 1, rowExp := leAt f.body 0xB 1 }).endCmd p 0).set
        (R.HPF_STATUS_FSTATE p) 2).sendCmd p 1 [] true))) ∧
  (∀ (s : State) (p : Nat) (f : HFrame), Up s → p < 32 → s.dev.portUp p = true → (frameOk f = false ∨ f.body.length ≠ 32) →
    Runs (.status p f) s ((s.dev.bump (R.HPF_FRAME_ERR_CNT p) 1).occur Ev.FRAME_ERROR p 1)) ∧
  (∀ (s : State) (p : Nat), Up s → p < 32 →
    (s.dev.portUp p = true → Runs (.statusTimeout p) s (s.dev.raise Ev.STATUS_TIMEOUT p)) ∧
    (s.dev.portUp p = false → Runs (.statusTimeout p) s s.dev)) ∧
  (∀ (s : State) (p : Nat) (f : HFrame) (r : StepRec), Up s → p < 32 → s.dev.portUp p = true → frameOk f = true → f.body.length = 32 →
    (s.dev.port p).steps.find? (fun r => r.sent && r.k % 65536 == frameTag f) = some r →
    Runs (.echo p f) s ((s.dev.setPort p { s.dev.port p with
      steps := (s.dev.port p).steps.filter (fun y => y.k != r.k) }).echoCompare p r f.body)) ∧
  (∀ (s : State) (p : Nat) (f : HFrame), Up s → p < 32 → s.dev.portUp p = true → frameOk f = true → f.body.length = 32 →
    (s.dev.port p).steps.find? (fun r => r.sent && r.k % 65536 == frameTag f) = none →
    Runs (.echo p f) s (s.dev.bump (R.HPF_ECHO_LATE_CNT p) 1)) ∧
  (∀ (d : Dev) (p : Nat) (r : StepRec) (b : List Byte), leAt b 4 2 = r.mask → leAt b 0x10 4 = r.check → r.mask ≠ 0 →
    d.echoCompare p r b = (d.attempt (d.maskRows p r.k r.mask) r.k).set (R.HPF_DELAY_LAST p) (leAt b 0x14 2)) ∧
  (∀ (d : Dev) (l : List Nat) (k : Nat), (d.attempt l k).items = d.items.map (fun (i : Item) =>
      if i.decidedAt.isNone && l.any (fun q => d.touchesRow i q k) then { i with attempted := true } else i) ∧
    (d.attempt l k).evt = d.evt ∧ (d.attempt l k).regs = d.regs)

/-- PING, STATUS_REQ, SET_PARAM, GET_PARAM, CLEAR_FAULT, ELEM_CHECK, ELEM_CANCEL (09 R278–R280, Table 9.10): on a READY port without an
outstanding command the command is sent with the next tag; a length above 1,024, a port that is not READY or an outstanding command
answers 3, 2 or 1 and sends nothing; ELEM_CHECK on a live port waits for a gap with code 8; ELEM_CANCEL takes a pending check back.
CMD_RSP, CMD_TIMEOUT (09 R260, R278): an intact answer with the tag of the host's outstanding command ends it with OK, or with
HEAD_ERROR where the head's result is not 0, and stores its data; an answer without an outstanding command is discarded; a timeout ends
the command with TIMEOUT and makes a port in WAIT_STATUS or WAIT_PING UNFIT. -/
def Obligations.HeadCommands : Prop :=
  (∀ (s : State) (p : Nat) (a : List Byte), Up s → p < 32 → s.dev.domOn (headDomain p) = true → s.dev.cmdRefused p = none →
    a = s.dev.cmdArgs p →
    Runs (.ping p) s (s.dev.sendCmd p 1 a false) ∧ Runs (.statusReq p) s (s.dev.sendCmd p 2 a false) ∧
    Runs (.setParam p) s (s.dev.sendCmd p 4 a false) ∧ Runs (.getParam p) s (s.dev.sendCmd p 5 a false) ∧
    Runs (.clearFault p) s (s.dev.sendCmd p 6 a false) ∧
    ((s.dev.port p).elemPend = none → s.dev.live p = false → Runs (.elemCheck p) s (s.dev.sendCmd p 3 a false)) ∧
    ((s.dev.port p).elemPend = none → s.dev.live p = true →
      Runs (.elemCheck p) s (((s.dev.setPort p { s.dev.port p with elemPend := some a }).set (R.HPF_CMD_RESULT_CODE p) 8).setB
        (R.HPF_STATUS_ELEM_PENDING p) true))) ∧
  (∀ (s : State) (p c : Nat), Up s → p < 32 → s.dev.domOn (headDomain p) = true → s.dev.cmdRefused p = some c →
    Runs (.ping p) s (s.dev.set (R.HPF_CMD_RESULT_CODE p) c) ∧ Runs (.setParam p) s (s.dev.set (R.HPF_CMD_RESULT_CODE p) c)) ∧
  (∀ (s : State) (p : Nat) (a : List Byte), Up s → p < 32 → (s.dev.port p).elemPend = some a →
    Runs (.elemCancel p) s (((s.dev.setPort p { s.dev.port p with elemPend := none }).set (R.HPF_CMD_RESULT_CODE p) 0).setB
      (R.HPF_STATUS_ELEM_PENDING p) false)) ∧
  (∀ (d : Dev) (p op : Nat) (a : List Byte), ((d.sendCmd p op a false).port p).cmd =
    some { op := op, tag := (d.port p).nextTag, at_ := d.now, auto := false }) ∧
  (∀ (s : State) (p t : Nat) (f : HFrame) (c : HCmd) (code : Nat) (data : List Byte), Up s → p < 32 → s.dev.portUp p = true →
    frameOk f = true → (s.dev.port p).cmd = some c → c.auto = false → c.op ≠ 1 → c.op ≠ 3 → c.op = leAt f.body 0 1 →
    c.tag = leAt f.body 1 1 → code = (if leAt f.body 2 1 = 0 then 0 else 5) →
    data = (sliceOf f.body 8 (f.body.length - 16)).take (min 1024 (leAt f.body 4 2)) →
    Runs (.cmdRsp p t f) s (((s.dev.endCmd p code).set (R.HPF_CMD_RESULT_HEAD_RESULT p) (leAt f.body 2 1)).storeRsp p data)) ∧
  (∀ (s : State) (p t : Nat) (f : HFrame), Up s → p < 32 → s.dev.portUp p = true → frameOk f = true → (s.dev.port p).cmd = none →
    Runs (.cmdRsp p t f) s s.dev) ∧
  (∀ (s : State) (p : Nat), Up s → p < 32 →
    (s.dev.fstate p = 1 → Runs (.cmdTimeout p) s ((s.dev.endCmd p 4).unfit p 1)) ∧
    (s.dev.fstate p = 2 → Runs (.cmdTimeout p) s ((s.dev.endCmd p 4).unfit p 2)) ∧
    (s.dev.fstate p = 3 → Runs (.cmdTimeout p) s (s.dev.endCmd p 4)))

/-! ## DRAM (10, 11) -/

/-- RETRAIN, FREQ (10 R301, R304–R309): an accepted RETRAIN of an enabled channel counts, sets BUSY and brings the channel to TRAINING
from step 0, with the whole point from OFF and its delays for a level 0 check; an accepted FREQ to a valid point other than the one in use sets
BUSY and, in service, brings it to FREQ; a command while one runs sets OVR; the point in use answers 3, one that is not valid 4, a disabled
channel 2.
TRAIN_DONE, FREQ_DONE (10 R301–R309): a level 0 check that passes brings the channel into service, one that fails names its step and direction,
raises TRAIN_FAIL and takes the channel out of service; a level 1 sweep stores its eyes and, where all are wide enough, applies their centres; a
frequency change in service that passes the check of its point ends IN_SERVICE there with FREQ_DONE; the change waits for bursts in flight;
a completion without its command has no effect. Host writes that waited land then. -/
def Obligations.ChannelStates : Prop :=
  (∀ (s : State) (c : Nat), Up s → c < 2 → s.dev.domOn (4 + c) = true →
    (s.dev.is (R.DRC_RESULT_BUSY c) = true → ∀ l, l < 2 → Runs (.retrain c l) s (s.dev.setB (R.DRC_RESULT_OVR c) true)) ∧
    (s.dev.is (R.DRC_RESULT_BUSY c) = false → s.dev.chOn c = false → ∀ l, l < 2 →
      Runs (.retrain c l) s (s.dev.set (R.DRC_RESULT_CODE c) 2)) ∧
    (∀ (d : Dev) (l : Nat), s.dev.is (R.DRC_RESULT_BUSY c) = false → s.dev.chOn c = true →
      (s.dev.chIn c = true → s.dev.dstate = .idle) → l < 2 →
      d = ((s.dev.wrap (R.DRC_RESULT_SEQ c) 1).setB (R.DRC_RESULT_BUSY c) true).updDrc c (fun y =>
        { y with train := some (l, s.dev.get (R.DRC_STATUS_STATE c)) }) →
      Runs (.retrain c l) s (((if s.dev.get (R.DRC_STATUS_STATE c) = 1 then d.loadPoint c (d.get (R.DRC_STATUS_POINT c))
        else if l = 0 then d.loadDelays c else d).set (R.DRC_STATUS_STATE c) 2).set (R.DRC_STATUS_STEP c) 0)) ∧
    (∀ p, s.dev.is (R.DRC_RESULT_BUSY c) = false → (s.dev.drc c).train = none → p < 4 → p ≠ s.dev.get (R.DRC_STATUS_POINT c) →
      s.dev.is (R.PT_VALID c p) = true → (s.dev.get (R.DRC_STATUS_STATE c) = 3 → s.dev.dstate = .idle) →
      Runs (.freq c p) s ((((if s.dev.chIn c then s.dev.set (R.DRC_STATUS_STATE c) 4 else s.dev).wrap (R.DRC_RESULT_SEQ c) 1).setB
        (R.DRC_RESULT_BUSY c) true).updDrc c (fun y => { y with freq := some p }))) ∧
    (∀ p, s.dev.is (R.DRC_RESULT_BUSY c) = false → p < 4 → p = s.dev.get (R.DRC_STATUS_POINT c) →
      Runs (.freq c p) s (s.dev.set (R.DRC_RESULT_CODE c) 3)) ∧
    (∀ p, s.dev.is (R.DRC_RESULT_BUSY c) = false → p < 4 → p ≠ s.dev.get (R.DRC_STATUS_POINT c) → s.dev.is (R.PT_VALID c p) = false →
      Runs (.freq c p) s (s.dev.set (R.DRC_RESULT_CODE c) 4))) ∧
  (∀ (s : State) (c st : Nat) (r : Bool) (rd wr : List Nat) (e : List (Nat × Nat)), Up s → c < 2 → e = eyePairs rd wr →
    (s.dev.drc c).train = some (0, st) →
    (s.dev.checkBad c e = none →
      Lands (.trainDone c rd wr r) s ((s.dev.fresh 0x301 7).2.trainOk c 0 (s.dev.fresh 0x301 7).1 r)) ∧
    (∀ step w, s.dev.checkBad c e = some (step, w) →
      Lands (.trainDone c rd wr r) s ((s.dev.fresh 0x301 7).2.drcFail c 0 step (s.dev.fresh 0x301 7).1 w))) ∧
  (∀ (s : State) (c st : Nat) (r : Bool) (rd wr : List Nat) (e : List (Nat × Nat)) (d : Dev), Up s → c < 2 → e = eyePairs rd wr →
    (s.dev.drc c).train = some (1, st) →
    d = (s.dev.putEyes c e).set (R.DRC_STATUS_STEP c) (s.dev.laneSteps c - 1) →
    (d.firstBad c e = none → Lands (.trainDone c rd wr r) s ((d.applyEyes c e).trainOk c 1 (width7 0x301 (d.smallestEye c e)) r)) ∧
    (∀ step w n, d.firstBad c e = some (step, w, n) → Lands (.trainDone c rd wr r) s (d.drcFail c 1 step n w))) ∧
  (∀ (s : State) (c : Nat) (rd wr : List Nat) (e : List (Nat × Nat)) (r : Bool), Up s → c < 2 →
    ((s.dev.drc c).train = none → Lands (.trainDone c rd wr r) s s.dev) ∧
    (((s.dev.drc c).freq = none ∨ (s.dev.drc c).bursts.any (·.queued) = true) → Lands (.freqDone c e) s s.dev)) ∧
  (∀ (s : State) (c p : Nat) (e : List (Nat × Nat)) (d : Dev), Up s → c < 2 → (s.dev.drc c).freq = some p → s.dev.chIn c = true →
    (s.dev.drc c).bursts.any (·.queued) = false →
    d = ((s.dev.quiesceMemory c).loadPoint c p).updDrc c (fun y => { y with freq := none }) → d.chIn c = true → d.checkBad c e = none →
    Lands (.freqDone c e) s ((((d.set (R.DRC_STATUS_STATE c) 3).drcEnd c 0).raise Ev.FREQ_DONE
      (c + 2 * p + 65536 * d.get (R.DRC_MTS c))).reRate.admitAll c)) ∧
  (∀ (s : State) (d : Dev), d.noneWait = true → drainIntake d s.mem = (d, s.mem)) ∧
  (∀ (d : Dev) (c step width : Nat) (w : Bool), c < 2 → (d.drcFail c 0 step width w).is (R.DRC_STATUS_INSVC c) = false ∧
    (d.drcFail c 0 step width w).get (R.DRC_RESULT_CODE c) = 5)

/-- DRAM_REQUEST, DRAM_BURST_COMPLETE, BURST_LATE (10 R284, R287, R290–R294): a one-burst request to a channel out of service, or into its
training area, is answered with a bus error, to one in service it waits with the time of its arrival and the next number; a burst that is not
queued, or that the scheduler holds back, does not complete; a queued burst in service completes: its row is opened, its age counts, its data
moves; a burst becomes late once.
REFRESH_INTERVAL, MR4_POLL, PAGE_IDLE_EXPIRY, POWER_DOWN_TIMER (10 R295–R298, R310): each interval of a fitted rank in service adds
one to the debt of its four bank indices, and what may be refreshed then is; a change of the reported rate is stored and raised; an
idle bank is precharged; a COLD rank with no burst waiting is powered down; on a channel out of service the first two do nothing. -/
def Obligations.DramTraffic : Prop :=
  (∀ (s : State) (p x n : Nat) (w : Bool) (l : List Byte), Up s → p < 8 → 0 < n → x % 64 + n ≤ 64 → (w = true → l.length = n) → (w = false → l = []) →
    ((s.dev.chIn 0 = false ∨ s.dev.usable 0 < x + n) → Runs (.dramRequest p 1 x w n l) s (s.dev.emit (.mem 0 p x w false []))) ∧
    (s.dev.chIn 0 = true → x + n ≤ s.dev.usable 0 →
      Runs (.dramRequest p 1 x w n l) s ((s.dev.updDrc 0 (fun y => { y with nextId := y.nextId + 1, bursts := y.bursts ++
        [{ id := (s.dev.drc 0).nextId, port := p, addr := x, len := n, write := w, data := l, start := s.dev.now, late := false,
           queued := false }] })).admitAll 0))) ∧
  (∀ (s : State) (c i : Nat) (b : Burst), Up s → c < 2 → s.dev.burst? c i = some b →
    ((b.queued = false ∨ s.dev.notNow c b = true) → Lands (.dramBurstComplete c i) s s.dev) ∧
    (∀ (d1 d2 : Dev) (r : Dev × Mem), b.queued = true → s.dev.get (R.DRC_STATUS_STATE c) = 3 → s.dev.notNow c b = false →
      d1 = (if s.dev.get (R.DRC_TGT c b.port) ≤ s.dev.now - b.start then (s.dev.openRow c b.addr).markLate c b else s.dev.openRow c b.addr) →
      d2 = (d1.keepMax (R.DRC_LAT_MAX c b.port) (s.dev.now - b.start)).updDrc c (fun y =>
        { y with bursts := y.bursts.filter (fun x => x.id != i) }) →
      r = burstData c b (if b.write then d2.batchStep c (subOf b.addr)
        else d2.updDrc c (fun y => { y with batch := y.batch.drop (subOf b.addr) })) s.mem →
      Gives (.dramBurstComplete c i) s (let z := drainIntake ((r.1.refreshAll c).admitAll c) r.2; { s with dev := z.1, mem := z.2 })) ∧
    (b.late = true → Runs (.burstLate c i) s s.dev) ∧
    (b.late = false → Runs (.burstLate c i) s (((s.dev.updDrc c (fun y => { y with bursts := y.bursts.map (fun (x : Burst) =>
      if x.id = b.id then { x with late := true } else x) })).bump (R.DRC_LATE_CNT c b.port) 1).occur Ev.LATENCY_LATE
        (c + 2 * b.port) 1))) ∧
  (∀ (s : State) (c i : Nat), Up s → c < 2 → s.dev.burst? c i = none →
    Lands (.dramBurstComplete c i) s s.dev ∧ Runs (.burstLate c i) s s.dev) ∧
  (∀ (s : State) (c u r : Nat), Up s → c < 2 → u < 2 → r < 2 → s.dev.chIn c = true → r < s.dev.ranks c →
    Runs (.refreshInterval c u r) s ((s.dev.updDrc c (fun y => { y with
      debt := (List.range 4).foldl (fun (m : SMap Nat) i => m.upd 0 (u + 2 * r + 4 * i) (· + 1)) y.debt })).refreshAll c)) ∧
  (∀ (s : State) (c u r : Nat) (b : Bool), Up s → c < 2 → u < 2 → r < 2 → s.dev.chIn c = false →
    Runs (.refreshInterval c u r) s s.dev ∧ Runs (.mr4Poll c r b) s s.dev) ∧
  (∀ (s : State) (c r : Nat) (b : Bool), Up s → c < 2 → r < 2 → s.dev.chIn c = true → r < s.dev.ranks c →
    hasBit (s.dev.get (R.DRC_STATUS_REF_2X c)) r ≠ b →
    Runs (.mr4Poll c r b) s ((s.dev.set (R.DRC_STATUS_REF_2X c) (setMask (s.dev.get (R.DRC_STATUS_REF_2X c)) r b)).raise
      Ev.REFRESH_RATE (c + 2 * r + 4 * (if b then 1 else 0)))) ∧
  (∀ (s : State) (c k : Nat), Up s → c < 2 → k < 128 → (s.dev.drc c).bursts = [] →
    Runs (.pageIdleExpiry c k) s (s.dev.precharge c k) ∧
    (∀ r, r < 2 → s.dev.chIn c = true → hasBit (s.dev.coldEffective c) r = true →
      Runs (.powerDownTimer c r) s (s.dev.set (R.DRC_PD_STATUS_IN_PD c) (orBit (s.dev.get (R.DRC_PD_STATUS_IN_PD c)) r))) ∧
    (∀ r, r < 2 → hasBit (s.dev.coldEffective c) r = false → Runs (.powerDownTimer c r) s s.dev))

/-- SCRUB, FILL, ECC_ABORT, SCRUB_DONE (11 R324–R329): with no run in progress a SCRUB or FILL of words that exist in a memory whose
domain is on starts, BUSY, its counts 0, a FILL only outside wells, cistern and fallback regions; a command other than ABORT sets OVR
and answers 1 BUSY while one runs; ABORT ends the run after its word; a scrub of an SRAM memory without a faulty word ends OK with every word
handled once its clocks allow it, one word every four; any run ends with its position, its counts and SCRUB_DONE.
TEST_WRITE, TEST_READ, TEST_GEN (11 R328): in IDLE with test mode on, on a word that exists, TEST_WRITE stores data and check bits as
given, TEST_READ answers them with syndrome and status and changes no memory and no count, TEST_GEN answers the correct check bits;
each counts with CODE 0; outside test mode or IDLE each answers 2 and changes nothing else. -/
def Obligations.EccRuns : Prop :=
  (∀ (s : State) (m a n : Nat) (f : Bool), Up s → s.dev.is R.ECC_RESULT_BUSY = false → m = s.dev.get R.ECC_ARG_MEM →
    a = s.dev.get64 R.ECC_ARG_START_LO → n = s.dev.get64 R.ECC_ARG_COUNT_LO → eccExists m = true → a + n ≤ s.dev.eccWords m →
    s.dev.eccShut m = false → (f = true → s.dev.rangeInUse m a n = false) →
    Runs (if f then .fill else .scrub) s ((((((({ s.dev with ecc := { s.dev.ecc with
      run := some { fill := f, mem := m, start := a, count := n, abort := false, since := s.dev.now } } }.setB R.ECC_RESULT_BUSY true).set64
        R.ECC_SCRUB_POS_LO a).set R.ECC_SCRUB_FIXED 0).set R.ECC_SCRUB_UE 0).set R.ECC_RESULT_CODE 0).wrap R.ECC_RESULT_SEQ 1))) ∧
  (∀ s : State, Up s → s.dev.is R.ECC_RESULT_BUSY = true →
    Runs .scrub s ((s.dev.setB R.ECC_RESULT_OVR true).set R.ECC_RESULT_CODE 1) ∧
    Runs .fill s ((s.dev.setB R.ECC_RESULT_OVR true).set R.ECC_RESULT_CODE 1)) ∧
  (∀ (s : State) (r : EccRun) (d : Dev), Up s → s.dev.ecc.run = some r → d = s.dev.wrap R.ECC_RESULT_SEQ 1 →
    Runs .eccAbort s { d with ecc := { d.ecc with run := some { r with abort := true } } }) ∧
  (∀ s : State, Up s → s.dev.ecc.run = none →
    Runs .eccAbort s ((s.dev.wrap R.ECC_RESULT_SEQ 1).set R.ECC_RESULT_CODE 0) ∧ ∀ n, Runs (.scrubDone n) s s.dev) ∧
  (∀ (s : State) (m a n t : Nat) (b : Bool) (d : Dev), Up s → m < 16 → s.dev.ecc.diffs = [] →
    s.dev.ecc.run = some { fill := false, mem := m, start := a, count := n, abort := b, since := t } → n ≤ (s.dev.now - t) / 4 + 1 →
    d = (({ s.dev with ecc := { s.dev.ecc with run := none } }.set64 R.ECC_SCRUB_POS_LO (a + n)).set
      R.ECC_SCRUB_FIXED 0).set R.ECC_SCRUB_UE 0 →
    Runs (.scrubDone n) s (((d.setB R.ECC_RESULT_BUSY false).set R.ECC_RESULT_CODE 0).raise Ev.SCRUB_DONE m)) ∧
  (∀ (s : State) (r : EccRun) (n k c f u : Nat) (d e : Dev) (m : Mem), Up s → s.dev.ecc.run = some r → s.dev.runResult r (min n (s.dev.scrubMost r)) = some c →
    k = min n (min r.count (s.dev.scrubMost r)) → runEffect r k s.dev s.mem = ((d, m), f, u) →
    e = ((({ d with ecc := { d.ecc with run := none } }.set64 R.ECC_SCRUB_POS_LO (r.start + k)).set R.ECC_SCRUB_FIXED f).set
      R.ECC_SCRUB_UE u) →
    Gives (.scrubDone n) s { s with
      dev := ((e.setB R.ECC_RESULT_BUSY false).set R.ECC_RESULT_CODE c).raise Ev.SCRUB_DONE
        (r.mem + 32 * c + 65536 * min f 65535 + 2 ^ 32 * min u 65535)
      mem := m }) ∧
  (∀ (s : State) (m w : Nat), Up s → s.dev.is R.ECC_RESULT_BUSY = false → s.dev.is R.ECC_TEST_EN = true → s.dev.dstate = .idle →
    m = s.dev.get R.ECC_ARG_MEM → w = s.dev.get64 R.ECC_ARG_START_LO → eccExists m = true → w < s.dev.eccWords m →
    s.dev.eccShut m = false →
    Gives .testWrite s { testWrite m w s with dev := ((testWrite m w s).dev.set R.ECC_RESULT_CODE 0).wrap R.ECC_RESULT_SEQ 1 } ∧
    Runs .testRead s (((testRead m w s).dev.set R.ECC_RESULT_CODE 0).wrap R.ECC_RESULT_SEQ 1) ∧
    Runs .testGen s (((testGen m w s).dev.set R.ECC_RESULT_CODE 0).wrap R.ECC_RESULT_SEQ 1)) ∧
  (∀ s : State, Up s → s.dev.is R.ECC_RESULT_BUSY = false → (s.dev.is R.ECC_TEST_EN = false ∨ s.dev.dstate ≠ .idle) →
    Runs .testWrite s (s.dev.set R.ECC_RESULT_CODE 2) ∧ Runs .testRead s (s.dev.set R.ECC_RESULT_CODE 2) ∧
    Runs .testGen s (s.dev.set R.ECC_RESULT_CODE 2)) ∧
  (∀ (m w : Nat) (s : State), m < 16 → (testWrite m w s).mem = s.mem ∧ (testRead m w s).dev.ecc = s.dev.ecc ∧
    (testRead m w s).dev.evt = s.dev.evt)

/-! ## CRC units and DMA (12) -/

/-- CRC_LOAD, CRC_DATA, CRC_DATA8 (12 R344, R347): LOAD sets the running value of a free unit to CRC_INIT; DATA feeds its four bytes,
the least significant first, DATA8 its byte, and CRC_BYTES counts them; a write to a unit a port or a DMA channel holds is discarded
and counted. -/
def Obligations.CrcUnits : Prop :=
  (∀ (s : State) (u : Nat) (v : Word) (b : Byte), Up s → u < 36 → s.dev.crcOwner u = 0 →
    Runs (.crcLoad u) s (s.dev.set (R.CRC_VAL u) (s.dev.get (R.CRC_INIT u))) ∧
    Runs (.crcData u v) s ((s.dev.set (R.CRC_VAL u) ((bytesOf 4 v.toNat).foldl (s.dev.crcCfg u).byte
      (s.dev.get (R.CRC_VAL u) % 2 ^ (s.dev.crcCfg u).w))).wrap (R.CRC_BYTES u) 4) ∧
    Runs (.crcData8 u b) s ((s.dev.set (R.CRC_VAL u) ((s.dev.crcCfg u).byte
      (s.dev.get (R.CRC_VAL u) % 2 ^ (s.dev.crcCfg u).w) b)).wrap (R.CRC_BYTES u) 1)) ∧
  (∀ (s : State) (d : Dev) (u : Nat) (v : Word) (b : Byte), Up s → u < 36 → s.dev.crcOwner u ≠ 0 →
    d = (s.dev.bump (R.CRC_DISC_CNT u) 1).occur Ev.CRC_WRITE_DISCARDED u 1 →
    Runs (.crcLoad u) s d ∧ Runs (.crcData u v) s d ∧ Runs (.crcData8 u b) s d)

/-- DMA_START, DMA_PAUSE, DMA_RESUME, DMA_STOP (12 R331, R337–R339, R343): START of an idle channel clears its end code and loads its
first descriptor; in another state each command answers 2 and changes nothing else; PAUSE drains a channel that runs or waits; RESUME
of a paused one without another reason runs it on, of one that drains for a STOP changes nothing of that; STOP ends a waiting or paused one at once and drains one with reads outstanding.
DMA_BURST_ISSUE, DMA_BURST_DONE (12 R330, R334, R338–R340): the channel the engine serves next asks for at most
512 bytes behind what it has asked, of the host by read requests that cross no 4 KiB boundary; with none ready nothing happens; the completion of a HOST read that is not the last one leaves the
oldest outstanding read and passes its bytes on; without an outstanding read a completion does nothing; a
chain that ends DONE leaves the channel IDLE with END 1 and its IRQ bit as it was. -/
def Obligations.DmaRuns : Prop :=
  (∀ (s : State) (n : Nat) (e : Bool), Up s → n < 64 → s.dev.dstat n = 0 →
    Runs (.dmaStart n e) s ((((((s.dev.set (R.DMA_CH_STATUS_END n) 0).setB (R.DMA_CH_STATUS_WITHDRAWN_LATE n) false).setB
      (R.DMA_CH_STATUS_DISCARDED n) false).loadDesc n (s.dev.get (R.DMA_CH_CFG_FIRST n)) e).set (R.DMA_CH_RESULT_CODE n) 0).wrap
        (R.DMA_CH_RESULT_SEQ n) 1) ∧
    Runs (.dmaPause n) s (s.dev.set (R.DMA_CH_RESULT_CODE n) 2) ∧ Runs (.dmaResume n) s (s.dev.set (R.DMA_CH_RESULT_CODE n) 2) ∧
    Runs (.dmaStop n) s (s.dev.set (R.DMA_CH_RESULT_CODE n) 2)) ∧
  (∀ (s : State) (n : Nat) (e : Bool), Up s → n < 64 → s.dev.dstat n ≠ 0 →
    Runs (.dmaStart n e) s (s.dev.set (R.DMA_CH_RESULT_CODE n) 2) ∧
    ((s.dev.dstat n = 1 ∨ s.dev.dstat n = 2) → Runs (.dmaPause n) s ((((s.dev.setB (R.DMA_CH_STATUS_PAUSE_HOST n) true).startDrain
      n).set (R.DMA_CH_RESULT_CODE n) 0).wrap (R.DMA_CH_RESULT_SEQ n) 1)) ∧
    ((s.dev.dstat n = 2 ∨ s.dev.dstat n = 4 ∨ (s.dev.dch n).reads = []) →
      Runs (.dmaStop n) s (((s.dev.chainEnd n 2).set (R.DMA_CH_RESULT_CODE n) 0).wrap (R.DMA_CH_RESULT_SEQ n) 1)) ∧
    (s.dev.dstat n = 1 → (s.dev.dch n).reads ≠ [] →
      Runs (.dmaStop n) s ((((s.dev.setDch n { s.dev.dch n with
        stopAt := (s.dev.dch n).stopAt.or (some s.dev.now), drainAt := (s.dev.dch n).drainAt.or (some s.dev.now) }).dgo n 3).set (R.DMA_CH_RESULT_CODE n) 0).wrap
          (R.DMA_CH_RESULT_SEQ n) 1))) ∧
  (∀ (s : State) (n : Nat) (d : Dev), Up s → n < 64 → (s.dev.dstat n = 3 ∨ s.dev.dstat n = 4) →
    s.dev.touches (s.dev.dch n) = [] → d = (((s.dev.setB (R.DMA_CH_STATUS_PAUSE_HOST n) false).setDch n { s.dev.dch n with
      pauseFor := [] }).setB (R.DMA_CH_STATUS_PAUSE_DOMAIN n) false) →
    ((s.dev.dch n).stopAt = none → Runs (.dmaResume n) s (((d.unpause n).set (R.DMA_CH_RESULT_CODE n) 0).wrap (R.DMA_CH_RESULT_SEQ n) 1)) ∧
    ((s.dev.dch n).stopAt.isSome → Runs (.dmaResume n) s ((d.set (R.DMA_CH_RESULT_CODE n) 0).wrap (R.DMA_CH_RESULT_SEQ n) 1))) ∧
  (∀ (s : State) (n : Nat) (x : DmaCh) (d : Dev), Up s → s.dev.nextChannel = some n → x = s.dev.dch n →
    d = s.dev.setDch n { x with reads := x.reads ++ [(x.src + x.asked, min 512 (x.length - x.asked))],
                                asked := x.asked + min 512 (x.length - x.asked) } →
    Gives .dmaBurstIssue s (let z := if x.srcKind = 0 then forEach (hostReads (min 512 (x.length - x.asked)) (x.src + x.asked)
        (min 512 (x.length - x.asked))) (fun (d : Dev) r => d.emit (.hostRead r.1 r.2)) d else d
      { s with dev := { z with dma := { z.dma with last := n } } })) ∧
  (∀ s : State, Up s → s.dev.nextChannel = none → Runs .dmaBurstIssue s s.dev) ∧
  (∀ (s : State) (n a k : Nat) (x : DmaCh) (rest : List (Nat × Nat)) (l : List Byte) (d : Dev) (m : Mem), Up s → n < 64 →
    x = s.dev.dch n → x.reads = (a, k) :: rest → x.readErr = none → x.srcKind = 0 →
    (s.dev.dmaPlaces x).any s.dev.memHeld = false → s.dev.pwr.perst = false → l.length = k →
    burstWrite (s.dev.setDch n { x with reads := rest }) s.mem n l false = (d, m) →
    Gives (.dmaBurstDone n (some l) false) s { s with dev := d, mem := m }) ∧
  (∀ (s : State) (n : Nat) (h : Option (List Byte)) (e : Bool), Up s → n < 64 → (s.dev.dch n).reads = [] →
    Runs (.dmaBurstDone n h e) s s.dev) ∧
  (∀ (d : Dev) (n : Nat) (b : Bool), n < 64 → b = d.is (R.DMA_CH_STATUS_IRQ n) →
    (d.chainEnd n 1).dstat n = 0 ∧ (d.chainEnd n 1).get (R.DMA_CH_STATUS_END n) = 1 ∧ (d.chainEnd n 1).is (R.DMA_CH_STATUS_IRQ n) = b)

/-! ## Verdicts, events, levels (13) -/

/-- ITEM_DECIDED, PULSE_END (13 R354–R360): an item whose checks have all reported and that awaits no member gets its verdict, its ring
entry, its counter and its retention record, and leaves the queue once its gates are passed; an item that awaits a member's verdict
only notes that its own checks are done; a pulse that ends leaves the output active while another pulse of the output runs.
EVENT_LOG_WRITE, INTERVAL_1MS (13 R364–R366, 00_scope R518): the oldest waiting event goes to its place in the log, EVT_HEAD
advances, an entry not yet read that is overwritten counts in EVT_LOST, the interrupt is raised by class; a critical event also goes
to retention; a 1 ms interval without an occurrence raises nothing, and one with occurrences of one event raises it once, with its count. -/
def Obligations.VerdictsAndEvents : Prop :=
  (∀ (s : State) (n : Nat) (i : Item), Up s → s.dev.item? n = some i → i.decidedAt = none → s.dev.ownDone i = true →
    (i.dist && !i.awaiting.isEmpty) = false →
    Gives (.itemDecided n) s (keepCommit { s with dev := ((s.dev.pastCauses n).decideItem n).itemsLeave })) ∧
  (∀ (s : State) (n : Nat) (i : Item), Up s → s.dev.item? n = some i → i.decidedAt = none → s.dev.ownDone i = true →
    (i.dist && !i.awaiting.isEmpty) = true → i.ownAt = none → s.dev.evt.latched = [] →
    Runs (.itemDecided n) s ((s.dev.pastCauses n).updItem n (fun i => { i with ownAt := some s.dev.pos.weir }))) ∧
  (∀ (d : Dev) (n : Nat) (i : Item), d.item? n = some i → i.decidedAt = none → i.input < 8 →
    (d.decideItem n).items = (d.updItem n (fun _ => { i with
      verdict := (verdictOf i.causes i.attempted).1, causes := (verdictOf i.causes i.attempted).2,
      decidedAt := some d.pos.weir, sent := false })).items ∧
    (d.decideItem n).get R.VRD_RING_HEAD = (d.get R.VRD_RING_HEAD + 1) % 2 ^ 32) ∧
  (∀ (s : State) (o t : Nat) (rest : List (Nat × Nat)), Up s → o < 4 → s.dev.evt.pulses = rest ++ [(o, t)] →
    (∀ x ∈ rest, x.1 ≠ o) →
    Runs (.pulseEnd o) s ({ s.dev with evt := { s.dev.evt with pulses := rest } }.setB (R.VRD_STATUS_ACTIVE o) false)) ∧
  (∀ (s : State) (e : EvEntry) (rest : List EvEntry), Up s → s.dev.evt.queue = e :: rest → e.cls ≠ 3 →
    Runs .eventLogWrite s ({ s.dev with evt := { s.dev.evt with queue := rest } }.logWrite e)) ∧
  (∀ (s : State) (e : EvEntry) (rest : List EvEntry), Up s → s.dev.evt.queue = e :: rest → e.cls = 3 →
    Gives .eventLogWrite s { s with
      dev := { s.dev with evt := { s.dev.evt with queue := rest } }.logWrite e
      nv := { s.nv with keep := s.nv.keep.putEvent e } }) ∧
  (∀ (d : Dev) (e : EvEntry), d.is R.EVT_IRQ_EN = false →
    (d.logWrite e).evt.log.find? (d.get R.EVT_HEAD % 1024) = some e ∧
    (d.logWrite e).get R.EVT_HEAD = (d.get R.EVT_HEAD + 1) % 2 ^ 32) ∧
  (∀ s : State, Up s → s.dev.evt.occ = [] → Runs .interval1ms s { s.dev with evt := { s.dev.evt with occ := [] } }) ∧
  (∀ (s : State) (c i n : Nat), Up s → s.dev.evt.occ = [((c, i), n)] →
    (c ≠ Ev.LATENCY_LATE → Runs .interval1ms s ({ s.dev with evt := { s.dev.evt with occ := [] } }.raise c (occDetail c i n))) ∧
    (c = Ev.LATENCY_LATE → 0 < n → Runs .interval1ms s ({ s.dev with evt := { s.dev.evt with occ := [] } }.raise c
      (i % 2 + 256 * orBit 0 (i / 2) + 65536 * min n (2 ^ 32 - 1)))))

/-- CLEAR, RESTORE (13 R367–R370, Table 13.7): CLEAR leaves BASIC for the level the causes call for and, in RUN, calls for RESUME;
RESTORE leaves REDUCED for FULL when no cause is left; elsewhere each answers its code and changes nothing else.
The level (13 R367): a cause that becomes active is latched; the level never falls by it; it rises to what the causes call for,
BASIC for an invalid position, a lost quorum or no channel in service. -/
def Obligations.LevelKept : Prop :=
  (∀ s : State, Up s → s.dev.level = .basic → s.dev.wantLevel ≠ .basic → s.dev.dstate ≠ .run →
    Runs .clear s ((s.dev.levelFalls s.dev.wantLevel).set R.EVT_LEVEL_RESULT_CODE 0)) ∧
  (∀ (s : State) (d : Dev), Up s → s.dev.level = .basic → s.dev.wantLevel ≠ .basic → s.dev.dstate = .run →
    d = (s.dev.levelFalls s.dev.wantLevel).set R.EVT_LEVEL_RESULT_CODE 0 →
    Runs .clear s ({ d with evt := { d.evt with resumeReq := true } }.raise Ev.RESUME_REQUIRED 0)) ∧
  (∀ s : State, Up s → s.dev.level ≠ .basic → Runs .clear s (s.dev.set R.EVT_LEVEL_RESULT_CODE 2)) ∧
  (∀ s : State, Up s → s.dev.level = .basic → s.dev.wantLevel = .basic → Runs .clear s (s.dev.set R.EVT_LEVEL_RESULT_CODE 3)) ∧
  (∀ s : State, Up s → s.dev.level = .reduced → s.dev.wantLevel = .full →
    Runs .restore s ((s.dev.levelFalls .full).set R.EVT_LEVEL_RESULT_CODE 0)) ∧
  (∀ s : State, Up s → s.dev.level ≠ .reduced → Runs .restore s (s.dev.set R.EVT_LEVEL_RESULT_CODE 2)) ∧
  (∀ s : State, Up s → s.dev.level = .reduced → s.dev.wantLevel ≠ .full → Runs .restore s (s.dev.set R.EVT_LEVEL_RESULT_CODE 3)) ∧
  (∀ (d : Dev) (l : Level), (d.levelFalls l).level = l ∧ (d.levelFalls l).evt.lvlActive = d.evt.lvlActive ∧ (d.levelFalls l).evt.lvlLatched = 0) ∧
  (∀ (d : Dev) (b : Nat), (d.causeOn b).evt.lvlActive = orBit d.evt.lvlActive b ∧
    (d.causeOn b).evt.lvlLatched = orBit d.evt.lvlLatched b ∧ d.level.code ≤ (d.causeOn b).level.code) ∧
  (∀ (d : Dev) (b : Nat), d.dstate ≠ .keep → d.dstate ≠ .boot → b < 2 → (d.causeOn b).level = .basic) ∧
  (∀ (d : Dev) (c e : Nat), d.is R.POS_STATUS_VALID = true → d.dstate ≠ .keep → d.dstate ≠ .boot →
    (d.posInvalid c e).is R.POS_STATUS_VALID = false ∧ (d.posInvalid c e).level = .basic)

/-! ## Fabric (14) -/

/-- Reception over the fabric (14 R374–R376): a broken frame on an UP port counts in FAB_FRAME_ERR_CNT and as FRAME_ERROR of the port, and does nothing else; a message
on a port that is not UP, or of another type than the command names, has no effect; a flood already seen is neither taken nor passed
on; one that is new is passed on. Shown for LSA and READY; every message of the fabric is received this way, and one that this device takes (`ForMe`) has
the effect given for it below.
HELLO_PERIOD, HELLO, HELLO_TIMEOUT, LSA, FORM_TIMEOUT (14 R375, R377–R383): each period sends a HELLO on every UP port, where a period without one
received counts as missed, and floods the own LSA; a HELLO gives the neighbour, its adjacency and the link delay; three periods without one take
the port DOWN with cause 11; a new LSA replaces the source's former one; the formation timeout lets the root form with fewer devices. -/
def Obligations.FabricKnows : Prop :=
  (∀ (s : State) (n : Nat) (f : HFrame), Up s → n < 8 → s.dev.fabOn = true → s.dev.fabUp n = true →
    (frameOk f = false ∨ leAt f.start 0 1 ≠ 0xA0) → Runs (.lsa n f) s ((s.dev.bump R.FAB_FRAME_ERR_CNT 1).occur Ev.FRAME_ERROR (32 + n) 1)) ∧
  (∀ (s : State) (n : Nat) (f : HFrame), Up s → n < 8 → (s.dev.fabOn = false ∨ s.dev.fabUp n = false) → Runs (.lsa n f) s s.dev) ∧
  (∀ (s : State) (n : Nat) (f : HFrame), Up s → n < 8 → s.dev.fabOn = true → s.dev.fabUp n = true → frameOk f = true →
    leAt f.start 0 1 = 0xA0 → ((parseFab f.body).type ≠ 2 ∨ s.dev.fmember n = false) → Runs (.lsa n f) s s.dev) ∧
  (∀ (s : State) (n : Nat) (f : HFrame), Up s → n < 8 → s.dev.fabOn = true → s.dev.fabUp n = true → frameOk f = true →
    leAt f.start 0 1 = 0xA0 → (parseFab f.body).dest = 0xFF → s.dev.floodNew (parseFab f.body) = false →
    Runs (.lsa n f) s s.dev) ∧
  (∀ (s : State) (n : Nat) (f : HFrame) (h : FabHdr) (d : Dev), Up s → n < 8 → s.dev.fabOn = true → s.dev.fabUp n = true →
    frameOk f = true → leAt f.start 0 1 = 0xA0 → h = parseFab f.body → h.type = 5 → s.dev.fmember n = true → h.dest = 0xFF →
    s.dev.floodNew h = true → leAt ((f.body.take (f.body.length - 4)).drop 16) 0 4 ≠ s.dev.get R.FAB_FORMATION →
    d = { s.dev with fab := { s.dev.fab with seqIn := (h.id, h.seq) :: s.dev.fab.seqIn.filter (fun e => e.1 != h.id) } } →
    Runs (.ready n f) s (d.forward n f.body)) ∧
  (∀ (s : State) (d : Dev), Up s → s.dev.fabOn = true → d = forEach ((List.range 8).filter s.dev.fabUp) Dev.helloSend s.dev →
    Runs .helloPeriod s (d.flood 2 d.ownLsa.payload)) ∧
  (∀ (d : Dev) (n : Nat) (x : FPort), x = d.fport n → d.helloSend n = (((if x.gotNow then d else d.bump (R.FP_HELLO_MISS_CNT n) 1).setFport n
    { x with gotNow := false, sentAt := d.timeNs :: x.sentAt.take 7 }).sendNbr n 1 (d.helloPayload n))) ∧
  (∀ s : State, Up s → s.dev.fabOn = false → Runs .helloPeriod s s.dev) ∧
  (∀ (s : State) (n : Nat) (f : HFrame) (h : FabHdr) (pl : List Byte) (e : Dev), Up s → n < 8 → ForMe s.dev n f 1 h pl e →
    Runs (.hello n f) s (e.helloAct n h pl)) ∧
  (∀ (s : State) (n : Nat), Up s → n < 8 → s.dev.fabOn = true → s.dev.fabUp n = true →
    Runs (.helloTimeout n) s (s.dev.fabTakeDown n 11)) ∧
  (∀ (s : State) (n : Nat) (f : HFrame) (h : FabHdr) (pl : List Byte) (d e : Dev), Up s → n < 8 → ForMe s.dev n f 2 h pl e →
    d = { e with fab := { e.fab with maxForm := max e.fab.maxForm (parseLsa h.id pl).formation } } →
    (s.dev.lsa h.id = some (parseLsa h.id pl) → Runs (.lsa n f) s d) ∧
    (s.dev.lsa h.id ≠ some (parseLsa h.id pl) → Runs (.lsa n f) s (d.putLsa (parseLsa h.id pl)).fabRefresh)) ∧
  (∀ s : State, Up s →
    (s.dev.fabOn = true → s.dev.is R.FAB_STATUS_ROOT = true →
      Runs .formTimeout s { s.dev with fab := { s.dev.fab with formTmo := true } }.fabRefresh) ∧
    (s.dev.is R.FAB_STATUS_ROOT = false → Runs .formTimeout s s.dev))

/-- ASSIGN, REPORT, READY (14 R381, R384, 00_scope R1): from the root of the own component an ASSIGN is taken with its formation, anchor and
roster and READY of the own formation makes a JOINED device READY; a member's REPORT is kept for it and READY tested; READY of another formation,
and all three from any other source, change nothing but that the formation number of an ASSIGN is seen.
FAB_CMD.MERGE, FAB_CMD.ANCHOR, MERGE, ANCHOR (14 R392, R399, 00_scope R1): MERGE on a port above 7 answers 3, on one that is not adjacent 2, with
rosters that do not unite 4, else both ends become MEMBER and the rosters join; ANCHOR on the root with every member IDLE gives and
floods the anchor address, elsewhere it answers 2, and a member takes it from the root only. -/
def Obligations.FabricFormed : Prop :=
  (∀ (s : State) (n t : Nat) (f : HFrame) (h : FabHdr) (pl : List Byte) (e : Dev), Up s → n < 8 → ForMe s.dev n f t h pl e →
    (s.dev.isRootId h.id = true →
      (t = 3 → Runs (.assign n f) s ((e.seenForm (leAt pl 0 4)).takeAssign (leAt pl 0 4) (leAt pl 8 1) (((parseRoster pl).keyOf (· == h.id)).getD 0)
        (parseRoster pl)).fabRefresh) ∧
      (t = 5 → leAt pl 0 4 = s.dev.get R.FAB_FORMATION → Runs (.ready n f) s (e.enterReady (leAt pl 4 1))) ∧
      (t = 5 → leAt pl 0 4 ≠ s.dev.get R.FAB_FORMATION → Runs (.ready n f) s e)) ∧
    (h.id ≠ 0 → s.dev.rosterAt h.src = h.id →
      (t = 4 → Runs (.report n f) s { e with fab := { e.fab with
        reports := e.fab.reports.put h.src (leAt pl 0 4, leAt pl 4 4, leAt pl 8 1) } }.readyCheck)) ∧
    (s.dev.isRootId h.id = false → (t = 3 → Runs (.assign n f) s (e.seenForm (leAt pl 0 4))) ∧ (t = 5 → Runs (.ready n f) s e)) ∧
    (s.dev.rosterAt h.src ≠ h.id → t = 4 → Runs (.report n f) s e)) ∧
  (∀ (s : State) (n : Nat) (far : List (Nat × Nat)), Up s → s.dev.domOn 3 = true →
    (7 < n → Runs (.fabCmdMerge n far) s (s.dev.set R.FAB_RESULT_CODE 3)) ∧
    (n ≤ 7 → s.dev.is (R.FP_STATUS_ADJ n) = false → Runs (.fabCmdMerge n far) s (s.dev.set R.FAB_RESULT_CODE 2)) ∧
    (n ≤ 7 → s.dev.fabOn = true → s.dev.is (R.FP_STATUS_ADJ n) = true → s.dev.fmember n = false →
      (s.dev.unite far = none → Runs (.fabCmdMerge n far) s (s.dev.set R.FAB_RESULT_CODE 4)) ∧
      (∀ u, s.dev.unite far = some u → Runs (.fabCmdMerge n far) s
        ((((s.dev.sendNbr n 14 (bytesOf 4 (s.dev.get R.FAB_FORMATION) ++ bytesOf 4 s.dev.fab.roster.length)).set
          R.FAB_RESULT_CODE 0).wrap R.FAB_RESULT_SEQ 1).mergeDone n u)))) ∧
  (∀ (s : State) (a : Nat), Up s → s.dev.domOn 3 = true → s.dev.fabOn = true →
    (s.dev.is R.FAB_STATUS_ROOT = false → Runs (.fabCmdAnchor a) s (s.dev.set R.FAB_RESULT_CODE 2)) ∧
    (s.dev.is R.FAB_STATUS_ROOT = true → s.dev.dstate = .idle → (∀ x ∈ s.dev.fab.roster, s.dev.fab.comp.contains x.2 = true → x.2 ≠ ownId →
        ∃ r, s.dev.fab.reports.find? x.1 = some r ∧ r.2.2 / 4 % 8 = 2) → s.dev.rosterAt a ≠ 0 →
      Runs (.fabCmdAnchor a) s (((((s.dev.set R.FAB_ANCHOR_ADDR a).disowned).flood 15 (bytesOf 1 a ++ bytesOf 7 0)).set
        R.FAB_RESULT_CODE 0).wrap R.FAB_RESULT_SEQ 1).fabRefresh)) ∧
  (∀ (s : State) (n : Nat) (f : HFrame) (h : FabHdr) (pl : List Byte) (far : List (Nat × Nat)) (e : Dev), Up s → n < 8 →
    ForMe s.dev n f 14 h pl e → s.dev.is (R.FP_STATUS_ADJ n) = true → s.dev.fmember n = false →
    (∀ u, s.dev.unite far = some u → Runs (.merge n f far) s
      ((e.seenForm (leAt pl 0 4)).mergeDone n u)) ∧
    (s.dev.unite far = none → Runs (.merge n f far) s e)) ∧
  (∀ (s : State) (n : Nat) (f : HFrame) (h : FabHdr) (pl : List Byte) (e : Dev), Up s → n < 8 → ForMe s.dev n f 15 h pl e →
    (s.dev.isRootId h.id = true → Runs (.anchor n f) s (e.set R.FAB_ANCHOR_ADDR (leAt pl 0 1)).disowned.fabRefresh) ∧
    (s.dev.isRootId h.id = false → Runs (.anchor n f) s e))

/-- POS_PERIOD, POS, POS_TIMEOUT, TIME_PERIOD, TIME (14 R389–R391, 00_scope R1): the anchor floods its position and its time, another device nothing;
the anchor's POS moves a device with SRC 4 and no other; a POS timeout is kept on every device and makes the position of one with SRC 4
invalid; the anchor's TIME is taken where the fabric owns the time, and each TIME command takes one free value; POS and TIME of another source
are not taken. -/
def Obligations.FabricPositionAndTime : Prop :=
  (∀ s : State, Up s → s.dev.anchors = true → Runs .posPeriod s (s.dev.flood 6 s.dev.posPayload) ∧
    Runs .timePeriod s (s.dev.flood 7 (timeBytes s.dev.timeNs ++ bytesOf 8 0))) ∧
  (∀ s : State, Up s → s.dev.anchors = false → Runs .posPeriod s s.dev ∧ Runs .timePeriod s s.dev) ∧
  (∀ (s : State) (d : Dev), Up s → d = { s.dev with pos := { s.dev.pos with persist := 7 :: s.dev.pos.persist.filter (· != 7) } } →
    (s.dev.get R.POS_CTRL_SRC = 4 → Runs .posTimeout s (d.posInvalid 7 0)) ∧ (s.dev.get R.POS_CTRL_SRC ≠ 4 → Runs .posTimeout s d)) ∧
  (∀ (s : State) (n t : Nat) (f : HFrame) (h : FabHdr) (pl : List Byte) (e : Dev), Up s → n < 8 → ForMe s.dev n f t h pl e →
    (h.id ≠ 0 → s.dev.rosterAt (s.dev.get R.FAB_ANCHOR_ADDR) = h.id →
      (t = 6 → Gives (.pos n f) s (keepCommit { s with dev := e.posMessage pl })) ∧
      (t = 7 → Runs (.time n f) s { e.timeMessage n pl with free := (e.timeMessage n pl).free + 1 })) ∧
    (s.dev.rosterAt (s.dev.get R.FAB_ANCHOR_ADDR) ≠ h.id →
      (t = 6 → Gives (.pos n f) s (keepCommit { s with dev := e })) ∧ (t = 7 → Runs (.time n f) s { e with free := e.free + 1 }))) ∧
  (∀ (d : Dev) (pl : List Byte), d.get R.POS_CTRL_SRC = 4 → d.tracking = true → d.pos.persist = [] → hasBit (leAt pl 0x14 1) 0 = true →
    hasBit (leAt pl 0x14 1) 1 = false → d.pos.reversal = false → leAt pl 8 8 ≤ d.pos.weir →
    (d.posMessage pl).pos.posInt = toSigned 64 (leAt pl 0 8))

/-- ITEM, VERDICT (14 R393, R394, 13 R357, 00_scope R1): of a member of the roster a delivered item whose number is free becomes an item of input 8 + n, one whose number is in
use raises ITEM_NUMBER_CLASH and nothing else; a member's verdict the origin awaits is combined into its item; both of any other source
have no effect.
SWAP_REQ, SWAP_PREP, SWAP_VOTE, SWAP_DECIDE (14 R396, R397, 00_scope R1): the root takes a member's request, another device does not; SWAP_PREP of the
root is checked, scheduled and voted on; a vote for another swap is not counted, a refusing one decides, an agreeing one is kept until all members
agree; the root's first decision is final and one that contradicts it isolates the device. -/
def Obligations.FabricAgrees : Prop :=
  (∀ (s : State) (n : Nat) (f : HFrame) (h : FabHdr) (pl : List Byte) (e : Dev), Up s → n < 8 → ForMe s.dev n f 8 h pl e →
    h.id ≠ 0 → s.dev.rosterAt h.src = h.id → s.dev.tracking = true →
    ((s.dev.item? (leAt pl 0 4)).isSome = true → Runs (.item n f) s (e.raiseItem Ev.ITEM_NUMBER_CLASH (h.src % 64) (leAt pl 0 4))) ∧
    (s.dev.item? (leAt pl 0 4) = none → s.dev.items.length < 4096 →
      Runs (.item n f) s (e.acceptItem (e.newItem (leAt pl 0 4) (8 + leAt pl 4 1 % 8) (hasBit (leAt pl 5 1) 0)
        (hasBit (leAt pl 5 1) 1) (leAt pl 8 8) (leAt pl 0x10 8) (leAt pl 0x18 4) h.src none)))) ∧
  (∀ (s : State) (n : Nat) (f : HFrame) (h : FabHdr) (pl : List Byte) (i : Item) (e : Dev), Up s → n < 8 → ForMe s.dev n f 9 h pl e →
    h.id ≠ 0 → s.dev.rosterAt h.src = h.id → s.dev.evt.latched = [] → s.dev.item? (leAt pl 0 4) = some i → i.dist = true → i.decidedAt = none →
    i.awaiting.contains h.src = true → i.ownAt = none →
    Runs (.verdict n f) s (e.updItem (leAt pl 0 4) (fun x => { x with
      causes := x.causes ||| leAt pl 8 4, attempted := x.attempted || hasBit (leAt pl 4 1) 0
      awaiting := i.awaiting.filter (· != h.src) }))) ∧
  (∀ (s : State) (n : Nat) (f : HFrame) (h : FabHdr) (pl : List Byte) (e : Dev), Up s → n < 8 → ForMe s.dev n f 9 h pl e →
    s.dev.evt.latched = [] → s.dev.item? (leAt pl 0 4) = none → Runs (.verdict n f) s e) ∧
  (∀ (s : State) (n t : Nat) (f : HFrame) (h : FabHdr) (pl : List Byte) (e : Dev), Up s → n < 8 → ForMe s.dev n f t h pl e →
    s.dev.rosterAt h.src ≠ h.id → (t = 8 → Runs (.item n f) s e) ∧ (t = 9 → s.dev.evt.latched = [] → Runs (.verdict n f) s e)) ∧
  (∀ (s : State) (n t : Nat) (f : HFrame) (h : FabHdr) (pl : List Byte) (e : Dev), Up s → n < 8 → ForMe s.dev n f t h pl e →
    (h.id ≠ 0 → s.dev.rosterAt h.src = h.id →
      (t = 10 → s.dev.is R.FAB_STATUS_ROOT = true → Runs (.swapReq n f) s (e.rootRequest h.src (leAt pl 0 8))) ∧
      (t = 10 → s.dev.is R.FAB_STATUS_ROOT = false → Runs (.swapReq n f) s e) ∧
      (t = 12 → ∀ w, s.dev.fab.swap = some w → w.id = leAt pl 0 2 →
        (leAt pl 2 2 ≠ 0 → Runs (.swapVote n f) s (e.rootDecide w (leAt pl 2 2) h.src)) ∧
        (leAt pl 2 2 = 0 → s.dev.memberAddrs.all (fun a => (h.src :: w.votes).contains a) = false →
          Runs (.swapVote n f) s { e with fab := { e.fab with swap := some { w with votes := h.src :: w.votes } } })) ∧
      (t = 12 → (∀ w, s.dev.fab.swap = some w → w.id ≠ leAt pl 0 2) → Runs (.swapVote n f) s e)) ∧
    (s.dev.isRootId h.id = true →
      (t = 11 → ∀ (d : Dev) (c : JobCode), e.prepare (leAt pl 0 2) (leAt pl 8 8) = (d, c) →
        Runs (.swapPrep n f) s (d.sendTo h.src 12 (bytesOf 2 (leAt pl 0 2) ++ bytesOf 2 c.num ++ bytesOf 4 0))) ∧
      (t = 13 → ∀ c, s.dev.fab.decided.find? (fun x => x.1 == leAt pl 0 2) = some (leAt pl 0 2, c) → (c = 0 ↔ leAt pl 2 2 = 0) → Runs (.swapDecide n f) s e) ∧
      (t = 13 → ∀ c, s.dev.fab.decided.find? (fun x => x.1 == leAt pl 0 2) = some (leAt pl 0 2, c) → ¬(c = 0 ↔ leAt pl 2 2 = 0) →
        Runs (.swapDecide n f) s (e.isolate (leAt pl 0 2))) ∧
      (t = 13 → s.dev.fab.decided.find? (fun x => x.1 == leAt pl 0 2) = none →
        Runs (.swapDecide n f) s (e.decideNew (leAt pl 0 2) (leAt pl 2 2) (leAt pl 8 8)))) ∧
    (s.dev.isRootId h.id = false → (t = 11 → Runs (.swapPrep n f) s e) ∧ (t = 13 → Runs (.swapDecide n f) s e)))

/-! ## Time (15) -/

/-- SET (15 R405, R407, R410, R411): an accepted SET makes device time the value given, sets VALID and clears KEEPER, leaves REFUSED for
ACQUIRING and raises TIME_SET with the seconds; the first one after a power failure also writes the same time to the keeper counters, rounded down
to their tick, and clears the power-fail flag, a later one leaves the keeper alone; a host command answers 0 and counts; one that comes while TIM_RESULT.BUSY
is discarded and sets OVR. A SET that is turned away changes nothing but TIM_RESULT.CODE of a host command:
5 while the fabric owns the time, 6 for a source that does not own it, 3 for nanoseconds of a second or more, 2 outside IDLE.
STEP (15 R406, R407): an accepted STEP moves device time by the offset, records it in TIM_LAST_STEP and TIM_STEP_CNT, clears KEEPER,
leaves REFUSED and raises TIME_STEPPED; one beyond TIM_STEP_LIM, from a source that does not own the time, before VALID, or on the
anchor of a ready fabric while it prints leaves the time alone, counts in TIM_REFUSE_CNT and raises TIME_STEP_REFUSED; a host command that comes while
TIM_RESULT.BUSY is discarded and sets OVR. -/
def Obligations.TimeSet : Prop :=
  (∀ (s : State) (v : Bool) (sec ns : Nat) (d e : Dev), Up s → s.dev.fabOwns = false → ns < 1000000000 →
    (s.dev.is R.TIM_CTRL_OWNER = !v ∨ v = false ∧ s.dev.is R.TIM_STATUS_VALID = false) →
    (s.dev.is R.TIM_STATUS_VALID = false ∨ s.dev.dstate = .idle) → (v = true ∨ s.dev.is R.TIM_RESULT_BUSY = false) →
    d = ({ s.dev with tim := { s.dev.tim with sec := sec % 2 ^ 64, ns := ns } }.setB R.TIM_STATUS_VALID true).setB
      R.TIM_STATUS_KEEPER false →
    e = (if d.get R.TIM_STATUS_SYNC = 4 then d.set R.TIM_STATUS_SYNC 1 else d).raise Ev.TIME_SET sec →
    Gives (.set v sec ns) s { s with
      dev := if v then e else (e.set R.TIM_RESULT_CODE 0).wrap R.TIM_RESULT_SEQ 1
      nv := { s.nv with keep := if s.nv.keep.pwrFail then
        { s.nv.keep with sec := sec, sub := ns * 32768 / 1000000000, frac := 0, pwrFail := false } else s.nv.keep } }) ∧
  (∀ (s : State) (sec ns : Nat), Up s → s.dev.is R.TIM_RESULT_BUSY = true → Runs (.set false sec ns) s (s.dev.setB R.TIM_RESULT_OVR true)) ∧
  (∀ (s : State) (v : Bool) (sec ns : Nat) (c : Nat), Up s → (v = true ∨ s.dev.is R.TIM_RESULT_BUSY = false) →
    (s.dev.fabOwns = true ∧ c = 5 ∨
      s.dev.fabOwns = false ∧ s.dev.is R.TIM_CTRL_OWNER = v ∧ (v = true ∨ s.dev.is R.TIM_STATUS_VALID = true) ∧ c = 6 ∨
      s.dev.fabOwns = false ∧ s.dev.is R.TIM_CTRL_OWNER = !v ∧ 1000000000 ≤ ns ∧ c = 3 ∨
      s.dev.fabOwns = false ∧ s.dev.is R.TIM_CTRL_OWNER = !v ∧ ns < 1000000000 ∧ s.dev.is R.TIM_STATUS_VALID = true ∧
        s.dev.dstate ≠ .idle ∧ c = 2) →
    Runs (.set v sec ns) s (if v then s.dev else s.dev.set R.TIM_RESULT_CODE c)) ∧
  (∀ (s : State) (v : Bool) (o : Int) (d e : Dev), Up s → s.dev.fabOwns = false → s.dev.is R.TIM_CTRL_OWNER = (!v) →
    s.dev.is R.TIM_STATUS_VALID = true → o.natAbs ≤ s.dev.get R.TIM_STEP_LIM → (v = true ∨ s.dev.is R.TIM_RESULT_BUSY = false) →
    (s.dev.isAnchor = false ∨ s.dev.is R.FAB_CFG_EN = false ∨ s.dev.fab.st ≠ .ready ∨ s.dev.printing = false) →
    d = (((s.dev.setTime ((s.dev.tim.sec * 1000000000 + s.dev.tim.ns : Nat) + o).toNat).set64 R.TIM_LAST_STEP_LO (ofSigned 64 o)).bump
      R.TIM_STEP_CNT 1).setB R.TIM_STATUS_KEEPER false →
    e = (if d.get R.TIM_STATUS_SYNC = 4 then d.set R.TIM_STATUS_SYNC 1 else d).raise Ev.TIME_STEPPED (ofSigned 64 o) →
    Runs (.step v o) s (if v then e else (e.set R.TIM_RESULT_CODE 0).wrap R.TIM_RESULT_SEQ 1)) ∧
  (∀ (s : State) (v : Bool) (o : Int) (c : Nat) (e : Dev), Up s → (v = true ∨ s.dev.is R.TIM_RESULT_BUSY = false) →
    (s.dev.fabOwns = true ∧ c = 5 ∨ s.dev.fabOwns = false ∧ s.dev.is R.TIM_CTRL_OWNER = v ∧ c = 6 ∨
      s.dev.fabOwns = false ∧ s.dev.is R.TIM_CTRL_OWNER = (!v) ∧ s.dev.is R.TIM_STATUS_VALID = false ∧ c = 3 ∨
      s.dev.fabOwns = false ∧ s.dev.is R.TIM_CTRL_OWNER = (!v) ∧ s.dev.is R.TIM_STATUS_VALID = true ∧
        s.dev.get R.TIM_STEP_LIM < o.natAbs ∧ c = 4 ∨
      s.dev.fabOwns = false ∧ s.dev.is R.TIM_CTRL_OWNER = (!v) ∧ s.dev.is R.TIM_STATUS_VALID = true ∧
        o.natAbs ≤ s.dev.get R.TIM_STEP_LIM ∧ s.dev.isAnchor = true ∧ s.dev.is R.FAB_CFG_EN = true ∧ s.dev.fab.st = .ready ∧
        s.dev.printing = true ∧ c = 5) →
    e = (s.dev.bump R.TIM_REFUSE_CNT 1).raise Ev.TIME_STEP_REFUSED (c + 65536 * sat48 o) →
    Runs (.step v o) s (if v then e else e.set R.TIM_RESULT_CODE c)) ∧
  (∀ (s : State) (o : Int), Up s → s.dev.is R.TIM_RESULT_BUSY = true → Runs (.step false o) s (s.dev.setB R.TIM_RESULT_OVR true))

/-- TIM_ADJ_WRITE, TIM_NOW_READ, KEEPER_WRITE (15 R402, R404, R409): the owner's value enters TIM_ADJ, clamped to ±549,755,814 with
CLAMP set; another source's write is discarded and counted; a read of TIM_NOW_NS answers the nanoseconds and latches the seconds, also against
a latch a read of the seconds had left; while
VALID the keeper takes device time rounded down to a tick of 1/32,768 s, else the command changes nothing. -/
def Obligations.TimeAccesses : Prop :=
  (∀ (s : State) (v : Bool) (w : Word), Up s → s.dev.fabOwns = false → s.dev.is R.TIM_CTRL_OWNER = (!v) →
    (-549755814 ≤ w.toInt → w.toInt ≤ 549755814 → Runs (.timAdjWrite v w) s (s.dev.set R.TIM_ADJ (ofSigned 32 w.toInt))) ∧
    (549755814 < w.toInt →
      Runs (.timAdjWrite v w) s ((s.dev.set R.TIM_ADJ 549755814).setB R.TIM_STATUS_CLAMP true)) ∧
    (w.toInt < -549755814 →
      Runs (.timAdjWrite v w) s ((s.dev.set R.TIM_ADJ (2 ^ 32 - 549755814)).setB R.TIM_STATUS_CLAMP true))) ∧
  (∀ (s : State) (v : Bool) (w : Word), Up s → (s.dev.fabOwns = true ∨ s.dev.is R.TIM_CTRL_OWNER = v) →
    Runs (.timAdjWrite v w) s (s.dev.bump R.TIM_DISC_CNT 1)) ∧
  (∀ s : State, Up s → Runs .timNowRead s { s.dev with
    tim := { s.dev.tim with latch := s.dev.tim.sec }, latch := s.dev.latch.drop R.TIM_NOW_SEC_HI.addr, resp := [BitVec.ofNat 32 s.dev.tim.ns] }) ∧
  (∀ s : State, Up s → s.dev.is R.TIM_STATUS_VALID = true → Gives .keeperWrite s { s with
    nv := { s.nv with keep := { s.nv.keep with
      sec := s.dev.tim.sec, sub := s.dev.tim.ns * 32768 / 1000000000, frac := 0 } } }) ∧
  (∀ s : State, Up s → s.dev.is R.TIM_STATUS_VALID = false → Gives .keeperWrite s s)

/-- One clock (15 R401): device time, counted in units of 2^−40 ns, advances by 1 ns + TIM_ADJ of them; its nanoseconds stay below one
second and its fraction below one nanosecond. -/
def Obligations.TimeAdvances : Prop :=
  ∀ d : Dev, d.tim.acc < 2 ^ 40 → d.tim.ns < 1000000000 → d.tim.sec + 1 < 2 ^ 64 →
    (((d.tickTime.tim.sec * 1000000000 + d.tickTime.tim.ns) * 2 ^ 40 + d.tickTime.tim.acc : Nat) : Int) =
      (((d.tim.sec * 1000000000 + d.tim.ns) * 2 ^ 40 + d.tim.acc : Nat) : Int) + 2 ^ 40 + toSigned 32 (d.get R.TIM_ADJ) ∧
    d.tickTime.tim.ns < 1000000000 ∧ d.tickTime.tim.acc < 2 ^ 40

/-! ## PTP and the management port (15) -/

/-- ANNOUNCE and ANNOUNCE_RECEIPT_TIMEOUT (15 R412, Table 15.3): an Announce of another domain, without ptpTimescale or with 255 steps
or more is discarded, the first of each source raising PTP_FOREIGN; one that is accepted takes its source's place among the masters and the parent
is chosen afresh: none, the same one with its leap data, or a new one, which raises PTP_PARENT and starts ACQUIRING where the servo acts; a
device that is slave only follows its only master; the timeout loses the parent, and in LOCKED turns to HOLDOVER with TIM_ADJ at its last LOCKED value. -/
def Obligations.MastersChosen : Prop :=
  (∀ (s : State) (dom src gm p1 q p2 st leap : Nat) (ts : Bool) (utc : Int), Up s → s.dev.ptpOn = true →
    (dom ≠ s.dev.obj 0x1210 2 0 ∨ ts = false ∨ 255 ≤ st) →
    (src ∈ s.dev.ptp.foreign → Runs (.announce dom src ts gm p1 q p2 st utc leap) s s.dev) ∧
    (src ∉ s.dev.ptp.foreign → Runs (.announce dom src ts gm p1 q p2 st utc leap) s
      ({ s.dev with ptp := { s.dev.ptp with foreign := src :: s.dev.ptp.foreign } }.raise Ev.PTP_FOREIGN
        (dom % 256 + if ts then 256 else 0)))) ∧
  (∀ (s : State) (src gm p1 q p2 st leap : Nat) (utc : Int), Up s → s.dev.ptpOn = true → st < 255 →
    Runs (.announce (s.dev.obj 0x1210 2 0) src true gm p1 q p2 st utc leap) s { s.dev with ptp := { s.dev.ptp with
      masters := s.dev.ptp.masters.filter (fun (x : Master) => x.src != src) ++
        [(⟨src, gm, p1, q, p2, st, utc, leap⟩ : Master)] } }.choose) ∧
  (∀ d : Dev, (d.bestMaster = none → d.choose = { d with ptp := { d.ptp with parent := none } }) ∧
    (∀ m, d.bestMaster = some m →
      (d.ptp.parent = some m.src → d.choose = { d with ptp := { d.ptp with parent := some m.src, utc := m.utc, leap := m.leap } }) ∧
      (d.ptp.parent ≠ some m.src → ∀ e : Dev, e = { d with ptp := { d.ptp with
        parent := some m.src, utc := m.utc, leap := m.leap, within := 0, sync := none, delayReq := none } } →
        d.choose = (if d.servoOn then e.set R.TIM_STATUS_SYNC 1 else e).raise Ev.PTP_PARENT (m.src % 2 ^ 64))) ∧
    (∀ m, d.slaveOnly = true → d.ptp.masters = [m] → d.bestMaster = some m)) ∧
  (∀ (s : State) (d : Dev), Up s → s.dev.ptpOn = true → d = { s.dev with ptp := { s.dev.ptp with
      parent := none, masters := s.dev.ptp.masters.filter (fun (m : Master) => some m.src != s.dev.ptp.parent) } } →
    ((s.dev.owns true = false ∨ s.dev.get R.TIM_STATUS_SYNC ≠ 2) → Runs .announceReceiptTimeout s d.choose) ∧
    (s.dev.owns true = true → s.dev.get R.TIM_STATUS_SYNC = 2 → ∀ e : Dev,
      e = (d.set R.TIM_STATUS_SYNC 3).writeAdj true s.dev.ptp.lockedAdj →
      Runs .announceReceiptTimeout s (e.raise Ev.PTP_HOLDOVER (e.get R.TIM_ADJ)).choose)) ∧
  (∀ (s : State) (dom src gm p1 q p2 st leap : Nat) (ts : Bool) (utc : Int), Up s → s.dev.ptpOn = false →
    Runs (.announce dom src ts gm p1 q p2 st utc leap) s s.dev ∧ Runs .announceReceiptTimeout s s.dev)

/-- SYNC, FOLLOW_UP (15 R413, R415, Table 15.3): a one-step Sync of the parent gives t2 − t1, where t2 is device time less the receive latency
of the link speed and t1 the origin time plus the correction, and the offset from master, which is that less the path delay; a
two-step Sync is kept until its Follow_Up; while the servo does not act nothing but the measurement
changes and no run of offsets counts; a servo in FREE or HOLDOVER goes
to ACQUIRING, tracks an offset within TIM_STEP_THR and asks for a STEP beyond it, but in REFUSED. Messages of another source change nothing.
The servo's step (15 R406, R416): STEP_RETRY in REFUSED asks for the step again; refused, it raises TIME_STEP_REFUSED once more,
stays in REFUSED and puts TIM_ADJ back to its last LOCKED value; accepted, device time moves by minus the offset and the servo is
ACQUIRING; in every other state STEP_RETRY changes nothing. -/
def Obligations.OffsetsMeasured : Prop :=
  (∀ (s : State) (dom src seq o : Nat) (two : Bool) (c : Int), Up s → (s.dev.ptpOn = false ∨ dom ≠ s.dev.obj 0x1210 2 0 ∨
    s.dev.ptp.parent ≠ some src) →
    Runs (.sync dom src seq two o c) s s.dev ∧ Runs (.followUp dom src seq o c) s s.dev) ∧
  (∀ (s : State) (src seq o : Nat) (c : Int), Up s → s.dev.ptpOn = true → s.dev.ptp.parent = some src →
    Runs (.sync (s.dev.obj 0x1210 2 0) src seq true o c) s { s.dev with ptp := { s.dev.ptp with
      sync := some (seq, ((s.dev.tim.sec * 1000000000 + s.dev.tim.ns - s.dev.phyLatency false : Nat), c)) } } ∧
    (∀ t : Int, t = ((s.dev.tim.sec * 1000000000 + s.dev.tim.ns - s.dev.phyLatency false : Nat) : Int) - o - c.fdiv 65536 →
      Runs (.sync (s.dev.obj 0x1210 2 0) src seq false o c) s ({ s.dev with ptp := { s.dev.ptp with
        t12 := t, sync := none } }.offsetFound (t - s.dev.ptp.pathDelay))) ∧
    (∀ c2 t2 t : Int, s.dev.ptp.sync = some (seq, t2, c2) → t = t2 - o - (c2 + c).fdiv 65536 →
      Runs (.followUp (s.dev.obj 0x1210 2 0) src seq o c) s ({ s.dev with ptp := { s.dev.ptp with
        t12 := t, sync := none } }.offsetFound (t - s.dev.ptp.pathDelay)))) ∧
  (∀ (d e f : Dev) (ofs : Int), d.ptpOn = true → e = { d with ptp := { d.ptp with offset := ofs } } →
    f = (if d.get R.TIM_STATUS_SYNC = 0 ∨ d.get R.TIM_STATUS_SYNC = 3 then e.set R.TIM_STATUS_SYNC 1 else e) →
    (d.owns true = false → d.offsetFound ofs = { e with ptp := { e.ptp with within := 0 } }) ∧
    (d.owns true = true → ofs.natAbs ≤ d.get R.TIM_STEP_THR → d.offsetFound ofs = f.servoTrack ofs) ∧
    (d.owns true = true → d.get R.TIM_STEP_THR < ofs.natAbs →
      (d.get R.TIM_STATUS_SYNC = 4 → d.offsetFound ofs = { e with ptp := { e.ptp with within := 0 } }) ∧
      (d.get R.TIM_STATUS_SYNC = 1 ∨ d.get R.TIM_STATUS_SYNC = 2 →
        d.offsetFound ofs = ({ e with ptp := { e.ptp with within := 0 } }.set R.TIM_STATUS_SYNC 1).servoStep ofs))) ∧
  (∀ s : State, Up s → (s.dev.get R.TIM_STATUS_SYNC ≠ 4 ∨ s.dev.ptpOn = false ∨ s.dev.owns true = false) →
    Runs .stepRetry s s.dev) ∧
  (∀ (s : State) (d : Dev), Up s → s.dev.ptpOn = true → s.dev.owns true = true → s.dev.get R.TIM_STATUS_SYNC = 4 →
    s.dev.stepCode true (-s.dev.ptp.offset) ≠ .ok → d = s.dev.stepTime true (-s.dev.ptp.offset) →
    Runs .stepRetry s ((d.set R.TIM_STATUS_SYNC 4).writeAdj true s.dev.ptp.lockedAdj)) ∧
  (∀ (s : State) (d : Dev), Up s → s.dev.ptpOn = true → s.dev.owns true = true → s.dev.get R.TIM_STATUS_SYNC = 4 →
    s.dev.stepCode true (-s.dev.ptp.offset) = .ok → d = (s.dev.stepTime true (-s.dev.ptp.offset)).set R.TIM_STATUS_SYNC 1 →
    Runs .stepRetry s { d with ptp := { d.ptp with within := 0 } })

/-- DELAY_REQ, DELAY_RESP, PDELAY_REQ, PDELAY_RESP, PDELAY_RESP_FOLLOW_UP (15 R413–R415): a Delay_Req to a device that is master is
answered with its ingress time and its source; the answer to the own Delay_Req halves the sum of both directions into the path delay;
a one-step Pdelay_Resp takes the round trip less its correction by half, a two-step one waits for its follow-up, which also takes
off the time at the other end; a Pdelay_Req is answered by one frame with its residence time, egress less ingress, or, two-step, by two. The
port number of a requester is a free value (log 107), the answer's leaving on the clock of the request is the model's choice (log 85). Messages of
another domain change nothing but that value.
PTP_MESSAGE_INTERVAL, TS_TX_POP (15 R414): a master sends its one-step Sync with the egress time, its two-step Sync with the
stamp in the queue and a Follow_Up, its Announce with its own data set; a device set to the peer mechanism sends Pdelay_Req; the queue holds 16 stamps, more are counted in TS_TX_LOST; a device with a parent sends
Delay_Req; with PTP off nothing leaves; a read of TS_TX_POP takes the oldest stamp out. -/
def Obligations.DelaysMeasured : Prop :=
  (∀ (s : State) (src seq : Nat) (q : Nat × Dev), Up s → q = s.dev.portOf → s.dev.ptpMaster = true → s.dev.p2p = false →
    Runs (.delayReq (s.dev.obj 0x1210 2 0) src seq) s (q.2.ptpSend 9 seq
      (s.dev.tim.sec * 1000000000 + s.dev.tim.ns - s.dev.phyLatency false) 0 (portId src q.1))) ∧
  (∀ (s : State) (dom src seq : Nat), Up s → (s.dev.ptpMaster = false ∨ s.dev.p2p = true) →
    Runs (.delayReq dom src seq) s { s.dev with free := s.dev.free + 1 }) ∧
  (∀ (s : State) (src seq recv : Nat) (c t3 : Int), Up s → s.dev.ptpOn = true → s.dev.ptp.parent = some src →
    s.dev.ptp.delayReq = some (seq, t3) →
    Runs (.delayResp (s.dev.obj 0x1210 2 0) src seq recv c Config.clockIdentity) s { s.dev with ptp := { s.dev.ptp with
      delayReq := none, pathDelay := (s.dev.ptp.t12 + (recv - t3 - c.fdiv 65536)).fdiv 2 } }) ∧
  (∀ (s : State) (src seq recv : Nat) (c t1 rt : Int), Up s → s.dev.ptpOn = true → s.dev.ptp.pdelay = some (seq, t1) →
    rt = ((s.dev.tim.sec * 1000000000 + s.dev.tim.ns - s.dev.phyLatency false : Nat) : Int) - t1 →
    Runs (.pdelayResp (s.dev.obj 0x1210 2 0) src seq false recv c Config.clockIdentity) s { s.dev with ptp := { s.dev.ptp with
      pdelay := none, pathDelay := (rt - c.fdiv 65536).fdiv 2 } } ∧
    Runs (.pdelayResp (s.dev.obj 0x1210 2 0) src seq true recv c Config.clockIdentity) s { s.dev with ptp := { s.dev.ptp with
      pdelay := none, pdResp := some (seq, src, rt, (recv : Int), c) } }) ∧
  (∀ (s : State) (src seq resp : Nat) (c c2 rt recv : Int), Up s → s.dev.ptpOn = true →
    s.dev.ptp.pdResp = some (seq, src, rt, recv, c2) →
    Runs (.pdelayRespFollowUp (s.dev.obj 0x1210 2 0) src seq resp c Config.clockIdentity) s { s.dev with ptp := { s.dev.ptp with
      pdResp := none, pathDelay := (rt - (resp - recv) - (c2 + c).fdiv 65536).fdiv 2 } }) ∧
  (∀ (s : State) (src seq t u : Nat) (q : Nat × Dev), Up s → s.dev.ptpOn = true → q = s.dev.portOf →
    t = s.dev.tim.sec * 1000000000 + s.dev.tim.ns - s.dev.phyLatency false → u = s.dev.tim.sec * 1000000000 + s.dev.tim.ns + s.dev.phyLatency true →
    (s.dev.obj 0x1210 5 0 = 1 →
      Runs (.pdelayReq (s.dev.obj 0x1210 2 0) src seq) s (q.2.ptpSend 3 seq 0 (((u : Int) - t) * 65536) (portId src q.1))) ∧
    (s.dev.obj 0x1210 5 0 ≠ 1 →
      Runs (.pdelayReq (s.dev.obj 0x1210 2 0) src seq) s
        (((q.2.ptpSend 3 seq t 0 (portId src q.1)).txStamp 3 seq u).ptpSend 0xA seq u 0 (portId src q.1)))) ∧
  (∀ (s : State) (dom src seq n : Nat) (c : Int) (two : Bool), Up s → (s.dev.ptpOn = false ∨ dom ≠ s.dev.obj 0x1210 2 0) →
    Runs (.delayReq dom src seq) s { s.dev with free := s.dev.free + 1 } ∧ Runs (.delayResp dom src seq n c n) s s.dev ∧
    Runs (.pdelayReq dom src seq) s { s.dev with free := s.dev.free + 1 } ∧
    Runs (.pdelayResp dom src seq two n c n) s s.dev ∧ Runs (.pdelayRespFollowUp dom src seq n c n) s s.dev) ∧
  (∀ (s : State) (t q : Nat) (d : Dev), Up s → s.dev.ptpMaster = true →
    t = s.dev.tim.sec * 1000000000 + s.dev.tim.ns + s.dev.phyLatency true → q = s.dev.ptp.seqSync →
    d = { s.dev with ptp := { s.dev.ptp with seqSync := (q + 1) % 65536 } } →
    (s.dev.obj 0x1210 5 0 = 1 → Runs (.ptpMessageInterval 0) s (d.ptpSend 0 q t 0)) ∧
    (s.dev.obj 0x1210 5 0 ≠ 1 → Runs (.ptpMessageInterval 0) s (((d.ptpSend 0 q 0 0).txStamp 0 q t).ptpSend 8 q t 0))) ∧
  (∀ (s : State) (q : Nat), Up s → s.dev.ptpOn = true → s.dev.ptp.parent.isSome = true → s.dev.p2p = false →
    q = s.dev.ptp.seqDelay →
    Runs (.ptpMessageInterval 1) s ({ s.dev with ptp := { s.dev.ptp with
      seqDelay := (q + 1) % 65536,
      delayReq := some (q, ((s.dev.tim.sec * 1000000000 + s.dev.tim.ns + s.dev.phyLatency true : Nat) : Int)) } }.ptpSend 1 q 0 0)) ∧
  (∀ (s : State) (q : Nat), Up s → s.dev.ptpOn = true → s.dev.p2p = true → q = s.dev.ptp.seqPdelay →
    Runs (.ptpMessageInterval 2) s ({ s.dev with ptp := { s.dev.ptp with
      seqPdelay := (q + 1) % 65536, pdResp := none
      pdelay := some (q, ((s.dev.tim.sec * 1000000000 + s.dev.tim.ns + s.dev.phyLatency true : Nat) : Int)) } }.ptpSend 2 q 0 0
        (List.replicate 10 0))) ∧
  (∀ (s : State) (q : Nat), Up s → s.dev.ptpMaster = true → q = s.dev.ptp.seqAnn →
    Runs (.ptpMessageInterval 3) s ({ s.dev with ptp := { s.dev.ptp with seqAnn := (q + 1) % 65536 } }.ptpSend 0xB q 0 0
      (beBytes 2 (ofSigned 16 s.dev.ptp.utc) ++ [0x00#8] ++ beBytes 1 s.dev.ownMaster.prio1 ++ beBytes 4 s.dev.ownMaster.quality ++
        beBytes 1 s.dev.ownMaster.prio2 ++ beBytes 8 s.dev.ownMaster.gm ++ beBytes 2 s.dev.ownMaster.steps ++ [0xA0#8]))) ∧
  (∀ d : Dev, d.ownMaster.gm = Config.clockIdentity ∧ d.ownMaster.prio1 = d.obj 0x1210 0x10 128 ∧ d.ownMaster.prio2 = d.obj 0x1210 0x11 128 ∧
    d.ownMaster.steps = 0) ∧
  (∀ (s : State) (k : Nat), Up s → k < 4 → s.dev.ptpOn = false → Runs (.ptpMessageInterval k) s s.dev) ∧
  (∀ (d : Dev) (ty q t : Nat), (d.ptp.txq.length < 16 →
      d.txStamp ty q t = { d with ptp := { d.ptp with txq := d.ptp.txq ++ [(ty, q, t)] } }) ∧
    (16 ≤ d.ptp.txq.length → d.txStamp ty q t = d.bump R.TS_TX_LOST 1)) ∧
  (∀ (s : State) (ty q t : Nat) (rest : List (Nat × Nat × Nat)), Up s → s.dev.ptp.txq = (ty, q, t) :: rest →
    Runs .tsTxPop s (({ s.dev with
      ptp := { s.dev.ptp with txq := rest }
      resp := [BitVec.ofNat 32 (ty % 16 + 65536 * (q % 65536))] }.set R.TS_TX_NS (t % 1000000000)).set64 R.TS_TX_SEC_LO
        (t / 1000000000)))

/-- PHY_POLL, NET_MDIO_ACCESS (15 R418): link and speed that are as before change nothing; a change enters NET_STATUS and raises
NET_LINK, and at link-up one gratuitous ARP leaves where an address is set; a raw write reaches the PHY, a raw read holds its answer.
ARP, ARP_EXPIRY, ICMP_ECHO (15 R420, R421): without an address nothing happens; an ARP from another MAC address that claims the
own address raises IP_CONFLICT and does nothing more; a request for the own address is answered and its sender learnt, the oldest
of sixteen entries giving way, and what waited for that address leaves (the wait is the model's choice, log 84); an entry is removed after its time; an echo request for the device with a payload of at most 1,472 bytes
is answered with the same identifier, sequence number and payload, any other not.
NET_FRAME_RECEIVED (15 R419): a frame shorter than 64 or longer than 1,518 bytes, with a wrong FCS, with a VLAN tag or for another
address is discarded and counted; a frame that the MAC takes waits behind the others with its stamp; where 64 wait it is lost and counted, and a
frame the management processors come to at once leaves the queue before it is handled. -/
def Obligations.PortServed : Prop :=
  (∀ (s : State) (r0 r1 r5 r10 sp : Nat) (up : Bool), Up s → up = r1.testBit 2 →
    (s.dev.get R.NET_CTRL_FORCE = 0 ∧ sp = phySpeed r0 r5 r10 ∨ s.dev.get R.NET_CTRL_FORCE = sp + 1) →
    (up = s.dev.is R.NET_STATUS_LINK → sp = s.dev.get R.NET_STATUS_SPEED → Runs (.phyPoll r0 r1 r5 r10) s s.dev) ∧
    (up ≠ s.dev.is R.NET_STATUS_LINK ∨ sp ≠ s.dev.get R.NET_STATUS_SPEED → ∀ d : Dev,
      d = ((s.dev.setB R.NET_STATUS_LINK up).set R.NET_STATUS_SPEED sp).raise Ev.NET_LINK ((if up then 1 else 0) + 2 * sp) →
      (up = false ∨ s.dev.is R.NET_STATUS_LINK = true ∨ d.get R.NET_IP = 0 → Runs (.phyPoll r0 r1 r5 r10) s d) ∧
      (up = true → s.dev.is R.NET_STATUS_LINK = false → d.get R.NET_IP ≠ 0 →
        Runs (.phyPoll r0 r1 r5 r10) s (d.arpSend 1 0 (d.get R.NET_IP))))) ∧
  (∀ (s : State) (w : Word) (a : Nat), Up s →
    (w.toNat.testBit 21 = true → Runs (.netMdioAccess w a) s
      ((s.dev.set R.NET_MDIO (w.toNat % 2 ^ 22)).emit (.mdio (bytesOf 3 (w.toNat % 2 ^ 22))))) ∧
    (w.toNat.testBit 21 = false → Runs (.netMdioAccess w a) s
      (s.dev.set R.NET_MDIO (putBits (w.toNat % 2 ^ 22) 0 16 a)))) ∧
  (∀ (s : State) (op sha spa tpa : Nat) (l : List Byte), Up s → s.dev.get R.NET_IP = 0 →
    Runs (.arp op sha spa tpa) s s.dev ∧ Runs (.icmpEcho spa tpa l) s s.dev) ∧
  (∀ (s : State) (op sha tpa : Nat), Up s → s.dev.get R.NET_IP ≠ 0 →
    Runs (.arp op sha (s.dev.get R.NET_IP) tpa) s
      (if sha ≠ s.dev.mac then s.dev.raise Ev.IP_CONFLICT (sha % 2 ^ 48) else s.dev)) ∧
  (∀ (s : State) (sha spa : Nat) (r : List (Nat × Nat)), Up s → s.dev.get R.NET_IP ≠ 0 → spa ≠ s.dev.get R.NET_IP →
    r = s.dev.mgmt.arp.filter (fun e => e.1 != spa) ++ [(spa, sha)] →
    Runs (.arp 1 sha spa (s.dev.get R.NET_IP)) s
      (({ s.dev with mgmt := { s.dev.mgmt with arp := r.drop (r.length - 16) } }.arpFound spa sha).arpSend 2 sha spa)) ∧
  (∀ (d : Dev) (ip mac : Nat), d.mgmt.arpWait.find? (fun e => e.1 == ip) = none → d.arpFound ip mac = d) ∧
  (∀ (d : Dev) (ip mac : Nat) (p : List Byte), d.mgmt.arpWait.find? (fun e => e.1 == ip) = some (ip, p) →
    d.arpFound ip mac = { d with mgmt := { d.mgmt with arpWait := d.mgmt.arpWait.filter (fun e => e.1 != ip) } }.frameSend mac 0x800 p) ∧
  (∀ (s : State) (op sha spa tpa : Nat), Up s → s.dev.get R.NET_IP ≠ 0 → spa ≠ s.dev.get R.NET_IP → tpa ≠ s.dev.get R.NET_IP →
    s.dev.mgmt.arp.any (fun e => e.1 == spa) = false → Runs (.arp op sha spa tpa) s s.dev) ∧
  (∀ (s : State) (ip : Nat), Up s → Runs (.arpExpiry ip) s
    { s.dev with mgmt := { s.dev.mgmt with arp := s.dev.mgmt.arp.filter (fun e => e.1 != ip) } }) ∧
  (∀ (s : State) (src dst : Nat) (l : List Byte) (m : Nat → List Byte), Up s → s.dev.get R.NET_IP ≠ 0 →
    m = (fun sum => [0x00#8, 0x00#8] ++ beBytes 2 sum ++ l) →
    (dst = s.dev.get R.NET_IP → 4 ≤ l.length → l.length - 4 ≤ 1472 →
      Runs (.icmpEcho src dst l) s (s.dev.ipSend 1 src (m (65535 - onesSum (m 0) 0)))) ∧
    (dst ≠ s.dev.get R.NET_IP ∨ l.length < 4 ∨ 1472 < l.length - 4 → Runs (.icmpEcho src dst l) s s.dev)) ∧
  (∀ (s : State) (l : List Byte), Up s → (l.length < 64 ∨ 1518 < l.length ∨ fcsOk l = false ∨ beAt l 12 2 = 0x8100 ∨ beAt l 12 2 = 0x88A8 ∨
      beAt l 0 6 ≠ s.dev.mac ∧ beAt l 0 6 ≠ 0xFFFFFFFFFFFF ∧ beAt l 0 6 ∉ ptpMacs) →
    Gives (.netFrameReceived l false) s (serveBell { s with dev := s.dev.bump R.NET_RX_DISC_CNT 1 })) ∧
  (∀ (s : State) (l : List Byte), Up s → 64 ≤ l.length → l.length ≤ 1518 → fcsOk l = true → beAt l 12 2 ≠ 0x8100 → beAt l 12 2 ≠ 0x88A8 →
    (beAt l 0 6 = s.dev.mac ∨ beAt l 0 6 = 0xFFFFFFFFFFFF ∨ beAt l 0 6 ∈ ptpMacs) →
    (s.dev.mgmt.rxq.length < 64 → Gives (.netFrameReceived l false) s
      (serveBell { s with dev := { s.dev with mgmt := { s.dev.mgmt with rxq := s.dev.mgmt.rxq ++ [(s.dev.ingress, l)] } } })) ∧
    (64 ≤ s.dev.mgmt.rxq.length →
      Gives (.netFrameReceived l false) s (serveBell { s with dev := (s.dev.bump R.NET_RX_OVF_CNT 1).occur Ev.NET_RX_OVF 0 1 })) ∧
    (s.dev.mgmt.rxq = [] → s.dev.mgmtUp = true → Gives (.netFrameReceived l true) s (serveBell (frameIn s.dev.ingress l s)))) ∧
  (∀ s : State, s.dev.mgmt.bell = none → serveBell s = s)

/-! ## Object protocol and store (16) -/

/-- SESSION_OPEN, SESSION_CLOSE, SESSION_TIMEOUT (16 R429, R430): an OPEN of a new source while fewer than eight sessions stand makes one
with an ID from 1 to 65,534 that none of them has, and answers it with a 16-byte nonce and the idle timeout; with eight it answers
0x88; an OPEN sent again is answered as before, with REPLAY; CLOSE with the next sequence ends the session and answers;
a timeout ends it without an answer.
KEEPALIVE and the sequence (16 R429, R435): a request of no session answers 0x80; the sequence of the request before is answered again, with
REPLAY and without effect; any sequence but that and the next answers 0x81; a KEEPALIVE with the next one answers the device state and
its level. -/
def Obligations.SessionsKept : Prop :=
  (∀ (s : State) (ip port seq : Nat), Managed s → s.dev.mgmt.sessions.find? (fun x => x.ip == ip && x.port == port) = none →
    (s.dev.mgmt.sessions.length < 8 → ∃ (id : Nat) (nonce r : List Byte) (d : Dev), 1 ≤ id ∧ id ≤ 65534 ∧
      (∀ x ∈ s.dev.mgmt.sessions, x.id ≠ id) ∧ nonce.length = 16 ∧
      r = ({ session := 0, seq := seq, op := 1 } : IopMsg).answer 0
        (bytesOf 2 id ++ bytesOf 2 0 ++ nonce ++ bytesOf 4 (s.dev.obj 0x1010 2 10000)) ∧
      d = { s.dev with free := s.dev.free + 2, mgmt := { s.dev.mgmt with sessions := s.dev.mgmt.sessions ++ [{
        id := id, ip := ip, port := port, seq := seq, openSeq := seq, untouched := true, nonce := nonce, resp := r,
        at_ := s.dev.now }] } } ∧
      Answers (.sessionOpen ip port seq) s ip port d r) ∧
    (8 ≤ s.dev.mgmt.sessions.length → Answers (.sessionOpen ip port seq) s ip port s.dev
      (({ session := 0, seq := seq, op := 1 } : IopMsg).result 0x88))) ∧
  (∀ (s : State) (ip port : Nat) (x : Session), Managed s →
    s.dev.mgmt.sessions.find? (fun x => x.ip == ip && x.port == port) = some x → x.untouched = true →
    Answers (.sessionOpen ip port x.openSeq) s ip port s.dev (replayOf x.resp)) ∧
  (∀ (s : State) (ip port id : Nat) (x : Session), Managed s → s.dev.session (.udp ip port) id = some x →
    Answers (.sessionClose ip port id ((x.seq + 1) % 65536)) s ip port (s.dev.endSession id)
      (({ session := id, seq := (x.seq + 1) % 65536, op := 2 } : IopMsg).answer 0 [])) ∧
  (∀ (s : State) (id : Nat), Managed s → Runs (.sessionTimeout id) s (s.dev.endSession id)) ∧
  (∀ (s : State) (ip port id seq : Nat), Managed s → s.dev.session (.udp ip port) id = none →
    Answers (.keepalive ip port id seq) s ip port s.dev (({ session := id, seq := seq, op := 4 } : IopMsg).result 0x80) ∧
    Answers (.sessionClose ip port id seq) s ip port s.dev (({ session := id, seq := seq, op := 2 } : IopMsg).result 0x80)) ∧
  (∀ (s : State) (ip port id seq : Nat) (x : Session), Managed s → s.dev.session (.udp ip port) id = some x →
    (seq = x.seq → seq < 65536 → Answers (.keepalive ip port id seq) s ip port
      (s.dev.putSession (.udp ip port) { x with untouched := false, at_ := s.dev.now }) (replayOf x.resp)) ∧
    (seq ≠ x.seq → seq ≠ (x.seq + 1) % 65536 → Answers (.keepalive ip port id seq) s ip port
      (s.dev.putSession (.udp ip port) { x with untouched := false })
      (({ session := id, seq := seq, op := 4 } : IopMsg).result 0x81)) ∧
    (∀ r : List Byte, seq = (x.seq + 1) % 65536 →
      r = ({ session := id, seq := seq, op := 4 } : IopMsg).answer 0 (bytesOf 1 s.dev.dstate.code ++ bytesOf 1 s.dev.level.code) →
      Answers (.keepalive ip port id seq) s ip port
        (s.dev.putSession (.udp ip port) { x with seq := seq, resp := r, untouched := false, at_ := s.dev.now }) r))

/-- ELEVATE (16 R431): with the right proof the session becomes Expert and SESSION_EXPERT is raised; with a wrong one it ends, the failure
is counted and answered 0x85; without a credential 0x87, within one second after a failure 0x86, both raising ELEVATE_REFUSED, in a session that is Expert 0x89. -/
def Obligations.SessionsElevated : Prop :=
  ∀ (s : State) (ip port id seq : Nat) (proof : List Byte) (x y : Session) (d : Dev) (m : IopMsg), Managed s →
    s.dev.session (.udp ip port) id = some x → seq = (x.seq + 1) % 65536 → proof.length = 16 →
    y = { x with seq := seq, resp := [], untouched := false, at_ := s.dev.now } → d = s.dev.putSession (.udp ip port) y →
    m = { session := id, seq := seq, op := 3, body := proof } →
    (x.expert = true → Answers (.elevate ip port id seq proof) s ip port
      (d.noteRequest (.udp ip port) id seq (m.result 0x89)) (m.result 0x89)) ∧
    (x.expert = false → s.dev.mgmt.cred = none → Answers (.elevate ip port id seq proof) s ip port
      ((d.raise Ev.ELEVATE_REFUSED (ip + 2 ^ 32 * 0x87)).noteRequest (.udp ip port) id seq (m.result 0x87)) (m.result 0x87)) ∧
    (∀ c : List Byte, x.expert = false → s.dev.mgmt.cred = some c →
      (∀ t : Nat, s.dev.mgmt.failAt = some t → s.dev.now < t + 1000000000 → Answers (.elevate ip port id seq proof) s ip port
        ((d.raise Ev.ELEVATE_REFUSED (ip + 2 ^ 32 * 0x86)).noteRequest (.udp ip port) id seq (m.result 0x86)) (m.result 0x86)) ∧
      ((∀ t : Nat, s.dev.mgmt.failAt = some t → t + 1000000000 ≤ s.dev.now) →
        (proof = (sha256 (c ++ x.nonce ++ bytesOf 2 id)).take 16 → Answers (.elevate ip port id seq proof) s ip port
          (((d.putSession (.udp ip port) { x with expert := true }).raise Ev.SESSION_EXPERT id).noteRequest (.udp ip port) id seq
            (m.result 0)) (m.result 0)) ∧
        (proof ≠ (sha256 (c ++ x.nonce ++ bytesOf 2 id)).take 16 → ∀ e : Dev, e = d.endSession id →
          Answers (.elevate ip port id seq proof) s ip port
            (({ e with mgmt := { e.mgmt with failed := s.dev.mgmt.failed + 1, failAt := some s.dev.now } }.raise Ev.ELEVATE_REFUSED
              (ip + 2 ^ 32 * 0x85)).noteRequest (.udp ip port) id seq (m.result 0x85)) (m.result 0x85))))

/-- READ, WRITE, INFO (16 R433, R434, R437, R439, R441; 11 R319): a request whose items do not fill its body answers 0x83; one whose items
do is answered item by item, in order, the session noting sequence and answer; an item that fails a check is answered with its code and changes nothing,
but that a command object that is BUSY sets OVR of its block;
an ATOMIC request one item of which fails changes nothing; an uncorrectable word of management memory stops management, unanswered. -/
def Obligations.ItemsAnswered : Prop :=
  (∀ (s : State) (ip port id seq n : Nat) (b : List Byte), Managed s →
    (n = 0 ∨ 32 < n ∨ parseItems false n b = none → ∀ m : IopMsg, m = { session := id, seq := seq, op := 0x10, count := n, body := b } →
      Answers (.read ip port id seq n b none) s ip port s.dev (m.result 0x83) ∧
      Answers (.info ip port id seq n b) s ip port s.dev (({ m with op := 0x12 } : IopMsg).result 0x83)) ∧
    (n = 0 ∨ 32 < n ∨ parseItems true n b = none → Answers (.write ip port id seq n false b none) s ip port s.dev
      (({ session := id, seq := seq, op := 0x11, count := n, body := b } : IopMsg).result 0x83))) ∧
  (∀ (s t : State) (ip port id seq n : Nat) (b v r : List Byte) (l : List IopItem) (x : Session) (d f : Dev), Managed s →
    s.dev.session (.udp ip port) id = some x → seq = (x.seq + 1) % 65536 → 1 ≤ n → n ≤ 32 →
    d = s.dev.putSession (.udp ip port) { x with seq := seq, resp := [], untouched := false, at_ := s.dev.now } →
    t.dev.mgmtUp = true → (t.dev.session (.udp ip port) id).isSome = true →
    (parseItems false n b = some l → readAll x.expert 1456 l { s with dev := d } = (.inl v, t) →
      r = ({ session := id, seq := seq, op := 0x10, count := n, body := b } : IopMsg).answer n v →
      f = (t.dev.noteRequest (.udp ip port) id seq r).iopSend ip port r →
      Gives (.read ip port id seq n b none) s (serveBell { t with dev := f })) ∧
    (∀ a : Bool, parseItems true n b = some l → (a = true → l.all IopItem.plain = true) →
      (if a then writeAtomic (.udp ip port) id x.expert l { s with dev := d }
        else writeAll' (.udp ip port) id x.expert l { s with dev := d }) = (v, t) →
      r = ({ session := id, seq := seq, op := 0x11, count := n, body := b } : IopMsg).answer n v →
      f = (t.dev.noteRequest (.udp ip port) id seq r).iopSend ip port r →
      Gives (.write ip port id seq n a b none) s (serveBell { t with dev := f })) ∧
    (parseItems false n b = some l →
      r = ({ session := id, seq := seq, op := 0x12, count := n, body := b } : IopMsg).answer n (d.infoAll s.nv 1456 l) →
      Answers (.info ip port id seq n b) s ip port (d.noteRequest (.udp ip port) id seq r) r)) ∧
  (∀ (s : State) (src : IopSrc) (id k : Nat) (e : Bool) (w : IopItem),
    (s.dev.readCode e w ≠ 0 → readOne e k w s = (.inl (readResult w (s.dev.readCode e w) 0 []), s)) ∧
    (∀ (r : ObjRow) (i : Nat), findObj w.idx w.sub = .found r i → s.dev.writeCode e w ≠ 0 →
      writeOne src id e w s = (writeResult w (s.dev.writeCode e w) 0, { s with dev := s.dev.refusedItem r (s.dev.writeCode e w) })) ∧
    (∀ r : ObjRow, s.dev.writeCode e w ≠ 10 → s.dev.refusedItem r (s.dev.writeCode e w) = s.dev) ∧
    (∀ r : ObjRow, r.back = .cmd .update ∨ r.back = .cmd .block → s.dev.refusedItem r 10 = s.dev.setB R.UPD_RESULT_OVR true) ∧
    (∀ r : ObjRow, r.back = .cmd .setTime ∨ r.back = .cmd .step → s.dev.refusedItem r 10 = s.dev.setB R.TIM_RESULT_OVR true) ∧
    (findObj w.idx w.sub = .noObject → writeOne src id e w s = (writeResult w 1 0, s)) ∧
    (findObj w.idx w.sub = .noSub → writeOne src id e w s = (writeResult w 2 0, s)) ∧
    (∀ l : List IopItem, w ∈ l → s.dev.writeCode e w ≠ 0 → (writeAtomic src id e l s).2 = s)) ∧
  (∀ (s : State) (ip port id seq n k : Nat) (b : List Byte) (a : Bool) (d : Dev), Managed s → d = s.dev.mgmtFault k →
    d.mgmt.bell = none → Runs (.read ip port id seq n b (some k)) s d ∧ Runs (.write ip port id seq n a b (some k)) s d)

/-- DEV_MBX_DOORBELL, BAR0_VALUE_ACCESS, BAR4_VALUE_ACCESS (16 R442, R452): a ring while the mailbox is BUSY only sets OVR, any other makes it BUSY and
lets a message of that length wait; a message that is none is discarded and BUSY clears; a good one is handled and its answer stands in
the mailbox; the value objects write and read the BAR address set before, aligned, as the host does, an unreadable word as all ones,
poisoned; after PERST_N fell a ring has no effect. -/
def Obligations.MailboxAndValues : Prop :=
  (∀ (s : State) (len : Nat), Managed s →
    (s.dev.pwr.perst = true → Runs (.devMbxDoorbell len) s s.dev) ∧
    (s.dev.pwr.perst = false → len < 4096 →
      (s.dev.is R.DEV_MBX_STATUS_BUSY = true →
        Gives (.devMbxDoorbell len) s (serveBell { s with dev := s.dev.setB R.DEV_MBX_STATUS_OVR true })) ∧
      (s.dev.is R.DEV_MBX_STATUS_BUSY = false → Gives (.devMbxDoorbell len) s (serveBell { s with
        dev := ({ s.dev with mgmt := { s.dev.mgmt with bell := some len } }.setB R.DEV_MBX_STATUS_BUSY true).setB
          R.DEV_MBX_STATUS_DONE false })))) ∧
  (∀ (s : State) (len : Nat) (d : Dev), s.dev.mgmt.bell = some len → s.dev.mgmtUp = true →
    d = { s.dev with mgmt := { s.dev.mgmt with bell := none } } →
    (2048 < len ∨ parseMsg (s.dev.mbxReq len) = none →
      serveBell s = { s with dev := d.iopDiscard.setB R.DEV_MBX_STATUS_BUSY false }) ∧
    (∀ (m : IopMsg) (r : List Byte) (t : State), len ≤ 2048 → parseMsg (s.dev.mbxReq len) = some m →
      iopHandle .mbx m { s with dev := d } = (some r, t) → t.dev.mgmtUp = true → t.dev.is R.DEV_MBX_STATUS_BUSY = true →
      serveBell s = { t with dev := t.dev.mbxAnswer r })) ∧
  (∀ s : State, s.dev.mgmt.bell = none → serveBell s = s) ∧
  (∀ (s : State) (w : Word) (a : Nat), Managed s → a = s.dev.obj 0x6000 1 0 → a % 4 = 0 →
    Gives (.bar0ValueAccess true w) s (serveBell (busWrite a w.toNat s)) ∧
    (∀ t : State, t = (busRead a s).2 → Gives (.bar0ValueAccess false w) s
      (serveBell { t with dev := { t.dev with resp := [BitVec.ofNat 32 (busRead a s).1] } }))) ∧
  (∀ (s : State) (w : Word) (a : Nat), Managed s → a = s.dev.obj 0x6000 3 0 → a % 4 = 0 →
    Gives (.bar4ValueAccess true w) s (serveBell { s with dev := (s.dev.bar4Write a w 14).2 }) ∧
    (∀ (v : Word) (d : Dev), s.dev.bar4Read a 14 = (some v, d) →
      Gives (.bar4ValueAccess false w) s (serveBell { s with dev := { d with resp := [v] } })) ∧
    (∀ d e : Dev, s.dev.bar4Read a 14 = (none, d) → e = d.emit (.poisoned 4 a) →
      Gives (.bar4ValueAccess false w) s (serveBell { s with dev := { e with resp := [0xFFFFFFFF] } })))

/-- REVERT, SAVE, STORE_SAVED, STORE_LOAD, ERASE (16 R445, R447, R449, 11 R315, R319–R321): REVERT copies Active settings and tables over Shadow,
each word as its read delivers it, or answers 9 while Shadow is locked and 10 during a copy; SAVE takes the values that stand at its acceptance and, when
it ends well, leaves them in the slot that did not hold the newest store, but where management stops at an unreadable word of a table nothing is written; a flash error leaves that slot empty; a second command while one runs changes nothing but its result; LOAD and ERASE outside IDLE
answer 2; ERASE empties both slots. -/
def Obligations.StoreCommands : Prop :=
  (∀ s : State, Up s → (s.dev.shadowLocked = true → Runs .revert s (s.dev.set R.DEV_PROF_RESULT 9)) ∧
    (s.dev.shadowLocked = false → s.dev.profileCopying = true → Runs .revert s (s.dev.set R.DEV_PROF_RESULT 10)) ∧
    (s.dev.shadowLocked = false → s.dev.profileCopying = false → ∀ (d e : Dev) (h : Nat), d = s.dev.shadowFrom s.dev.active →
      e = { d with
        las := { d.las with remapS := d.remapRead true }
        cmp := { d.cmp with tplS := d.readTable 6 tplActiveWord tplActiveWord 2 d.cmp.tplA } } → h = d.remapHalf false →
      Runs .revert s ((((((e.copyMarks 3 (131072 * e.remapHalf true) (131072 * h) 131072 9).freshWords 8 (scatterWord h 0)
        (scatterWord (h + 1) 0)).copyMarks 6 tplActiveWord 0 tplActiveWord 11).corrLoad 0 (eccSramWords 4) 8
          (fun d => d.dos.corrA)).revertFlags).set R.DEV_PROF_RESULT 0))) ∧
  (∀ d : Dev, d.ecc.diffs = [] → d.remapRead true = d.las.remapA ∧
    d.readTable 6 tplActiveWord tplActiveWord 2 d.cmp.tplA = d.cmp.tplA ∧
    (d.corrLoad 0 (eccSramWords 4) 8 (fun d => d.dos.corrA)).dos.corrS = d.dos.corrA) ∧
  (∀ (s : State) (e : Bool), Up s →
    (s.dev.storeBusy = true → ∀ d : Dev, d = (s.dev.set R.DEV_STORE_RESULT_CODE 1).setB R.DEV_STORE_RESULT_OVR true →
      Runs .save s d ∧ Runs .storeLoad s d ∧ Runs (.erase e) s d) ∧
    (s.dev.storeBusy = false → s.dev.is R.UPD_RESULT_BUSY = false → s.dev.dstate ≠ .idle →
      Runs .storeLoad s (s.dev.set R.DEV_STORE_RESULT_CODE 2) ∧ Runs (.erase e) s (s.dev.set R.DEV_STORE_RESULT_CODE 2))) ∧
  (∀ (s : State) (l : List Byte) (d : Dev), Up s → s.dev.storeBusy = false → s.dev.is R.UPD_RESULT_BUSY = false →
    l = s.dev.storeContent s.nv → d = (s.dev.set R.DEV_STORE_RESULT_CODE 0).wrap R.DEV_STORE_RESULT_SEQ 1 →
    (s.dev.get R.DEV_STORE_SLOT < 64 + l.length →
      Runs .save s ((d.set R.DEV_STORE_RESULT_CODE 3).raise Ev.STORE_FAILED 3)) ∧
    (64 + l.length ≤ s.dev.get R.DEV_STORE_SLOT → ∀ (q : Nat) (e : Dev),
      q = ((s.nv.flash.newest.map (fun e => slotSeq e.2)).getD 0 + 1) % 2 ^ 32 → e = (d.setB R.DEV_STORE_RESULT_BUSY true).saveReads →
      (e.pwr.mgmtStop = false → Runs .save s { e with mgmt := { e.mgmt with
        saving := some (storeSlot s.nv.flash.schema q (s.dev.get R.DEV_STORE_CFG_TABLES) l) } }) ∧
      (e.pwr.mgmtStop = true → Runs .save s e))) ∧
  (∀ d : Dev, d.ecc.diffs = [] → d.saveReads = d) ∧
  (∀ (s : State) (n : Nat) (l : List Byte) (d : Dev), Up s → s.dev.mgmt.saving = some l →
    (s.nv.flash.newest.map (·.1) = some 1 ∧ n = 2 ∨ s.nv.flash.newest.map (·.1) ≠ some 1 ∧ n = 1) →
    d = { s.dev with mgmt := { s.dev.mgmt with saving := none } }.setB R.DEV_STORE_RESULT_BUSY false →
    Gives (.storeSaved true) s { s with
      dev := (d.set R.DEV_STORE_RESULT_CODE 4).raise Ev.STORE_FAILED 4
      nv := { s.nv with flash := s.nv.flash.putSlot n [] } } ∧
    Gives (.storeSaved false) s { s with
      dev := ((((d.set R.DEV_STORE_RESULT_CODE 0).set R.DEV_STORE_STATUS_SLOT n).set R.DEV_STORE_SEQ (slotSeq l)).set R.DEV_STORE_USED
        (leAt l 0xC 4)).raise Ev.STORE_SAVED (n + 2 ^ 32 * slotSeq l)
      nv := { s.nv with flash := s.nv.flash.putSlot n l } }) ∧
  (∀ (s : State) (d : Dev), Up s → s.dev.storeBusy = false → s.dev.is R.UPD_RESULT_BUSY = false → s.dev.dstate = .idle →
    d = (s.dev.set R.DEV_STORE_RESULT_CODE 0).wrap R.DEV_STORE_RESULT_SEQ 1 →
    Gives (.erase false) s { s with dev := d, nv := { s.nv with flash := { s.nv.flash with slotA := [], slotB := [] } } } ∧
    Runs (.erase true) s (d.set R.DEV_STORE_RESULT_CODE 4) ∧
    (s.dev.job.swap = none → ∀ (n : Nat) (l : List Byte), s.nv.flash.newest = some (n, l) →
      Runs .storeLoad s ((d.storeIn n l).raise Ev.STORE_LOADED (n + 2 ^ 32 * slotSeq l))))

/-- A saved store is found again (16 R447, R448): the slot a SAVE writes reads as sound, with the content, sequence and schema it was made of. -/
def Obligations.StoreFound : Prop :=
  ∀ (schema seq tables : Nat) (l : List Byte), schema < 2 ^ 32 → seq < 2 ^ 32 → l.length < 2 ^ 32 →
    slotValid schema (storeSlot schema seq tables l) = true ∧ slotSeq (storeSlot schema seq tables l) = seq ∧
    slotContent (storeSlot schema seq tables l) = l

/-! ## Power, reset, device states (17) -/

/-- PWR_DOM_ON, PWR_DOM_OFF (17 R456, R457): a command while one runs only sets OVR; a domain that is no domain answers 3; one that stands as
asked for is counted and answered 0; a domain whose condition fails answers its code; otherwise the command is accepted and BUSY, and a switch-off
starts the drain.
DOMAIN_OFF, DRAIN_TIMEOUT, DOMAIN_ON (17 R455, R457, R458; 12 R342): a switch-off whose channels have drained goes off with OK;
the timeout of one whose channels have not answers 4 and lets them run on; writes that waited for memory land or fail with what the switch-off left; a domain being powered, with its rail, starts its blocks
at their reset values and is on; without such a command in progress nothing happens. -/
def Obligations.DomainsSwitched : Prop :=
  (∀ (s : State) (c : Nat), Up s → s.dev.is R.PWR_DOM_RESULT_BUSY = true →
    Runs (.pwrDomOn c) s (s.dev.setB R.PWR_DOM_RESULT_OVR true) ∧ Runs (.pwrDomOff c) s (s.dev.setB R.PWR_DOM_RESULT_OVR true)) ∧
  (∀ (s : State) (c : Nat) (d : Dev), Up s → s.dev.is R.PWR_DOM_RESULT_BUSY = false →
    d = (s.dev.set R.PWR_DOM_RESULT_CODE 0).wrap R.PWR_DOM_RESULT_SEQ 1 →
    (9 < c → Runs (.pwrDomOn c) s (s.dev.set R.PWR_DOM_RESULT_CODE 3)) ∧
    (c = 0 ∨ 9 ≤ c → Runs (.pwrDomOff c) s (s.dev.set R.PWR_DOM_RESULT_CODE 3)) ∧
    (c ≤ 9 → s.dev.domOn c = true → Runs (.pwrDomOn c) s d) ∧
    (c ≤ 9 → s.dev.domOn c = false → ∀ e : Dev, e = d.setB R.PWR_DOM_RESULT_BUSY true →
      Runs (.pwrDomOn c) s { e with pwr := { s.dev.pwr with ons := c :: s.dev.pwr.ons } }) ∧
    (1 ≤ c → c ≤ 8 → s.dev.domOn c = false → Runs (.pwrDomOff c) s d) ∧
    (1 ≤ c → c ≤ 8 → s.dev.domOn c = true → (∀ code : Nat, s.dev.offRefused c = some code →
        Runs (.pwrDomOff c) s (s.dev.set R.PWR_DOM_RESULT_CODE code)) ∧
      (s.dev.offRefused c = none → ∀ e : Dev, e = d.setB R.PWR_DOM_RESULT_BUSY true → Runs (.pwrDomOff c) s
        (({ e with pwr := { s.dev.pwr with offs := (c, s.dev.now) :: s.dev.pwr.offs } }.set R.PWR_DOM_PENDING
          (setMask (s.dev.get R.PWR_DOM_PENDING) c true)).drainDomain c)))) ∧
  (∀ d : Dev, (d.offRefused 1 = some 5 ↔ d.domainLive 0 = true) ∧ (d.offRefused 2 = some 5 ↔ d.domainLive 16 = true) ∧
    (d.offRefused 3 = some 2 ↔ d.fabOn = true) ∧ (d.offRefused 6 = some 2 ↔ d.printing = true) ∧
    (d.offRefused 7 = some 5 ↔ (d.cmpr 0).busy = true ∨ (d.cmpr 1).busy = true) ∧
    (∀ c : Nat, c < 2 → (d.offRefused (4 + c) = some 2 ↔ d.get (R.DRC_STATUS_STATE c) = 3 ∧ d.printing = true))) ∧
  (∀ (s : State) (c : Nat), Up s → 1 ≤ c → c ≤ 8 → s.dev.offRuns c = true →
    (s.dev.undrained c = [] → Lands (.domainOff c) s
        (((s.dev.switchOff c false).setB R.PWR_DOM_RESULT_BUSY false).set R.PWR_DOM_RESULT_CODE 0) ∧
      Runs (.drainTimeout c) s s.dev) ∧
    (s.dev.undrained c ≠ [] → Lands (.domainOff c) s s.dev ∧ Runs (.drainTimeout c) s
      ((((s.dev.drainRefused c).domForget c).setB R.PWR_DOM_RESULT_BUSY false).set R.PWR_DOM_RESULT_CODE 4))) ∧
  (∀ (s : State) (c : Nat), Up s → 1 ≤ c → c ≤ 8 →
    (s.dev.offRuns c = false → Lands (.domainOff c) s s.dev ∧ Runs (.drainTimeout c) s s.dev) ∧
    (c ∉ s.dev.pwr.ons ∨ (c = 4 ∨ c = 5) ∧ (s.dev.get R.PWR_SUPPLY_STATUS).testBit (c - 1) = false →
      Runs (.domainOn c) s s.dev) ∧
    (c ∈ s.dev.pwr.ons → (c ≠ 4 ∧ c ≠ 5 ∨ (s.dev.get R.PWR_SUPPLY_STATUS).testBit (c - 1) = true) → ∀ d : Dev,
      d = (s.dev.startBlocks c).domForget c → Runs (.domainOn c) s
        ((((d.set R.PWR_DOM_STATUS_ON (setMask (d.get R.PWR_DOM_STATUS_ON) c true)).setB R.PWR_DOM_RESULT_BUSY false).set
          R.PWR_DOM_RESULT_CODE 0).raise Ev.DOMAIN_ON c)))

/-- VDDQ_FAULT, PERST_ASSERT, PERST_RELEASE, MGMT, PWR_WDT_KICK, WATCHDOG_EXPIRY (17 R455, R463, R464): a channel whose rail fails loses its
contents, and its domain, where on, goes off with the event's forced bit, a host write that waits for it failing; PERST_N low is counted once, raises PCIE_RESET and ends transfers
with the host; a management reset drops sessions and PTP, refreshes memory 7, cuts a SAVE off and leaves SYNC FREE; a watchdog that is not due changes nothing; a kick takes the clock. -/
def Obligations.ResetsApart : Prop :=
  (∀ (s : State) (ch : Nat) (d : Dev), Up s → ch < 2 → d = (s.dev.rail (3 + ch) false).raise Ev.VDDQ_FAULT ch →
    ∀ (e : Dev) (z : Dev × Mem), z = drainIntake e (s.mem.lose ch) →
      (d.domOn (4 + ch) = false → e = d → Gives (.vddqFault ch) s { s with dev := z.1, mem := z.2 }) ∧
      (d.domOn (4 + ch) = true → d.offRuns (4 + ch) = false → e = d.switchOff (4 + ch) true →
        Gives (.vddqFault ch) s { s with dev := z.1, mem := z.2 }) ∧
      (d.domOn (4 + ch) = true → d.offRuns (4 + ch) = true →
        e = ((d.switchOff (4 + ch) true).setB R.PWR_DOM_RESULT_BUSY false).set R.PWR_DOM_RESULT_CODE 0 →
        Gives (.vddqFault ch) s { s with dev := z.1, mem := z.2 })) ∧
  (∀ m : Mem, (m.lose 0).ch0 = [] ∧ (m.lose 0).ch1 = m.ch1 ∧ (m.lose 1).ch1 = [] ∧ (m.lose 1).ch0 = m.ch0) ∧
  (∀ s : State, Runs .perstRelease s { s.dev with pwr := { s.dev.pwr with perst := false } } ∧
    (s.dev.pwr.perst = true → Runs .perstAssert s s.dev) ∧
    (s.dev.awake = false → Runs .perstAssert s { s.dev with pwr := { s.dev.pwr with perst := true } }) ∧
    (s.dev.awake = true → s.dev.pwr.perst = false → ∀ d : Dev, d = { s.dev with pwr := { s.dev.pwr with perst := true } } →
      Runs .perstAssert s (forEach (s.dev.dma.chs.map (·.1)) Dev.hostGone ((d.bump R.PWR_PERST_CNT 1).raise Ev.PCIE_RESET 0)))) ∧
  (∀ (s : State) (d : Dev) (f : Flash), Up s →
    f = (if s.dev.mgmt.saving.isSome then s.nv.flash.putSlot s.nv.flash.saveSlot [] else s.nv.flash) →
    d = ({ s.dev.set R.PWR_RST_RESULT 0 with mgmt := {}, ptp := {}, pwr := { s.dev.pwr with
      mgmtStop := false, kickAt := some s.dev.now } }.freshWords 7 0 (eccSramWords 7)).firmwareObjects f →
    Gives .mgmt s { s with
      dev := ((((d.setB R.DEV_MBX_STATUS_BUSY false).setB R.DEV_STORE_RESULT_BUSY false).set R.TIM_STATUS_SYNC 0).bump
        R.PWR_MGMT_RST_CNT 1).raise Ev.MGMT_RESET 0
      nv := { s.nv with flash := f } }) ∧
  (∀ s : State, Up s → Runs .pwrWdtKick s { s.dev with pwr := { s.dev.pwr with kickAt := some s.dev.now } }) ∧
  (∀ s : State, Up s → (s.dev.get R.PWR_WDT = 0 ∨ ∃ k : Nat, s.dev.pwr.kickAt = some k ∧ s.dev.now < k + s.dev.get R.PWR_WDT * 1000000) →
    Runs .watchdogExpiry s s.dev) ∧
  (∀ (s : State) (k : Nat), Up s → s.dev.get R.PWR_WDT ≠ 0 → s.dev.pwr.kickAt = some k →
    k + s.dev.get R.PWR_WDT * 1000000 ≤ s.dev.now → ∀ (d : Dev) (v : NonVol), mgmtReset true s.dev s.nv = (d, v) →
    Gives .watchdogExpiry s { s with dev := d, nv := v })

/-- ARM, RUN, DISARM, STOP (17 R471, R472): each is refused outside the state it leaves with code 2; ARM in BASIC with 3, in a fabric
that is not ready with 4, without PD_EXP with 8; a good plan arms, which ends a self-test of what it uses; RUN of an armed device above BASIC enters RUN; STOP with a job
ACTIVE answers 7. -/
def Obligations.StateCommands : Prop :=
  (∀ s : State, Up s →
    (s.dev.dstate ≠ .idle → Runs .arm s (s.dev.set R.DEV_STATE_RESULT_CODE 2)) ∧
    (s.dev.dstate ≠ .armed → Runs .run s (s.dev.set R.DEV_STATE_RESULT_CODE 2) ∧
      Runs .disarm s (s.dev.set R.DEV_STATE_RESULT_CODE 2)) ∧
    (s.dev.dstate ≠ .run → Runs .stop s (s.dev.set R.DEV_STATE_RESULT_CODE 2)) ∧
    (s.dev.dstate = .idle → s.dev.level = .basic → Runs .arm s (s.dev.set R.DEV_STATE_RESULT_CODE 3)) ∧
    (s.dev.dstate = .armed → s.dev.level = .basic → Runs .run s (s.dev.set R.DEV_STATE_RESULT_CODE 3)) ∧
    (s.dev.dstate = .run → (∃ q ∈ s.dev.job.order, (s.dev.slot q).st = .active) →
      Runs .stop s (s.dev.set R.DEV_STATE_RESULT_CODE 7))) ∧
  (∀ s : State, Up s → s.dev.dstate = .idle → s.dev.level ≠ .basic →
    (s.dev.fabOn = true → s.dev.fab.st ≠ .ready → Runs .arm s
      ((s.dev.raise Ev.ARM_REFUSED_FABRIC s.dev.fab.st.code).set R.DEV_STATE_RESULT_CODE 4)) ∧
    ((s.dev.fabOn = false ∨ s.dev.fab.st = .ready) → s.dev.domOn 6 = false → Runs .arm s (s.dev.set R.DEV_STATE_RESULT_CODE 8)) ∧
    ((s.dev.fabOn = false ∨ s.dev.fab.st = .ready) → s.dev.domOn 6 = true → ∀ d : Dev,
      (s.dev.plan s.dev.active = (d, false) → Runs .arm s (d.set R.DEV_STATE_RESULT_CODE 5)) ∧
      (s.dev.plan s.dev.active = (d, true) → ∀ i : Nat, d.shortInput d.active = some i →
        Runs .arm s ((d.raise Ev.ITEM_OFFSET_SHORT i).set R.DEV_STATE_RESULT_CODE 6)) ∧
      (s.dev.plan s.dev.active = (d, true) → d.shortInput d.active = none → d.job.swap = none →
        Runs .arm s ((((d.toState .armed).set R.DEV_STATE_RESULT_CODE 0).wrap R.DEV_STATE_RESULT_SEQ 1).prime.bistTouch)))) ∧
  (∀ s : State, Up s → s.dev.dstate = .armed →
    (s.dev.level ≠ .basic →
      Runs .run s ((((s.dev.toState .run).set R.DEV_STATE_RESULT_CODE 0).wrap R.DEV_STATE_RESULT_SEQ 1).jobsAtRun)) ∧
    Runs .disarm s ((s.dev.enterIdle.set R.DEV_STATE_RESULT_CODE 0).wrap R.DEV_STATE_RESULT_SEQ 1)) ∧
  (∀ s : State, Up s → s.dev.dstate = .run → (∀ q ∈ s.dev.job.order, (s.dev.slot q).st ≠ .active) →
    Runs .stop s ((s.dev.enterIdle.set R.DEV_STATE_RESULT_CODE 0).wrap R.DEV_STATE_RESULT_SEQ 1))

/-- Supplies, PORST_N, clock, KEEP and SYSTEM (17 R454, R460, R462, R465; 20 R513): each reset leaves the device at its reset values in BOOT,
held while its ground lasts, and records its cause in PD_KEEP, which it does not reset; the counters start at 0 only after a keeper
supply too low; a SYSTEM reset outside BOOT and IDLE without FORCE answers 2.
The start (17 R454, R462, R465–R467, Table 17.6): a SYSTEM reset that is accepted, a release of PORST_N, the return of rails or of the
clock start the boot sequence on a device at its reset values, once nothing else holds it; a flash of a size that is not supported halts it at step 1; the domain of a DRAM channel whose rail is
out of range is off from the start (log 98). -/
def Obligations.ResetsRecorded : Prop :=
  (∀ (s t : State), s.dev.dstate ≠ .keep →
    t = { s with
      dev := s.dev.atReset, mem := {}
      nv := { s.nv with flash := if s.dev.mgmt.saving.isSome then s.nv.flash.putSlot s.nv.flash.saveSlot [] else s.nv.flash } } →
    Gives .porstAssert s { t with
      dev := { t.dev with pwr := { t.dev.pwr with porst := true } }, tap := t.tap.atPorst true } ∧
    (∀ k : Keep, k = { s.nv.keep with cause := orBit s.nv.keep.cause 3 } →
      Gives .clockFailure s { t with
        dev := { t.dev with pwr := { t.dev.pwr with noClock := true } }, nv := { t.nv with keep := k } }) ∧
    (∀ (r : Nat) (k : Keep), r ∈ [0, 1, 2, 5, 6] → k = { s.nv.keep with
        cause := orBit s.nv.keep.cause 1, rail := orBit s.nv.keep.rail r, supply := orBit s.nv.keep.supply r,
        onVkeep := s.nv.keep.onVkeep || r == 5 } →
      Gives (.supplyFault r) s { t with dev := t.dev.rail r false, nv := { t.nv with keep := k } }) ∧
    Gives .mainPowerLoss s { t with
      dev := { t.dev with dstate := .keep, regs := [(R.PWR_SUPPLY_STATUS.addr, 0)] }
      nv := { t.nv with keep := { s.nv.keep with onVkeep := true } } }) ∧
  (∀ s : State, s.dev.dstate = .keep → Gives .clockFailure s s ∧ ∀ r : Nat, r ∈ [0, 1, 2, 5, 6] → Gives (.supplyFault r) s s) ∧
  (∀ d : Dev, d.atReset.dstate = .boot ∧ d.atReset.level = ({} : Dev).level ∧ d.atReset.job = {} ∧ d.atReset.mgmt = {} ∧
    d.atReset.pwr.mgmtStop = false ∧ (∀ a : Nat, a ≠ R.PWR_SUPPLY_STATUS.addr → d.atReset.regs.find? a = none)) ∧
  (∀ s : State,
    (s.nv.keep.onVkeep = true →
      Gives .keeperSupplyLow s { s with nv := { s.nv with keep := { s.nv.keep with pwrFail := true, low := true } } }) ∧
    (s.nv.keep.onVkeep = false → Gives .keeperSupplyLow s s) ∧
    (s.nv.keep.low = true → Gives .keeperPowerUp s { s with nv := { s.nv with keep := { s.nv.keep with
      sec := 0, sub := 0, frac := 0, ret := [], low := false, lost := true, cause := orBit s.nv.keep.cause 4 } } }) ∧
    (s.nv.keep.low = false → Gives .keeperPowerUp s s)) ∧
  (∀ (s : State) (e : BootEnv), s.dev.awake = true → (s.dev.dstate = .armed ∨ s.dev.dstate = .run) →
    Runs (.system false e) s (s.dev.set R.PWR_RST_RESULT 2)) ∧
  (∀ (s : State) (e : BootEnv), s.dev.awake = true → (s.dev.dstate = .boot ∨ s.dev.dstate = .idle) →
    Gives (.system false e) s (startUp e (deviceReset { s with
      nv := { s.nv with keep := { s.nv.keep with cause := orBit s.nv.keep.cause 2 } } }))) ∧
  (∀ (s : State) (e : BootEnv), s.dev.awake = true → Gives (.system true e) s (startUp e (deviceReset { s with
      nv := { s.nv with keep := { s.nv.keep with cause := orBit s.nv.keep.cause 2 } } }))) ∧
  (∀ (s : State) (e : BootEnv), s.dev.dstate = .boot → s.dev.pwr.porst = true →
    Gives (.porstRelease e) s (startUp e { s with
      dev := { s.dev with pwr := { s.dev.pwr with porst := false } }, tap := s.tap.atPorst false
      nv := { s.nv with keep := { s.nv.keep with cause := orBit s.nv.keep.cause 0 } } })) ∧
  (∀ (s : State) (e : BootEnv), s.dev.pwr.porst = false → s.dev.dstate ≠ .boot → s.dev.dstate ≠ .keep →
    Gives (.porstRelease e) s { s with tap := s.tap.atPorst false }) ∧
  (∀ (s : State) (e : BootEnv) (d : Dev) (v : NonVol), d = s.dev.set R.PWR_SUPPLY_STATUS 0x7F →
    v = { s.nv with keep := { s.nv.keep with onVkeep := false } } →
    (s.dev.dstate = .keep ∨ s.dev.mainRails = false →
      Gives (.railsBackInRange e) s (startUp e { s with dev := { d with dstate := .boot }, nv := v })) ∧
    (s.dev.dstate ≠ .keep → s.dev.mainRails = true → Gives (.railsBackInRange e) s { s with dev := d, nv := v })) ∧
  (∀ (s : State) (e : BootEnv),
    (s.dev.pwr.noClock = true → Gives (.sysclkInRestored e) s (startUp e { s with
      dev := { s.dev with pwr := { s.dev.pwr with noClock := false } } })) ∧
    (s.dev.pwr.noClock = false → Gives (.sysclkInRestored e) s s)) ∧
  (∀ (s : State) (e : BootEnv) (d r : Dev), d = { s.dev.atReset with dstate := .boot } → r = d.railDomains →
    (d.awake = false → startUp e s = s) ∧
    (d.awake = true → (e.flash < 8388608 ∨ 67108864 < e.flash) → startUp e s = { s with
      dev := ((r.set R.DEV_STATE_BOOT_STEP 1).set R.DEV_BOOT_ERR (1 + 256 * 0x10)).raise Ev.BOOT_HALT (1 + 256 * 0x10) })) ∧
  (∀ d : Dev, (d.railIn 4 = true → d.railIn 5 = true → d.railDomains = d) ∧
    (∀ c, c = 4 ∨ c = 5 → d.railIn c = false → d.railDomains.domOn c = false))

/-- The levels of VRDn and LINE_HOLD_REQ (17 R470, 20 R506; the model's one bit of VIO stands for both its bounds, log 104): with VIO in range they
are low from PORST_ASSERT on, VRDn takes the inactive level of its POL from the store step of a boot on, and past BOOT it is active while
VRD_STATUS.ACTIVE is set and LINE_HOLD_REQ while LAS_STATUS.HOLD is; without VIO nothing drives them, and their pull-downs keep them low. -/
def Obligations.PinLevels : Prop :=
  (∀ (s t : State) (o : Nat), s.dev.vioUp = true → exec .porstAssert s = .next t →
    t.dev.vrdDrive o = some false ∧ t.dev.holdDrive = some false) ∧
  (∀ (s t : State) (o : Nat), (exec .mainPowerLoss s = .next t ∨ s.dev.dstate ≠ .keep ∧ exec (.supplyFault 6) s = .next t) →
    t.dev.vrdDrive o = none ∧ t.dev.holdDrive = none ∧ t.dev.vrdPin o = false ∧ t.dev.holdPin = false) ∧
  (∀ (d : Dev) (o : Nat), d.vioUp = true → d.awake = true →
    (d.dstate = .boot → d.get R.DEV_STATE_BOOT_STEP < 5 → d.vrdDrive o = some false ∧ d.holdDrive = some false) ∧
    (d.dstate = .boot → 5 ≤ d.get R.DEV_STATE_BOOT_STEP → d.vrdDrive o = some (d.is (R.VRD_CFG_POL o))) ∧
    (d.dstate ≠ .boot → d.dstate ≠ .keep → d.holdDrive = some (d.is R.LAS_STATUS_HOLD) ∧
      d.vrdDrive o = some (d.is (R.VRD_STATUS_ACTIVE o) != d.is (R.VRD_CFG_POL o))))

/-! ## Calibration, self-test, update, test port (18–20) -/

/-- CAL_ADC, CAL_DONE and one converter (18 R476, R477, R480, R481): a command while one runs answers 1 and sets OVR, an empty mask 3,
PD_ANA off 4; otherwise it starts; without a run CAL_DONE changes nothing; a converter whose new trims fit and whose residuals lie
within their limits takes OFS − m0 and GAIN less its error in LSBs, by the division of R476; one that fails keeps its trims, its CAL_LAST is 6 and
CAL_RESIDUAL is raised.
BANDGAP_CHECK, DIE_TEMP_CHANGE (18 R474, R481; 20 R503): a difference beyond 0.5 % sets DRIFT and raises BANDGAP_DRIFT once; at 105 °C
and above DIE_TEMP_HIGH is raised once, below 100 °C DIE_TEMP_NORMAL once; CAL_DUE is raised once per converter in use, the spare one among them where it serves, whose temperature
moved by more than CAL_TEMP_DELTA. -/
def Obligations.Calibrates : Prop :=
  (∀ s : State, Up s →
    (s.dev.is R.CAL_RESULT_BUSY = true → Runs .calAdc s ((s.dev.set R.CAL_RESULT_CODE 1).setB R.CAL_RESULT_OVR true)) ∧
    (s.dev.is R.CAL_RESULT_BUSY = false → s.dev.get R.CAL_ARG_ADC_MASK = 0 → Runs .calAdc s (s.dev.set R.CAL_RESULT_CODE 3)) ∧
    (s.dev.is R.CAL_RESULT_BUSY = false → s.dev.get R.CAL_ARG_ADC_MASK ≠ 0 →
      (s.dev.domOn 8 = false → Runs .calAdc s (s.dev.set R.CAL_RESULT_CODE 4)) ∧
      (s.dev.domOn 8 = true → Runs .calAdc s
        (({ s.dev with cal := { s.dev.cal with run := some (s.dev.get R.CAL_ARG_ADC_MASK) } }.set R.CAL_RESULT_CODE 0).setB
          R.CAL_RESULT_BUSY true)))) ∧
  (∀ (s : State) (l : List AdcMeas), Up s → s.dev.cal.run = none → Runs (.calDone l) s s.dev) ∧
  (∀ (s : State) (l : List AdcMeas) (m : Nat) (x : AdcRun) (d : Dev) (v : Nat), Up s → s.dev.cal.run = some m →
    x = s.dev.calibrate m l → x.d.cal.shown = [] →
    (({ x.d with cal := { x.d.cal with run := none, shown := [] } }.set R.CAL_RESULT_CODE x.code).setB R.CAL_RESULT_BUSY
      false).calDetail x.done x.code = (v, d) → Runs (.calDone l) s (d.raise Ev.CAL_DONE v).encReview) ∧
  (∀ (d e : Dev) (k : Nat) (m : AdcMeas) (o g e1 : Int), k < 9 → o = d.getS (R.ADC_TRIM_OFS k) - m.m0 →
    e1 = (m.mp - m.mn - 81920) * 16384 + 40960 →
    g = d.getS (R.ADC_TRIM_GAIN k) - (if 0 ≤ e1 then e1 / 81920 else -(-e1 / 81920)) →
    ((-512 ≤ o ∧ o ≤ 511 ∧ -512 ≤ g ∧ g ≤ 511 ∧ m.r0.natAbs ≤ d.get R.CAL_RES_LIM_OFS ∧
        (m.rp - m.r0 - 40960).natAbs ≤ d.get R.CAL_RES_LIM_GAIN) →
      e = ((d.set (R.ADC_CAL_TEMP k) (d.get R.CAL_TEMP)).bump (R.ADC_CAL_CNT k) 1).set (R.ADC_CAL_LAST k) 0 →
      d.adcTrim k m = (true, ({ e with cal := { e.cal with due := e.cal.due.filter (fun x => x != k) } }.set (R.ADC_TRIM_OFS k)
        (ofSigned 10 o)).set (R.ADC_TRIM_GAIN k) (ofSigned 10 g))) ∧
    ((o < -512 ∨ 511 < o ∨ g < -512 ∨ 511 < g ∨ d.get R.CAL_RES_LIM_OFS < m.r0.natAbs ∨
        d.get R.CAL_RES_LIM_GAIN < (m.rp - m.r0 - 40960).natAbs) →
      e = ((d.set (R.ADC_CAL_TEMP k) (d.get R.CAL_TEMP)).bump (R.ADC_CAL_CNT k) 1).set (R.ADC_CAL_LAST k) 6 →
      d.adcTrim k m = (false, { e with cal := { e.cal with due := e.cal.due.filter (fun x => x != k) } }.raise Ev.CAL_RESIDUAL
        (k + 2 ^ 16 * ofSigned 16 m.r0 + 2 ^ 32 * ofSigned 16 (m.rp - m.r0 - 40960))))) ∧
  (∀ (s : State) (x : Int) (d : Dev), Up s → d = s.dev.putSigned R.CAL_BG_DIFF x →
    (5000 < x.natAbs → d.is R.CAL_BG_DRIFT = false → Runs (.bandgapCheck x) s
      ((d.setB R.CAL_BG_DRIFT true).raise Ev.BANDGAP_DRIFT (d.get R.CAL_BG_DIFF))) ∧
    (x.natAbs ≤ 5000 ∨ d.is R.CAL_BG_DRIFT = true → Runs (.bandgapCheck x) s d)) ∧
  (∀ (s : State) (t : Int) (d e : Dev), Up s → d = s.dev.putSigned R.CAL_TEMP t →
    (1680 ≤ t → d.cal.hot = false → e = { d with cal := { d.cal with hot := true } }.raise Ev.DIE_TEMP_HIGH (d.get R.CAL_TEMP) →
      Runs (.dieTempChange t) s ((List.range 9).foldl Dev.calDue e)) ∧
    (t < 1600 → d.cal.hot = true → e = { d with cal := { d.cal with hot := false } }.raise Ev.DIE_TEMP_NORMAL (d.get R.CAL_TEMP) →
      Runs (.dieTempChange t) s ((List.range 9).foldl Dev.calDue e)) ∧
    ((t < 1680 ∧ d.cal.hot = false ∨ 1600 ≤ t ∧ d.cal.hot = true) →
      Runs (.dieTempChange t) s ((List.range 9).foldl Dev.calDue d))) ∧
  (∀ (d : Dev) (k : Nat) (t : Int), t = d.getS R.CAL_TEMP - d.getS (R.ADC_CAL_TEMP k) →
    (d.adcServes k = true → k ∉ d.cal.due → 16 * d.get R.CAL_TEMP_DELTA < t.natAbs →
      d.calDue k = { d with cal := { d.cal with due := k :: d.cal.due } }.raise Ev.CAL_DUE (k + 65536 * ofSigned 16 t)) ∧
    (d.adcServes k = false ∨ k ∈ d.cal.due ∨ t.natAbs ≤ 16 * d.get R.CAL_TEMP_DELTA → d.calDue k = d)) ∧
  (∀ d : Dev, (∀ k, k < 8 → d.adcServes k = d.adcInUse k) ∧ (∀ k, 8 < k → d.adcServes k = false))

/-- BIST, CAL_ABORT, BIST_DONE (18 R485, R486): a request is answered at once, in the order BUSY, BAD_ARG, DOMAIN, STATE and the BUSY
conditions of Table 18.3, or runs; an abort marks the run; the end of a run that handled all its words answers 0 with none failing, else 8, even where an abort
waits; one that is aborted before, by the command or by live traffic on its target, answers 7; BIST_DONE names test, result and failing words. -/
def Obligations.SelfTests : Prop :=
  (∀ (s : State) (t g a n : Nat), Up s → t = s.dev.get R.CAL_ARG_TEST → g = s.dev.get R.CAL_ARG_TARGET →
    s.dev.bistRange t g = (a, n) →
    (s.dev.is R.BIST_RESULT_BUSY = true → Runs .bist s ((s.dev.set R.BIST_RESULT_CODE 1).setB R.BIST_RESULT_OVR true)) ∧
    (s.dev.is R.BIST_RESULT_BUSY = false →
      (s.dev.bistArgs t g a n = false → Runs .bist s (s.dev.set R.BIST_RESULT_CODE 3)) ∧
      (s.dev.bistArgs t g a n = true →
        (s.dev.domOn (bistDomain t g) = false → Runs .bist s (s.dev.set R.BIST_RESULT_CODE 4)) ∧
        (s.dev.domOn (bistDomain t g) = true →
          (t = 2 → s.dev.get (R.DRC_STATUS_STATE g) ≠ 3 → Runs .bist s (s.dev.set R.BIST_RESULT_CODE 2)) ∧
          ((t ≠ 2 ∨ s.dev.get (R.DRC_STATUS_STATE g) = 3) →
            (s.dev.bistBusy t g = true → Runs .bist s (s.dev.set R.BIST_RESULT_CODE 1)) ∧
            (s.dev.bistBusy t g = false → Runs .bist s
              ((({ s.dev with cal := { s.dev.cal with bist := some ⟨t, g, a, n, false⟩ } }.set R.BIST_RESULT_CODE 0).setB
                R.BIST_RESULT_BUSY true).set64 R.BIST_POS_LO a))))))) ∧
  (∀ s : State, Up s → (s.dev.cal.bist = none → Runs .calAbort s { s.dev with cal := { s.dev.cal with bist := none } }) ∧
    (∀ b : BistRun, s.dev.cal.bist = some b →
      Runs .calAbort s { s.dev with cal := { s.dev.cal with bist := some { b with abort := true } } })) ∧
  (∀ (s : State) (h f w : Nat), Up s → s.dev.cal.bist = none → Runs (.bistDone h f w) s s.dev) ∧
  (∀ (s : State) (h f w : Nat) (b : BistRun) (c : Nat) (d : Dev), Up s → s.dev.cal.bist = some b → b.count ≤ h →
    (f = 0 ∧ c = 0 ∨ 0 < f ∧ c = 8) → d = s.dev.bistReport b.test b.target f w →
    Runs (.bistDone h f w) s ((((({ d with cal := { d.cal with bist := none } }.set R.BIST_RESULT_CODE c).setB R.BIST_RESULT_BUSY
      false).set64 R.BIST_POS_LO (b.start + b.count)).raise Ev.BIST_DONE (b.test + 256 * c + 65536 * (f % 2 ^ 32))))) ∧
  (∀ (s : State) (h : Nat) (b : BistRun), Up s → s.dev.cal.bist = some b → h < b.count →
    (b.abort = true ∨ s.dev.bistLive b.test b.target = true ∨ b.test = 2 ∧ s.dev.chIn b.target = false) →
    Runs (.bistDone h 0 0) s ((((({ s.dev with cal := { s.dev.cal with bist := none } }.set R.BIST_RESULT_CODE 7).setB
      R.BIST_RESULT_BUSY false).set64 R.BIST_POS_LO (b.start + h)).raise Ev.BIST_DONE (b.test + 256 * 7))))

/-- UPD_BEGIN, UPD_ERASE_DONE, UPD_BLOCK (19 R488, R491–R493): while a command runs another only sets OVR; while a store command holds
the flash BUSY; in a state it does not leave STATE; BEGIN of 1,024 to 3,145,728 bytes erases staging; a block at UPD_NEXT is appended,
one elsewhere answers 4, one of a wrong length 3, one past the end 5, a flash error 6.
UPD_VERIFY, UPD_VERIFIED, UPD_ACTIVATE, UPD_CANCEL (19 R494, R495): VERIFY checks staging in the order of Table 19.4; the first
failing check and its part leave it INVALID, none leaves it VERIFIED with its versions; ACTIVATE makes it PENDING with a journal record;
CANCEL of a PENDING one takes the record back, of another empties the state. -/
def Obligations.BundleUpdates : Prop :=
  (∀ (s : State) (e : Bool), Up s →
    (s.dev.is R.UPD_RESULT_BUSY = true → ∀ d : Dev, d = s.dev.setB R.UPD_RESULT_OVR true →
      Runs .updBegin s d ∧ Runs (.updBlock e) s d ∧ Runs .updVerify s d ∧ Runs (.updActivate e) s d ∧ Runs (.updCancel e) s d) ∧
    (s.dev.is R.UPD_RESULT_BUSY = false → s.dev.is R.DEV_STORE_RESULT_BUSY = true → ∀ d : Dev, d = s.dev.set R.UPD_RESULT_CODE 1 →
      Runs .updBegin s d ∧ Runs (.updBlock e) s d ∧ Runs .updVerify s d ∧ Runs (.updActivate e) s d) ∧
    (s.dev.is R.UPD_RESULT_BUSY = false → s.dev.is R.DEV_STORE_RESULT_BUSY = false → ∀ d : Dev, d = s.dev.set R.UPD_RESULT_CODE 2 →
      (s.dev.get R.UPD_STATUS_STATE ∈ [1, 3, 6] → Runs .updBegin s d) ∧
      (s.dev.get R.UPD_STATUS_STATE ≠ 2 → Runs (.updBlock e) s d ∧ Runs .updVerify s d) ∧
      (s.dev.get R.UPD_STATUS_STATE ≠ 4 → Runs (.updActivate e) s d) ∧
      (s.dev.get R.UPD_STATUS_STATE ∈ [1, 3] → Runs (.updCancel e) s d))) ∧
  (∀ (s : State) (n : Nat) (d : Dev), Up s → s.dev.is R.UPD_RESULT_BUSY = false → s.dev.is R.DEV_STORE_RESULT_BUSY = false →
    s.dev.get R.UPD_STATUS_STATE ∈ [0, 2, 4, 5, 7] → n = s.dev.get R.UPD_TOTAL →
    d = (s.dev.set R.UPD_RESULT_CODE 0).wrap R.UPD_RESULT_SEQ 1 →
    (n < 1024 ∨ 3145728 < n → Runs .updBegin s (s.dev.set R.UPD_RESULT_CODE 3)) ∧
    (1024 ≤ n → n ≤ 3145728 → Gives .updBegin s { s with
      dev := ((d.setB R.UPD_RESULT_BUSY true).set R.UPD_STATUS_STATE 1).set R.UPD_NEXT 0
      nv := { s.nv with flash := { s.nv.flash with staging := [] } } })) ∧
  (∀ s : State, Up s →
    (s.dev.get R.UPD_STATUS_STATE = 1 →
      Runs (.updEraseDone true) s (((s.dev.setB R.UPD_RESULT_BUSY false).set R.UPD_RESULT_CODE 0).set R.UPD_STATUS_STATE 2) ∧
      Runs (.updEraseDone false) s (((s.dev.setB R.UPD_RESULT_BUSY false).set R.UPD_RESULT_CODE 6).set R.UPD_STATUS_STATE 0)) ∧
    (s.dev.get R.UPD_STATUS_STATE ≠ 1 → ∀ b : Bool, Runs (.updEraseDone b) s s.dev)) ∧
  (∀ (s : State) (o n : Nat) (l : List Byte) (d : Dev), Up s → s.dev.is R.UPD_RESULT_BUSY = false →
    s.dev.is R.DEV_STORE_RESULT_BUSY = false → s.dev.get R.UPD_STATUS_STATE = 2 → o = s.dev.get R.UPD_BLK_OFS →
    l = s.dev.updBuf (s.dev.get R.UPD_BLK_LEN) → n = l.length → d = (s.dev.set R.UPD_RESULT_CODE 0).wrap R.UPD_RESULT_SEQ 1 →
    (o ≠ s.dev.get R.UPD_NEXT → ∀ e : Bool, Runs (.updBlock e) s (s.dev.set R.UPD_RESULT_CODE 4)) ∧
    (o = s.dev.get R.UPD_NEXT → (n < 4 ∨ 4096 < n ∨ n % 4 ≠ 0 ∧ o + n ≠ s.dev.get R.UPD_TOTAL) → ∀ e : Bool,
      Runs (.updBlock e) s (s.dev.set R.UPD_RESULT_CODE 3)) ∧
    (o = s.dev.get R.UPD_NEXT → 4 ≤ n → n ≤ 4096 → n % 4 = 0 → s.dev.get R.UPD_TOTAL < o + n → ∀ e : Bool,
      Runs (.updBlock e) s (s.dev.set R.UPD_RESULT_CODE 5)) ∧
    (o = s.dev.get R.UPD_NEXT → 4 ≤ n → n ≤ 4096 → (n % 4 = 0 ∨ o + n = s.dev.get R.UPD_TOTAL) → o + n ≤ s.dev.get R.UPD_TOTAL →
      Gives (.updBlock false) s { s with
        dev := d.set R.UPD_NEXT (o + n), nv := { s.nv with flash := { s.nv.flash with staging := s.nv.flash.staging ++ l } } } ∧
      Runs (.updBlock true) s ((d.set R.UPD_RESULT_CODE 6).raise Ev.UPD_FLASH (0x310000 + o)))) ∧
  (∀ (s : State) (d : Dev), Up s → s.dev.is R.UPD_RESULT_BUSY = false → s.dev.is R.DEV_STORE_RESULT_BUSY = false →
    d = (s.dev.set R.UPD_RESULT_CODE 0).wrap R.UPD_RESULT_SEQ 1 →
    (s.dev.get R.UPD_STATUS_STATE = 2 →
      Runs .updVerify s ((d.setB R.UPD_RESULT_BUSY true).set R.UPD_STATUS_STATE 3)) ∧
    (s.dev.get R.UPD_STATUS_STATE = 4 → ∀ l : List Byte, l = s.nv.flash.staging →
      Gives (.updActivate false) s { s with
        dev := d.set R.UPD_STATUS_STATE 6
        nv := { s.nv with flash := { s.nv.flash with
          journal := { pending := some (leAt l 8 4, leAt l 0xC 4, sha256 (l.take (192 + 48 * leAt l 0x15 1))) } } } }) ∧
    (s.dev.get R.UPD_STATUS_STATE = 6 →
      Gives (.updCancel false) s { s with
        dev := d.set R.UPD_STATUS_STATE 4, nv := { s.nv with flash := { s.nv.flash with journal := {} } } } ∧
      Runs (.updCancel true) s (d.set R.UPD_RESULT_CODE 6)) ∧
    (s.dev.get R.UPD_STATUS_STATE ∈ [2, 4, 5] → ∀ e : Bool, Runs (.updCancel e) s (d.set R.UPD_STATUS_STATE 0)) ∧
    (s.dev.get R.UPD_STATUS_STATE ∈ [0, 7] → ∀ e : Bool, Runs (.updCancel e) s d)) ∧
  (∀ (s : State) (l : List Byte) (d : Dev), Up s → l = s.nv.flash.staging → d = s.dev.setB R.UPD_RESULT_BUSY false →
    s.dev.get R.UPD_STATUS_STATE = 3 →
    ∀ o : Option (Nat × Nat), bundleCheck l (some (s.dev.get R.UPD_NEXT)) s.nv.fuses = o → Runs .updVerified s (match o with
      | some (c, p) => ((((d.set R.UPD_RESULT_CODE 7).set R.UPD_STATUS_STATE 5).set R.UPD_VERIFY_ERR_CHECK c).set R.UPD_VERIFY_ERR_PART
          p).raise Ev.UPD_VERIFY_FAIL (c + 256 * p)
      | none => ((((d.set R.UPD_RESULT_CODE 0).set R.UPD_STATUS_STATE 4).set R.UPD_STAGED_VER (leAt l 0xC 4)).set R.UPD_STAGED_SVN
          (leAt l 0x14 1)).raise Ev.UPD_VERIFIED (leAt l 0xC 4 + 2 ^ 32 * leAt l 0x14 1))) ∧
  (∀ s : State, Up s → s.dev.get R.UPD_STATUS_STATE ≠ 3 → Runs .updVerified s s.dev) ∧
  (∀ (l : List Byte) (c : Nat) (r : Option Nat), headerOk l = false → bundleCheck l r c = some (1, 0)) ∧
  (∀ (l : List Byte) (c n : Nat), headerOk l = true → n ≠ leAt l 8 4 → bundleCheck l (some n) c = some (2, 0)) ∧
  (∀ (l : List Byte) (c : Nat) (r : Option Nat),
    headerOk l = false ∨ partsOk l = false ∨ signatureOk l = false ∨ leAt l 0x14 1 < c → bundleCheck l r c ≠ none)

/-- TRST, EXTEST, IDCODE, SAMPLE_PRELOAD, CLAMP, HIGHZ, BYPASS (20 R511–R513): TRST_N low selects IDCODE, frees the pins and keeps every
later instruction without effect until it is high; EXTEST, CLAMP and HIGHZ take the pins only while PORST_N is low, EXTEST being BYPASS
otherwise; IDCODE shifts out 0x1261_823B, whose fields are version 1, part number 0x2618, manufacturer 0x11D and bit 0 = 1; a rising PORST_N returns the
pins to functional control; no instruction of the port touches the device. -/
def Obligations.TestPort : Prop :=
  (∀ s : State, Gives (.trst true) s { s with tap := { s.tap with
      ir := .idcode, dr := bitList 32 0x1261823B, hold := .functional, held := true } } ∧
    Gives (.trst false) s { s with tap := { s.tap with held := false } }) ∧
  (∀ (s : State) (p l : List Bool), s.tap.held = true → Gives (.extest p l) s s ∧ Gives .idcode s s ∧
    Gives (.samplePreload p l) s s ∧ Gives .clamp s s ∧ Gives .highz s s ∧ Gives .bypass s s) ∧
  (∀ (s : State) (p l : List Bool) (t : Tap), s.tap.held = false → t = s.tap →
    Gives .idcode s { s with tap := { t with ir := .idcode, dr := bitList 32 0x1261823B, hold := .functional } } ∧
    Gives (.samplePreload p l) s { s with tap := { t with ir := .sample, dr := p, cells := l, hold := .functional } } ∧
    Gives .bypass s { s with tap := { t with ir := .bypass, dr := [false], hold := .functional } } ∧
    (s.dev.pwr.porst = true →
      Gives (.extest p l) s { s with tap := { t with ir := .extest, dr := p, cells := l, hold := .boundary } } ∧
      Gives .clamp s { s with tap := { t with ir := .clamp, dr := [false], hold := .boundary } } ∧
      Gives .highz s { s with tap := { t with ir := .highz, dr := [false], hold := .floating } }) ∧
    (s.dev.pwr.porst = false →
      Gives (.extest p l) s { s with tap := { t with ir := .extest, dr := [false], hold := .functional } } ∧
      Gives .clamp s { s with tap := { t with ir := .clamp, dr := [false], hold := .functional } } ∧
      Gives .highz s { s with tap := { t with ir := .highz, dr := [false], hold := .functional } })) ∧
  (0x1261823B / 2 ^ 28 = 0x1 ∧ 0x1261823B / 2 ^ 12 % 2 ^ 16 = 0x2618 ∧ 0x1261823B / 2 % 2 ^ 11 = 0x11D ∧ 0x1261823B % 2 = 1) ∧
  (∀ (s t : State) (e : BootEnv), exec (.porstRelease e) s = .next t → t.tap.hold = .functional)
end

