-- ==== Sys2Proof/Laws/Fabric.lean ====
section
/-! SUPPORT. Reception over the fabric, once: what a message does that this device takes. -/

namespace Sys2Proof.Machine

/-- Passing a flood on changes what was sent and nothing else. -/
theorem Dev.forward_sent (d : Dev) (n : Nat) (b : List Byte) : ∃ l, d.forward n b = { d with sent := l } := by
  have key : ∀ (ps : List Nat) (x : Dev) (t : Nat) (y : List Byte),
      ∃ l, forEach ps (fun (d : Dev) p => d.emit (.fab p t y)) x = { x with sent := l } := by
    intro ps
    induction ps with
    | nil => intro x t y; exact ⟨x.sent, rfl⟩
    | cons p ps ih => intro x t y; exact (ih (x.emit (.fab p t y)) t y).imp fun l h => h
  unfold Dev.forward
  dsimp only
  split
  · exact ⟨d.sent, rfl⟩
  · exact key _ _ _ _

/-- The device that takes a message differs from the one it reaches in what it sent and in the flood it has seen. -/
theorem forMe_device {d : Dev} {n : Nat} {f : HFrame} {t : Nat} {h : FabHdr} {pl : List Byte} {e : Dev} (hf : ForMe d n f t h pl e) :
    ∃ q l, e = { d with fab := { d.fab with seqIn := q }, sent := l } := by
  obtain ⟨-, -, -, -, -, -, -, -, ⟨-, rfl⟩ | ⟨-, -, rfl⟩⟩ := hf
  · exact ⟨e.fab.seqIn, e.sent, rfl⟩
  · obtain ⟨l, hl⟩ := Dev.forward_sent { d with fab := { d.fab with seqIn := (h.id, h.seq) :: d.fab.seqIn.filter (fun e => e.1 != h.id) } } n
      (if t = 7 then passTime n d f.body else f.body)
    exact ⟨_, l, hl⟩

/-- A message that this device takes is acted on. -/
theorem Dev.fabIn_forMe {d : Dev} {n : Nat} {f : HFrame} {t : Nat} {h : FabHdr} {pl : List Byte} {e : Dev} {pass : Dev → List Byte → List Byte}
    (act : Dev → FabHdr → List Byte → Dev) (hf : ForMe d n f t h pl e)
    (hp : ∀ q, pass { d with fab := { d.fab with seqIn := q } } f.body = if t = 7 then passTime n d f.body else f.body) :
    d.fabIn n f t pass act = act e h pl := by
  obtain ⟨h1, h2, h3, h4, rfl, rfl, h5, h6, h7⟩ := hf
  have a : ¬ ((parseFab f.body).type ≠ t ∨ (d.fmember n = false ∧ t ≠ 1 ∧ t ≠ 14)) := by
    rintro (b | ⟨b, b1, b2⟩)
    · exact b h5
    · rcases h6 with c | c | c
      · rw [b] at c; cases c
      · exact b1 c
      · exact b2 c
  simp only [Dev.fabIn, h1, h2, h3, h4, bne_self_eq_false, Bool.not_true, Bool.or_self, Bool.false_eq_true, if_false, if_neg a]
  rcases h7 with ⟨b, rfl⟩ | ⟨b, c, rfl⟩
  · by_cases hx : (parseFab f.body).dest = 0xFE
    · rw [if_pos hx]
    · rw [if_neg hx, if_neg (b.resolve_left hx).1, if_pos (b.resolve_left hx).2]
  · rw [if_neg (by rw [b]; decide), if_pos b, if_pos c]
    exact congrArg (fun x => act (Dev.forward _ n x) _ _) (hp _)

end Sys2Proof.Machine
end

