-- ==== Sys2Proof/Laws/Maps.lean ====
section
/-! SUPPORT. Sparse maps and registers: a read after a write to the same key gives the value written, a write leaves every other key
alone and keeps the keys in rising order. -/

namespace Sys2Proof.Machine

/-! ## Sparse maps -/

@[simp] theorem SMap.find?_nil {α : Type} (k : Nat) : SMap.find? ([] : SMap α) k = none := rfl

/-- A read after a write to the same key. -/
@[simp] theorem SMap.find?_put_self {α : Type} (m : SMap α) (k : Nat) (v : α) : (m.put k v).find? k = some v := by
  induction m with
  | nil => simp [SMap.put, SMap.find?]
  | cons p r ih =>
    obtain ⟨a, w⟩ := p
    simp only [SMap.put]
    split
    · simp [SMap.find?]
    · split
      · simp [SMap.find?]
      · simp [SMap.find?, *]

/-- A write leaves every other key alone. -/
theorem SMap.find?_put_of_ne {α : Type} (m : SMap α) {k j : Nat} (v : α) (h : j ≠ k) : (m.put k v).find? j = m.find? j := by
  induction m with
  | nil => simp only [SMap.put, SMap.find?]; split <;> simp
  | cons p r ih =>
    obtain ⟨a, w⟩ := p
    simp only [SMap.put]
    split
    · simp only [SMap.find?]
      split
      · have : j < a := by omega
        simp [this]
      · simp
    · split
      · subst_vars
        simp [SMap.find?, h]
      · simp only [SMap.find?, ih]

@[simp] theorem SMap.get_put_self {α : Type} (m : SMap α) (dflt v : α) (k : Nat) : (m.put k v).get dflt k = v := by simp [SMap.get]

theorem SMap.get_put_of_ne {α : Type} (m : SMap α) (dflt v : α) {k j : Nat} (h : j ≠ k) :
    (m.put k v).get dflt j = m.get dflt j := by simp [SMap.get, SMap.find?_put_of_ne m v h]

/-! ## Registers -/

@[simp] theorem Dev.reg_setReg_self (d : Dev) (a : Nat) (v : Word) : (d.setReg a v).reg a = v := by simp [Dev.reg, Dev.setReg]

theorem Dev.reg_setReg_of_ne (d : Dev) {a b : Nat} (v : Word) (h : b ≠ a) : (d.setReg a v).reg b = d.reg b := by
  simp [Dev.reg, Dev.setReg, SMap.find?_put_of_ne _ _ h]

/-- A field write leaves the fields of other words alone. -/
theorem Dev.get_set_of_addr_ne (d : Dev) (f g : Fld) (v : Nat) (h : g.addr ≠ f.addr) : (d.set f v).get g = d.get g := by
  simp [Dev.get, Dev.set, Dev.reg_setReg_of_ne _ _ h]

/-! ## Fields that share a word -/

/-- A bit of a word after one of its fields is replaced. -/
theorem putBits_testBit (x lo w v i : Nat) :
    (putBits x lo w v).testBit i = if lo ≤ i ∧ i < lo + w then v.testBit (i - lo) else x.testBit i := by
  have e1 : x = 2 ^ (lo + w) * (x / 2 ^ (lo + w)) + (2 ^ lo * (x / 2 ^ lo % 2 ^ w) + x % 2 ^ lo) := by
    have a := Nat.div_add_mod x (2 ^ lo)
    have b := Nat.div_add_mod (x / 2 ^ lo) (2 ^ w)
    rw [Nat.div_div_eq_div_mul, ← Nat.pow_add] at b
    have c : 2 ^ lo * (2 ^ w * (x / 2 ^ (lo + w)) + x / 2 ^ lo % 2 ^ w) + x % 2 ^ lo = x := by rw [b, a]
    rw [Nat.mul_add, ← Nat.mul_assoc, ← Nat.pow_add] at c; omega
  have e2 : putBits x lo w v = 2 ^ (lo + w) * (x / 2 ^ (lo + w)) + (2 ^ lo * (v % 2 ^ w) + x % 2 ^ lo) := by
    have := e1
    simp only [putBits, bitsOf, Nat.shiftRight_eq_div_pow]
    rw [Nat.mul_comm (x / 2 ^ lo % 2 ^ w), Nat.mul_comm (v % 2 ^ w)]
    omega
  have hlt : x % 2 ^ lo < 2 ^ lo := Nat.mod_lt _ (Nat.two_pow_pos lo)
  have hv : v % 2 ^ w < 2 ^ w := Nat.mod_lt _ (Nat.two_pow_pos w)
  have hb : 2 ^ lo * (v % 2 ^ w) + x % 2 ^ lo < 2 ^ (lo + w) := by
    rw [Nat.pow_add]
    calc 2 ^ lo * (v % 2 ^ w) + x % 2 ^ lo < 2 ^ lo * (v % 2 ^ w) + 2 ^ lo := by omega
      _ = 2 ^ lo * (v % 2 ^ w + 1) := by rw [Nat.mul_add, Nat.mul_one]
      _ ≤ 2 ^ lo * 2 ^ w := Nat.mul_le_mul_left _ hv
  rw [e2, Nat.testBit_two_pow_mul_add _ hb, Nat.testBit_two_pow_mul_add _ hlt]
  by_cases h1 : i < lo + w <;> by_cases h2 : i < lo
  · simp [h1, h2, Nat.testBit_mod_two_pow, Nat.not_le.mpr h2]
  · have h3 : lo ≤ i := Nat.le_of_not_lt h2
    have h4 : i - lo < w := by omega
    simp [h1, h2, h3, Nat.testBit_mod_two_pow, h4]
  · omega
  · have h3 : lo + w ≤ i := Nat.le_of_not_lt h1
    simp [h1, Nat.testBit_div_two_pow, Nat.sub_add_cancel h3]

/-- A bit of a field. -/
theorem bitsOf_testBit (x lo w i : Nat) : (bitsOf x lo w).testBit i = (decide (i < w) && x.testBit (lo + i)) := by
  simp [bitsOf, Nat.testBit_mod_two_pow, Nat.testBit_shiftRight]

/-- A field of a word after it is replaced. -/
theorem bitsOf_putBits_self (x lo w v : Nat) : bitsOf (putBits x lo w v) lo w = v % 2 ^ w := by
  apply Nat.eq_of_testBit_eq; intro i
  rw [bitsOf_testBit, putBits_testBit, Nat.testBit_mod_two_pow]
  by_cases h : i < w <;> simp [h]

/-- A field of a word after another one is replaced. -/
theorem bitsOf_putBits_of_apart (x lo w v lo' w' : Nat) (h : lo' + w' ≤ lo ∨ lo + w ≤ lo') :
    bitsOf (putBits x lo w v) lo' w' = bitsOf x lo' w' := by
  apply Nat.eq_of_testBit_eq; intro i
  rw [bitsOf_testBit, bitsOf_testBit, putBits_testBit]
  by_cases hi : i < w'
  · rw [if_neg (by omega)]
  · simp [hi]

/-- A word whose field is replaced stays a word. -/
theorem putBits_lt (x lo w v n : Nat) (hx : x < 2 ^ n) (h : lo + w ≤ n) : putBits x lo w v < 2 ^ n := by
  apply Nat.lt_pow_two_of_testBit; intro i hi
  rw [putBits_testBit, if_neg (by omega)]
  exact Nat.testBit_lt_two_pow (Nat.lt_of_lt_of_le hx (Nat.pow_le_pow_right (by decide) hi))

/-- A field after it is written. -/
theorem Dev.get_set_self (d : Dev) (f : Fld) (v : Nat) (h : f.lo + f.w ≤ 32) : (d.set f v).get f = v % 2 ^ f.w := by
  have hl := putBits_lt _ f.lo f.w v 32 (d.reg f.addr).isLt h
  simp only [Dev.get, Dev.set, Dev.reg_setReg_self, BitVec.toNat_ofNat, Nat.mod_eq_of_lt hl, bitsOf_putBits_self]

/-- A field after another one that shares no bit with it is written. -/
theorem Dev.get_set_of_apart (d : Dev) (f g : Fld) (v : Nat) (hf : f.lo + f.w ≤ 32)
    (h : g.addr ≠ f.addr ∨ g.lo + g.w ≤ f.lo ∨ f.lo + f.w ≤ g.lo) : (d.set f v).get g = d.get g := by
  by_cases ha : g.addr = f.addr
  · have hl := putBits_lt _ f.lo f.w v 32 (d.reg f.addr).isLt hf
    simp only [Dev.get, Dev.set, ha, Dev.reg_setReg_self, BitVec.toNat_ofNat, Nat.mod_eq_of_lt hl]
    exact bitsOf_putBits_of_apart _ _ _ _ _ _ (h.resolve_left (fun n => n ha))
  · exact Dev.get_set_of_addr_ne d f g v ha

end Sys2Proof.Machine
end

