-- ==== Sys2Proof/Laws/PerInstr.lean ====
section
/-! SUPPORT. Per command: a command is well-formed exactly when its instance exists and its operands fit their fields. -/

namespace Sys2Proof.Laws.CommandForm

/-- What is stated of each command as syntax. -/
def Statement (c : Instr) : Prop := c.wellFormed = true ↔ c.instanceOk = true ∧ c.operandsFit = true

/-- Both checks together are well-formedness. -/
theorem holds (c : Instr) : Statement c := by simp [Statement, Instr.wellFormed]

theorem registerWrite (addr : Nat) (val : Word) : Statement (.registerWrite addr val) := holds _
theorem bar0UnalignedAccess (write : Bool) (addr : Nat) : Statement (.bar0UnalignedAccess write addr) := holds _
theorem lowerWordRead (addr : Nat) : Statement (.lowerWordRead addr) := holds _
theorem upperWordWrite (addr : Nat) (val : Word) : Statement (.upperWordWrite addr val) := holds _
theorem rocRead (addr : Nat) : Statement (.rocRead addr) := holds _
theorem bar2Write (ofs : Nat) (data : List Byte) : Statement (.bar2Write ofs data) := holds _
theorem bar4Write (ofs : Nat) (words : List Word) : Statement (.bar4Write ofs words) := holds _
theorem interval1ms : Statement .interval1ms := holds _
theorem positionUpdate (enc : Nat) (edge : EncEdge) : Statement (.positionUpdate enc edge) := holds _
theorem encoderCheckFail (enc cause : Nat) (phase : CheckPhase) : Statement (.encoderCheckFail enc cause phase) := holds _
theorem zRisingEdge (enc : Nat) : Statement (.zRisingEdge enc) := holds _
theorem posSrcChange (src : Nat) : Statement (.posSrcChange src) := holds _
theorem load : Statement .load := holds _
theorem restoreKeep : Statement .restoreKeep := holds _
theorem restoreLoad : Statement .restoreLoad := holds _
theorem predictionWindowEnd : Statement .predictionWindowEnd := holds _
theorem triggerEdge (input : Nat) (level : Bool) : Statement (.triggerEdge input level) := holds _
theorem triggerAccept (input : Nat) : Statement (.triggerAccept input) := holds _
theorem trigIssue (row : Nat) : Statement (.trigIssue row) := holds _
theorem inhibitAsserted : Statement .inhibitAsserted := holds _
theorem inhibitReleased : Statement .inhibitReleased := holds _
theorem wellDefine (well place base size : Nat) : Statement (.wellDefine well place base size) := holds _
theorem wellOpen (well : Nat) : Statement (.wellOpen well) := holds _
theorem wellSeal (well : Nat) : Statement (.wellSeal well) := holds _
theorem sealComplete : Statement .sealComplete := holds _
theorem wellRelease (well : Nat) : Statement (.wellRelease well) := holds _
theorem enqueue (well mode input gap line band : Nat) : Statement (.enqueue well mode input gap line band) := holds _
theorem abort (slot : Nat) : Statement (.abort slot) := holds _
theorem swap (form : Nat) (fabric : Bool) (arg line : Nat) : Statement (.swap form fabric arg line) := holds _
theorem swapCancel : Statement .swapCancel := holds _
theorem resume (line : Nat) : Statement (.resume line) := holds _
theorem resumeReady : Statement .resumeReady := holds _
theorem bandWalkDone (slot band : Nat) : Statement (.bandWalkDone slot band) := holds _
theorem engineStagingFreed (engine : Nat) : Statement (.engineStagingFreed engine) := holds _
theorem sliceLineDone (engine : Nat) (readErr : Option Nat) : Statement (.sliceLineDone engine readErr) := holds _
theorem cmprStart (c : Nat) : Statement (.cmprStart c) := holds _
theorem cmprAbort (c : Nat) : Statement (.cmprAbort c) := holds _
theorem compressorInput (c well ofs : Nat) (data : List Byte) : Statement (.compressorInput c well ofs data) := holds _
theorem compressorBlockDone (c : Nat) (verify : Option Nat) : Statement (.compressorBlockDone c verify) := holds _
theorem cmpValidate : Statement .cmpValidate := holds _
theorem cmpValidateDone : Statement .cmpValidateDone := holds _
theorem flush : Statement .flush := holds _
theorem glyphCommit : Statement .glyphCommit := holds _
theorem cntLoad : Statement .cntLoad := holds _
theorem recPush (len : Nat) : Statement (.recPush len) := holds _
theorem renderStart : Statement .renderStart := holds _
theorem renderCompareDone (memErr : List (Nat × Nat)) (differ : List (Nat × Nat)) : Statement (.renderCompareDone memErr differ) := holds _
theorem doseLineStart : Statement .doseLineStart := holds _
theorem doseBeat (railErr : Bool) (memErr : List Nat) : Statement (.doseBeat railErr memErr) := holds _
theorem spillWriteDone (cls : Nat) (poison : List Nat) : Statement (.spillWriteDone cls poison) := holds _
theorem refillDone (cls line : Nat) (busErr : Bool) : Statement (.refillDone cls line busErr) := holds _
theorem dosValidate : Statement .dosValidate := holds _
theorem dosValidateDone : Statement .dosValidateDone := holds _
theorem inject : Statement .inject := holds _
theorem correctionCopyDone : Statement .correctionCopyDone := holds _
theorem lasValidate : Statement .lasValidate := holds _
theorem lasValidateDone : Statement .lasValidateDone := holds _
theorem plan : Statement .plan := holds _
theorem fillIdentity : Statement .fillIdentity := holds _
theorem remapCopyDone : Statement .remapCopyDone := holds _
theorem lasHoldClr : Statement .lasHoldClr := holds _
theorem train (port : Nat) : Statement (.train port) := holds _
theorem eiEnter (port : Nat) : Statement (.eiEnter port) := holds _
theorem eiExit (port : Nat) : Statement (.eiExit port) := holds _
theorem loopStart (port : Nat) : Statement (.loopStart port) := holds _
theorem loopStop (port : Nat) : Statement (.loopStop port) := holds _
theorem loopTimeExpiry (port : Nat) : Statement (.loopTimeExpiry port) := holds _
theorem blockReceived (lane bits act : Nat) : Statement (.blockReceived lane bits act) := holds _
theorem amReceived (lane : Nat) (payload : List Byte) (inverted : Bool) : Statement (.amReceived lane payload inverted) := holds _
theorem trainBlockReceived (lane : Nat) (payload : List Byte) : Statement (.trainBlockReceived lane payload) := holds _
theorem pllLocked (port : Nat) : Statement (.pllLocked port) := holds _
theorem trainTimeout (port : Nat) : Statement (.trainTimeout port) := holds _
theorem laneLoss (lane cause : Nat) : Statement (.laneLoss lane cause) := holds _
theorem eiEnterReceived (port : Nat) : Statement (.eiEnterReceived port) := holds _
theorem signalDetected (lane : Nat) : Statement (.signalDetected lane) := holds _
theorem lineFrameSend (port : Nat) : Statement (.lineFrameSend port) := holds _
theorem credit (port : Nat) (block : List Byte) (errored : Bool) : Statement (.credit port block errored) := holds _
theorem status (port : Nat) (frame : HFrame) : Statement (.status port frame) := holds _
theorem statusTimeout (port : Nat) : Statement (.statusTimeout port) := holds _
theorem echo (port : Nat) (frame : HFrame) : Statement (.echo port frame) := holds _
theorem cmdRsp (port tPing : Nat) (frame : HFrame) : Statement (.cmdRsp port tPing frame) := holds _
theorem cmdTimeout (port : Nat) : Statement (.cmdTimeout port) := holds _
theorem ping (port : Nat) : Statement (.ping port) := holds _
theorem statusReq (port : Nat) : Statement (.statusReq port) := holds _
theorem elemCheck (port : Nat) : Statement (.elemCheck port) := holds _
theorem setParam (port : Nat) : Statement (.setParam port) := holds _
theorem getParam (port : Nat) : Statement (.getParam port) := holds _
theorem clearFault (port : Nat) : Statement (.clearFault port) := holds _
theorem elemCancel (port : Nat) : Statement (.elemCancel port) := holds _
theorem retrain (ch level : Nat) : Statement (.retrain ch level) := holds _
theorem trainDone (ch : Nat) (rd wr : List Nat) (rfm : Bool) : Statement (.trainDone ch rd wr rfm) := holds _
theorem freq (ch point : Nat) : Statement (.freq ch point) := holds _
theorem freqDone (ch : Nat) (eyes : List (Nat × Nat)) : Statement (.freqDone ch eyes) := holds _
theorem dramRequest (port place addr : Nat) (write : Bool) (len : Nat) (data : List Byte) : Statement (.dramRequest port place addr write len data) := holds _
theorem dramBurstComplete (ch id : Nat) : Statement (.dramBurstComplete ch id) := holds _
theorem burstLate (ch id : Nat) : Statement (.burstLate ch id) := holds _
theorem refreshInterval (ch sub rank : Nat) : Statement (.refreshInterval ch sub rank) := holds _
theorem mr4Poll (ch rank : Nat) (doubled : Bool) : Statement (.mr4Poll ch rank doubled) := holds _
theorem pageIdleExpiry (ch bank : Nat) : Statement (.pageIdleExpiry ch bank) := holds _
theorem powerDownTimer (ch rank : Nat) : Statement (.powerDownTimer ch rank) := holds _
theorem scrub : Statement .scrub := holds _
theorem fill : Statement .fill := holds _
theorem eccAbort : Statement .eccAbort := holds _
theorem scrubDone (handled : Nat) : Statement (.scrubDone handled) := holds _
theorem testWrite : Statement .testWrite := holds _
theorem testRead : Statement .testRead := holds _
theorem testGen : Statement .testGen := holds _
theorem dmaStart (n : Nat) (descErr : Bool) : Statement (.dmaStart n descErr) := holds _
theorem dmaPause (n : Nat) : Statement (.dmaPause n) := holds _
theorem dmaResume (n : Nat) : Statement (.dmaResume n) := holds _
theorem dmaStop (n : Nat) : Statement (.dmaStop n) := holds _
theorem dmaBurstIssue : Statement .dmaBurstIssue := holds _
theorem dmaBurstDone (n : Nat) (host : Option (List Byte)) (descErr : Bool) : Statement (.dmaBurstDone n host descErr) := holds _
theorem drainTimeout (domain : Nat) : Statement (.drainTimeout domain) := holds _
theorem crcLoad (u : Nat) : Statement (.crcLoad u) := holds _
theorem crcData (u : Nat) (val : Word) : Statement (.crcData u val) := holds _
theorem crcData8 (u : Nat) (val : Byte) : Statement (.crcData8 u val) := holds _
theorem itemDecided (item : Nat) : Statement (.itemDecided item) := holds _
theorem pulseEnd (output : Nat) : Statement (.pulseEnd output) := holds _
theorem eventLogWrite : Statement .eventLogWrite := holds _
theorem clear : Statement .clear := holds _
theorem restore : Statement .restore := holds _
theorem fpTrain (port : Nat) : Statement (.fpTrain port) := holds _
theorem fpLoopStart (port : Nat) : Statement (.fpLoopStart port) := holds _
theorem fpLoopStop (port : Nat) : Statement (.fpLoopStop port) := holds _
theorem fabCmdMerge (port : Nat) (far : List (Nat × Nat)) : Statement (.fabCmdMerge port far) := holds _
theorem fabCmdAnchor (addr : Nat) : Statement (.fabCmdAnchor addr) := holds _
theorem helloPeriod : Statement .helloPeriod := holds _
theorem hello (port : Nat) (frame : HFrame) : Statement (.hello port frame) := holds _
theorem helloTimeout (port : Nat) : Statement (.helloTimeout port) := holds _
theorem lsa (port : Nat) (frame : HFrame) : Statement (.lsa port frame) := holds _
theorem formTimeout : Statement .formTimeout := holds _
theorem assign (port : Nat) (frame : HFrame) : Statement (.assign port frame) := holds _
theorem report (port : Nat) (frame : HFrame) : Statement (.report port frame) := holds _
theorem ready (port : Nat) (frame : HFrame) : Statement (.ready port frame) := holds _
theorem posPeriod : Statement .posPeriod := holds _
theorem pos (port : Nat) (frame : HFrame) : Statement (.pos port frame) := holds _
theorem posTimeout : Statement .posTimeout := holds _
theorem timePeriod : Statement .timePeriod := holds _
theorem time (port : Nat) (frame : HFrame) : Statement (.time port frame) := holds _
theorem item (port : Nat) (frame : HFrame) : Statement (.item port frame) := holds _
theorem verdict (port : Nat) (frame : HFrame) : Statement (.verdict port frame) := holds _
theorem swapReq (port : Nat) (frame : HFrame) : Statement (.swapReq port frame) := holds _
theorem swapPrep (port : Nat) (frame : HFrame) : Statement (.swapPrep port frame) := holds _
theorem swapVote (port : Nat) (frame : HFrame) : Statement (.swapVote port frame) := holds _
theorem swapDecide (port : Nat) (frame : HFrame) : Statement (.swapDecide port frame) := holds _
theorem merge (port : Nat) (frame : HFrame) (far : List (Nat × Nat)) : Statement (.merge port frame far) := holds _
theorem anchor (port : Nat) (frame : HFrame) : Statement (.anchor port frame) := holds _
theorem set (servo : Bool) (sec ns : Nat) : Statement (.set servo sec ns) := holds _
theorem step (servo : Bool) (ofs : Int) : Statement (.step servo ofs) := holds _
theorem timAdjWrite (servo : Bool) (val : Word) : Statement (.timAdjWrite servo val) := holds _
theorem timNowRead : Statement .timNowRead := holds _
theorem keeperWrite : Statement .keeperWrite := holds _
theorem announce (dom src : Nat) (timescale : Bool) (gm prio1 quality prio2 steps : Nat) (utc : Int) (leap : Nat) : Statement (.announce dom src timescale gm prio1 quality prio2 steps utc leap) := holds _
theorem announceReceiptTimeout : Statement .announceReceiptTimeout := holds _
theorem sync (dom src seq : Nat) (twoStep : Bool) (origin : Nat) (corr : Int) : Statement (.sync dom src seq twoStep origin corr) := holds _
theorem followUp (dom src seq origin : Nat) (corr : Int) : Statement (.followUp dom src seq origin corr) := holds _
theorem delayReq (dom src seq : Nat) : Statement (.delayReq dom src seq) := holds _
theorem delayResp (dom src seq recv : Nat) (corr : Int) (req : Nat) : Statement (.delayResp dom src seq recv corr req) := holds _
theorem pdelayReq (dom src seq : Nat) : Statement (.pdelayReq dom src seq) := holds _
theorem pdelayResp (dom src seq : Nat) (twoStep : Bool) (recv : Nat) (corr : Int) (req : Nat) : Statement (.pdelayResp dom src seq twoStep recv corr req) := holds _
theorem pdelayRespFollowUp (dom src seq resp : Nat) (corr : Int) (req : Nat) : Statement (.pdelayRespFollowUp dom src seq resp corr req) := holds _
theorem stepRetry : Statement .stepRetry := holds _
theorem tsTxPop : Statement .tsTxPop := holds _
theorem phyPoll (r0 r1 r5 r10 : Nat) : Statement (.phyPoll r0 r1 r5 r10) := holds _
theorem netMdioAccess (val : Word) (phy : Nat) : Statement (.netMdioAccess val phy) := holds _
theorem arp (op sha spa tpa : Nat) : Statement (.arp op sha spa tpa) := holds _
theorem arpExpiry (ip : Nat) : Statement (.arpExpiry ip) := holds _
theorem icmpEcho (src dst : Nat) (data : List Byte) : Statement (.icmpEcho src dst data) := holds _
theorem sessionOpen (ip port seq : Nat) : Statement (.sessionOpen ip port seq) := holds _
theorem sessionClose (ip port session seq : Nat) : Statement (.sessionClose ip port session seq) := holds _
theorem sessionTimeout (session : Nat) : Statement (.sessionTimeout session) := holds _
theorem elevate (ip port session seq : Nat) (proof : List Byte) : Statement (.elevate ip port session seq proof) := holds _
theorem keepalive (ip port session seq : Nat) : Statement (.keepalive ip port session seq) := holds _
theorem read (ip port session seq count : Nat) (body : List Byte) (memErr : Option Nat) : Statement (.read ip port session seq count body memErr) := holds _
theorem write (ip port session seq count : Nat) (atomic : Bool) (body : List Byte) (memErr : Option Nat) : Statement (.write ip port session seq count atomic body memErr) := holds _
theorem info (ip port session seq count : Nat) (body : List Byte) : Statement (.info ip port session seq count body) := holds _
theorem devMbxDoorbell (len : Nat) : Statement (.devMbxDoorbell len) := holds _
theorem revert : Statement .revert := holds _
theorem save : Statement .save := holds _
theorem storeSaved (flashErr : Bool) : Statement (.storeSaved flashErr) := holds _
theorem storeLoad : Statement .storeLoad := holds _
theorem erase (flashErr : Bool) : Statement (.erase flashErr) := holds _
theorem bar0ValueAccess (write : Bool) (val : Word) : Statement (.bar0ValueAccess write val) := holds _
theorem bar4ValueAccess (write : Bool) (val : Word) : Statement (.bar4ValueAccess write val) := holds _
theorem pwrDomOn (domain : Nat) : Statement (.pwrDomOn domain) := holds _
theorem domainOn (domain : Nat) : Statement (.domainOn domain) := holds _
theorem pwrDomOff (domain : Nat) : Statement (.pwrDomOff domain) := holds _
theorem domainOff (domain : Nat) : Statement (.domainOff domain) := holds _
theorem vddqFault (ch : Nat) : Statement (.vddqFault ch) := holds _
theorem supplyFault (rail : Nat) : Statement (.supplyFault rail) := holds _
theorem porstAssert : Statement .porstAssert := holds _
theorem porstRelease (env : BootEnv) : Statement (.porstRelease env) := holds _
theorem clockFailure : Statement .clockFailure := holds _
theorem mainPowerLoss : Statement .mainPowerLoss := holds _
theorem keeperSupplyLow : Statement .keeperSupplyLow := holds _
theorem perstAssert : Statement .perstAssert := holds _
theorem system (force : Bool) (env : BootEnv) : Statement (.system force env) := holds _
theorem mgmt : Statement .mgmt := holds _
theorem pwrWdtKick : Statement .pwrWdtKick := holds _
theorem watchdogExpiry : Statement .watchdogExpiry := holds _
theorem arm : Statement .arm := holds _
theorem run : Statement .run := holds _
theorem disarm : Statement .disarm := holds _
theorem stop : Statement .stop := holds _
theorem trst (low : Bool) : Statement (.trst low) := holds _
theorem calAdc : Statement .calAdc := holds _
theorem calDone (meas : List AdcMeas) : Statement (.calDone meas) := holds _
theorem bist : Statement .bist := holds _
theorem calAbort : Statement .calAbort := holds _
theorem bistDone (handled failed first : Nat) : Statement (.bistDone handled failed first) := holds _
theorem bandgapCheck (diff : Int) : Statement (.bandgapCheck diff) := holds _
theorem dieTempChange (temp : Int) : Statement (.dieTempChange temp) := holds _
theorem updBegin : Statement .updBegin := holds _
theorem updEraseDone (ok : Bool) : Statement (.updEraseDone ok) := holds _
theorem updBlock (flashErr : Bool) : Statement (.updBlock flashErr) := holds _
theorem updVerify : Statement .updVerify := holds _
theorem updVerified : Statement .updVerified := holds _
theorem updActivate (flashErr : Bool) : Statement (.updActivate flashErr) := holds _
theorem updCancel (flashErr : Bool) : Statement (.updCancel flashErr) := holds _
theorem extest (pins load : List Bool) : Statement (.extest pins load) := holds _
theorem idcode : Statement .idcode := holds _
theorem samplePreload (pins load : List Bool) : Statement (.samplePreload pins load) := holds _
theorem clamp : Statement .clamp := holds _
theorem highz : Statement .highz := holds _
theorem bypass : Statement .bypass := holds _
theorem railsBackInRange (env : BootEnv) : Statement (.railsBackInRange env) := holds _
theorem sysclkInRestored (env : BootEnv) : Statement (.sysclkInRestored env) := holds _
theorem perstRelease : Statement .perstRelease := holds _
theorem keeperPowerUp : Statement .keeperPowerUp := holds _
theorem netFrameReceived (frame : List Byte) (taken : Bool) : Statement (.netFrameReceived frame taken) := holds _
theorem ptpMessageInterval (kind : Nat) : Statement (.ptpMessageInterval kind) := holds _

end Sys2Proof.Laws.CommandForm
end

