-- ==== Sys2Proof/Laws/State.lean ====
section
/-! SUPPORT. What the shared updates of the device leave unchanged: one lemma per field per update. -/

namespace Sys2Proof.Machine

/-! ## Registers -/

@[simp] theorem Dev.setReg_now (d : Dev) (a : Nat) (v : Word) : (d.setReg a v).now = d.now := rfl
@[simp] theorem Dev.setReg_dstate (d : Dev) (a : Nat) (v : Word) : (d.setReg a v).dstate = d.dstate := rfl
@[simp] theorem Dev.setReg_level (d : Dev) (a : Nat) (v : Word) : (d.setReg a v).level = d.level := rfl
@[simp] theorem Dev.setReg_active (d : Dev) (a : Nat) (v : Word) : (d.setReg a v).active = d.active := rfl
@[simp] theorem Dev.setReg_retired (d : Dev) (a : Nat) (v : Word) : (d.setReg a v).retired = d.retired := rfl
@[simp] theorem Dev.setReg_older (d : Dev) (a : Nat) (v : Word) : (d.setReg a v).older = d.older := rfl
@[simp] theorem Dev.setReg_held (d : Dev) (a : Nat) (v : Word) : (d.setReg a v).held = d.held := rfl
@[simp] theorem Dev.setReg_latch (d : Dev) (a : Nat) (v : Word) : (d.setReg a v).latch = d.latch := rfl
@[simp] theorem Dev.setReg_resp (d : Dev) (a : Nat) (v : Word) : (d.setReg a v).resp = d.resp := rfl
@[simp] theorem Dev.setReg_free (d : Dev) (a : Nat) (v : Word) : (d.setReg a v).free = d.free := rfl
@[simp] theorem Dev.setReg_evt (d : Dev) (a : Nat) (v : Word) : (d.setReg a v).evt = d.evt := rfl
@[simp] theorem Dev.setReg_tim (d : Dev) (a : Nat) (v : Word) : (d.setReg a v).tim = d.tim := rfl
@[simp] theorem Dev.setReg_pos (d : Dev) (a : Nat) (v : Word) : (d.setReg a v).pos = d.pos := rfl
@[simp] theorem Dev.setReg_items (d : Dev) (a : Nat) (v : Word) : (d.setReg a v).items = d.items := rfl
@[simp] theorem Dev.setReg_cmp (d : Dev) (a : Nat) (v : Word) : (d.setReg a v).cmp = d.cmp := rfl
@[simp] theorem Dev.setReg_job (d : Dev) (a : Nat) (v : Word) : (d.setReg a v).job = d.job := rfl
@[simp] theorem Dev.setReg_exp (d : Dev) (a : Nat) (v : Word) : (d.setReg a v).exp = d.exp := rfl
@[simp] theorem Dev.setReg_dos (d : Dev) (a : Nat) (v : Word) : (d.setReg a v).dos = d.dos := rfl
@[simp] theorem Dev.setReg_las (d : Dev) (a : Nat) (v : Word) : (d.setReg a v).las = d.las := rfl
@[simp] theorem Dev.setReg_ports (d : Dev) (a : Nat) (v : Word) : (d.setReg a v).ports = d.ports := rfl
@[simp] theorem Dev.setReg_lanes (d : Dev) (a : Nat) (v : Word) : (d.setReg a v).lanes = d.lanes := rfl
@[simp] theorem Dev.setReg_links (d : Dev) (a : Nat) (v : Word) : (d.setReg a v).links = d.links := rfl
@[simp] theorem Dev.setReg_fab (d : Dev) (a : Nat) (v : Word) : (d.setReg a v).fab = d.fab := rfl
@[simp] theorem Dev.setReg_ptp (d : Dev) (a : Nat) (v : Word) : (d.setReg a v).ptp = d.ptp := rfl
@[simp] theorem Dev.setReg_dram (d : Dev) (a : Nat) (v : Word) : (d.setReg a v).dram = d.dram := rfl
@[simp] theorem Dev.setReg_ecc (d : Dev) (a : Nat) (v : Word) : (d.setReg a v).ecc = d.ecc := rfl
@[simp] theorem Dev.setReg_dma (d : Dev) (a : Nat) (v : Word) : (d.setReg a v).dma = d.dma := rfl
@[simp] theorem Dev.setReg_pwr (d : Dev) (a : Nat) (v : Word) : (d.setReg a v).pwr = d.pwr := rfl
@[simp] theorem Dev.setReg_mgmt (d : Dev) (a : Nat) (v : Word) : (d.setReg a v).mgmt = d.mgmt := rfl
@[simp] theorem Dev.setReg_cal (d : Dev) (a : Nat) (v : Word) : (d.setReg a v).cal = d.cal := rfl
@[simp] theorem Dev.setReg_sent (d : Dev) (a : Nat) (v : Word) : (d.setReg a v).sent = d.sent := rfl

/-! ## Fields -/

@[simp] theorem Dev.set_now (d : Dev) (x : Fld) (v : Nat) : (d.set x v).now = d.now := rfl
@[simp] theorem Dev.set_dstate (d : Dev) (x : Fld) (v : Nat) : (d.set x v).dstate = d.dstate := rfl
@[simp] theorem Dev.set_level (d : Dev) (x : Fld) (v : Nat) : (d.set x v).level = d.level := rfl
@[simp] theorem Dev.set_active (d : Dev) (x : Fld) (v : Nat) : (d.set x v).active = d.active := rfl
@[simp] theorem Dev.set_retired (d : Dev) (x : Fld) (v : Nat) : (d.set x v).retired = d.retired := rfl
@[simp] theorem Dev.set_older (d : Dev) (x : Fld) (v : Nat) : (d.set x v).older = d.older := rfl
@[simp] theorem Dev.set_held (d : Dev) (x : Fld) (v : Nat) : (d.set x v).held = d.held := rfl
@[simp] theorem Dev.set_latch (d : Dev) (x : Fld) (v : Nat) : (d.set x v).latch = d.latch := rfl
@[simp] theorem Dev.set_resp (d : Dev) (x : Fld) (v : Nat) : (d.set x v).resp = d.resp := rfl
@[simp] theorem Dev.set_free (d : Dev) (x : Fld) (v : Nat) : (d.set x v).free = d.free := rfl
@[simp] theorem Dev.set_evt (d : Dev) (x : Fld) (v : Nat) : (d.set x v).evt = d.evt := rfl
@[simp] theorem Dev.set_tim (d : Dev) (x : Fld) (v : Nat) : (d.set x v).tim = d.tim := rfl
@[simp] theorem Dev.set_pos (d : Dev) (x : Fld) (v : Nat) : (d.set x v).pos = d.pos := rfl
@[simp] theorem Dev.set_items (d : Dev) (x : Fld) (v : Nat) : (d.set x v).items = d.items := rfl
@[simp] theorem Dev.set_cmp (d : Dev) (x : Fld) (v : Nat) : (d.set x v).cmp = d.cmp := rfl
@[simp] theorem Dev.set_job (d : Dev) (x : Fld) (v : Nat) : (d.set x v).job = d.job := rfl
@[simp] theorem Dev.set_exp (d : Dev) (x : Fld) (v : Nat) : (d.set x v).exp = d.exp := rfl
@[simp] theorem Dev.set_dos (d : Dev) (x : Fld) (v : Nat) : (d.set x v).dos = d.dos := rfl
@[simp] theorem Dev.set_las (d : Dev) (x : Fld) (v : Nat) : (d.set x v).las = d.las := rfl
@[simp] theorem Dev.set_ports (d : Dev) (x : Fld) (v : Nat) : (d.set x v).ports = d.ports := rfl
@[simp] theorem Dev.set_lanes (d : Dev) (x : Fld) (v : Nat) : (d.set x v).lanes = d.lanes := rfl
@[simp] theorem Dev.set_links (d : Dev) (x : Fld) (v : Nat) : (d.set x v).links = d.links := rfl
@[simp] theorem Dev.set_fab (d : Dev) (x : Fld) (v : Nat) : (d.set x v).fab = d.fab := rfl
@[simp] theorem Dev.set_ptp (d : Dev) (x : Fld) (v : Nat) : (d.set x v).ptp = d.ptp := rfl
@[simp] theorem Dev.set_dram (d : Dev) (x : Fld) (v : Nat) : (d.set x v).dram = d.dram := rfl
@[simp] theorem Dev.set_ecc (d : Dev) (x : Fld) (v : Nat) : (d.set x v).ecc = d.ecc := rfl
@[simp] theorem Dev.set_dma (d : Dev) (x : Fld) (v : Nat) : (d.set x v).dma = d.dma := rfl
@[simp] theorem Dev.set_pwr (d : Dev) (x : Fld) (v : Nat) : (d.set x v).pwr = d.pwr := rfl
@[simp] theorem Dev.set_mgmt (d : Dev) (x : Fld) (v : Nat) : (d.set x v).mgmt = d.mgmt := rfl
@[simp] theorem Dev.set_cal (d : Dev) (x : Fld) (v : Nat) : (d.set x v).cal = d.cal := rfl
@[simp] theorem Dev.set_sent (d : Dev) (x : Fld) (v : Nat) : (d.set x v).sent = d.sent := rfl

/-! ## One-bit fields -/

@[simp] theorem Dev.setB_now (d : Dev) (x : Fld) (b : Bool) : (d.setB x b).now = d.now := rfl
@[simp] theorem Dev.setB_dstate (d : Dev) (x : Fld) (b : Bool) : (d.setB x b).dstate = d.dstate := rfl
@[simp] theorem Dev.setB_level (d : Dev) (x : Fld) (b : Bool) : (d.setB x b).level = d.level := rfl
@[simp] theorem Dev.setB_active (d : Dev) (x : Fld) (b : Bool) : (d.setB x b).active = d.active := rfl
@[simp] theorem Dev.setB_retired (d : Dev) (x : Fld) (b : Bool) : (d.setB x b).retired = d.retired := rfl
@[simp] theorem Dev.setB_older (d : Dev) (x : Fld) (b : Bool) : (d.setB x b).older = d.older := rfl
@[simp] theorem Dev.setB_held (d : Dev) (x : Fld) (b : Bool) : (d.setB x b).held = d.held := rfl
@[simp] theorem Dev.setB_latch (d : Dev) (x : Fld) (b : Bool) : (d.setB x b).latch = d.latch := rfl
@[simp] theorem Dev.setB_resp (d : Dev) (x : Fld) (b : Bool) : (d.setB x b).resp = d.resp := rfl
@[simp] theorem Dev.setB_free (d : Dev) (x : Fld) (b : Bool) : (d.setB x b).free = d.free := rfl
@[simp] theorem Dev.setB_evt (d : Dev) (x : Fld) (b : Bool) : (d.setB x b).evt = d.evt := rfl
@[simp] theorem Dev.setB_tim (d : Dev) (x : Fld) (b : Bool) : (d.setB x b).tim = d.tim := rfl
@[simp] theorem Dev.setB_pos (d : Dev) (x : Fld) (b : Bool) : (d.setB x b).pos = d.pos := rfl
@[simp] theorem Dev.setB_items (d : Dev) (x : Fld) (b : Bool) : (d.setB x b).items = d.items := rfl
@[simp] theorem Dev.setB_cmp (d : Dev) (x : Fld) (b : Bool) : (d.setB x b).cmp = d.cmp := rfl
@[simp] theorem Dev.setB_job (d : Dev) (x : Fld) (b : Bool) : (d.setB x b).job = d.job := rfl
@[simp] theorem Dev.setB_exp (d : Dev) (x : Fld) (b : Bool) : (d.setB x b).exp = d.exp := rfl
@[simp] theorem Dev.setB_dos (d : Dev) (x : Fld) (b : Bool) : (d.setB x b).dos = d.dos := rfl
@[simp] theorem Dev.setB_las (d : Dev) (x : Fld) (b : Bool) : (d.setB x b).las = d.las := rfl
@[simp] theorem Dev.setB_ports (d : Dev) (x : Fld) (b : Bool) : (d.setB x b).ports = d.ports := rfl
@[simp] theorem Dev.setB_lanes (d : Dev) (x : Fld) (b : Bool) : (d.setB x b).lanes = d.lanes := rfl
@[simp] theorem Dev.setB_links (d : Dev) (x : Fld) (b : Bool) : (d.setB x b).links = d.links := rfl
@[simp] theorem Dev.setB_fab (d : Dev) (x : Fld) (b : Bool) : (d.setB x b).fab = d.fab := rfl
@[simp] theorem Dev.setB_ptp (d : Dev) (x : Fld) (b : Bool) : (d.setB x b).ptp = d.ptp := rfl
@[simp] theorem Dev.setB_dram (d : Dev) (x : Fld) (b : Bool) : (d.setB x b).dram = d.dram := rfl
@[simp] theorem Dev.setB_ecc (d : Dev) (x : Fld) (b : Bool) : (d.setB x b).ecc = d.ecc := rfl
@[simp] theorem Dev.setB_dma (d : Dev) (x : Fld) (b : Bool) : (d.setB x b).dma = d.dma := rfl
@[simp] theorem Dev.setB_pwr (d : Dev) (x : Fld) (b : Bool) : (d.setB x b).pwr = d.pwr := rfl
@[simp] theorem Dev.setB_mgmt (d : Dev) (x : Fld) (b : Bool) : (d.setB x b).mgmt = d.mgmt := rfl
@[simp] theorem Dev.setB_cal (d : Dev) (x : Fld) (b : Bool) : (d.setB x b).cal = d.cal := rfl
@[simp] theorem Dev.setB_sent (d : Dev) (x : Fld) (b : Bool) : (d.setB x b).sent = d.sent := rfl

/-! ## 64-bit fields -/

@[simp] theorem Dev.set64_now (d : Dev) (x : Fld) (v : Nat) : (d.set64 x v).now = d.now := rfl
@[simp] theorem Dev.set64_dstate (d : Dev) (x : Fld) (v : Nat) : (d.set64 x v).dstate = d.dstate := rfl
@[simp] theorem Dev.set64_level (d : Dev) (x : Fld) (v : Nat) : (d.set64 x v).level = d.level := rfl
@[simp] theorem Dev.set64_active (d : Dev) (x : Fld) (v : Nat) : (d.set64 x v).active = d.active := rfl
@[simp] theorem Dev.set64_retired (d : Dev) (x : Fld) (v : Nat) : (d.set64 x v).retired = d.retired := rfl
@[simp] theorem Dev.set64_older (d : Dev) (x : Fld) (v : Nat) : (d.set64 x v).older = d.older := rfl
@[simp] theorem Dev.set64_held (d : Dev) (x : Fld) (v : Nat) : (d.set64 x v).held = d.held := rfl
@[simp] theorem Dev.set64_latch (d : Dev) (x : Fld) (v : Nat) : (d.set64 x v).latch = d.latch := rfl
@[simp] theorem Dev.set64_resp (d : Dev) (x : Fld) (v : Nat) : (d.set64 x v).resp = d.resp := rfl
@[simp] theorem Dev.set64_free (d : Dev) (x : Fld) (v : Nat) : (d.set64 x v).free = d.free := rfl
@[simp] theorem Dev.set64_evt (d : Dev) (x : Fld) (v : Nat) : (d.set64 x v).evt = d.evt := rfl
@[simp] theorem Dev.set64_tim (d : Dev) (x : Fld) (v : Nat) : (d.set64 x v).tim = d.tim := rfl
@[simp] theorem Dev.set64_pos (d : Dev) (x : Fld) (v : Nat) : (d.set64 x v).pos = d.pos := rfl
@[simp] theorem Dev.set64_items (d : Dev) (x : Fld) (v : Nat) : (d.set64 x v).items = d.items := rfl
@[simp] theorem Dev.set64_cmp (d : Dev) (x : Fld) (v : Nat) : (d.set64 x v).cmp = d.cmp := rfl
@[simp] theorem Dev.set64_job (d : Dev) (x : Fld) (v : Nat) : (d.set64 x v).job = d.job := rfl
@[simp] theorem Dev.set64_exp (d : Dev) (x : Fld) (v : Nat) : (d.set64 x v).exp = d.exp := rfl
@[simp] theorem Dev.set64_dos (d : Dev) (x : Fld) (v : Nat) : (d.set64 x v).dos = d.dos := rfl
@[simp] theorem Dev.set64_las (d : Dev) (x : Fld) (v : Nat) : (d.set64 x v).las = d.las := rfl
@[simp] theorem Dev.set64_ports (d : Dev) (x : Fld) (v : Nat) : (d.set64 x v).ports = d.ports := rfl
@[simp] theorem Dev.set64_lanes (d : Dev) (x : Fld) (v : Nat) : (d.set64 x v).lanes = d.lanes := rfl
@[simp] theorem Dev.set64_links (d : Dev) (x : Fld) (v : Nat) : (d.set64 x v).links = d.links := rfl
@[simp] theorem Dev.set64_fab (d : Dev) (x : Fld) (v : Nat) : (d.set64 x v).fab = d.fab := rfl
@[simp] theorem Dev.set64_ptp (d : Dev) (x : Fld) (v : Nat) : (d.set64 x v).ptp = d.ptp := rfl
@[simp] theorem Dev.set64_dram (d : Dev) (x : Fld) (v : Nat) : (d.set64 x v).dram = d.dram := rfl
@[simp] theorem Dev.set64_ecc (d : Dev) (x : Fld) (v : Nat) : (d.set64 x v).ecc = d.ecc := rfl
@[simp] theorem Dev.set64_dma (d : Dev) (x : Fld) (v : Nat) : (d.set64 x v).dma = d.dma := rfl
@[simp] theorem Dev.set64_pwr (d : Dev) (x : Fld) (v : Nat) : (d.set64 x v).pwr = d.pwr := rfl
@[simp] theorem Dev.set64_mgmt (d : Dev) (x : Fld) (v : Nat) : (d.set64 x v).mgmt = d.mgmt := rfl
@[simp] theorem Dev.set64_cal (d : Dev) (x : Fld) (v : Nat) : (d.set64 x v).cal = d.cal := rfl
@[simp] theorem Dev.set64_sent (d : Dev) (x : Fld) (v : Nat) : (d.set64 x v).sent = d.sent := rfl

/-! ## Counters -/

@[simp] theorem Dev.bump_now (d : Dev) (x : Fld) (n : Nat) : (d.bump x n).now = d.now := rfl
@[simp] theorem Dev.bump_dstate (d : Dev) (x : Fld) (n : Nat) : (d.bump x n).dstate = d.dstate := rfl
@[simp] theorem Dev.bump_level (d : Dev) (x : Fld) (n : Nat) : (d.bump x n).level = d.level := rfl
@[simp] theorem Dev.bump_active (d : Dev) (x : Fld) (n : Nat) : (d.bump x n).active = d.active := rfl
@[simp] theorem Dev.bump_retired (d : Dev) (x : Fld) (n : Nat) : (d.bump x n).retired = d.retired := rfl
@[simp] theorem Dev.bump_older (d : Dev) (x : Fld) (n : Nat) : (d.bump x n).older = d.older := rfl
@[simp] theorem Dev.bump_held (d : Dev) (x : Fld) (n : Nat) : (d.bump x n).held = d.held := rfl
@[simp] theorem Dev.bump_latch (d : Dev) (x : Fld) (n : Nat) : (d.bump x n).latch = d.latch := rfl
@[simp] theorem Dev.bump_resp (d : Dev) (x : Fld) (n : Nat) : (d.bump x n).resp = d.resp := rfl
@[simp] theorem Dev.bump_free (d : Dev) (x : Fld) (n : Nat) : (d.bump x n).free = d.free := rfl
@[simp] theorem Dev.bump_evt (d : Dev) (x : Fld) (n : Nat) : (d.bump x n).evt = d.evt := rfl
@[simp] theorem Dev.bump_tim (d : Dev) (x : Fld) (n : Nat) : (d.bump x n).tim = d.tim := rfl
@[simp] theorem Dev.bump_pos (d : Dev) (x : Fld) (n : Nat) : (d.bump x n).pos = d.pos := rfl
@[simp] theorem Dev.bump_items (d : Dev) (x : Fld) (n : Nat) : (d.bump x n).items = d.items := rfl
@[simp] theorem Dev.bump_cmp (d : Dev) (x : Fld) (n : Nat) : (d.bump x n).cmp = d.cmp := rfl
@[simp] theorem Dev.bump_job (d : Dev) (x : Fld) (n : Nat) : (d.bump x n).job = d.job := rfl
@[simp] theorem Dev.bump_exp (d : Dev) (x : Fld) (n : Nat) : (d.bump x n).exp = d.exp := rfl
@[simp] theorem Dev.bump_dos (d : Dev) (x : Fld) (n : Nat) : (d.bump x n).dos = d.dos := rfl
@[simp] theorem Dev.bump_las (d : Dev) (x : Fld) (n : Nat) : (d.bump x n).las = d.las := rfl
@[simp] theorem Dev.bump_ports (d : Dev) (x : Fld) (n : Nat) : (d.bump x n).ports = d.ports := rfl
@[simp] theorem Dev.bump_lanes (d : Dev) (x : Fld) (n : Nat) : (d.bump x n).lanes = d.lanes := rfl
@[simp] theorem Dev.bump_links (d : Dev) (x : Fld) (n : Nat) : (d.bump x n).links = d.links := rfl
@[simp] theorem Dev.bump_fab (d : Dev) (x : Fld) (n : Nat) : (d.bump x n).fab = d.fab := rfl
@[simp] theorem Dev.bump_ptp (d : Dev) (x : Fld) (n : Nat) : (d.bump x n).ptp = d.ptp := rfl
@[simp] theorem Dev.bump_dram (d : Dev) (x : Fld) (n : Nat) : (d.bump x n).dram = d.dram := rfl
@[simp] theorem Dev.bump_ecc (d : Dev) (x : Fld) (n : Nat) : (d.bump x n).ecc = d.ecc := rfl
@[simp] theorem Dev.bump_dma (d : Dev) (x : Fld) (n : Nat) : (d.bump x n).dma = d.dma := rfl
@[simp] theorem Dev.bump_pwr (d : Dev) (x : Fld) (n : Nat) : (d.bump x n).pwr = d.pwr := rfl
@[simp] theorem Dev.bump_mgmt (d : Dev) (x : Fld) (n : Nat) : (d.bump x n).mgmt = d.mgmt := rfl
@[simp] theorem Dev.bump_cal (d : Dev) (x : Fld) (n : Nat) : (d.bump x n).cal = d.cal := rfl
@[simp] theorem Dev.bump_sent (d : Dev) (x : Fld) (n : Nat) : (d.bump x n).sent = d.sent := rfl

/-! ## Wrapping counters -/

@[simp] theorem Dev.wrap_now (d : Dev) (x : Fld) (n : Nat) : (d.wrap x n).now = d.now := rfl
@[simp] theorem Dev.wrap_dstate (d : Dev) (x : Fld) (n : Nat) : (d.wrap x n).dstate = d.dstate := rfl
@[simp] theorem Dev.wrap_level (d : Dev) (x : Fld) (n : Nat) : (d.wrap x n).level = d.level := rfl
@[simp] theorem Dev.wrap_active (d : Dev) (x : Fld) (n : Nat) : (d.wrap x n).active = d.active := rfl
@[simp] theorem Dev.wrap_retired (d : Dev) (x : Fld) (n : Nat) : (d.wrap x n).retired = d.retired := rfl
@[simp] theorem Dev.wrap_older (d : Dev) (x : Fld) (n : Nat) : (d.wrap x n).older = d.older := rfl
@[simp] theorem Dev.wrap_held (d : Dev) (x : Fld) (n : Nat) : (d.wrap x n).held = d.held := rfl
@[simp] theorem Dev.wrap_latch (d : Dev) (x : Fld) (n : Nat) : (d.wrap x n).latch = d.latch := rfl
@[simp] theorem Dev.wrap_resp (d : Dev) (x : Fld) (n : Nat) : (d.wrap x n).resp = d.resp := rfl
@[simp] theorem Dev.wrap_free (d : Dev) (x : Fld) (n : Nat) : (d.wrap x n).free = d.free := rfl
@[simp] theorem Dev.wrap_evt (d : Dev) (x : Fld) (n : Nat) : (d.wrap x n).evt = d.evt := rfl
@[simp] theorem Dev.wrap_tim (d : Dev) (x : Fld) (n : Nat) : (d.wrap x n).tim = d.tim := rfl
@[simp] theorem Dev.wrap_pos (d : Dev) (x : Fld) (n : Nat) : (d.wrap x n).pos = d.pos := rfl
@[simp] theorem Dev.wrap_items (d : Dev) (x : Fld) (n : Nat) : (d.wrap x n).items = d.items := rfl
@[simp] theorem Dev.wrap_cmp (d : Dev) (x : Fld) (n : Nat) : (d.wrap x n).cmp = d.cmp := rfl
@[simp] theorem Dev.wrap_job (d : Dev) (x : Fld) (n : Nat) : (d.wrap x n).job = d.job := rfl
@[simp] theorem Dev.wrap_exp (d : Dev) (x : Fld) (n : Nat) : (d.wrap x n).exp = d.exp := rfl
@[simp] theorem Dev.wrap_dos (d : Dev) (x : Fld) (n : Nat) : (d.wrap x n).dos = d.dos := rfl
@[simp] theorem Dev.wrap_las (d : Dev) (x : Fld) (n : Nat) : (d.wrap x n).las = d.las := rfl
@[simp] theorem Dev.wrap_ports (d : Dev) (x : Fld) (n : Nat) : (d.wrap x n).ports = d.ports := rfl
@[simp] theorem Dev.wrap_lanes (d : Dev) (x : Fld) (n : Nat) : (d.wrap x n).lanes = d.lanes := rfl
@[simp] theorem Dev.wrap_links (d : Dev) (x : Fld) (n : Nat) : (d.wrap x n).links = d.links := rfl
@[simp] theorem Dev.wrap_fab (d : Dev) (x : Fld) (n : Nat) : (d.wrap x n).fab = d.fab := rfl
@[simp] theorem Dev.wrap_ptp (d : Dev) (x : Fld) (n : Nat) : (d.wrap x n).ptp = d.ptp := rfl
@[simp] theorem Dev.wrap_dram (d : Dev) (x : Fld) (n : Nat) : (d.wrap x n).dram = d.dram := rfl
@[simp] theorem Dev.wrap_ecc (d : Dev) (x : Fld) (n : Nat) : (d.wrap x n).ecc = d.ecc := rfl
@[simp] theorem Dev.wrap_dma (d : Dev) (x : Fld) (n : Nat) : (d.wrap x n).dma = d.dma := rfl
@[simp] theorem Dev.wrap_pwr (d : Dev) (x : Fld) (n : Nat) : (d.wrap x n).pwr = d.pwr := rfl
@[simp] theorem Dev.wrap_mgmt (d : Dev) (x : Fld) (n : Nat) : (d.wrap x n).mgmt = d.mgmt := rfl
@[simp] theorem Dev.wrap_cal (d : Dev) (x : Fld) (n : Nat) : (d.wrap x n).cal = d.cal := rfl
@[simp] theorem Dev.wrap_sent (d : Dev) (x : Fld) (n : Nat) : (d.wrap x n).sent = d.sent := rfl

/-! ## Traffic -/

@[simp] theorem Dev.emit_now (d : Dev) (x : Sent) : (d.emit x).now = d.now := rfl
@[simp] theorem Dev.emit_dstate (d : Dev) (x : Sent) : (d.emit x).dstate = d.dstate := rfl
@[simp] theorem Dev.emit_level (d : Dev) (x : Sent) : (d.emit x).level = d.level := rfl
@[simp] theorem Dev.emit_regs (d : Dev) (x : Sent) : (d.emit x).regs = d.regs := rfl
@[simp] theorem Dev.emit_active (d : Dev) (x : Sent) : (d.emit x).active = d.active := rfl
@[simp] theorem Dev.emit_retired (d : Dev) (x : Sent) : (d.emit x).retired = d.retired := rfl
@[simp] theorem Dev.emit_older (d : Dev) (x : Sent) : (d.emit x).older = d.older := rfl
@[simp] theorem Dev.emit_held (d : Dev) (x : Sent) : (d.emit x).held = d.held := rfl
@[simp] theorem Dev.emit_latch (d : Dev) (x : Sent) : (d.emit x).latch = d.latch := rfl
@[simp] theorem Dev.emit_resp (d : Dev) (x : Sent) : (d.emit x).resp = d.resp := rfl
@[simp] theorem Dev.emit_free (d : Dev) (x : Sent) : (d.emit x).free = d.free := rfl
@[simp] theorem Dev.emit_evt (d : Dev) (x : Sent) : (d.emit x).evt = d.evt := rfl
@[simp] theorem Dev.emit_tim (d : Dev) (x : Sent) : (d.emit x).tim = d.tim := rfl
@[simp] theorem Dev.emit_pos (d : Dev) (x : Sent) : (d.emit x).pos = d.pos := rfl
@[simp] theorem Dev.emit_items (d : Dev) (x : Sent) : (d.emit x).items = d.items := rfl
@[simp] theorem Dev.emit_cmp (d : Dev) (x : Sent) : (d.emit x).cmp = d.cmp := rfl
@[simp] theorem Dev.emit_job (d : Dev) (x : Sent) : (d.emit x).job = d.job := rfl
@[simp] theorem Dev.emit_exp (d : Dev) (x : Sent) : (d.emit x).exp = d.exp := rfl
@[simp] theorem Dev.emit_dos (d : Dev) (x : Sent) : (d.emit x).dos = d.dos := rfl
@[simp] theorem Dev.emit_las (d : Dev) (x : Sent) : (d.emit x).las = d.las := rfl
@[simp] theorem Dev.emit_ports (d : Dev) (x : Sent) : (d.emit x).ports = d.ports := rfl
@[simp] theorem Dev.emit_lanes (d : Dev) (x : Sent) : (d.emit x).lanes = d.lanes := rfl
@[simp] theorem Dev.emit_links (d : Dev) (x : Sent) : (d.emit x).links = d.links := rfl
@[simp] theorem Dev.emit_fab (d : Dev) (x : Sent) : (d.emit x).fab = d.fab := rfl
@[simp] theorem Dev.emit_ptp (d : Dev) (x : Sent) : (d.emit x).ptp = d.ptp := rfl
@[simp] theorem Dev.emit_dram (d : Dev) (x : Sent) : (d.emit x).dram = d.dram := rfl
@[simp] theorem Dev.emit_ecc (d : Dev) (x : Sent) : (d.emit x).ecc = d.ecc := rfl
@[simp] theorem Dev.emit_dma (d : Dev) (x : Sent) : (d.emit x).dma = d.dma := rfl
@[simp] theorem Dev.emit_pwr (d : Dev) (x : Sent) : (d.emit x).pwr = d.pwr := rfl
@[simp] theorem Dev.emit_mgmt (d : Dev) (x : Sent) : (d.emit x).mgmt = d.mgmt := rfl
@[simp] theorem Dev.emit_cal (d : Dev) (x : Sent) : (d.emit x).cal = d.cal := rfl

/-! ## Rate-limited events -/

@[simp] theorem Dev.occur_now (d : Dev) (c i n : Nat) : (d.occur c i n).now = d.now := rfl
@[simp] theorem Dev.occur_dstate (d : Dev) (c i n : Nat) : (d.occur c i n).dstate = d.dstate := rfl
@[simp] theorem Dev.occur_level (d : Dev) (c i n : Nat) : (d.occur c i n).level = d.level := rfl
@[simp] theorem Dev.occur_regs (d : Dev) (c i n : Nat) : (d.occur c i n).regs = d.regs := rfl
@[simp] theorem Dev.occur_active (d : Dev) (c i n : Nat) : (d.occur c i n).active = d.active := rfl
@[simp] theorem Dev.occur_retired (d : Dev) (c i n : Nat) : (d.occur c i n).retired = d.retired := rfl
@[simp] theorem Dev.occur_older (d : Dev) (c i n : Nat) : (d.occur c i n).older = d.older := rfl
@[simp] theorem Dev.occur_held (d : Dev) (c i n : Nat) : (d.occur c i n).held = d.held := rfl
@[simp] theorem Dev.occur_latch (d : Dev) (c i n : Nat) : (d.occur c i n).latch = d.latch := rfl
@[simp] theorem Dev.occur_resp (d : Dev) (c i n : Nat) : (d.occur c i n).resp = d.resp := rfl
@[simp] theorem Dev.occur_free (d : Dev) (c i n : Nat) : (d.occur c i n).free = d.free := rfl
@[simp] theorem Dev.occur_tim (d : Dev) (c i n : Nat) : (d.occur c i n).tim = d.tim := rfl
@[simp] theorem Dev.occur_pos (d : Dev) (c i n : Nat) : (d.occur c i n).pos = d.pos := rfl
@[simp] theorem Dev.occur_items (d : Dev) (c i n : Nat) : (d.occur c i n).items = d.items := rfl
@[simp] theorem Dev.occur_cmp (d : Dev) (c i n : Nat) : (d.occur c i n).cmp = d.cmp := rfl
@[simp] theorem Dev.occur_job (d : Dev) (c i n : Nat) : (d.occur c i n).job = d.job := rfl
@[simp] theorem Dev.occur_exp (d : Dev) (c i n : Nat) : (d.occur c i n).exp = d.exp := rfl
@[simp] theorem Dev.occur_dos (d : Dev) (c i n : Nat) : (d.occur c i n).dos = d.dos := rfl
@[simp] theorem Dev.occur_las (d : Dev) (c i n : Nat) : (d.occur c i n).las = d.las := rfl
@[simp] theorem Dev.occur_ports (d : Dev) (c i n : Nat) : (d.occur c i n).ports = d.ports := rfl
@[simp] theorem Dev.occur_lanes (d : Dev) (c i n : Nat) : (d.occur c i n).lanes = d.lanes := rfl
@[simp] theorem Dev.occur_links (d : Dev) (c i n : Nat) : (d.occur c i n).links = d.links := rfl
@[simp] theorem Dev.occur_fab (d : Dev) (c i n : Nat) : (d.occur c i n).fab = d.fab := rfl
@[simp] theorem Dev.occur_ptp (d : Dev) (c i n : Nat) : (d.occur c i n).ptp = d.ptp := rfl
@[simp] theorem Dev.occur_dram (d : Dev) (c i n : Nat) : (d.occur c i n).dram = d.dram := rfl
@[simp] theorem Dev.occur_ecc (d : Dev) (c i n : Nat) : (d.occur c i n).ecc = d.ecc := rfl
@[simp] theorem Dev.occur_dma (d : Dev) (c i n : Nat) : (d.occur c i n).dma = d.dma := rfl
@[simp] theorem Dev.occur_pwr (d : Dev) (c i n : Nat) : (d.occur c i n).pwr = d.pwr := rfl
@[simp] theorem Dev.occur_mgmt (d : Dev) (c i n : Nat) : (d.occur c i n).mgmt = d.mgmt := rfl
@[simp] theorem Dev.occur_cal (d : Dev) (c i n : Nat) : (d.occur c i n).cal = d.cal := rfl
@[simp] theorem Dev.occur_sent (d : Dev) (c i n : Nat) : (d.occur c i n).sent = d.sent := rfl

/-! ## Events -/

@[simp] theorem Dev.post_now (d : Dev) (e : EvEntry) : (d.post e).now = d.now := by unfold Dev.post; split <;> rfl
@[simp] theorem Dev.post_dstate (d : Dev) (e : EvEntry) : (d.post e).dstate = d.dstate := by unfold Dev.post; split <;> rfl
@[simp] theorem Dev.post_level (d : Dev) (e : EvEntry) : (d.post e).level = d.level := by unfold Dev.post; split <;> rfl
@[simp] theorem Dev.post_active (d : Dev) (e : EvEntry) : (d.post e).active = d.active := by unfold Dev.post; split <;> rfl
@[simp] theorem Dev.post_retired (d : Dev) (e : EvEntry) : (d.post e).retired = d.retired := by unfold Dev.post; split <;> rfl
@[simp] theorem Dev.post_older (d : Dev) (e : EvEntry) : (d.post e).older = d.older := by unfold Dev.post; split <;> rfl
@[simp] theorem Dev.post_held (d : Dev) (e : EvEntry) : (d.post e).held = d.held := by unfold Dev.post; split <;> rfl
@[simp] theorem Dev.post_latch (d : Dev) (e : EvEntry) : (d.post e).latch = d.latch := by unfold Dev.post; split <;> rfl
@[simp] theorem Dev.post_resp (d : Dev) (e : EvEntry) : (d.post e).resp = d.resp := by unfold Dev.post; split <;> rfl
@[simp] theorem Dev.post_free (d : Dev) (e : EvEntry) : (d.post e).free = d.free := by unfold Dev.post; split <;> rfl
@[simp] theorem Dev.post_tim (d : Dev) (e : EvEntry) : (d.post e).tim = d.tim := by unfold Dev.post; split <;> rfl
@[simp] theorem Dev.post_pos (d : Dev) (e : EvEntry) : (d.post e).pos = d.pos := by unfold Dev.post; split <;> rfl
@[simp] theorem Dev.post_items (d : Dev) (e : EvEntry) : (d.post e).items = d.items := by unfold Dev.post; split <;> rfl
@[simp] theorem Dev.post_cmp (d : Dev) (e : EvEntry) : (d.post e).cmp = d.cmp := by unfold Dev.post; split <;> rfl
@[simp] theorem Dev.post_job (d : Dev) (e : EvEntry) : (d.post e).job = d.job := by unfold Dev.post; split <;> rfl
@[simp] theorem Dev.post_exp (d : Dev) (e : EvEntry) : (d.post e).exp = d.exp := by unfold Dev.post; split <;> rfl
@[simp] theorem Dev.post_dos (d : Dev) (e : EvEntry) : (d.post e).dos = d.dos := by unfold Dev.post; split <;> rfl
@[simp] theorem Dev.post_las (d : Dev) (e : EvEntry) : (d.post e).las = d.las := by unfold Dev.post; split <;> rfl
@[simp] theorem Dev.post_ports (d : Dev) (e : EvEntry) : (d.post e).ports = d.ports := by unfold Dev.post; split <;> rfl
@[simp] theorem Dev.post_lanes (d : Dev) (e : EvEntry) : (d.post e).lanes = d.lanes := by unfold Dev.post; split <;> rfl
@[simp] theorem Dev.post_links (d : Dev) (e : EvEntry) : (d.post e).links = d.links := by unfold Dev.post; split <;> rfl
@[simp] theorem Dev.post_fab (d : Dev) (e : EvEntry) : (d.post e).fab = d.fab := by unfold Dev.post; split <;> rfl
@[simp] theorem Dev.post_ptp (d : Dev) (e : EvEntry) : (d.post e).ptp = d.ptp := by unfold Dev.post; split <;> rfl
@[simp] theorem Dev.post_dram (d : Dev) (e : EvEntry) : (d.post e).dram = d.dram := by unfold Dev.post; split <;> rfl
@[simp] theorem Dev.post_ecc (d : Dev) (e : EvEntry) : (d.post e).ecc = d.ecc := by unfold Dev.post; split <;> rfl
@[simp] theorem Dev.post_dma (d : Dev) (e : EvEntry) : (d.post e).dma = d.dma := by unfold Dev.post; split <;> rfl
@[simp] theorem Dev.post_pwr (d : Dev) (e : EvEntry) : (d.post e).pwr = d.pwr := by unfold Dev.post; split <;> rfl
@[simp] theorem Dev.post_mgmt (d : Dev) (e : EvEntry) : (d.post e).mgmt = d.mgmt := by unfold Dev.post; split <;> rfl
@[simp] theorem Dev.post_cal (d : Dev) (e : EvEntry) : (d.post e).cal = d.cal := by unfold Dev.post; split <;> rfl
@[simp] theorem Dev.post_sent (d : Dev) (e : EvEntry) : (d.post e).sent = d.sent := by unfold Dev.post; split <;> rfl

/-! ## Events with a detail -/

@[simp] theorem Dev.raise_now (d : Dev) (c x : Nat) : (d.raise c x).now = d.now := Dev.post_now d _
@[simp] theorem Dev.raise_dstate (d : Dev) (c x : Nat) : (d.raise c x).dstate = d.dstate := Dev.post_dstate d _
@[simp] theorem Dev.raise_level (d : Dev) (c x : Nat) : (d.raise c x).level = d.level := Dev.post_level d _
@[simp] theorem Dev.raise_active (d : Dev) (c x : Nat) : (d.raise c x).active = d.active := Dev.post_active d _
@[simp] theorem Dev.raise_retired (d : Dev) (c x : Nat) : (d.raise c x).retired = d.retired := Dev.post_retired d _
@[simp] theorem Dev.raise_older (d : Dev) (c x : Nat) : (d.raise c x).older = d.older := Dev.post_older d _
@[simp] theorem Dev.raise_held (d : Dev) (c x : Nat) : (d.raise c x).held = d.held := Dev.post_held d _
@[simp] theorem Dev.raise_latch (d : Dev) (c x : Nat) : (d.raise c x).latch = d.latch := Dev.post_latch d _
@[simp] theorem Dev.raise_resp (d : Dev) (c x : Nat) : (d.raise c x).resp = d.resp := Dev.post_resp d _
@[simp] theorem Dev.raise_free (d : Dev) (c x : Nat) : (d.raise c x).free = d.free := Dev.post_free d _
@[simp] theorem Dev.raise_tim (d : Dev) (c x : Nat) : (d.raise c x).tim = d.tim := Dev.post_tim d _
@[simp] theorem Dev.raise_pos (d : Dev) (c x : Nat) : (d.raise c x).pos = d.pos := Dev.post_pos d _
@[simp] theorem Dev.raise_items (d : Dev) (c x : Nat) : (d.raise c x).items = d.items := Dev.post_items d _
@[simp] theorem Dev.raise_cmp (d : Dev) (c x : Nat) : (d.raise c x).cmp = d.cmp := Dev.post_cmp d _
@[simp] theorem Dev.raise_job (d : Dev) (c x : Nat) : (d.raise c x).job = d.job := Dev.post_job d _
@[simp] theorem Dev.raise_exp (d : Dev) (c x : Nat) : (d.raise c x).exp = d.exp := Dev.post_exp d _
@[simp] theorem Dev.raise_dos (d : Dev) (c x : Nat) : (d.raise c x).dos = d.dos := Dev.post_dos d _
@[simp] theorem Dev.raise_las (d : Dev) (c x : Nat) : (d.raise c x).las = d.las := Dev.post_las d _
@[simp] theorem Dev.raise_ports (d : Dev) (c x : Nat) : (d.raise c x).ports = d.ports := Dev.post_ports d _
@[simp] theorem Dev.raise_lanes (d : Dev) (c x : Nat) : (d.raise c x).lanes = d.lanes := Dev.post_lanes d _
@[simp] theorem Dev.raise_links (d : Dev) (c x : Nat) : (d.raise c x).links = d.links := Dev.post_links d _
@[simp] theorem Dev.raise_fab (d : Dev) (c x : Nat) : (d.raise c x).fab = d.fab := Dev.post_fab d _
@[simp] theorem Dev.raise_ptp (d : Dev) (c x : Nat) : (d.raise c x).ptp = d.ptp := Dev.post_ptp d _
@[simp] theorem Dev.raise_dram (d : Dev) (c x : Nat) : (d.raise c x).dram = d.dram := Dev.post_dram d _
@[simp] theorem Dev.raise_ecc (d : Dev) (c x : Nat) : (d.raise c x).ecc = d.ecc := Dev.post_ecc d _
@[simp] theorem Dev.raise_dma (d : Dev) (c x : Nat) : (d.raise c x).dma = d.dma := Dev.post_dma d _
@[simp] theorem Dev.raise_pwr (d : Dev) (c x : Nat) : (d.raise c x).pwr = d.pwr := Dev.post_pwr d _
@[simp] theorem Dev.raise_mgmt (d : Dev) (c x : Nat) : (d.raise c x).mgmt = d.mgmt := Dev.post_mgmt d _
@[simp] theorem Dev.raise_cal (d : Dev) (c x : Nat) : (d.raise c x).cal = d.cal := Dev.post_cal d _
@[simp] theorem Dev.raise_sent (d : Dev) (c x : Nat) : (d.raise c x).sent = d.sent := Dev.post_sent d _

/-! ## Events of an item -/

@[simp] theorem Dev.raiseItem_now (d : Dev) (c x n : Nat) : (d.raiseItem c x n).now = d.now := Dev.post_now d _
@[simp] theorem Dev.raiseItem_dstate (d : Dev) (c x n : Nat) : (d.raiseItem c x n).dstate = d.dstate := Dev.post_dstate d _
@[simp] theorem Dev.raiseItem_level (d : Dev) (c x n : Nat) : (d.raiseItem c x n).level = d.level := Dev.post_level d _
@[simp] theorem Dev.raiseItem_active (d : Dev) (c x n : Nat) : (d.raiseItem c x n).active = d.active := Dev.post_active d _
@[simp] theorem Dev.raiseItem_retired (d : Dev) (c x n : Nat) : (d.raiseItem c x n).retired = d.retired := Dev.post_retired d _
@[simp] theorem Dev.raiseItem_older (d : Dev) (c x n : Nat) : (d.raiseItem c x n).older = d.older := Dev.post_older d _
@[simp] theorem Dev.raiseItem_held (d : Dev) (c x n : Nat) : (d.raiseItem c x n).held = d.held := Dev.post_held d _
@[simp] theorem Dev.raiseItem_latch (d : Dev) (c x n : Nat) : (d.raiseItem c x n).latch = d.latch := Dev.post_latch d _
@[simp] theorem Dev.raiseItem_resp (d : Dev) (c x n : Nat) : (d.raiseItem c x n).resp = d.resp := Dev.post_resp d _
@[simp] theorem Dev.raiseItem_free (d : Dev) (c x n : Nat) : (d.raiseItem c x n).free = d.free := Dev.post_free d _
@[simp] theorem Dev.raiseItem_tim (d : Dev) (c x n : Nat) : (d.raiseItem c x n).tim = d.tim := Dev.post_tim d _
@[simp] theorem Dev.raiseItem_pos (d : Dev) (c x n : Nat) : (d.raiseItem c x n).pos = d.pos := Dev.post_pos d _
@[simp] theorem Dev.raiseItem_items (d : Dev) (c x n : Nat) : (d.raiseItem c x n).items = d.items := Dev.post_items d _
@[simp] theorem Dev.raiseItem_cmp (d : Dev) (c x n : Nat) : (d.raiseItem c x n).cmp = d.cmp := Dev.post_cmp d _
@[simp] theorem Dev.raiseItem_job (d : Dev) (c x n : Nat) : (d.raiseItem c x n).job = d.job := Dev.post_job d _
@[simp] theorem Dev.raiseItem_exp (d : Dev) (c x n : Nat) : (d.raiseItem c x n).exp = d.exp := Dev.post_exp d _
@[simp] theorem Dev.raiseItem_dos (d : Dev) (c x n : Nat) : (d.raiseItem c x n).dos = d.dos := Dev.post_dos d _
@[simp] theorem Dev.raiseItem_las (d : Dev) (c x n : Nat) : (d.raiseItem c x n).las = d.las := Dev.post_las d _
@[simp] theorem Dev.raiseItem_ports (d : Dev) (c x n : Nat) : (d.raiseItem c x n).ports = d.ports := Dev.post_ports d _
@[simp] theorem Dev.raiseItem_lanes (d : Dev) (c x n : Nat) : (d.raiseItem c x n).lanes = d.lanes := Dev.post_lanes d _
@[simp] theorem Dev.raiseItem_links (d : Dev) (c x n : Nat) : (d.raiseItem c x n).links = d.links := Dev.post_links d _
@[simp] theorem Dev.raiseItem_fab (d : Dev) (c x n : Nat) : (d.raiseItem c x n).fab = d.fab := Dev.post_fab d _
@[simp] theorem Dev.raiseItem_ptp (d : Dev) (c x n : Nat) : (d.raiseItem c x n).ptp = d.ptp := Dev.post_ptp d _
@[simp] theorem Dev.raiseItem_dram (d : Dev) (c x n : Nat) : (d.raiseItem c x n).dram = d.dram := Dev.post_dram d _
@[simp] theorem Dev.raiseItem_ecc (d : Dev) (c x n : Nat) : (d.raiseItem c x n).ecc = d.ecc := Dev.post_ecc d _
@[simp] theorem Dev.raiseItem_dma (d : Dev) (c x n : Nat) : (d.raiseItem c x n).dma = d.dma := Dev.post_dma d _
@[simp] theorem Dev.raiseItem_pwr (d : Dev) (c x n : Nat) : (d.raiseItem c x n).pwr = d.pwr := Dev.post_pwr d _
@[simp] theorem Dev.raiseItem_mgmt (d : Dev) (c x n : Nat) : (d.raiseItem c x n).mgmt = d.mgmt := Dev.post_mgmt d _
@[simp] theorem Dev.raiseItem_cal (d : Dev) (c x n : Nat) : (d.raiseItem c x n).cal = d.cal := Dev.post_cal d _
@[simp] theorem Dev.raiseItem_sent (d : Dev) (c x n : Nat) : (d.raiseItem c x n).sent = d.sent := Dev.post_sent d _

/-! ## Events of a line -/

@[simp] theorem Dev.raiseAt_now (d : Dev) (c x n : Nat) : (d.raiseAt c x n).now = d.now := Dev.post_now d _
@[simp] theorem Dev.raiseAt_dstate (d : Dev) (c x n : Nat) : (d.raiseAt c x n).dstate = d.dstate := Dev.post_dstate d _
@[simp] theorem Dev.raiseAt_level (d : Dev) (c x n : Nat) : (d.raiseAt c x n).level = d.level := Dev.post_level d _
@[simp] theorem Dev.raiseAt_active (d : Dev) (c x n : Nat) : (d.raiseAt c x n).active = d.active := Dev.post_active d _
@[simp] theorem Dev.raiseAt_retired (d : Dev) (c x n : Nat) : (d.raiseAt c x n).retired = d.retired := Dev.post_retired d _
@[simp] theorem Dev.raiseAt_older (d : Dev) (c x n : Nat) : (d.raiseAt c x n).older = d.older := Dev.post_older d _
@[simp] theorem Dev.raiseAt_held (d : Dev) (c x n : Nat) : (d.raiseAt c x n).held = d.held := Dev.post_held d _
@[simp] theorem Dev.raiseAt_latch (d : Dev) (c x n : Nat) : (d.raiseAt c x n).latch = d.latch := Dev.post_latch d _
@[simp] theorem Dev.raiseAt_resp (d : Dev) (c x n : Nat) : (d.raiseAt c x n).resp = d.resp := Dev.post_resp d _
@[simp] theorem Dev.raiseAt_free (d : Dev) (c x n : Nat) : (d.raiseAt c x n).free = d.free := Dev.post_free d _
@[simp] theorem Dev.raiseAt_tim (d : Dev) (c x n : Nat) : (d.raiseAt c x n).tim = d.tim := Dev.post_tim d _
@[simp] theorem Dev.raiseAt_pos (d : Dev) (c x n : Nat) : (d.raiseAt c x n).pos = d.pos := Dev.post_pos d _
@[simp] theorem Dev.raiseAt_items (d : Dev) (c x n : Nat) : (d.raiseAt c x n).items = d.items := Dev.post_items d _
@[simp] theorem Dev.raiseAt_cmp (d : Dev) (c x n : Nat) : (d.raiseAt c x n).cmp = d.cmp := Dev.post_cmp d _
@[simp] theorem Dev.raiseAt_job (d : Dev) (c x n : Nat) : (d.raiseAt c x n).job = d.job := Dev.post_job d _
@[simp] theorem Dev.raiseAt_exp (d : Dev) (c x n : Nat) : (d.raiseAt c x n).exp = d.exp := Dev.post_exp d _
@[simp] theorem Dev.raiseAt_dos (d : Dev) (c x n : Nat) : (d.raiseAt c x n).dos = d.dos := Dev.post_dos d _
@[simp] theorem Dev.raiseAt_las (d : Dev) (c x n : Nat) : (d.raiseAt c x n).las = d.las := Dev.post_las d _
@[simp] theorem Dev.raiseAt_ports (d : Dev) (c x n : Nat) : (d.raiseAt c x n).ports = d.ports := Dev.post_ports d _
@[simp] theorem Dev.raiseAt_lanes (d : Dev) (c x n : Nat) : (d.raiseAt c x n).lanes = d.lanes := Dev.post_lanes d _
@[simp] theorem Dev.raiseAt_links (d : Dev) (c x n : Nat) : (d.raiseAt c x n).links = d.links := Dev.post_links d _
@[simp] theorem Dev.raiseAt_fab (d : Dev) (c x n : Nat) : (d.raiseAt c x n).fab = d.fab := Dev.post_fab d _
@[simp] theorem Dev.raiseAt_ptp (d : Dev) (c x n : Nat) : (d.raiseAt c x n).ptp = d.ptp := Dev.post_ptp d _
@[simp] theorem Dev.raiseAt_dram (d : Dev) (c x n : Nat) : (d.raiseAt c x n).dram = d.dram := Dev.post_dram d _
@[simp] theorem Dev.raiseAt_ecc (d : Dev) (c x n : Nat) : (d.raiseAt c x n).ecc = d.ecc := Dev.post_ecc d _
@[simp] theorem Dev.raiseAt_dma (d : Dev) (c x n : Nat) : (d.raiseAt c x n).dma = d.dma := Dev.post_dma d _
@[simp] theorem Dev.raiseAt_pwr (d : Dev) (c x n : Nat) : (d.raiseAt c x n).pwr = d.pwr := Dev.post_pwr d _
@[simp] theorem Dev.raiseAt_mgmt (d : Dev) (c x n : Nat) : (d.raiseAt c x n).mgmt = d.mgmt := Dev.post_mgmt d _
@[simp] theorem Dev.raiseAt_cal (d : Dev) (c x n : Nat) : (d.raiseAt c x n).cal = d.cal := Dev.post_cal d _
@[simp] theorem Dev.raiseAt_sent (d : Dev) (c x n : Nat) : (d.raiseAt c x n).sent = d.sent := Dev.post_sent d _

end Sys2Proof.Machine
end

