-- ==== Sys2Proof/Laws/Steps.lean ====
section
/-! SUPPORT. What the shared shapes of a command's effect can answer: each operation that the meanings are built on, once. -/

namespace Sys2Proof.Machine

/-! ## Steps -/

@[simp] theorem step_front (c : Instr) (s : State) (l : List Instr) : step { s with pending := c :: l } = exec c { s with pending := l } := rfl

theorem step_of_pending {s : State} {c : Instr} {l : List Instr} (h : s.pending = c :: l) : step s = exec c { s with pending := l } := by
  simp only [step, h]

theorem step_of_idle {s : State} (h : s.pending = []) : step s = .next s.idleClock := by simp only [step, h]

/-! ## A device that is awake or held, past BOOT or in it -/

@[simp] theorem Dev.ifAwake_awake {d : Dev} (f : Dev → Dev) (h : d.awake = true) : d.ifAwake f = f d := by simp [Dev.ifAwake, h]

@[simp] theorem Dev.ifAwake_held {d : Dev} (f : Dev → Dev) (h : d.awake = false) : d.ifAwake f = d := by simp [Dev.ifAwake, h]

@[simp] theorem Dev.hosted_up {d : Dev} (f : Dev → Dev) (h : d.dstate ≠ .boot) : d.hosted f = f d := by simp [Dev.hosted, h]

@[simp] theorem Dev.hosted_boot {d : Dev} (f : Dev → Dev) (h : d.dstate = .boot) : d.hosted f = d.barMiss := by simp [Dev.hosted, h]

/-! ## Effects on the device -/

/-- An effect on the device alone always answers a next state, and changes nothing but the device. -/
theorem onDev_next (f : Dev → Dev) (s t : State) : onDev f s = .next t ↔ t = { s with dev := s.dev.ifAwake f } := by
  simp only [onDev, Host.Outcome.next.injEq]; exact eq_comm

/-- An effect of an instance answers a next state exactly where the instance exists. -/
theorem onDevIf_next (ok : Bool) (f : Dev → Dev) (s t : State) :
    onDevIf ok f s = .next t ↔ ok = true ∧ t = { s with dev := s.dev.ifAwake f } := by
  cases ok
  · simp [onDevIf]
  · simp only [onDevIf, if_true, Host.Outcome.next.injEq, true_and]; exact eq_comm

theorem onDevIf_fault (f : Dev → Dev) (s : State) : onDevIf false f s = .fault .noSuchInstance := rfl

/-- A pin event is followed also by a device that is held. -/
theorem onPin_next (ok : Bool) (f : Dev → Dev) (s t : State) : onPin ok f s = .next t ↔ ok = true ∧ t = { s with dev := f s.dev } := by
  cases ok
  · simp [onPin]
  · simp only [onPin, if_true, Host.Outcome.next.injEq, true_and]; exact eq_comm

/-- A host command: nothing while the device is held, a counted miss in BOOT, else its effect. -/
theorem onHost_next (f : Dev → Dev) (s t : State) :
    onHost f s = .next t ↔ t = { s with dev := s.dev.ifAwake (fun d => d.hosted f) } := onDev_next _ s t

theorem onHostIf_next (ok : Bool) (f : Dev → Dev) (s t : State) :
    onHostIf ok f s = .next t ↔ ok = true ∧ t = { s with dev := s.dev.ifAwake (fun d => d.hosted f) } := onDevIf_next ok _ s t

/-! ## Effects on device and DRAM, device and flash, device and keeper -/

/-- An effect on device and DRAM: queue, keeper, flash, fuses and test port stay. -/
theorem onDevMemIf_next (ok : Bool) (f : Dev → Mem → Dev × Mem) (s t : State) (h : onDevMemIf ok f s = .next t) :
    ok = true ∧ (t = s ∨ t = { s with dev := (f s.dev s.mem).1, mem := (f s.dev s.mem).2 }) := by
  cases ok
  · simp [onDevMemIf] at h
  · simp only [onDevMemIf, if_true, Host.Outcome.next.injEq] at h
    refine ⟨rfl, ?_⟩
    split at h
    · exact .inr h.symm
    · exact .inl h.symm

/-- An effect on device and non-volatile memory: queue, DRAM and test port stay. -/
theorem onDevNv_next (f : Dev → NonVol → Dev × NonVol) (s t : State) (h : onDevNv f s = .next t) :
    t = s ∨ t = { s with dev := (f s.dev s.nv).1, nv := (f s.dev s.nv).2 } := by
  simp only [onDevNv, Host.Outcome.next.injEq] at h
  split at h
  · exact .inr h.symm
  · exact .inl h.symm

/-- An effect that may decide items: queue, DRAM and test port stay, and of the non-volatile memory all but the keeper. -/
theorem onDevKeep_next (ok : Bool) (f : Dev → Dev) (s t : State) (h : onDevKeep ok f s = .next t) :
    ok = true ∧ t.mem = s.mem ∧ t.tap = s.tap ∧ t.pending = s.pending ∧ t.nv.flash = s.nv.flash ∧ t.nv.fuses = s.nv.fuses := by
  cases ok
  · simp [onDevKeep] at h
  · simp only [onDevKeep, if_true, Host.Outcome.next.injEq] at h
    split at h <;> subst h <;> exact ⟨rfl, rfl, rfl, rfl, rfl, rfl⟩

/-- A served effect always answers a next state. -/
theorem served_next (f : State → State) (s t : State) : served f s = .next t ↔ t = serveBell (f s) := by
  simp only [served, Host.Outcome.next.injEq]; exact eq_comm

/-- With no mailbox message waiting nothing is served. -/
@[simp] theorem serveBell_none {s : State} (h : s.dev.mgmt.bell = none) : serveBell s = s := by simp [serveBell, h]

/-- Host writes that land change device and DRAM only. -/
theorem landed_next (o : Out) (t : State) (h : landed o = .next t) :
    ∃ s : State, o = .next s ∧ t = { s with dev := (drainIntake s.dev s.mem).1, mem := (drainIntake s.dev s.mem).2 } := by
  cases o with
  | next s => exact ⟨s, rfl, by simpa [landed] using h.symm⟩
  | fault f => simp [landed] at h
  | refused r => simp [landed] at h

/-- Nothing lands on a device that is held. -/
@[simp] theorem drainIntake_held {d : Dev} (m : Mem) (h : d.awake = false) : drainIntake d m = (d, m) := by simp [drainIntake, h]

/-- Nothing lands where no write waits. -/
@[simp] theorem drainIntake_none {d : Dev} (m : Mem) (h : d.noneWait = true) : drainIntake d m = (d, m) := by
  simp only [Dev.noneWait, Bool.and_eq_true, Bool.not_eq_true', List.isEmpty_iff] at h
  simp [drainIntake, h.1.1, h.1.2, h.2, landIntake]

/-- A command of the test port changes the test port only. -/
theorem onTap_next (f : Tap → Bool → Tap) (s t : State) (h : onTap f s = .next t) :
    t = s ∨ t = { s with tap := f s.tap s.dev.pwr.porst } := by
  simp only [onTap, Host.Outcome.next.injEq] at h
  split at h
  · exact .inl h.symm
  · exact .inr h.symm

/-! ## Answers over the network -/

/-- An IPv4 packet that leaves changes what was sent and what waits for an address, nothing else. -/
theorem Dev.ipRoute_rest (d : Dev) (dst : Nat) (p : List Byte) :
    ∃ l w, d.ipRoute dst p = { d with sent := l, mgmt := { d.mgmt with arpWait := w } } := by
  unfold Dev.ipRoute
  split
  · exact ⟨_, d.mgmt.arpWait, rfl⟩
  · dsimp only
    split
    · exact ⟨_, d.mgmt.arpWait, rfl⟩
    · exact ⟨_, _, rfl⟩

/-- An object protocol answer also takes two free values. -/
theorem Dev.iopSend_rest (d : Dev) (dst port : Nat) (p : List Byte) :
    ∃ l w, d.iopSend dst port p = { d with free := d.free + 2, sent := l, mgmt := { d.mgmt with arpWait := w } } := by
  unfold Dev.iopSend Dev.udpSend Dev.ipSend
  obtain ⟨l, w, h⟩ := Dev.ipRoute_rest (((d.fresh 0x422 16).2.fresh 0x420 16).2) dst _
  exact ⟨l, w, h⟩

@[simp] theorem Dev.iopSend_bell (d : Dev) (dst port : Nat) (p : List Byte) : (d.iopSend dst port p).mgmt.bell = d.mgmt.bell := by
  obtain ⟨l, w, h⟩ := d.iopSend_rest dst port p
  rw [h]

end Sys2Proof.Machine
end

