-- ==== Sys2Proof/Tests/Slice0.lean ====
section
/-! SUPPORT. Tests: ill-formed commands are refused; for each statement with hypotheses, states and operands that meet them; values of the
spec's worked examples. -/

namespace Sys2Proof.Tests

open Sys2Proof Sys2Proof.Machine

-- Many small theorems: one at a time, so that each thread's stack is given back before the next.
set_option Elab.async false

/-! ## States to test on -/

/-- A device that works, in IDLE. -/
def upD : Dev := { State.reset.dev with dstate := .idle, pwr := { State.reset.dev.pwr with porst := false } }

/-- The state with that device. -/
def up : State := { State.reset with dev := upD }

/-- The state with a device made from it. -/
def wt (f : Dev → Dev) : State := { up with dev := f upD }

/-- A device whose DRAM channel 0 is in service and ready. -/
def chD : Dev := ((upD.setB (R.DRC_CFG_EN 0) true).setB (R.DRC_STATUS_INSVC 0) true).set (R.DRC_STATUS_STATE 0) 3

/-- A device whose word `w` of SRAM memory `m` reads uncorrectable. -/
def badAt (m w : Nat) (d : Dev) : Dev := { d with ecc := { d.ecc with diffs := [(eccKey m w, 3)] } }

/-- A raster stream of one line, one band and one BLANK segment (03 Tables 3.1 to 3.3). -/
def stream : List Byte :=
  let seg := bytesOf 4 0x47535844 ++ bytesOf 4 0 ++ [0, 0, 2, 0] ++ bytesOf 2 0 ++ bytesOf 2 16 ++ bytesOf 4 0 ++ bytesOf 4 16 ++
    bytesOf 4 0
  let table := bytesOf 8 80 ++ bytesOf 4 32 ++ bytesOf 2 1 ++ bytesOf 2 0
  let hdr := bytesOf 4 0x31535844 ++ bytesOf 2 0x0100 ++ bytesOf 2 64 ++ bytesOf 8 7 ++ bytesOf 4 1 ++ bytesOf 2 16 ++ [4, 0] ++
    bytesOf 2 1 ++ bytesOf 2 0 ++ bytesOf 4 1 ++ bytesOf 4 1 ++ bytesOf 4 1 ++ bytesOf 8 64 ++ bytesOf 8 0 ++
    bytesOf 4 (crc32c table)
  hdr ++ bytesOf 4 (crc32c hdr) ++ table ++ seg ++ bytesOf 4 (crc32c seg)

/-- The header the seal check reads from it. -/
def streamHdr : DxsHdr := parseHdr (stream.take 64)

/-- A device with every power domain on. -/
def onD : Dev := upD.set R.PWR_DOM_STATUS_ON 0x1FF

/-- A state whose link `l` is in a link state. -/
def linkAt (l : Nat) (x : LinkMode) : State := wt (fun _ => onD.setLink l { st := x })

/-- An item whose template is known to be absent. -/
def item0 : Item :=
  { num := 7, input := 0, posInv := false, timeInv := false, trigPos := 0, tsec := 0, tsub := 0, verdict := .pending, start := 0,
    stop := 65536, lateGate := false, causes := 0, attempted := false, takesRec := false, tplInput := 0, record := none,
    dataLate := false, resolved := true, noTemplate := true, slot := none, tset := 0, tidx := 0, tFirst := 0, ctrEnd := false,
    snaps := [], rends := [], outs := [], decidedAt := none, dist := false, origin := 0, ownAt := none, awaiting := [],
    sent := false }

/-- A device of a fabric in a state, whose fabric port 7 is UP and MEMBER. -/
def fabD (st : FabState) : Dev :=
  let d := (((onD.setLink (fabLink 7) { st := .up }).setB R.FAB_CFG_EN true).set (R.FP_STATUS_FSTATE 7) 2).set R.FAB_STATUS_ADDR 9
  { d with fab := { d.fab with st := st } }

/-- A boot in which nothing fails to answer and nothing is measured. -/
def env0 : BootEnv :=
  { ms := 0, flash := 8388608, cut := none, flashErr := false, activeBad := none, partBad := false, bist := [], train := [], temp := 0,
    adc := [] }


/-! ## Ill-formed commands: one for each check of `Instr.instanceOk` and `Instr.operandsFit`, just beyond its bound; the commands at the bound are well-formed -/

/-- An empty frame. -/
def hf : HFrame := { start := [], body := [], startErr := false, bodyErr := false, cut := false }

theorem smoke_refused_1 : ∀ i ∈ ([.positionUpdate 4 (.analog 0 1), .encoderCheckFail 4 0 .ends, .zRisingEdge 4, .triggerEdge 8 false, .triggerAccept 8,
     .trigIssue 512, .bandWalkDone 16 0, .engineStagingFreed 32, .sliceLineDone 32 none, .cmprStart 2, .cmprAbort 2,
     .compressorInput 2 0 0 [], .compressorInput 0 16 0 [], .compressorBlockDone 2 none, .renderCompareDone [(0, 3)] [],
     .doseBeat false [1, 0], .doseBeat false [1, 5], .spillWriteDone 256 [], .refillDone 256 0 false, .train 32, .eiEnter 32,
     .eiExit 32, .loopStart 32, .loopStop 32, .loopTimeExpiry 32, .blockReceived 48 0 0, .amReceived 48 [] false,
     .trainBlockReceived 48 [], .pllLocked 32, .trainTimeout 32, .laneLoss 48 1, .laneLoss 0 6, .laneLoss 0 0,
     .eiEnterReceived 32, .signalDetected 48, .lineFrameSend 32, .credit 32 [] false, .status 32 hf] : List Instr),
    i.wellFormed = false := by decide +kernel

theorem smoke_refused_2 : ∀ i ∈ ([.statusTimeout 32, .echo 32 hf, .cmdRsp 32 0 hf, .cmdTimeout 32, .ping 32, .statusReq 32, .elemCheck 32, .setParam 32,
     .getParam 32, .clearFault 32, .elemCancel 32, .retrain 2 0, .retrain 0 2, .trainDone 2 [] [] false, .freq 2 0, .freq 0 4,
     .freqDone 2 [], .dramRequest 8 0 0 false 0 [], .dramRequest 0 3 0 false 0 [], .dramBurstComplete 2 0, .burstLate 2 0,
     .refreshInterval 2 0 0, .refreshInterval 0 2 0, .refreshInterval 0 0 2, .mr4Poll 2 0 false, .mr4Poll 0 2 false,
     .pageIdleExpiry 2 0, .pageIdleExpiry 0 128, .powerDownTimer 2 0, .powerDownTimer 0 2, .dmaStart 64 false, .dmaPause 64,
     .dmaResume 64, .dmaStop 64, .dmaBurstDone 64 none false, .drainTimeout 9, .drainTimeout 0, .crcLoad 36] : List Instr),
    i.wellFormed = false := by decide +kernel

theorem smoke_refused_3 : ∀ i ∈ ([.crcData 36 0, .crcData8 36 0, .pulseEnd 4, .fpTrain 8, .fpLoopStart 8, .fpLoopStop 8, .hello 8 hf, .helloTimeout 8,
     .lsa 8 hf, .assign 8 hf, .report 8 hf, .ready 8 hf, .pos 8 hf, .time 8 hf, .item 8 hf, .verdict 8 hf, .swapReq 8 hf,
     .swapPrep 8 hf, .swapVote 8 hf, .swapDecide 8 hf, .merge 8 hf [], .anchor 8 hf, .domainOn 9, .domainOn 0, .domainOff 9,
     .domainOff 0, .vddqFault 2, .supplyFault 3, .supplyFault 7, .ptpMessageInterval 4, .registerWrite 67108864 0,
     .bar0UnalignedAccess false 67108864, .lowerWordRead 67108864, .upperWordWrite 67108864 0, .rocRead 67108864,
     .bar4Write 16777216 [], .bar4Write 0 (List.replicate 129 0), .encoderCheckFail 0 6 .ends] : List Instr),
    i.wellFormed = false := by decide +kernel

theorem smoke_refused_4 : ∀ i ∈ ([.swap 4 false 0 0, .recPush 2048, .sessionOpen 4294967296 0 0, .sessionOpen 0 65536 0, .sessionOpen 0 0 65536,
     .sessionClose 4294967296 0 0 0, .sessionClose 0 65536 0 0, .sessionClose 0 0 65536 0, .sessionClose 0 0 0 65536,
     .sessionTimeout 65536, .elevate 4294967296 0 0 0 [], .elevate 0 65536 0 0 [], .elevate 0 0 65536 0 [],
     .elevate 0 0 0 65536 [], .keepalive 4294967296 0 0 0, .keepalive 0 65536 0 0, .keepalive 0 0 65536 0,
     .keepalive 0 0 0 65536, .read 4294967296 0 0 0 0 [] none, .read 0 65536 0 0 0 [] none, .read 0 0 65536 0 0 [] none,
     .read 0 0 0 65536 0 [] none, .read 0 0 0 0 256 [] none, .write 4294967296 0 0 0 0 false [] none,
     .write 0 65536 0 0 0 false [] none, .write 0 0 65536 0 0 false [] none, .write 0 0 0 65536 0 false [] none,
     .write 0 0 0 0 256 false [] none, .info 4294967296 0 0 0 0 [], .info 0 65536 0 0 0 [], .info 0 0 65536 0 0 [],
     .info 0 0 0 65536 0 [], .info 0 0 0 0 256 [], .devMbxDoorbell 4096] : List Instr),
    i.wellFormed = false := by decide +kernel

theorem smoke_accepted_1 : ∀ i ∈ ([.positionUpdate 3 (.analog 0 1), .encoderCheckFail 3 0 .ends, .zRisingEdge 3, .triggerEdge 7 false, .triggerAccept 7,
     .trigIssue 511, .bandWalkDone 15 0, .engineStagingFreed 31, .sliceLineDone 31 none, .cmprStart 1, .cmprAbort 1,
     .compressorInput 1 0 0 [], .compressorInput 0 15 0 [], .compressorBlockDone 1 none, .renderCompareDone [(0, 2), (1, 6)] [],
     .doseBeat false [1, 4], .spillWriteDone 255 [], .refillDone 255 0 false, .train 31, .eiEnter 31, .eiExit 31, .loopStart 31,
     .loopStop 31, .loopTimeExpiry 31, .blockReceived 47 0 0, .amReceived 47 [] false, .trainBlockReceived 47 [], .pllLocked 31,
     .trainTimeout 31, .laneLoss 47 1, .laneLoss 0 5, .eiEnterReceived 31, .signalDetected 47, .lineFrameSend 31,
     .credit 31 [] false, .status 31 hf] : List Instr),
    i.wellFormed = true := by decide +kernel

theorem smoke_accepted_2 : ∀ i ∈ ([.statusTimeout 31, .echo 31 hf, .cmdRsp 31 0 hf, .cmdTimeout 31, .ping 31, .statusReq 31, .elemCheck 31, .setParam 31,
     .getParam 31, .clearFault 31, .elemCancel 31, .retrain 1 0, .retrain 0 1, .trainDone 1 [] [] false, .freq 1 0, .freq 0 3,
     .freqDone 1 [], .dramRequest 7 0 0 false 0 [], .dramRequest 0 2 0 false 0 [], .dramBurstComplete 1 0, .burstLate 1 0,
     .refreshInterval 1 0 0, .refreshInterval 0 1 0, .refreshInterval 0 0 1, .mr4Poll 1 0 false, .mr4Poll 0 1 false,
     .pageIdleExpiry 1 0, .pageIdleExpiry 0 127, .powerDownTimer 1 0, .powerDownTimer 0 1, .dmaStart 63 false, .dmaPause 63,
     .dmaResume 63, .dmaStop 63, .dmaBurstDone 63 none false, .drainTimeout 8] : List Instr),
    i.wellFormed = true := by decide +kernel

theorem smoke_accepted_3 : ∀ i ∈ ([.crcLoad 35, .crcData 35 0, .crcData8 35 0, .pulseEnd 3, .fpTrain 7, .fpLoopStart 7, .fpLoopStop 7, .hello 7 hf,
     .helloTimeout 7, .lsa 7 hf, .assign 7 hf, .report 7 hf, .ready 7 hf, .pos 7 hf, .time 7 hf, .item 7 hf, .verdict 7 hf,
     .swapReq 7 hf, .swapPrep 7 hf, .swapVote 7 hf, .swapDecide 7 hf, .merge 7 hf [], .anchor 7 hf, .domainOn 8, .domainOff 8,
     .vddqFault 1, .supplyFault 6, .ptpMessageInterval 3, .registerWrite 67108863 0, .bar0UnalignedAccess false 67108863,
     .lowerWordRead 67108863, .upperWordWrite 67108863 0, .rocRead 67108863, .bar4Write 16777215 [],
     .bar4Write 0 (List.replicate 128 0), .encoderCheckFail 0 5 .ends] : List Instr),
    i.wellFormed = true := by decide +kernel

theorem smoke_accepted_4 : ∀ i ∈ ([.swap 3 false 0 0, .recPush 2047, .sessionOpen 4294967295 0 0, .sessionOpen 0 65535 0, .sessionOpen 0 0 65535,
     .sessionClose 4294967295 0 0 0, .sessionClose 0 65535 0 0, .sessionClose 0 0 65535 0, .sessionClose 0 0 0 65535,
     .sessionTimeout 65535, .elevate 4294967295 0 0 0 [], .elevate 0 65535 0 0 [], .elevate 0 0 65535 0 [],
     .elevate 0 0 0 65535 [], .keepalive 4294967295 0 0 0, .keepalive 0 65535 0 0, .keepalive 0 0 65535 0,
     .keepalive 0 0 0 65535, .read 4294967295 0 0 0 0 [] none, .read 0 65535 0 0 0 [] none, .read 0 0 65535 0 0 [] none,
     .read 0 0 0 65535 0 [] none, .read 0 0 0 0 255 [] none, .write 4294967295 0 0 0 0 false [] none,
     .write 0 65535 0 0 0 false [] none, .write 0 0 65535 0 0 false [] none, .write 0 0 0 65535 0 false [] none,
     .write 0 0 0 0 255 false [] none, .info 4294967295 0 0 0 0 [], .info 0 65535 0 0 0 [], .info 0 0 65535 0 0 [],
     .info 0 0 0 65535 0 [], .info 0 0 0 0 255 [], .devMbxDoorbell 4095] : List Instr),
    i.wellFormed = true := by decide +kernel


/-! ## Registers, position, jobs: what the statements assume is met -/

theorem witness_registerWrites :
    (up.dev.hostUp = true ∧ up.dev.mgmt.bell = none ∧ up.dev.noneWait = true ∧ up.dev.dstate ≠ .boot ∧ up.dev.dstate ≠ .run ∧
      (1000000#32).toNat % 2 ^ 20 = 1000000 ∧ (0x100001#32).toNat % 2 ^ 20 = 1 ∧ (0x100000#32).toNat % 2 ^ 20 = 0) ∧
    (up.dev.barSilent 0x2016C = false ∧ cmdWord 0x2016C 7 = none ∧ up.dev.strayCommand 0x2016C 7 = none ∧ 0x2016C % 4 = 0) ∧
    (wt (fun d => { d with held := d.held.put 0x20164 7 })).dev.held.find? (0x20104 + 0x20 * 3) = some 7 ∧
    (let s := wt (fun d => { d with dstate := .run })
     s.dev.hostUp = true ∧ s.dev.mgmt.bell = none ∧ s.dev.noneWait = true ∧ s.dev.dstate = .run) ∧
    (rowsAt 0x3FFFFFC = [] ∧ activeOf 0x3FFFFFC = none ∧ 0x3FFFFFC % 4 = 0) ∧ 0x20021 % 4 ≠ 0 := by decide

theorem witness_registerReads :
    up.dev.hostUp = true ∧ up.dev.mgmt.bell = none ∧ up.dev.barSilent R.POS_LO.addr = false ∧ R.POS_LO.addr % 4 = 0 ∧
    R.POS_LO.addr ≠ R.TIM_NOW_NS.addr ∧ R.POS_LO.addr ≠ R.TS_TX_POP.addr ∧
    (rowsAt R.POS_LO.addr).any (fun r => r.half == 1) = true ∧
    up.dev.barSilent 0x20170 = false ∧ 0x20170 % 4 = 0 ∧ 0x20170 ≠ R.TIM_NOW_NS.addr ∧ 0x20170 ≠ R.TS_TX_POP.addr ∧
    (rowsAt 0x20170).any (fun r => r.half == 1) = false ∧ (rowsAt 0x20170).any (fun r => r.half == 2) = false ∧
    ¬(0x198000 ≤ 0x20170 ∧ 0x20170 < 0x1A0000) ∧
    (∀ b ∈ [false, true], let s := wt (fun d => if b then badAt 9 0x1FF7 d else d)
     s.dev.hostUp = true ∧ 0x19FFDC % 4 = 0 ∧ s.dev.barSilent 0x19FFDC = false ∧ 0x198000 ≤ 0x19FFDC ∧ 0x19FFDC < 0x1A0000 ∧
      (rowsAt 0x19FFDC).any (fun r => r.half == 1) = false ∧ (rowsAt 0x19FFDC).any (fun r => r.half == 2) = false ∧
      (s.dev.sramRead 9 ((0x19FFDC - 0x198000) / 4) 14).1 = if b then none else some 0) ∧
    0x3FFFFFF % 4 ≠ 0 := by decide

theorem witness_tableWrites :
    (up.dev.hostOpen = true ∧ up.dev.remapWritable = true ∧ up.dev.corrShut = false ∧ up.dev.job.swap = none ∧
      up.dev.noneWait = true ∧ up.dev.sramKind 4 (2 * 0x1FFFF) = .clean ∧ up.dev.sramKind 4 (2 * 0x1FFFF + 1) = .clean ∧
      up.dev.sramKind 6 (0x7FFF / 2) = .clean) ∧
    (let s := wt (fun d => d.setWell 0 { st := .loading, base := 0, size := 2 ^ 20 })
     s.dev.hostOpen = true ∧ s.dev.noneWait = true ∧
      s.dev.wellTakes (s.dev.get R.INTAKE_WIN_WELL) (s.dev.get R.INTAKE_WIN_OFS * 2 ^ 20 + 0xFFFFF) 1 = true ∧
      s.dev.wellTakes (s.dev.get R.INTAKE_WIN_WELL) (s.dev.get R.INTAKE_WIN_OFS * 2 ^ 20 + 0xFFFFF) 2 = false) := by decide +kernel

/-- A device whose source encoder 0 counts every edge; it stands at the weir's count, which is 4. -/
def counting : State := wt (fun d =>
  let d1 := ((d.setB (R.ENC_CFG_EN 0) true).set (R.ENC_CFG_DECODE 0) 0).set R.WEIR_DEPTH 4
  { d1 with pos := { d1.pos with cW := 4, cL := 0, pL := 0, weir := 2 ^ 40 } }.setEnc 0 { d1.enc 0 with c := 4 })

/-- The same one count short of the depth, about to count back once more. -/
def backing : State := { counting with dev := counting.dev.setEnc 0 { counting.dev.enc 0 with c := 1 } }

theorem witness_positionUpdateCounts :
    (let s := wt (fun d => d.setB (R.ENC_CFG_EN 3) true)
     Up s ∧ s.dev.is (R.ENC_CFG_EN 3) = true ∧ s.dev.evt.latched = [] ∧ s.dev.srcEnc ≠ some 3 ∧ s.dev.chkEnc ≠ some 3) ∧
    (let s := wt (fun d => ((d.setB (R.ENC_CFG_EN 3) true).setB (R.ENC_CFG_MODE 3) true).setEnc 3 { d.enc 3 with ang := some 0 })
     Up s ∧ s.dev.is (R.ENC_CFG_EN 3) = true ∧ s.dev.evt.latched = [] ∧ s.dev.srcEnc ≠ some 3 ∧ s.dev.chkEnc ≠ some 3 ∧
      ampOk (sampleAmp 4000 0) = true ∧ (angleStep (s.dev.enc 3).ang (sampleAngle 4000 0)).natAbs = 1024) ∧
    (∀ x ∈ [counting, backing], Up x ∧ x.dev.is (R.ENC_CFG_EN 0) = true ∧ x.dev.evt.latched = [] ∧ x.dev.srcEnc = some 0 ∧
      x.dev.chkEnc = none ∧ x.dev.pos.reversal = false ∧ x.dev.pos.excursion = false ∧
      ((x.dev.enc 0).a = false ∧ (x.dev.enc 0).b = false) ∧ x.dev.edgeDelta 0 (.quad false true) = -1 ∧
        (let c := toSigned 64 (ofSigned 64 ((x.dev.enc 0).c + x.dev.edgeDelta 0 (.quad false true)))
         0 < x.dev.pos.cW - c ∧ x.dev.pos.cW - c ≤ x.dev.get R.WEIR_DEPTH ∧
          posFrom (x.dev.ratio 0) c x.dev.pos.cL x.dev.pos.pL ≤ x.dev.pos.weir)) := by
  unfold Up; decide +kernel

theorem witness_encoderChecks :
    (∀ m ∈ [(1, 0, false), (5, 4, true)], let s := wt (fun d => (d.setB (R.ENC_CFG_EN 3) true).setB (R.ENC_CFG_MODE 3) m.2.2)
     Up s ∧ s.dev.is (R.ENC_CFG_EN 3) = true ∧ encStatusBit m.1 = some m.2.1 ∧ checkApplies m.1 (s.dev.is (R.ENC_CFG_MODE 3)) = true) ∧
    (let s := wt (fun d => d.setB (R.ENC_CFG_EN 0) true)
     Up s ∧ s.dev.is (R.ENC_CFG_EN 0) = true ∧ s.dev.get (R.ENC_CFG_ZCHK 0) = 0) ∧
    (let s := wt (fun d => (((d.setB (R.ENC_CFG_EN 3) true).set (R.ENC_CFG_ZCHK 3) 1).set (R.ENC_CPR 3) 10000).setEnc 3
        { d.enc 3 with c := 9, lastZ := some 0 })
     Up s ∧ s.dev.is (R.ENC_CFG_EN 3) = true ∧ s.dev.get (R.ENC_CFG_ZCHK 3) = 1 ∧ (s.dev.enc 3).lastZ = some 0 ∧
      ((s.dev.enc 3).c - 0).natAbs + s.dev.get (R.ENC_ZTOL 3) < s.dev.get (R.ENC_CPR 3)) ∧
    (let s := wt (fun d => { d with now := 2 ^ 30, pos := { d.pos with tClr := some 0 } })
     Up s ∧ s.dev.windowFull = true ∧ s.dev.pos.tClr = some 0) ∧
    (Up up ∧ up.dev.dstate ≠ .run ∧ 3 < 4) := by unfold Up; decide

theorem witness_positionLoads :
    (∀ p ∈ [0, 1], let s := wt (fun d => d.set64 R.POS_LD_LO p)
     Up s ∧ s.dev.dstate = .idle ∧ s.dev.evt.latched = [] ∧ s.dev.get R.POS_CTRL_SRC ≠ 4 ∧ s.dev.pos.reversal = false ∧
      if p = 0 then (s.dev.get64 R.POS_LD_LO : Int) ≤ s.dev.pos.weir else s.dev.pos.weir < (s.dev.get64 R.POS_LD_LO : Int)) ∧
    (∀ p ∈ [0, 1], let s := wt (fun d => (d.set64 R.POS_LD_LO p).setB R.POS_STATUS_VALID false)
     Up s ∧ s.dev.is R.POS_STATUS_VALID = false ∧ s.dev.causePersists = false ∧
      s.dev.pos.reversal = false ∧ s.dev.get R.POS_CTRL_SRC ≠ 4 ∧ s.dev.evt.latched = [] ∧
      if p = 0 then (s.dev.get64 R.POS_LD_LO : Int) ≤ s.dev.pos.weir else s.dev.pos.weir < (s.dev.get64 R.POS_LD_LO : Int)) := by
  unfold Up; decide

theorem witness_triggersAccepted :
    (let s := wt (fun d => d.setB (R.TRG_CFG_EN 7) true)
     s.dev.is (R.TRG_CFG_EN 7) = true ∧
      ((true != s.dev.is (R.TRG_CFG_EDGE 7)) = true ∧ (s.dev.trg 7).level = !true ∨
        (false != s.dev.is (R.TRG_CFG_EDGE 7)) = true ∧ (s.dev.trg 7).level = !false)) ∧
    (let s := wt (fun d => (d.setB (R.TRG_CFG_EN 7) true).setTrg 7 { d.trg 7 with edgeAt := some 0 })
     Up s ∧ s.dev.is (R.TRG_CFG_EN 7) = true ∧ (s.dev.trg 7).edgeAt = some 0 ∧ (s.dev.trg 7).lastPos = none) ∧
    (let s := wt (fun d => (d.setB (R.TRG_CFG_EN 7) true).setTrg 7 { d.trg 7 with edgeAt := some 0, lastPos := some 0 })
     Up s ∧ s.dev.is (R.TRG_CFG_EN 7) = true ∧ (s.dev.trg 7).edgeAt = some 0 ∧ (s.dev.trg 7).lastPos = some 0 ∧
      satPos (s.dev.extrap ((s.dev.now : Int) - (s.dev.get (R.TRG_FILT 7) + 3 : Nat))).toNat < 0 + s.dev.get (R.TRG_HOLD 7)) := by
  unfold Up; decide

theorem witness_wellCommands :
    (let s := wt (fun _ => chD)
     let d := s.dev.wrap R.JOB_RESULT_SEQ 1
     Up s ∧ s.dev.is R.JOB_RESULT_BUSY = false ∧ (d.well 15).st = .free ∧ 0 + 2 ^ 20 ≤ d.placeCapacity 1 ∧
      d.meetsWell (some 15) 1 0 (2 ^ 20) = false ∧
      regionsOverlap 1 0 (2 ^ 20) (d.get R.LAS_REG_PLACE) (d.get64 R.LAS_REG_BASE_LO) (d.get64 R.LAS_REG_SIZE_LO) = false ∧
      d.placeIn 1 = true) ∧
    (∀ st ∈ [WellState.closed, .sealed], let s := wt (fun d => d.setWell 15 { st := st })
     let d := s.dev.wrap R.JOB_RESULT_SEQ 1
     Up s ∧ s.dev.is R.JOB_RESULT_BUSY = false ∧ d.wellInUse 15 = false ∧ (d.well 15).st = st) ∧
    (let s := wt (fun d => d.setWell 15 { st := .loading })
     let d := s.dev.wrap R.JOB_RESULT_SEQ 1
     Up s ∧ s.dev.is R.JOB_RESULT_BUSY = false ∧ (d.well 15).st = .loading ∧ d.cmprOnWell 15 = false) ∧
    (let t := wt (fun _ => { chD.setWell 15 { st := .sealing, place := 1, size := 2 ^ 20 } with
        job := { (chD.setWell 15 { st := .sealing, place := 1, size := 2 ^ 20 }).job with sealing := some 15 } })
     let s := { t with mem := t.mem.write 1 0 stream }
     Up s ∧ s.dev.job.sealing = some 15 ∧ s.dev.memHeld (s.dev.well 15).place = false ∧ s.dev.job.intake = [] ∧
      sealCheck (fun o n => s.dev.wellRead s.mem 15 o n) (s.dev.well 15).size = .pass streamHdr 32 ∧
      sealCheck (fun o n => t.dev.wellRead t.mem 15 o n) (t.dev.well 15).size = .fail 1 0) := by
  unfold Up; decide +kernel

/-- A device with a sealed well 15. -/
def sealedD : Dev := upD.setWell 15 { st := .sealed, hdr := streamHdr }

theorem witness_queueCommands :
    (let s := wt (fun _ => sealedD)
     let d := s.dev.wrap R.JOB_RESULT_SEQ 1
     Up s ∧ s.dev.is R.JOB_RESULT_BUSY = false ∧ (List.range 16).find? (fun q => (d.slot q).st == .empty) = some 0 ∧
      (d.well 15).st = .sealed ∧ 0 < (d.well 15).hdr.bandCount ∧ d.endBefore d.job.order.getLast? = some 0 ∧
      posFits 0 (d.well 15).hdr.lines = true ∧ posFits ((d.endBefore d.job.order.getLast?).getD 0) (d.well 15).hdr.lines = true) ∧
    (∀ st ∈ [SlotState.ended, .active, .queued, .head],
      let s := wt (fun d => let e := d.setSlot 15 { st := st }; { e with job := { e.job with order := [15] } })
      let d := s.dev.wrap R.JOB_RESULT_SEQ 1
      Up s ∧ s.dev.is R.JOB_RESULT_BUSY = false ∧ (d.slot 15).st = st) := by unfold Up; decide

/-- A device that prints and whose Shadow profile is complete. -/
def printD : Dev :=
  ((((({ upD with dstate := .run }).setB R.CMP_STATUS_TPL_VALID true).setB R.DOS_STATUS_SCR_VALID true).setB
    R.DOS_STATUS_CORR_VALID true).setB R.LAS_STATUS_REMAP_VALID true)

theorem witness_swapAndResume :
    (let s := wt (fun _ => printD)
     let d := s.dev.wrap R.JOB_RESULT_SEQ 1
     Up s ∧ s.dev.is R.JOB_RESULT_BUSY = false ∧ d.printing = true ∧ d.swapRefused (some 7) = none ∧
      d.swapRefused (some 6) ≠ none) ∧
    (let s := wt (fun _ => { printD with job := { printD.job with
        swap := some { form := 0, arg := 0, n := none, fabric := false, granted := false } } })
     Up s ∧ s.dev.is R.JOB_RESULT_BUSY = false ∧ s.dev.job.swap.isSome = true) ∧
    (let s := wt (fun _ => printD)
     Up s ∧ s.dev.is R.JOB_RESULT_BUSY = false ∧ s.dev.job.swap = none ∧ s.dev.dstate = .run ∧ s.dev.level ≠ .basic ∧
      s.dev.job.resume = none ∧ floorLine s.dev.pos.weir + s.dev.job.workW + 1 ≤ 7) ∧
    (let r : Resume := { n := 9, keep := 5, frontier := 4, lateRaised := false }
     let s := wt (fun _ => { printD with job := { printD.job with resume := some r } })
     Up s ∧ s.dev.job.resume = some r ∧ s.dev.refilled r = true) := by unfold Up; decide

theorem witness_rowsIssue :
    (∀ inh ∈ [true, false], let s := wt (fun d => let d1 := ({ d with dstate := .run }).setB R.POS_STATUS_VALID true
        let e := (d1.set (R.HPF_STATUS_FSTATE 0) 3).set (R.HPF_HP 0) 16
        { e with active := e.active.put (R.ROW_EN 511).addr 1, pos := { e.pos with inhibit := inh, posInt := 2 ^ 20 } } )
     Up s ∧ rowOn (s.dev.fireProf (s.dev.row 511).next) 511 = true ∧ s.dev.pos.reversal = false ∧
      0 ≤ s.dev.lateness 511 (s.dev.row 511).next ∧
      (s.dev.withhold 511 (s.dev.row 511).next (rowPort (s.dev.fireProf (s.dev.row 511).next) 511)
        (s.dev.firePoint 511 (s.dev.row 511).next) = if inh then [.inhibit] else []) ∧
      s.dev.pathFree (rowPort (s.dev.fireProf (s.dev.row 511).next) 511) (s.dev.row 511).next = true ∧ s.dev.pos.inhibit = inh) := by
  unfold Up; decide

/-! ## Expansion, compression, composition, dose mapping, cisterns -/

/-- A segment of slice 31 that the walk could not accept, and one with a payload. -/
def badSeg : Seg :=
  { slice := 31, plane := 0, raw := true, blank := false, colFirst := 0, colCount := 16, payLen := 16, rawLen := 16, crc := 0,
    ofs := 112, bad := some 3 }

/-- A device whose slot 15 is active and whose engine 31 runs with line 5 waiting, band 0 walked as `segs`. -/
def engineD (segs : List Seg) : Dev :=
  let d := upD.setSlot 15 { st := .active, hdr := streamHdr }
  { d with exp := { d.exp with
      walks := [{ slot := 15, band := 0, segs := segs }]
      engines := SMap.put [] 31 { st := .run, pend := [{ line := 5, slot := 15, jline := 0, toStage := true }] } } }

theorem witness_enginesExpand :
    (let s := wt (fun d => { d with exp := { d.exp with walkPend := [(15, 3)] } })
     Up s ∧ s.dev.walkSlot 15 3 = 15 ∧ (∀ w ∈ s.dev.exp.walkPend, w.1 < 16) ∧
      s.dev.exp.walkPend.contains (15, 3) = true ∧ s.dev.exp.walkPend.contains (15, 2) = false ∧
      s.dev.memHeld (s.dev.well (s.dev.slot 15).well).place = false) ∧
    (let s := wt (fun _ => engineD [badSeg])
     let l : RelLine := { line := 5, slot := 15, jline := 0, toStage := true }
     let h := (s.dev.slot 15).hdr
     let r := s.dev.expandSeg s.mem (s.dev.slot 15).well badSeg (histOf 1)
       (if 0 + 1 = bandLinesOf h 0 then badSeg.rawLen + 1 else h.segLine badSeg * (0 + 1)) {}
     Up s ∧ (s.dev.eng 31).st = .run ∧ (s.dev.eng 31).pend = [l] ∧ s.dev.memHeld (s.dev.well (s.dev.slot 15).well).place = false ∧
      s.dev.walkOf 15 (0 / h.bandLines) = some [badSeg] ∧
      segsOfSlice [badSeg] 31 = [badSeg] ∧ (s.dev.eng 31).ctxsFor (15, 0) 1 = [{}] ∧
      r.code = some 3 ∧ endedBy (planeFormat h) h.depth (bandLinesOf h 0) (0 % h.bandLines) r = true ∧
      s.dev.stagedBytes 31 + (sliceOf r.out (h.segLine r.seg * 0) (h.segLine r.seg)).length ≤ 32768) ∧
    (let s := wt (fun _ => engineD [])
     Up s ∧ (s.dev.eng 31).st = .run ∧ (s.dev.eng 31).pend = [{ line := 5, slot := 15, jline := 0, toStage := true }] ∧
      s.dev.ledgerAt 5 ≠ .dry ∧ s.dev.walkOf 15 (0 / (s.dev.slot 15).hdr.bandLines) = some [] ∧ segsOfSlice [] 31 = [] ∧
      s.dev.stagedBytes 31 ≤ 32768) ∧
    (Up up ∧ (up.dev.eng 31).st ≠ .run) ∧
    (let s := wt (fun d => d.setEng 31 { st := .wait })
     Up s ∧ (s.dev.eng 31).st = .wait ∧ s.dev.stagedBytes 31 + 64 ≤ 32768) := by unfold Up; decide +kernel

/-- A staged line of 8 segments of 4,089 bytes each. -/
def fullLine : StagedLine := { line := 5, slot := 15, parts := List.replicate 8 (badSeg, List.replicate 4089 0) }

theorem witness_enginesExpand_full :
    (let s := wt (fun d => d.setEng 31 { st := .wait, staged := [fullLine] })
     Up s ∧ 32768 < s.dev.stagedBytes 31 + 64) := by
  unfold Up; decide +kernel

/-- A device with both domains of the compressors on. -/
def cmprD : Dev := upD.set R.PWR_DOM_STATUS_ON 0x1FF

/-- A well 15 that takes what is written to it. -/
def loadWell : Well := { st := .loading, place := 1, size := 2 ^ 20 }

/-- A task of compressor 1 of 16 bytes, RAW only, with its input complete. -/
def task : Cmpr :=
  { busy := true, started := true, well := 15, effort := 0, colCount := 16, lines := 1, rawLen := 16, inp := List.replicate 16 7 }

theorem witness_compressorTasks :
    (let s := wt (fun _ => (((cmprD.set (R.CMPR_CFG_FORMAT 1) 1).set (R.CMPR_CFG_DEPTH 1) 4).set
        (R.CMPR_SEG2_COL_COUNT 1) 8192).set (R.CMPR_SEG2_LINES 1) 4096)
     Up s ∧ s.dev.domOn 6 = true ∧ s.dev.domOn 7 = true ∧ (s.dev.cmpr 1).busy = false ∧ s.dev.cmprTaskOk 1 = true) ∧
    (let s := wt (fun _ => cmprD.set (R.CMPR_SEG2_COL_COUNT 1) 8193)
     Up s ∧ s.dev.domOn 6 = true ∧ s.dev.domOn 7 = true ∧ (s.dev.cmpr 1).busy = false ∧ s.dev.cmprTaskOk 1 = false ∧
      (s.dev.cmpr 1).committed = false) ∧
    (let s := wt (fun _ => cmprD.setCmpr 1 { committed := true })
     Up s ∧ s.dev.domOn 6 = true ∧ s.dev.domOn 7 = true ∧ (s.dev.cmpr 1).busy = false ∧ (s.dev.cmpr 1).committed = true) ∧
    (let s := wt (fun _ => cmprD.setCmpr 1 task)
     Up s ∧ s.dev.domOn 6 = true ∧ s.dev.domOn 7 = true ∧ (s.dev.cmpr 1).busy = true) := by unfold Up; decide

theorem witness_compressorWrites :
    (let s := wt (fun _ => (cmprD.setWell 15 loadWell).setCmpr 1 { task with started := false, inp := [] })
     Up s ∧ (s.dev.cmpr 1).busy = true ∧ (s.dev.cmpr 1).started = false ∧ (s.dev.cmpr 1).inp = [] ∧ (s.dev.cmpr 1).hdrDue = false ∧
      s.dev.wellTakes 15 (2 ^ 20 - 32) 32 = true ∧ s.dev.wellTakes 15 (2 ^ 20 - 31) 32 = false) ∧
    (∀ b ∈ [false, true], let s := wt (fun _ => ((if b then chD.set (R.DRC_STATUS_STATE 0) 1 else chD).setWell 15 loadWell).setCmpr 1 { task with hdrDue := true })
     let x := s.dev.cmpr 1
     x.hdrDue = true ∧ s.dev.memHeld (s.dev.well x.well).place = b ∧ s.dev.wellTakes x.well x.ofs 32 = true) ∧
    (Up up ∧ (up.dev.cmpr 1).busy = false) ∧
    (let s := wt (fun _ => (cmprD.setWell 15 loadWell).setCmpr 1 task)
     let x := s.dev.cmpr 1
     Up s ∧ x.busy = true ∧ x.started = true ∧ x.effort = 0 ∧ s.dev.memHeld (s.dev.well x.well).place = false ∧ x.coded < x.rawLen ∧
      x.rawLen - x.coded ≤ 65536 ∧ x.coded + min 65536 (x.rawLen - x.coded) ≤ x.inp.length ∧ x.inp.length = x.rawLen ∧
      s.dev.wellTakes x.well (x.ofs + 32 + x.pay.length) (x.blockPay x.inp true).1.length = true) ∧
    (let s := wt (fun _ => (cmprD.setWell 15 loadWell).setCmpr 1 { task with effort := 1, pay := List.replicate 17 0 })
     let x := s.dev.cmpr 1
     Up s ∧ x.busy = true ∧ x.started = true ∧ x.effort ≠ 0 ∧ s.dev.memHeld (s.dev.well x.well).place = false ∧ x.coded < x.rawLen ∧
      x.coded + min 65536 (x.rawLen - x.coded) = x.rawLen ∧ x.rawLen ≤ x.inp.length ∧
      x.rawLen < x.pay.length + 0) := by unfold Up; decide +kernel

/-- Glyph store with an empty font of height 1 in slot 31, page 1, without its CRC, and the CRC of the font. -/
def fontBase : SMap Word := [(62, 0x00010001), (1024, 0x31465844), (1025, 0x00010000)]

/-- The store with a CRC in place. -/
def fontWith (v : Nat) : SMap Word := fontBase ++ [(1031, BitVec.ofNat 32 v)]

/-- The store with the CRC of the font (05 R162). -/
def fontStore : SMap Word :=
  fontWith (crc32c (stBytes fontBase 4096 28 ++ List.replicate 4 0 ++ stBytes fontBase 4128 4064))

theorem crcByteR_lt (c : Nat) (b : Byte) (h : c < 2 ^ 32) : crcByteR 0x82F63B78 c b < 2 ^ 32 := by
  have bit : ∀ x, x < 2 ^ 32 → crcBitR 0x82F63B78 x < 2 ^ 32 := by
    intro x hx; unfold crcBitR
    have : x >>> 1 < 2 ^ 32 := by rw [Nat.shiftRight_eq_div_pow]; omega
    split
    · exact Nat.xor_lt_two_pow this (by decide)
    · exact this
  have all : ∀ (l : List Nat) x, x < 2 ^ 32 → l.foldl (fun x _ => crcBitR 0x82F63B78 x) x < 2 ^ 32 := by
    intro l; induction l with
    | nil => exact fun _ hx => hx
    | cons a r ih => exact fun x hx => ih _ (bit x hx)
  exact all _ _ (Nat.xor_lt_two_pow h (Nat.lt_of_lt_of_le b.isLt (by decide)))

theorem crc32c_lt (l : List Byte) : crc32c l < 2 ^ 32 := by
  have : ∀ (l : List Byte) c, c < 2 ^ 32 → crc32cRun c l < 2 ^ 32 := by
    intro l; induction l with
    | nil => exact fun _ h => h
    | cons a r ih => exact fun c h => ih _ (crcByteR_lt c a h)
  exact Nat.xor_lt_two_pow (this l _ (by decide)) (by decide)

theorem fontWith_ok (v : Nat) (hv : v < 2 ^ 32)
    (h : crc32c (stBytes fontBase 4096 28 ++ List.replicate 4 0 ++ stBytes fontBase 4128 4064) = v) :
    fontOk (fontWith v) 31 = true := by
  have hs : glyphSlot (fontWith v) 31 = (1, 1, false) := by
    simp [glyphSlot, stNum, stBytes, stByte, fontWith, fontBase, SMap.get, SMap.find?, leOf, bitsOf, hasBit, List.range, List.range.loop]
  have hf : fontOf (fontWith v) 31 = { ofs := 4096, size := 4096, count := 0, height := 1 } := by
    simp [glyphSlot, fontOf, stNum, stBytes, stByte, fontWith, fontBase, SMap.get, SMap.find?, leOf, bitsOf, hasBit, List.range, List.range.loop]
  have h1 : stNum (fontWith v) 4096 4 = 0x31465844 := by
    simp [stNum, stBytes, stByte, fontWith, fontBase, SMap.get, SMap.find?, leOf, bitsOf, List.range, List.range.loop]
  have h2 : stBytes (fontWith v) 4096 28 = stBytes fontBase 4096 28 := by rfl
  have h3 : stBytes (fontWith v) 4128 4064 = stBytes fontBase 4128 4064 := by
    refine List.map_congr_left fun i _ => ?_
    have : (fontWith v).get 0 ((4128 + i) / 4) = fontBase.get 0 ((4128 + i) / 4) := by
      have : 1031 < (4128 + i) / 4 := by omega
      generalize (4128 + i) / 4 = x at this
      simp [fontWith, fontBase, SMap.get, SMap.find?, show ¬ x < 62 by omega, show ¬ x = 62 by omega, show ¬ x < 1024 by omega,
        show ¬ x = 1024 by omega, show ¬ x < 1025 by omega, show ¬ x = 1025 by omega, show ¬ x < 1031 by omega,
        show ¬ x = 1031 by omega]
    unfold stByte; rw [this]
  have h4 : stNum (fontWith v) 4124 4 = v := by
    show leOf [BitVec.ofNat 8 (bitsOf (BitVec.ofNat 32 v).toNat 0 8), BitVec.ofNat 8 (bitsOf (BitVec.ofNat 32 v).toNat 8 8),
      BitVec.ofNat 8 (bitsOf (BitVec.ofNat 32 v).toNat 16 8), BitVec.ofNat 8 (bitsOf (BitVec.ofNat 32 v).toNat 24 8)] = _
    simp [leOf, bitsOf, Nat.shiftRight_eq_div_pow]
    omega
  have h5 : crc32c (stBytes (fontWith v) 4096 28 ++ 0#8 :: 0#8 :: 0#8 :: 0#8 :: stBytes (fontWith v) 4128 4064) = v := by
    rw [h2, h3, ← h]; simp [List.replicate]
  simp [fontOk, hs, hf, h1, h4, h5]

/-- An item data record without fields, for the next trigger. -/
def recordBytes : List Byte :=
  let b := bytesOf 2 20 ++ [0, 0xFF] ++ bytesOf 12 0
  b ++ bytesOf 4 (crc32c b)

/-- A device whose record window holds it. -/
def recordD : Dev := (wordsOf recordBytes).zipIdx.foldl (fun d w => d.setReg (R.CMP_REC_WIN w.2).addr w.1) upD

theorem witness_compositionCommands :
    (Up up ∧ up.dev.cmp.validating = false ∧ up.dev.dstate ≠ .run ∧ up.dev.fontLocked 31 = false) ∧
    (let s := wt (fun d => { d with dstate := .run })
     Up s ∧ s.dev.cmp.validating = false ∧ s.dev.dstate = .run) ∧
    (let s := wt (fun d => { d with cmp := { d.cmp with validating := true } })
     Up s ∧ s.dev.cmp.validating = true ∧ s.dev.tplFailure = none ∧ s.dev.ecc.diffs = []) ∧
    (let s := wt (fun d => { d with cmp := { d.cmp with validating := true, tplS := SMap.put [] 15 1 } })
     Up s ∧ s.dev.cmp.validating = true ∧ s.dev.tplFailure = some (1, 60)) ∧
    (let s := wt (fun _ => recordD)
     let l := (bytesOfWords ((List.range 256).map (fun i => s.dev.reg (R.CMP_REC_WIN i).addr))).take 20
     Up s ∧ 20 ≤ 1024 ∧ l = recordBytes ∧ (s.dev.pushResult l).1 = 0 ∧ (s.dev.pushResult l).2.isSome = true ∧
      s.dev.pushResult (l.take 19) = (2, none)) := by
  unfold Up; decide +kernel

theorem witness_compositionCommands_font :
    (let s := wt (fun d => (d.set R.CMP_GLYPH_SEL 31))
     let t := { s with dev := { s.dev with cmp := { s.dev.cmp with glyph := fontStore } } }
     Up t ∧ t.dev.cmp.validating = false ∧ t.dev.get R.CMP_GLYPH_SEL = 31 ∧ t.dev.fontLocked 31 = false ∧
      t.dev.ecc.diffs = [] ∧ fontOk t.dev.glyphStore 31 = true) :=
  ⟨by unfold Up; decide, by decide, by decide, by decide +kernel, rfl, fontWith_ok _ (crc32c_lt _) rfl⟩

/-- A template store whose set 1, template 0 stands at 0x1500 and shows text in font 31. -/
def lockStore : SMap Word := [(16, 0xA8), (1344, 0x31545844), (1345, 1), (1352, 1), (1353, 0x1F000000)]

theorem witness_compositionCommands_locked :
    (let s := wt (fun d => (d.set R.CMP_GLYPH_SEL 31))
     let t := { s with dev := { s.dev with cmp := { s.dev.cmp with tplS := lockStore } } }
     Up t ∧ t.dev.cmp.validating = false ∧ t.dev.fontLocked (t.dev.get R.CMP_GLYPH_SEL) = true) := by
  unfold Up; decide +kernel

/-- A rendering that waits, and one that runs. -/
def rendW : Rend := { gen := 0, st := .waiting, fields := [] }
def rendR : Rend := { gen := 0, st := .running, fields := [] }

theorem witness_renderingRuns :
    (let i := { item0 with rends := [rendW] }
     let s := wt (fun d => { d with items := [i] })
     Up s ∧ s.dev.cmp.rendering = none ∧ s.dev.inOrder (fun i => i.rends.any (fun r => r.st == .waiting)) = [i] ∧
      (i.takesRec && i.record.isNone && !i.dataLate) = false ∧ i.rends.find? (fun r => r.st == .waiting) = some rendW ∧
      s.dev.imageUse + 2 * ((s.dev.renderAll i rendW.gen).map (fun f => f.img.size)).sum ≤ 1310720) ∧
    (let i := { item0 with rends := [rendR] }
     let s := wt (fun d => { d with items := [i], cmp := { d.cmp with rendering := some (7, 0) } })
     Up s ∧ s.dev.cmp.rendering = some (7, 0) ∧ s.dev.item? 7 = some i ∧
      i.rends.find? (fun r => r.gen == 0) = some rendR ∧ rendR.st = .running) ∧
    (Up up ∧ up.dev.cmp.rendering = none) := by unfold Up; decide +kernel

theorem witness_doseMapping :
    (∀ w ∈ [true, false], let x : RelLine := { line := 5, slot := 15, jline := 0, toStage := true }
     let s := wt (fun d => { d with dos := { d.dos with queue := [x], waited := w } })
     let t := wt (fun d => { d with dos := { d.dos with queue := [x], waited := w }
                                    las := { d.las with cis := SMap.put [] 255 { long := true, head := List.replicate 64 (0, []) } } })
     Up s ∧ s.dev.dos.line = none ∧ s.dev.dos.queue = [x] ∧ s.dev.admits = true ∧ s.dev.waitsRendering 5 = false ∧
      Up t ∧ t.dev.dos.line = none ∧ t.dev.dos.queue = [x] ∧ t.dev.admits = false ∧ t.dev.dos.waited = w) ∧
    (let x : RelLine := { line := 5, slot := 15, jline := 0, toStage := true }
     let s := wt (fun d => { d with dos := { d.dos with line := some 5, queue := [x], lastSlice := 30 } })
     Up s ∧ s.dev.dos.line = some 5 ∧ s.dev.dos.queue = [x] ∧ s.dev.nextSlice x = some 31 ∧ s.dev.sliceParts x 31 = some [] ∧
      (s.dev.beatFaults (s.dev.slot x.slot).hdr [] 5 31 0).eraseDups = [] ∧
      planeConflicts ((List.range 64).map (fun j => (8192 * 31 + 64 * 0 + j, planeAt [] (64 * 0 + j)))) 5 (s.dev.fieldsOn 5) =
        []) := by unfold Up; decide +kernel

theorem witness_screenAndCorrection :
    (Up up ∧ up.dev.dos.validating = false ∧ up.dev.is R.DOS_STATUS_COPYING = false) ∧
    (let s := wt (fun d => { d with dos := { d.dos with validating := true } })
     Up s ∧ s.dev.dos.validating = true ∧ s.dev.screenCheck = none ∧ s.dev.ecc.diffs = []) ∧
    (let s := wt (fun d => ({ d with dos := { d.dos with validating := true } }.set (R.SCR_BASE 7) 0xFFFF).set (R.SCR_WM1 7) 255)
     Up s ∧ s.dev.dos.validating = true ∧ s.dev.screenCheck = some (1, 7)) ∧
    (let s := wt (fun d => d.setB R.DOS_STATUS_COPYING true)
     Up s ∧ s.dev.is R.DOS_STATUS_COPYING = true) := by unfold Up; decide +kernel

theorem witness_cisternTraffic :
    (∀ b ∈ [[], [(8, [0])]], let x : Cis := { inUse := true, long := true, width := 64, cap := 16, head := [(9, List.replicate 64 1)], bad := b }
     let s := wt (fun _ => { chD with las := { chD.las with place := 1, cis := SMap.put [] 255 x, ledger := SMap.put [] 9 .data } })
     Up s ∧ s.dev.las.cis.get {} 255 = x ∧ s.dev.memHeld s.dev.las.place = false ∧ s.dev.ledgerAt 9 = .data ∧
      s.dev.passedLine 255 9 = false ∧ s.dev.inResume (9 + classDelay s.dev.active 255) = false ∧ ∀ e ∈ x.bad, e.1 ≠ 9) ∧
    (let x : Cis := { inUse := true, long := true, width := 64, cap := 16, mid := [9, 10] }
     let s := wt (fun _ => { chD with las := { chD.las with place := 1, tr := 4, cis := SMap.put [] 255 x } })
     let t := wt (fun _ => { chD with las := { chD.las with place := 2, tr := 4, cis := SMap.put [] 255 x } })
     let got := fun (s : State) => (regionRead s.dev s.mem 1 s.dev.las.place (s.dev.recordAddr x 9) x.width).1
     Up s ∧ s.dev.las.cis.get {} 255 = x ∧ x.mid = [9, 10] ∧ x.tail.length < s.dev.las.tr ∧
      s.dev.memHeld s.dev.las.place = false ∧ got s = .inl (List.replicate 64 0) ∧
      Up t ∧ t.dev.las.cis.get {} 255 = x ∧ t.dev.memHeld t.dev.las.place = false ∧ got t ≠ .inl (List.replicate 64 0) ∧ 10 ≠ 9) ∧
    (Up up ∧ (up.dev.las.cis.get {} 255).mid = [] ∧ (up.dev.las.cis.get {} 255).head = []) := by unfold Up; decide +kernel

theorem witness_remapAndPlan :
    (Up up ∧ up.dev.las.validating = false ∧ up.dev.dstate = .idle ∧ up.dev.remapWritable = true ∧
      up.dev.is R.LAS_STATUS_HOLD = false) ∧
    (let s := wt (fun d => { d.setB R.LAS_STATUS_COPYING true with dstate := .run })
     Up s ∧ s.dev.las.validating = false ∧ s.dev.dstate ≠ .idle ∧ s.dev.remapWritable = false ∧
      s.dev.is R.LAS_STATUS_COPYING = true) ∧
    (let s := wt (fun d => { d with las := { d.las with validating := true } })
     Up s ∧ s.dev.las.validating = true ∧ s.dev.rowCheck = none ∧ s.dev.ecc.diffs = [] ∧
      remapCheck s.dev.regs (remapEntries (s.dev.remapRead false)) [] = none ∧
      s.dev.badIn 3 (131072 * s.dev.remapHalf false) (131072 * s.dev.remapHalf false + 131072) = []) ∧
    (let s := wt (fun d => { badAt 3 (131072 * d.remapHalf false + 131071) d with las := { d.las with validating := true } })
     Up s ∧ s.dev.las.validating = true ∧ s.dev.rowCheck = none ∧
      s.dev.badIn 3 (131072 * s.dev.remapHalf false) (131072 * s.dev.remapHalf false + 131072) =
        [131072 * s.dev.remapHalf false + 131071]) ∧
    (let s := wt (fun d => ({ d with las := { d.las with validating := true } }.set (R.ROW_EN 511) 1).set (R.ROW_HEAD_ROW 511) 15)
     Up s ∧ s.dev.las.validating = true ∧ s.dev.rowCheck = some 511) ∧
    (let s := wt (fun d => { d with las := { d.las with validating := true, remapS := SMap.put [] 0x1FFFF 0x2000 } })
     Up s ∧ s.dev.las.validating = true ∧ s.dev.rowCheck = none ∧
      (remapCheck s.dev.regs (remapEntries (s.dev.remapRead false)) []).isSome = true) ∧
    (let s := wt (fun d => d.setB R.LAS_STATUS_HOLD true)
     Up s ∧ s.dev.is R.LAS_STATUS_HOLD = true) := by unfold Up; decide +kernel

/-! ## Verdicts, events, level -/

theorem rowOn_nil : (List.range 512).all (fun r => !rowOn [] r) = true := by decide +kernel

/-- A device without rows that has fetched every line of an item whose template is absent has done its own checks. -/
theorem ownDone_of (d : Dev) (i : Item) (hn : i.noTemplate = true) (hr : d.regs = []) (ha : d.active = []) (hb : d.retired = []) (ho : d.older = [])
    (hl : (List.range (i.extentEnd - floorLine i.start)).all (fun n =>
      d.lineDone (floorLine i.start + n) && d.bandsDone i (floorLine i.start + n)) = true)
    (hp : (List.range 32).all (fun p => (d.port p).steps.isEmpty) = true) : d.ownDone i = true := by
  have hf : ∀ k, d.fireProf k = [] := by intro k; unfold Dev.fireProf; rw [hr, ha, hb, ho]; simp
  have hw : (List.range 512).all (fun r => d.rowDone i r) = true := by
    rw [List.all_eq_true]; intro r h
    have := List.all_eq_true.1 rowOn_nil r h
    simp only [Bool.not_eq_true'] at this
    simp [Dev.rowDone, hf, this]
  have hq : (List.range 32).all (fun p => !hasBit (d.portMask i) p ||
      (d.port p).steps.all (fun x => x.lapsed || !d.touchesPort i p x.k)) = true := by
    rw [List.all_eq_true]; intro p h
    have := List.all_eq_true.1 hp p h
    rw [List.isEmpty_iff] at this
    simp [this]
  simp only [Dev.ownDone, hn, hl, hw, hq]; rfl

theorem witness_itemsDecided :
    (let s := wt (fun d => { d with items := [item0], pos := { d.pos with nextFetch := 100 } })
     Up s ∧ s.dev.item? 7 = some item0 ∧ item0.decidedAt = none ∧ item0.input < 8 ∧ s.dev.ownDone item0 = true ∧
      (item0.dist && !item0.awaiting.isEmpty) = false) ∧
    (let i := { item0 with dist := true, awaiting := [3] }
     let s := wt (fun d => { d with items := [i], pos := { d.pos with nextFetch := 100 } })
     Up s ∧ s.dev.item? 7 = some i ∧ i.decidedAt = none ∧ s.dev.ownDone i = true ∧ (i.dist && !i.awaiting.isEmpty) = true ∧
      i.ownAt = none ∧ s.dev.evt.latched = []) ∧
    (let s := wt (fun d => { d with evt := { d.evt with pulses := [(0, 100), (3, 50)] } })
     Up s ∧ s.dev.evt.pulses = [(0, 100)] ++ [(3, 50)] ∧ ∀ x ∈ [(0, 100)], x.1 ≠ 3) := by
  unfold Up
  refine ⟨⟨by decide, by decide, by decide, by decide, ?_, by decide⟩,
    ⟨by decide, by decide, by decide, ?_, by decide, by decide, by decide⟩, by decide⟩ <;>
  exact ownDone_of _ _ rfl rfl rfl rfl rfl (by decide) (by decide)

theorem witness_eventsLogged :
    (∀ code ∈ [0, 0x4000, 0xC000], let e := upD.event code 1 none none
     let s := wt (fun d => { d with evt := { d.evt with queue := [e] } })
     Up s ∧ s.dev.evt.queue = [e] ∧ (e.cls = 3 ↔ code = 0xC000) ∧ s.dev.is R.EVT_IRQ_EN = false) ∧
    (Up up ∧ up.dev.evt.occ = []) ∧
    (let s := wt (fun d => d.occur Ev.INTAKE_DISCARD 0 3)
     Up s ∧ s.dev.evt.occ = [((Ev.INTAKE_DISCARD, 0), 3)]) ∧
    (let s := wt (fun d => d.occur Ev.LATENCY_LATE 511 1)
     Up s ∧ s.dev.evt.occ = [((Ev.LATENCY_LATE, 511), 1)]) := by unfold Up; decide

theorem witness_levelCommands :
    (let s := wt (fun _ => { chD with level := .basic })
     Up s ∧ s.dev.level = .basic ∧ s.dev.wantLevel ≠ .basic ∧ s.dev.dstate ≠ .run ∧ s.dev.level ≠ .reduced) ∧
    (let s := wt (fun _ => { chD with level := .basic, dstate := .run })
     Up s ∧ s.dev.level = .basic ∧ s.dev.wantLevel ≠ .basic ∧ s.dev.dstate = .run) ∧
    (Up up ∧ up.dev.level ≠ .basic) ∧
    (let s := wt (fun d => { d with level := .basic })
     Up s ∧ s.dev.level = .basic ∧ s.dev.wantLevel = .basic) ∧
    (let s := wt (fun _ => { chD with level := .reduced })
     Up s ∧ s.dev.level = .reduced ∧ s.dev.wantLevel = .full) ∧
    (let s := wt (fun d => { d with level := .reduced })
     Up s ∧ s.dev.level = .reduced ∧ s.dev.wantLevel ≠ .full) := by unfold Up; decide

theorem witness_levelRises :
    (up.dev.dstate ≠ .keep ∧ up.dev.dstate ≠ .boot) ∧
    (let d := upD.setB R.POS_STATUS_VALID true
     d.is R.POS_STATUS_VALID = true ∧ d.dstate ≠ .keep ∧ d.dstate ≠ .boot) := by decide

/-! ## Links, lanes, frames -/

/-- A device whose port 31 is live: in RUN, with a row of the port in the Active profile. -/
def liveD : Dev :=
  { onD.setLink 31 { st := .up } with
    dstate := .run, active := SMap.put [] (R.ROW_EN 511).addr (BitVec.ofNat 32 (putBits 1 (R.ROW_PORT 511).lo 5 31)) }

theorem witness_laneCommands :
    (∀ x ∈ [LinkMode.off, .up, .down, .failed], let s := wt (fun _ => ((onD.setLink 31 { st := x }).setB (R.HPL_CTRL_EN 31) true).set
        (R.HPL_LOOP_CFG_MODE 31) (if x = .up then 3 else 2))
     let d := s.dev.wrap (R.HPL_RESULT_SEQ 31) 1
     Up s ∧ s.dev.domOn (headDomain 31) = true ∧ d.oddBonded 31 = false ∧ d.is (R.HPL_CTRL_EN 31) = true ∧
      (d.link 31).st ≠ .loop ∧ d.live 31 = false ∧ d.crcTaken 31 = false ∧ (d.link (d.linkOf 31)).st = x ∧
      d.get (R.HPL_LOOP_CFG_MODE (d.linkOf 31)) = (if x = .up then 3 else 2) ∧ d.domainLive 31 = false ∧
      (d.linkLanes (d.linkOf 31)).any d.crcTaken = false) ∧
    (let s := wt (fun _ => (onD.setB (R.HPL_CTRL_EN 30) true).setB (R.HPL_CTRL_BOND 30) true)
     let d := s.dev.wrap (R.HPL_RESULT_SEQ 30) 1
     Up s ∧ s.dev.domOn (headDomain 30) = true ∧ d.oddBonded 30 = false ∧ d.is (R.HPL_CTRL_EN 30) = true ∧ (d.link 30).st ≠ .loop ∧
      (d.link 30).st ≠ .up ∧ d.crcTaken 30 = false ∧ d.is (R.HPL_CTRL_BOND 30) = true ∧ d.crcTaken 31 = false) ∧
    (let s := wt (fun _ => liveD)
     let d := s.dev.wrap (R.HPL_RESULT_SEQ 31) 1
     Up s ∧ s.dev.domOn (headDomain 31) = true ∧ (d.link (d.linkOf 31)).st = .up ∧ d.live 31 = true) ∧
    (let s := linkAt 31 .ei
     let d := s.dev.wrap (R.HPL_RESULT_SEQ 31) 1
     Up s ∧ s.dev.domOn (headDomain 31) = true ∧ (d.link (d.linkOf 31)).st = .ei) ∧
    (∀ t ∈ [0, 5], let s := wt (fun _ => (onD.setLink 31 { st := .loop }).set (R.HPL_LOOP_TIME 31) t)
     let d := s.dev.wrap (R.HPL_RESULT_SEQ 31) 1
     Up s ∧ s.dev.domOn (headDomain 31) = true ∧ (d.link (d.linkOf 31)).st = .loop ∧ s.dev.linkOf 31 = 31 ∧
      (s.dev.link 31).st = .loop ∧ d.get (R.HPL_LOOP_TIME (d.linkOf 31)) = t ∧ s.dev.get (R.HPL_LOOP_TIME 31) = t) := by
  unfold Up; decide +kernel

theorem witness_fabricPortCommands :
    (let s := wt (fun _ => onD.setB (R.FP_CTRL_EN 7) true)
     Up s ∧ s.dev.domOn 3 = true ∧ s.dev.is (R.FP_CTRL_EN 7) = true ∧ (s.dev.link (fabLink 7)).st = .off ∧
      s.dev.get (R.FP_STATUS_FSTATE 7) ≠ 2) ∧
    (∀ x ∈ [LinkMode.up, .down, .failed], let s := wt (fun _ => (onD.setB (R.FP_CTRL_EN 7) true).setLink (fabLink 7) { st := x })
     Up s ∧ s.dev.domOn 3 = true ∧ s.dev.is (R.FP_CTRL_EN 7) = true ∧ (s.dev.link (fabLink 7)).st = x ∧
      s.dev.get (R.FP_STATUS_FSTATE 7) ≠ 2) ∧
    (∀ x ∈ [LinkMode.up, .loop], let s := linkAt (fabLink 7) x
     Up s ∧ s.dev.domOn 3 = true ∧ s.dev.is (R.FP_CTRL_EN 7) = false ∧ (s.dev.link (fabLink 7)).st = x) := by
  unfold Up; decide +kernel

/-- 70 line bits of a valid block with header `h` (1 data, 2 control) and payload `pl`: each T-bit the inverse of the bit after it. -/
def lineBlock (h pl : Nat) : Nat :=
  h + ((List.range 4).map (fun q => 2 ^ (2 + 17 * q) * (1 - pl / 2 ^ (16 * q) % 2 + 2 * (pl / 2 ^ (16 * q) % 65536)))).sum

theorem witness_blocksReceived :
    (let s := linkAt 31 .search
     let x := { s.dev.lane 31 with los := false, cdr := true }
     Up s ∧ s.dev.receiving 31 = true ∧ x.block = false ∧
      blockValid (if x.inv then invertBlock (lineBlock 1 0) else lineBlock 1 0) = true ∧
      blockValid (if x.inv then invertBlock 0 else 0) = false ∧ isHead (s.dev.linkOf 31) = true) ∧
    (let s := wt (fun _ => (onD.setLink 46 { st := .up }).setLane 47 { block := true })
     Up s ∧ s.dev.receiving 47 = true ∧ s.dev.linkOf 47 = 46 ∧ { s.dev.lane 47 with los := false, cdr := true }.block = true) ∧
    (Up up ∧ up.dev.receiving 47 = false) ∧
    (blockValid (lineBlock 2 0x3CA7) = true ∧ amKind (blockData (lineBlock 2 0x3CA7)) (bytesOf 8 (blockPayload (lineBlock 2 0x3CA7))) = some false ∧
      blockValid (lineBlock 1 0xC358) = true ∧ amKind (blockData (lineBlock 1 0xC358)) (bytesOf 8 (blockPayload (lineBlock 1 0xC358))) = some true ∧
      (let b := lineBlock 2 0x3CA7 ^^^ 4
       blockValid b = false ∧ hasBit b 0 ≠ hasBit b 1 ∧ amKind (blockData b) (bytesOf 8 (blockPayload b)) = some false) ∧
      blockValid (lineBlock 1 0x3CA7) = true ∧ amKind (blockData (lineBlock 1 0x3CA7)) (bytesOf 8 (blockPayload (lineBlock 1 0x3CA7))) = none) ∧
    (∀ due ∈ [true, false],
     let d := (onD.setLink 46 { st := .up }).setLane 47 { block := true, seeded := true, am := true, hist := 2 ^ 16 - 1 }
     let x := { d.lane 47 with since := if due then (d.lane 47).spacing else 0 }
     x.seeded = true ∧ x.due = due ∧ d.linkOf 47 = 46 ∧ (d.link 46).st = .up ∧ blockValid 0 = false ∧ hasBit 0 0 = hasBit 0 1 ∧
      ((List.range 64).filter (hasBit x.hist)).length = 16) ∧
    (∀ m ∈ [(2, 0), (1, 4)],
     let x : Lane := { block := true, hist := 2 ^ 15 - 1, missed := m.1, notReady := m.2 }
     ((List.range 64).filter (hasBit x.hist)).length = 15 ∧ (2 ≤ x.missed ∨ x.missed < 2 ∧ 4 ≤ x.notReady)) ∧
    (leAt (bytesOf 8 0x55) 0 1 ≠ 0x2D ∧ isStart 31 (leAt (bytesOf 8 0x55) 0 1) = false ∧ isKnown 31 (leAt (bytesOf 8 0x55) 0 1) = false) := by
  unfold Up; decide +kernel

theorem witness_bringUpEvents :
    (∀ due ∈ [true, false], let s := wt (fun _ => (onD.setLink 46 { st := .search }).setLane 47
        { block := true, am := true, since := if due then ({} : Lane).spacing else 0 })
     Up s ∧ s.dev.receiving 47 = true ∧ (s.dev.lane 47).block = true ∧ (s.dev.lane 47).am = true ∧ (s.dev.lane 47).due = due) ∧
    (Up up ∧ (up.dev.lane 47).block = false ∧ (up.dev.lane 47).am = false ∧ up.dev.linkOf 31 = 31 ∧ (up.dev.link 31).st ≠ .rate) ∧
    (let s := linkAt 31 .rate
     Up s ∧ s.dev.linkOf 31 = 31 ∧ (s.dev.link 31).st = .rate) ∧
    (∀ x ∈ [LinkMode.ei, .up], let s := linkAt 31 x
     let d := s.dev.setLane 31 { s.dev.lane 31 with los := false }
     Up s ∧ (d.link (d.linkOf 31)).st = x) := by unfold Up; decide +kernel

theorem witness_linkLosses :
    (∀ x ∈ [LinkMode.search, .ready, .rate, .burst, .up], let s := linkAt 31 x
     Up s ∧ s.dev.linkOf 31 = 31 ∧ (s.dev.link 31).st = x ∧ s.dev.live 31 = false) ∧
    (let s := wt (fun _ => onD.setLink 31 { st := .loop, loopMode := 3 })
     Up s ∧ s.dev.linkOf 31 = 31 ∧ (s.dev.link 31).st = .loop ∧ (s.dev.link 31).loopMode = 3 ∧ (s.dev.link 31).loopAck = false) ∧
    (let s := wt (fun _ => liveD)
     Up s ∧ s.dev.linkOf 31 = 31 ∧ (s.dev.link 31).st = .up ∧ s.dev.live 31 = true) ∧
    (let s := linkAt 46 .up
     Up s ∧ 47 < 48 ∧ s.dev.linkOf 47 = 46 ∧ (s.dev.link 46).st = .up) ∧
    (Up up ∧ (up.dev.link (up.dev.linkOf 47)).st ≠ .up) ∧ isHead 31 = true ∧ 5 < 6 := by unfold Up; decide +kernel

/-- A frame of 32 body bytes with tag `k` whose check values are right. -/
def frameOf (k : Nat) (l : List Byte) : HFrame :=
  let st := [0x98, 0] ++ bytesOf 2 k ++ bytesOf 2 4 ++ [0]
  { start := st ++ [BitVec.ofNat 8 (crc8 st)], body := l ++ bytesOf 4 (crc32c l), startErr := false, bodyErr := false, cut := false }

/-- A control block whose check value is right. -/
def creditBlock (n : Nat) : List Byte :=
  let st := [0x80, 0] ++ bytesOf 2 n ++ [0, 0, 0]
  st ++ [BitVec.ofNat 8 (crc8 st)]

/-- A line of step 70,000, staged and sent. -/
def stepRec (sent : Bool) : StepRec :=
  { k := 70000, dry := false, check := 5, bytes := [], sent := sent, seq := 0, mask := 3, deadline := none }

/-- A device whose port 31 is UP in a readiness state with a head buffer of 16. -/
def portD (st : Nat) : Dev := ((onD.setLink 31 { st := .up }).set (R.HPF_STATUS_FSTATE 31) st).set (R.HPF_HP 31) 16

theorem witness_linesAndCredits :
    (let s := wt (fun _ => (portD 3).setPort 31 { steps := [stepRec false], sentCnt := 65535, freed := 65520 })
     Up s ∧ s.dev.portReady 31 = true ∧ s.dev.credit 31 = 1 ∧
      (s.dev.port 31).steps.find? (fun r => !r.sent) = some (stepRec false)) ∧
    (let s := wt (fun _ => (portD 3).setPort 31 { steps := [stepRec false], sentCnt := 0, freed := 65520 })
     Up s ∧ s.dev.portReady 31 = true ∧ s.dev.credit 31 = 0) ∧
    (Up up ∧ up.dev.portReady 31 = false ∧ up.dev.portUp 31 = false) ∧
    (let s := wt (fun _ => portD 3)
     Up s ∧ s.dev.portUp 31 = true ∧ blockOk (creditBlock 32769) = true ∧
      ((s.dev.port 31).sentCnt + 65536 - leAt (creditBlock 32769) 2 2) % 65536 = 32767) := by unfold Up; decide +kernel

theorem witness_statusFrames :
    (∀ st ∈ [1, 3], let s := wt (fun _ => portD st)
     Up s ∧ s.dev.portUp 31 = true ∧ frameOk (frameOf 0 (List.replicate 28 7)) = true ∧
      (frameOf 0 (List.replicate 28 7)).body.length = 32 ∧ s.dev.fstate 31 = st) ∧
    frameOk { frameOf 0 (List.replicate 28 7) with cut := true } = false ∧ (Up up ∧ up.dev.portUp 31 = false) := by
  unfold Up; decide +kernel

theorem witness_echoesCompared :
    (let s := wt (fun _ => (portD 3).setPort 31 { steps := [stepRec true] })
     let f := frameOf (70000 % 65536) (List.replicate 28 7)
     let g := frameOf 0 (List.replicate 28 7)
     Up s ∧ s.dev.portUp 31 = true ∧ frameOk f = true ∧ f.body.length = 32 ∧
      (s.dev.port 31).steps.find? (fun r => r.sent && r.k % 65536 == frameTag f) = some (stepRec true) ∧
      frameOk g = true ∧ g.body.length = 32 ∧
      (s.dev.port 31).steps.find? (fun r => r.sent && r.k % 65536 == frameTag g) = none) ∧
    (let b : List Byte := [0, 0, 0, 0, 3, 0, 0, 0, 0, 0, 0, 0, 0, 0, 0, 0, 5, 0, 0, 0]
     leAt b 4 2 = (stepRec true).mask ∧ leAt b 0x10 4 = (stepRec true).check ∧ (stepRec true).mask ≠ 0) := by
  unfold Up; decide +kernel

theorem witness_headCommands :
    (let s := wt (fun _ => (portD 3).set (R.HPF_CMD_LEN 31) 1024)
     Up s ∧ s.dev.domOn (headDomain 31) = true ∧ s.dev.cmdRefused 31 = none ∧ (s.dev.port 31).elemPend = none ∧
      s.dev.live 31 = false) ∧
    (let s := wt (fun _ => { liveD with regs := (portD 3).regs })
     Up s ∧ s.dev.domOn (headDomain 31) = true ∧ s.dev.cmdRefused 31 = none ∧ (s.dev.port 31).elemPend = none ∧
      s.dev.live 31 = true) ∧
    (∀ x ∈ [((portD 3).set (R.HPF_CMD_LEN 31) 1025, 3), (portD 2, 2),
        ((portD 3).setPort 31 { cmd := some { op := 1, tag := 0, at_ := 0, auto := true } }, 1)], let s := wt (fun _ => x.1)
     Up s ∧ s.dev.domOn (headDomain 31) = true ∧ s.dev.cmdRefused 31 = some x.2) ∧
    (let s := wt (fun _ => (portD 3).setPort 31 { elemPend := some [1] })
     Up s ∧ (s.dev.port 31).elemPend = some [1]) := by unfold Up; decide +kernel

theorem witness_headAnswers :
    (let c : HCmd := { op := 4, tag := 9, at_ := 0, auto := false }
     let s := wt (fun _ => (portD 3).setPort 31 { cmd := some c })
     let f := frameOf 0 ([4, 9, 1, 0] ++ List.replicate 24 7)
     Up s ∧ s.dev.portUp 31 = true ∧ frameOk f = true ∧ (s.dev.port 31).cmd = some c ∧ c.auto = false ∧ c.op ≠ 1 ∧ c.op ≠ 3 ∧
      c.op = leAt f.body 0 1 ∧ c.tag = leAt f.body 1 1) ∧
    (∀ st ∈ [1, 2, 3], let s := wt (fun _ => portD st)
     Up s ∧ s.dev.portUp 31 = true ∧ (s.dev.port 31).cmd = none ∧ s.dev.fstate 31 = st) := by unfold Up; decide +kernel

/-! ## DRAM, stored data, CRC, DMA -/

/-- A device with every domain on and both channels in service at point 0. -/
def dramD : Dev :=
  (List.range 2).foldl (fun d c => ((d.setB (R.DRC_CFG_EN c) true).setB (R.DRC_STATUS_INSVC c) true).set (R.DRC_STATUS_STATE c) 3) onD

theorem witness_channelCommands :
    (∀ c ∈ [0, 1], let s := wt (fun _ => (dramD.setB (R.DRC_RESULT_BUSY c) true))
     Up s ∧ s.dev.domOn (4 + c) = true ∧ s.dev.is (R.DRC_RESULT_BUSY c) = true) ∧
    (∀ c ∈ [0, 1], let s := wt (fun _ => onD)
     Up s ∧ s.dev.domOn (4 + c) = true ∧ s.dev.is (R.DRC_RESULT_BUSY c) = false ∧ s.dev.chOn c = false ∧
      0 = s.dev.get (R.DRC_STATUS_POINT c) ∧ 3 ≠ s.dev.get (R.DRC_STATUS_POINT c) ∧ s.dev.is (R.PT_VALID c 3) = false) ∧
    (∀ c ∈ [0, 1], let s := wt (fun _ => dramD.setB (R.PT_VALID c 3) true)
     Up s ∧ s.dev.domOn (4 + c) = true ∧ s.dev.is (R.DRC_RESULT_BUSY c) = false ∧ s.dev.chOn c = true ∧ s.dev.chIn c = true ∧
      s.dev.dstate = .idle ∧ (s.dev.drc c).train = none ∧ 3 ≠ s.dev.get (R.DRC_STATUS_POINT c) ∧
      s.dev.is (R.PT_VALID c 3) = true ∧ s.dev.get (R.DRC_STATUS_STATE c) = 3) ∧
    (∀ c ∈ [0, 1], let s := wt (fun _ => ((onD.setB (R.DRC_CFG_EN c) true).set (R.DRC_STATUS_STATE c) 1).setB (R.PT_VALID c 3) true)
     Up s ∧ s.dev.domOn (4 + c) = true ∧ s.dev.is (R.DRC_RESULT_BUSY c) = false ∧ s.dev.chOn c = true ∧ s.dev.chIn c = false ∧
      s.dev.get (R.DRC_STATUS_STATE c) = 1) := by unfold Up; decide +kernel

/-- Delays of a sweep whose eyes are 100 wide on every lane. -/
def goodEyes : List (Nat × Nat) := eyePairs (List.replicate 10 (2 ^ 100 - 1)) (List.replicate 10 (2 ^ 100 - 1))

/-- The device with delays in the middle of those eyes at point `p` of channel 1. -/
def midDelays (p : Nat) (d : Dev) : Dev :=
  (List.range 10).foldl (fun d i => (d.set (R.PT_DLY_RD 1 p i) 50).set (R.PT_DLY_WR 1 p i) 50) d

theorem witness_channelCompletions :
    (let s := wt (fun _ => ((midDelays 0 dramD).loadPoint 1 0).updDrc 1 (fun y => { y with train := some (0, 3) }))
     Up s ∧ eyePairs [] [] = [] ∧ (s.dev.drc 1).train = some (0, 3) ∧ s.dev.checkBad 1 goodEyes = none ∧
      s.dev.checkBad 1 [] = some (0, false)) ∧
    (let s := wt (fun _ => dramD.updDrc 1 (fun y => { y with train := some (1, 3) }))
     let d := (s.dev.putEyes 1 goodEyes).set (R.DRC_STATUS_STEP 1) (s.dev.laneSteps 1 - 1)
     let e := (s.dev.putEyes 1 []).set (R.DRC_STATUS_STEP 1) (s.dev.laneSteps 1 - 1)
     Up s ∧ (s.dev.drc 1).train = some (1, 3) ∧ d.firstBad 1 goodEyes = none ∧ (e.firstBad 1 []).isSome = true) ∧
    (Up up ∧ (up.dev.drc 1).train = none ∧ (up.dev.drc 1).freq = none ∧ up.dev.noneWait = true) ∧
    (let s := wt (fun _ => (midDelays 3 dramD).updDrc 1 (fun y => { y with freq := some 3 }))
     let d := ((s.dev.quiesceMemory 1).loadPoint 1 3).updDrc 1 (fun y => { y with freq := none })
     Up s ∧ (s.dev.drc 1).freq = some 3 ∧ s.dev.chIn 1 = true ∧ (s.dev.drc 1).bursts.any (·.queued) = false ∧ d.chIn 1 = true ∧
      d.checkBad 1 goodEyes = none) := by unfold Up; decide +kernel

/-- A queued read of port 7 in channel 1 and a held one. -/
def burst (q late : Bool) : Burst :=
  { id := 9, port := 7, addr := 64, len := 64, write := false, data := [], start := 0, late := late, queued := q }

theorem witness_dramTraffic :
    (Up up ∧ 63 % 64 + 1 ≤ 64 ∧ up.dev.chIn 0 = false) ∧
    (let s := wt (fun _ => dramD)
     Up s ∧ s.dev.chIn 0 = true ∧ (s.dev.usable 0 - 64) % 64 + 64 ≤ 64 ∧ s.dev.usable 0 - 64 + 64 ≤ s.dev.usable 0 ∧
      s.dev.usable 0 < s.dev.usable 0 + 1 ∧ s.dev.burst? 1 9 = none) ∧
    (∀ q ∈ [true, false], ∀ l ∈ [true, false],
     let s := wt (fun _ => dramD.updDrc 1 (fun y => { y with bursts := [burst q l], rows := SMap.put [] (dramD.bankKey 1 64) 0 }))
     Up s ∧ s.dev.burst? 1 9 = some (burst q l) ∧ s.dev.get (R.DRC_STATUS_STATE 1) = 3 ∧ s.dev.notNow 1 (burst q l) = false) ∧
    (let s := wt (fun _ => dramD.updDrc 1 (fun y => { y with bursts := [{ burst true false with write := true }] }))
     Up s ∧ s.dev.burst? 1 9 = some { burst true false with write := true } ∧
      s.dev.notNow 1 { burst true false with write := true } = true) := by
  unfold Up; decide +kernel

theorem witness_channelTimers :
    (let s := wt (fun _ => (dramD.setB (R.DRC_CFG_TWO_RANKS 1) true).set (R.DRC_RANK_COLD 1) 2)
     Up s ∧ s.dev.chIn 1 = true ∧ 1 < s.dev.ranks 1 ∧ hasBit (s.dev.get (R.DRC_STATUS_REF_2X 1)) 1 ≠ true ∧
      (s.dev.drc 1).bursts = [] ∧ hasBit (s.dev.coldEffective 1) 1 = true ∧ hasBit (s.dev.coldEffective 1) 0 = false) ∧
    (Up up ∧ up.dev.chIn 1 = false) := by unfold Up; decide +kernel

theorem witness_scrubAndFill :
    (let s := wt (fun _ => (dramD.set R.ECC_ARG_MEM 17).set64 R.ECC_ARG_START_LO (dramD.eccWords 17 - 1) |>.set64 R.ECC_ARG_COUNT_LO 1)
     Up s ∧ s.dev.is R.ECC_RESULT_BUSY = false ∧ 17 = s.dev.get R.ECC_ARG_MEM ∧ eccExists 17 = true ∧
      s.dev.get64 R.ECC_ARG_START_LO + s.dev.get64 R.ECC_ARG_COUNT_LO = s.dev.eccWords 17 ∧ s.dev.eccShut 17 = false ∧
      s.dev.rangeInUse 17 (s.dev.get64 R.ECC_ARG_START_LO) (s.dev.get64 R.ECC_ARG_COUNT_LO) = false ∧ s.dev.ecc.run = none) ∧
    (let r : EccRun := { fill := false, mem := 10, start := 0, count := 4, abort := false, since := 2 }
     let s := wt (fun _ => { dramD.setB R.ECC_RESULT_BUSY true with now := 14, ecc := { dramD.ecc with run := some r } })
     Up s ∧ s.dev.is R.ECC_RESULT_BUSY = true ∧ s.dev.ecc.run = some r ∧ 10 < 16 ∧ s.dev.ecc.diffs = [] ∧
      4 ≤ (s.dev.now - 2) / 4 + 1 ∧ (s.dev.runResult r (min 4 (s.dev.scrubMost r))).isSome = true) := by
  unfold Up; decide +kernel

theorem witness_testMode :
    (∀ m ∈ [0, 10, 16, 17], let s := wt (fun _ => (dramD.setB R.ECC_TEST_EN true).set R.ECC_ARG_MEM m)
     Up s ∧ s.dev.is R.ECC_RESULT_BUSY = false ∧ s.dev.is R.ECC_TEST_EN = true ∧ s.dev.dstate = .idle ∧ m = s.dev.get R.ECC_ARG_MEM ∧
      eccExists m = true ∧ s.dev.get64 R.ECC_ARG_START_LO < s.dev.eccWords m ∧ s.dev.eccShut m = false) ∧
    (Up up ∧ up.dev.is R.ECC_RESULT_BUSY = false ∧ up.dev.is R.ECC_TEST_EN = false) ∧
    (let s := wt (fun _ => { dramD.setB R.ECC_TEST_EN true with dstate := .run })
     Up s ∧ s.dev.is R.ECC_RESULT_BUSY = false ∧ s.dev.dstate ≠ .idle) := by unfold Up; decide +kernel

theorem witness_crcUnits :
    (Up up ∧ up.dev.crcOwner 35 = 0 ∧ up.dev.crcOwner 0 = 0) ∧
    (let s := linkAt 31 .up
     Up s ∧ s.dev.crcOwner 31 ≠ 0) ∧
    (let s := wt (fun d => d.set (R.CRC_STATUS_OWNER 35) 64)
     Up s ∧ s.dev.crcOwner 35 ≠ 0) := by unfold Up; decide +kernel

/-- A channel that reads 1,000 bytes of host memory. -/
def hostCh (reads : List (Nat × Nat)) : DmaCh := { desc := [0x20, 1000, 0x1000, 0, 0, 0, 0, 0], reads := reads }

theorem witness_dmaCommands :
    (Up up ∧ up.dev.dstat 63 = 0) ∧
    (∀ st ∈ [1, 2, 4], let s := wt (fun d => d.set (R.DMA_CH_STATUS_STATE 63) st)
     Up s ∧ s.dev.dstat 63 = st ∧ s.dev.dstat 63 ≠ 0 ∧ (s.dev.dch 63).reads = [] ∧ s.dev.touches (s.dev.dch 63) = []) ∧
    (∀ st ∈ [3, 4], ∀ a ∈ [none, some 5], let s := wt (fun d => (d.set (R.DMA_CH_STATUS_STATE 63) st).setDch 63 { stopAt := a })
     Up s ∧ s.dev.dstat 63 = st ∧ s.dev.touches (s.dev.dch 63) = [] ∧ (s.dev.dch 63).stopAt = a) ∧
    (let s := wt (fun d => (d.set (R.DMA_CH_STATUS_STATE 63) 1).setDch 63 (hostCh [(0x1000, 512)]))
     Up s ∧ s.dev.dstat 63 = 1 ∧ (s.dev.dch 63).reads ≠ []) := by unfold Up; decide +kernel

theorem witness_dmaBursts :
    (let s := wt (fun d => (d.set (R.DMA_CH_STATUS_STATE 63) 1).setDch 63 (hostCh []))
     Up s ∧ s.dev.nextChannel = some 63 ∧ (s.dev.dch 63).reads = []) ∧
    (Up up ∧ up.dev.nextChannel = none) ∧
    (let s := wt (fun d => (d.set (R.DMA_CH_STATUS_STATE 63) 1).setDch 63 (hostCh [(0x1000, 512)]))
     let x := s.dev.dch 63
     Up s ∧ x.reads = [(0x1000, 512)] ∧ x.readErr = none ∧ x.srcKind = 0 ∧ (s.dev.dmaPlaces x).any s.dev.memHeld = false ∧
      s.dev.pwr.perst = false ∧
      (List.replicate 512 (7 : Byte)).length = 512) := by unfold Up; decide +kernel

/-! ## The fabric -/

/-- A message of the fabric: its frame, from source 5 at address 3. -/
def fmsg (id dest type : Nat) (pl : List Byte) : HFrame :=
  let b := fabBody { dest := dest, src := 3, hops := 1, type := type, seq := 8, id := id } pl
  let st := [0xA0, 0, 0, 0] ++ bytesOf 2 (b.length / 8) ++ [0]
  { start := st ++ [BitVec.ofNat 8 (crc8 st)], body := b, startErr := false, bodyErr := false, cut := false }

/-- A message to a neighbour, and its header. -/
def nbr (type : Nat) (pl : List Byte) : HFrame := fmsg 5 0xFE type pl
def nbrHdr (type : Nat) : FabHdr := { dest := 0xFE, src := 3, hops := 1, type := type, seq := 8, id := 5 }

/-- The device with source 5 as the root of its component and, at address 3, as a member and the anchor. -/
def rooted (d : Dev) : Dev :=
  let d1 := d.set R.FAB_ANCHOR_ADDR 3
  { d1 with fab := { d1.fab with comp := [5], roster := SMap.put [] 3 5 } }

theorem witness_fabricReception :
    (let s := wt (fun _ => fabD .ready)
     Up s ∧ s.dev.fabOn = true ∧ s.dev.fabUp 7 = true ∧ frameOk { nbr 2 [0, 0, 0, 0] with bodyErr := true } = false ∧
      s.dev.fabUp 0 = false) ∧
    (Up up ∧ up.dev.fabOn = false) ∧
    (let s := wt (fun _ => fabD .ready)
     let f := nbr 3 [0, 0, 0, 0]
     frameOk f = true ∧ leAt f.start 0 1 = 0xA0 ∧ (parseFab f.body).type ≠ 2 ∧ s.dev.fmember 7 = true) := by
  unfold Up; decide +kernel

theorem witness_fabricReception_seen :
    (let s := wt (fun _ => { fabD .ready with fab := { (fabD .ready).fab with seqIn := [(5, 8)] } })
     let f := fmsg 5 0xFF 2 [0, 0, 0, 0]
     Up s ∧ s.dev.fabOn = true ∧ s.dev.fabUp 7 = true ∧ frameOk f = true ∧ leAt f.start 0 1 = 0xA0 ∧ (parseFab f.body).dest = 0xFF ∧
      s.dev.floodNew (parseFab f.body) = false) := by
  refine ⟨by unfold Up; decide, by decide, by decide, by decide +kernel, by decide +kernel, by decide +kernel, ?_⟩
  rw [show parseFab (fmsg 5 0xFF 2 [0, 0, 0, 0]).body = { dest := 0xFF, src := 3, hops := 1, type := 2, seq := 8, id := 5 } by
    decide +kernel]
  simp [Dev.floodNew, wt]

theorem witness_fabricReception_flood :
    ∃ k ∈ [5, 6], let s := wt (fun _ => fabD .ready)
      let f := fmsg k 0xFF 5 [1, 0, 0, 0]
      Up s ∧ s.dev.fabOn = true ∧ s.dev.fabUp 7 = true ∧ frameOk f = true ∧ leAt f.start 0 1 = 0xA0 ∧ (parseFab f.body).type = 5 ∧
        s.dev.fmember 7 = true ∧ (parseFab f.body).dest = 0xFF ∧ s.dev.floodNew (parseFab f.body) = true ∧
        leAt ((f.body.take (f.body.length - 4)).drop 16) 0 4 ≠ s.dev.get R.FAB_FORMATION := by
  have h : ∀ k ∈ [5, 6], ownId ≠ k → let s := wt (fun _ => fabD .ready)
      let f := fmsg k 0xFF 5 [1, 0, 0, 0]
      Up s ∧ s.dev.fabOn = true ∧ s.dev.fabUp 7 = true ∧ frameOk f = true ∧ leAt f.start 0 1 = 0xA0 ∧ (parseFab f.body).type = 5 ∧
        s.dev.fmember 7 = true ∧ (parseFab f.body).dest = 0xFF ∧ s.dev.floodNew (parseFab f.body) = true ∧
        leAt ((f.body.take (f.body.length - 4)).drop 16) 0 4 ≠ s.dev.get R.FAB_FORMATION := by
    have hi : ∀ k ∈ [5, 6], parseFab (fmsg k 0xFF 5 [1, 0, 0, 0]).body =
        { dest := 0xFF, src := 3, hops := 1, type := 5, seq := 8, id := k } := by decide +kernel
    have hf : ∀ k ∈ [5, 6], frameOk (fmsg k 0xFF 5 [1, 0, 0, 0]) = true ∧ leAt (fmsg k 0xFF 5 [1, 0, 0, 0]).start 0 1 = 0xA0 ∧
        leAt (((fmsg k 0xFF 5 [1, 0, 0, 0]).body.take ((fmsg k 0xFF 5 [1, 0, 0, 0]).body.length - 4)).drop 16) 0 4 ≠
          (fabD .ready).get R.FAB_FORMATION := by decide +kernel
    intro k hk hn
    refine ⟨by unfold Up; decide, by decide, by decide, (hf k hk).1, (hf k hk).2.1, by rw [hi k hk], by decide, by rw [hi k hk], ?_,
      (hf k hk).2.2⟩
    rw [hi k hk]
    simp only [Dev.floodNew, show (wt (fun _ => fabD .ready)).dev.fab.seqIn = [] from rfl, List.find?_nil, Bool.and_true, bne_iff_ne]
    exact Ne.symm hn
  by_cases e : ownId = 5
  · exact ⟨6, by decide, h 6 (by decide) (by rw [e]; decide)⟩
  · exact ⟨5, by decide, h 5 (by decide) e⟩

theorem witness_fabricDiscovery :
    (let s := wt (fun _ => onD.setB R.FAB_CFG_EN true)
     Up s ∧ s.dev.fabOn = true ∧ (List.range 8).filter s.dev.fabUp = []) ∧
    (Up up ∧ up.dev.fabOn = false) ∧
    (let s := wt (fun _ => fabD .ready)
     let pl : List Byte := List.replicate 140 1
     Up s ∧ s.dev.fabOn = true ∧ s.dev.fabUp 7 = true ∧ s.dev.lsa (nbrHdr 2).id ≠ some (parseLsa (nbrHdr 2).id pl)) ∧
    (let pl : List Byte := List.replicate 140 1
     let s := wt (fun _ => { fabD .ready with fab := { (fabD .ready).fab with db := [parseLsa 5 pl] } })
     Up s ∧ s.dev.lsa (nbrHdr 2).id = some (parseLsa (nbrHdr 2).id pl)) := by unfold Up; decide +kernel

theorem witness_fabricDiscovery_messages :
    (let d := fabD .ready
     ForMe d 7 (nbr 1 (List.replicate 140 1)) 1 (nbrHdr 1) (List.replicate 140 1) d) ∧
    (let d := { fabD .ready with fab := { (fabD .ready).fab with db := [parseLsa 5 (List.replicate 140 1)] } }
     ForMe d 7 (nbr 2 (List.replicate 140 1)) 2 (nbrHdr 2) (List.replicate 140 1) d) := by unfold ForMe; decide +kernel

theorem witness_fabricFormation :
    (∀ d ∈ [fabD .joined, rooted (fabD .joined)], let s := wt (fun _ => d)
     Up s ∧ (∀ t ∈ [3, 4, 5], ForMe s.dev 7 (nbr t (List.replicate 36 0)) t (nbrHdr t) (List.replicate 36 0) s.dev) ∧
      leAt (List.replicate 36 0) 0 4 = s.dev.get R.FAB_FORMATION ∧ leAt (List.replicate 140 1) 0 4 ≠ s.dev.get R.FAB_FORMATION ∧
      ForMe s.dev 7 (nbr 5 (List.replicate 140 1)) 5 (nbrHdr 5) (List.replicate 140 1) s.dev) ∧
    (rooted (fabD .joined)).isRootId (nbrHdr 3).id = true ∧ (nbrHdr 4).id ≠ 0 ∧
    (rooted (fabD .joined)).rosterAt (nbrHdr 4).src = (nbrHdr 4).id ∧
    (fabD .joined).isRootId (nbrHdr 3).id = false ∧ (fabD .joined).rosterAt (nbrHdr 4).src ≠ (nbrHdr 4).id := by
  unfold Up ForMe; decide +kernel

theorem witness_fabricPositionAndTime :
    (let s := wt (fun _ => (fabD .ready).set R.FAB_ANCHOR_ADDR 9)
     Up s ∧ s.dev.anchors = true) ∧
    (Up up ∧ up.dev.anchors = false ∧ up.dev.get R.POS_CTRL_SRC ≠ 4) ∧
    (let s := wt (fun _ => (fabD .ready).set R.POS_CTRL_SRC 4)
     let pl : List Byte := List.replicate 20 0 ++ [1] ++ List.replicate 15 0
     s.dev.get R.POS_CTRL_SRC = 4 ∧ s.dev.tracking = true ∧ s.dev.pos.persist = [] ∧ hasBit (leAt pl 0x14 1) 0 = true ∧
      hasBit (leAt pl 0x14 1) 1 = false ∧ s.dev.pos.reversal = false ∧ leAt pl 8 8 ≤ s.dev.pos.weir) := by
  unfold Up; decide +kernel

theorem witness_fabricPositionAndTime_messages :
    (∀ d ∈ [fabD .ready, rooted (fabD .ready)], let s := wt (fun _ => d)
     let pl : List Byte := List.replicate 20 0 ++ [1] ++ List.replicate 15 0
     Up s ∧ ForMe s.dev 7 (nbr 6 pl) 6 (nbrHdr 6) pl s.dev ∧ ForMe s.dev 7 (nbr 7 pl) 7 (nbrHdr 7) pl s.dev) ∧
    (nbrHdr 6).id ≠ 0 ∧ (rooted (fabD .ready)).rosterAt ((rooted (fabD .ready)).get R.FAB_ANCHOR_ADDR) = (nbrHdr 6).id ∧
    (fabD .ready).rosterAt ((fabD .ready).get R.FAB_ANCHOR_ADDR) ≠ (nbrHdr 6).id := by
  unfold Up ForMe; decide +kernel

set_option synthInstance.maxSize 2000 in
set_option synthInstance.maxHeartbeats 400000 in
theorem witness_fabricItems :
    (let s := wt (fun _ => fabD .ready)
     let pl : List Byte := List.replicate 36 0
     Up s ∧ ForMe s.dev 7 (nbr 8 pl) 8 (nbrHdr 8) pl s.dev ∧ ForMe s.dev 7 (nbr 9 pl) 9 (nbrHdr 9) pl s.dev ∧
      s.dev.rosterAt (nbrHdr 8).src ≠ (nbrHdr 8).id ∧ s.dev.evt.latched = []) ∧
    (let s := wt (fun _ => rooted (fabD .ready))
     let pl : List Byte := List.replicate 36 0
     Up s ∧ ForMe s.dev 7 (nbr 8 pl) 8 (nbrHdr 8) pl s.dev ∧ ForMe s.dev 7 (nbr 9 pl) 9 (nbrHdr 9) pl s.dev ∧ (nbrHdr 8).id ≠ 0 ∧
      s.dev.rosterAt (nbrHdr 8).src = (nbrHdr 8).id ∧ s.dev.tracking = true ∧
      s.dev.item? (leAt pl 0 4) = none ∧ s.dev.items.length < 4096 ∧ s.dev.evt.latched = []) ∧
    (let i := { item0 with num := 0, dist := true, awaiting := [3, 4] }
     let s := wt (fun _ => { rooted (fabD .ready) with items := [i] })
     let pl : List Byte := List.replicate 36 0
     Up s ∧ ForMe s.dev 7 (nbr 8 pl) 8 (nbrHdr 8) pl s.dev ∧ ForMe s.dev 7 (nbr 9 pl) 9 (nbrHdr 9) pl s.dev ∧ (nbrHdr 8).id ≠ 0 ∧
      s.dev.rosterAt (nbrHdr 8).src = (nbrHdr 8).id ∧ s.dev.tracking = true ∧
      (s.dev.item? (leAt pl 0 4)).isSome = true ∧ s.dev.item? (leAt pl 0 4) = some i ∧ i.dist = true ∧ i.decidedAt = none ∧
      i.awaiting.contains (nbrHdr 9).src = true ∧ i.ownAt = none ∧ s.dev.evt.latched = []) := by unfold Up ForMe; decide +kernel

set_option synthInstance.maxSize 2000 in
set_option synthInstance.maxHeartbeats 400000 in
theorem witness_fabricSwaps :
    (∀ d ∈ [fabD .ready, rooted ((fabD .ready).setB R.FAB_STATUS_ROOT true), rooted (fabD .ready)], let s := wt (fun _ => d)
     Up s ∧ s.dev.fab.swap = none ∧ s.dev.fab.decided.find? (fun x => x.1 == leAt (List.replicate 36 0) 0 2) = none ∧
     ∀ t ∈ [10, 11, 12, 13], ForMe s.dev 7 (nbr t (List.replicate 36 0)) t (nbrHdr t) (List.replicate 36 0) s.dev) ∧
    (nbrHdr 10).id ≠ 0 ∧ (rooted (fabD .ready)).rosterAt (nbrHdr 10).src = (nbrHdr 10).id ∧
    (rooted ((fabD .ready).setB R.FAB_STATUS_ROOT true)).is R.FAB_STATUS_ROOT = true ∧ (rooted (fabD .ready)).is R.FAB_STATUS_ROOT = false ∧
    (rooted (fabD .ready)).isRootId (nbrHdr 11).id = true ∧ (fabD .ready).isRootId (nbrHdr 11).id = false := by
  unfold Up ForMe; decide +kernel

theorem witness_fabricSwaps_votes :
    (∀ p ∈ [(257, 1), (0, 0)], let w : FabSwap := { id := p.1, n := 7, src := 3, votes := [] }
     let s := wt (fun _ => let d := rooted (fabD .ready)
                           { d with fab := { d.fab with swap := some w, roster := SMap.put d.fab.roster 4 6, comp := [5, 6] } })
     let pl : List Byte := List.replicate 140 (BitVec.ofNat 8 p.2)
     Up s ∧ ForMe s.dev 7 (nbr 12 pl) 12 (nbrHdr 12) pl s.dev ∧ s.dev.rosterAt (nbrHdr 12).src = (nbrHdr 12).id ∧
      s.dev.fab.swap = some w ∧ w.id = leAt pl 0 2 ∧ (leAt pl 2 2 = 0 ↔ p.2 = 0) ∧
      s.dev.memberAddrs.all (fun a => ((nbrHdr 12).src :: w.votes).contains a) = false) := by
  unfold Up ForMe; decide +kernel

theorem witness_fabricSwaps_decided :
    (∀ c ∈ [0, 9], let s := wt (fun _ => let d := rooted (fabD .ready)
                                         { d with fab := { d.fab with decided := [(1, 7), (0, c)] } })
     let pl : List Byte := List.replicate 36 0
     Up s ∧ ForMe s.dev 7 (nbr 13 pl) 13 (nbrHdr 13) pl s.dev ∧ s.dev.isRootId (nbrHdr 13).id = true ∧
      s.dev.fab.decided.find? (fun x => x.1 == leAt pl 0 2) = some (leAt pl 0 2, c) ∧ ((c = 0 ↔ leAt pl 2 2 = 0) ↔ c = 0)) := by unfold Up ForMe; decide +kernel

theorem witness_fabricMergeAndAnchor :
    (let s := wt (fun _ => fabD .ready)
     Up s ∧ s.dev.domOn 3 = true ∧ s.dev.is (R.FP_STATUS_ADJ 7) = false ∧ s.dev.fabOn = true ∧ s.dev.is R.FAB_STATUS_ROOT = false) ∧
    (let s := wt (fun _ => (((fabD .ready).setB (R.FP_STATUS_ADJ 7) true).set (R.FP_STATUS_FSTATE 7) 1).set R.FAB_CFG_COUNT 2)
     Up s ∧ s.dev.domOn 3 = true ∧ s.dev.fabOn = true ∧ s.dev.is (R.FP_STATUS_ADJ 7) = true ∧ s.dev.fmember 7 = false ∧
      s.dev.unite [(0, 11), (1, 12), (2, 13)] = none ∧ (s.dev.unite [(0, 11), (1, 12)]).isSome = true ∧
      ForMe s.dev 7 (nbr 14 (List.replicate 36 0)) 14 (nbrHdr 14) (List.replicate 36 0) s.dev) ∧
    (∀ d ∈ [fabD .ready, rooted (fabD .ready)], let s := wt (fun _ => d)
     ForMe s.dev 7 (nbr 15 (List.replicate 36 0)) 15 (nbrHdr 15) (List.replicate 36 0) s.dev) := by unfold Up ForMe; decide +kernel

theorem witness_fabricMergeAndAnchor_root :
    (let s := wt (fun _ => let d := (fabD .ready).setB R.FAB_STATUS_ROOT true
                           { d with fab := { d.fab with comp := [ownId], roster := SMap.put [] 63 ownId } })
     Up s ∧ s.dev.domOn 3 = true ∧ s.dev.fabOn = true ∧ s.dev.is R.FAB_STATUS_ROOT = true ∧ s.dev.dstate = .idle ∧
      (∀ x ∈ s.dev.fab.roster, s.dev.fab.comp.contains x.2 = true → x.2 ≠ ownId →
        ∃ r, s.dev.fab.reports.find? x.1 = some r ∧ r.2.2 / 4 % 8 = 2)) :=
  ⟨by unfold Up; decide, by decide, by decide, by decide, by decide, fun x hx _ hn => absurd (by
    have : x ∈ [(63, ownId)] := hx
    rw [List.mem_singleton.1 this]) hn⟩

theorem witness_fabricMergeAndAnchor_member :
    (let s := wt (fun _ => let d := (fabD .ready).setB R.FAB_STATUS_ROOT true
                           { d with fab := { d.fab with comp := [77], roster := SMap.put [] 63 77, reports := SMap.put [] 63 (0, 0, 8) } })
     Up s ∧ s.dev.domOn 3 = true ∧ s.dev.fabOn = true ∧ s.dev.is R.FAB_STATUS_ROOT = true ∧ s.dev.dstate = .idle ∧
      (∀ x ∈ s.dev.fab.roster, ∃ r, s.dev.fab.reports.find? x.1 = some r ∧ r.2.2 / 4 % 8 = 2) ∧ s.dev.rosterAt 63 ≠ 0) :=
  ⟨by unfold Up; decide, by decide, by decide, by decide, by decide, fun x hx => by
    have : x ∈ [(63, 77)] := hx
    rw [List.mem_singleton.1 this]; exact ⟨(0, 0, 8), rfl, rfl⟩, by decide⟩

/-! ## Time, PTP, the management port -/

/-- A device with valid time. -/
def timeD : Dev := upD.setB R.TIM_STATUS_VALID true

theorem witness_setsTime :
    (let s := wt (fun _ => timeD)
     Up s ∧ s.dev.fabOwns = false ∧ 999999999 < 1000000000 ∧ s.dev.is R.TIM_CTRL_OWNER = !true ∧ s.dev.dstate = .idle ∧
      s.dev.is R.TIM_RESULT_BUSY = false) ∧
    (let s := wt (fun _ => timeD.setB R.TIM_RESULT_BUSY true)
     Up s ∧ s.dev.is R.TIM_RESULT_BUSY = true) ∧
    (Up up ∧ up.dev.fabOwns = false ∧ up.dev.is R.TIM_STATUS_VALID = false) ∧
    (let s := wt (fun _ => fabD .ready)
     Up s ∧ s.dev.fabOwns = true) ∧
    (let s := wt (fun _ => { timeD with dstate := .run })
     Up s ∧ s.dev.fabOwns = false ∧ s.dev.is R.TIM_CTRL_OWNER = false ∧ s.dev.is R.TIM_STATUS_VALID = true ∧ s.dev.dstate ≠ .idle) := by
  unfold Up; decide +kernel

theorem witness_stepsTime :
    (let s := wt (fun _ => timeD.set R.TIM_STEP_LIM 1000)
     Up s ∧ s.dev.fabOwns = false ∧ s.dev.is R.TIM_CTRL_OWNER = (!true) ∧ s.dev.is R.TIM_STATUS_VALID = true ∧
      (-1000 : Int).natAbs ≤ s.dev.get R.TIM_STEP_LIM ∧ s.dev.get R.TIM_STEP_LIM < (1001 : Int).natAbs ∧
      s.dev.is R.FAB_CFG_EN = false ∧ s.dev.is R.TIM_RESULT_BUSY = false) ∧
    (Up up ∧ up.dev.fabOwns = false ∧ up.dev.is R.TIM_CTRL_OWNER = (!true) ∧ up.dev.is R.TIM_STATUS_VALID = false ∧
      up.dev.is R.TIM_RESULT_BUSY = false) ∧
    (let s := wt (fun _ => fabD .ready)
     Up s ∧ s.dev.fabOwns = true) ∧
    (let s := wt (fun _ => { ((fabD .ready).set R.FAB_ANCHOR_ADDR 9).setB R.TIM_STATUS_VALID true with dstate := .run })
     Up s ∧ s.dev.fabOwns = false ∧ s.dev.is R.TIM_CTRL_OWNER = (!true) ∧ s.dev.is R.TIM_STATUS_VALID = true ∧
      (0 : Int).natAbs ≤ s.dev.get R.TIM_STEP_LIM ∧ s.dev.isAnchor = true ∧ s.dev.is R.FAB_CFG_EN = true ∧ s.dev.fab.st = .ready ∧
      s.dev.printing = true) := by unfold Up; decide +kernel

theorem witness_timeAccesses :
    (Up up ∧ up.dev.fabOwns = false ∧ up.dev.is R.TIM_CTRL_OWNER = (!true) ∧ up.dev.is R.TIM_CTRL_OWNER = false ∧
      (549755814#32).toInt = 549755814 ∧ (-549755814#32).toInt = -549755814 ∧ 549755814 < (549755815#32).toInt ∧
      (-549755815#32).toInt < -549755814 ∧ up.dev.is R.TIM_STATUS_VALID = false) ∧
    (let s := wt (fun _ => timeD)
     Up s ∧ s.dev.is R.TIM_STATUS_VALID = true) := by unfold Up; decide +kernel

theorem witness_timeAdvances :
    (let d := { upD with tim := { upD.tim with sec := 2 ^ 64 - 2, ns := 999999999, acc := 2 ^ 40 - 1 } }
     d.tim.acc < 2 ^ 40 ∧ d.tim.ns < 1000000000 ∧ d.tim.sec + 1 < 2 ^ 64) := by decide

/-- A device whose PTP stack runs with parent 5, one-step where `one`. -/
def ptpD (one : Bool) : Dev :=
  let d := (upD.setB R.TIM_CTRL_PTP_EN true).set R.TIM_STATUS_SYNC 1
  { d with ptp := { d.ptp with parent := some 5, masters := [{ src := 5 }] }
           mgmt := { d.mgmt with objs := SMap.put [] (0x1210 * 256 + 5) (if one then 1 else 0) } }

/-- A device whose own clock is master. -/
def masterD (one : Bool) : Dev :=
  { ptpD one with ptp := {}, mgmt := { upD.mgmt with
      objs := SMap.put (SMap.put [] (0x1210 * 256 + 5) (if one then 1 else 0)) (0x1210 * 256 + 6) 0 } }

theorem witness_mastersChosen :
    (let s := wt (fun _ => { ptpD true with ptp := { foreign := [6] } })
     Up s ∧ s.dev.ptpOn = true ∧ 1 ≠ s.dev.obj 0x1210 2 0 ∧ 6 ∈ s.dev.ptp.foreign ∧ 7 ∉ s.dev.ptp.foreign ∧
      s.dev.slaveOnly = true ∧ s.dev.ptp.masters = [] ∧ s.dev.bestMaster = none ∧ 254 < 255) ∧
    (∀ p ∈ [some 5, some 6, none], let d := { ptpD true with ptp := { (ptpD true).ptp with parent := p } }
     d.slaveOnly = true ∧ d.ptp.masters = [{ src := 5 }] ∧ d.bestMaster = some { src := 5 } ∧ d.ptp.parent = p) ∧
    (∀ y ∈ [1, 2], let s := wt (fun _ => (ptpD true).set R.TIM_STATUS_SYNC y)
     Up s ∧ s.dev.ptpOn = true ∧ s.dev.owns true = true ∧ s.dev.get R.TIM_STATUS_SYNC = y) ∧
    (Up up ∧ up.dev.ptpOn = false) := by unfold Up; decide +kernel

theorem witness_offsetsMeasured :
    (Up up ∧ up.dev.ptpOn = false) ∧
    (let s := wt (fun _ => { ptpD true with ptp := { (ptpD true).ptp with sync := some (9, 100, 0) } })
     Up s ∧ s.dev.ptpOn = true ∧ s.dev.ptp.parent = some 5 ∧ s.dev.ptp.parent ≠ some 6 ∧ s.dev.ptp.sync = some (9, 100, 0)) ∧
    (∀ y ∈ [0, 1, 2, 3, 4], let d := ((ptpD true).set R.TIM_STEP_THR 10).set R.TIM_STATUS_SYNC y
     d.ptpOn = true ∧ d.owns true = true ∧ d.get R.TIM_STATUS_SYNC = y ∧ (-10 : Int).natAbs ≤ d.get R.TIM_STEP_THR ∧
      d.get R.TIM_STEP_THR < (11 : Int).natAbs) ∧
    (let d := (ptpD true).setB R.TIM_CTRL_OWNER true
     d.ptpOn = true ∧ d.owns true = false) := by
  unfold Up; decide +kernel

theorem witness_stepRetries :
    (Up up ∧ up.dev.get R.TIM_STATUS_SYNC ≠ 4) ∧
    (let s := wt (fun _ => (ptpD true).set R.TIM_STATUS_SYNC 4)
     Up s ∧ s.dev.ptpOn = true ∧ s.dev.owns true = true ∧ s.dev.get R.TIM_STATUS_SYNC = 4 ∧
      s.dev.stepCode true (-s.dev.ptp.offset) ≠ .ok) ∧
    (let s := wt (fun _ => ((ptpD true).set R.TIM_STATUS_SYNC 4).setB R.TIM_STATUS_VALID true)
     Up s ∧ s.dev.ptpOn = true ∧ s.dev.owns true = true ∧ s.dev.get R.TIM_STATUS_SYNC = 4 ∧
      s.dev.stepCode true (-s.dev.ptp.offset) = .ok) := by unfold Up; decide +kernel

theorem witness_delaysMeasured :
    (let s := wt (fun _ => masterD true)
     Up s ∧ s.dev.ptpMaster = true ∧ s.dev.p2p = false) ∧
    (let s := wt (fun _ => { ptpD true with ptp := { (ptpD true).ptp with
        delayReq := some (9, 100), pdelay := some (9, 100), pdResp := some (9, 5, 100, 50, 0) } })
     Up s ∧ s.dev.ptpOn = true ∧ s.dev.ptp.parent = some 5 ∧ s.dev.ptp.delayReq = some (9, 100) ∧
      s.dev.ptp.pdelay = some (9, 100) ∧ s.dev.ptp.pdResp = some (9, 5, 100, 50, 0)) ∧
    (∀ one ∈ [true, false], let s := wt (fun _ => ptpD one)
     Up s ∧ s.dev.ptpOn = true ∧ (s.dev.obj 0x1210 5 0 = 1 ↔ one = true)) ∧
    (Up up ∧ up.dev.ptpOn = false) := by unfold Up; decide +kernel

theorem witness_messagesSent :
    (∀ one ∈ [true, false], let s := wt (fun _ => masterD one)
     Up s ∧ s.dev.ptpMaster = true ∧ (s.dev.obj 0x1210 5 0 = 1 ↔ one = true)) ∧
    (let s := wt (fun _ => ptpD true)
     Up s ∧ s.dev.ptpOn = true ∧ s.dev.ptp.parent.isSome = true ∧ s.dev.p2p = false) ∧
    (let s := wt (fun _ => { ptpD true with mgmt := { (ptpD true).mgmt with objs := SMap.put (ptpD true).mgmt.objs (0x1210 * 256 + 4) 1 } })
     Up s ∧ s.dev.ptpOn = true ∧ s.dev.p2p = true) ∧
    (Up up ∧ up.dev.ptpOn = false) ∧
    (let s := wt (fun d => { d with ptp := { d.ptp with txq := List.replicate 15 (8, 1, 10) } })
     Up s ∧ s.dev.ptp.txq.length < 16 ∧ s.dev.ptp.txq = (8, 1, 10) :: List.replicate 14 (8, 1, 10)) ∧
    (16 ≤ (List.replicate 16 ((8, 1, 10) : Nat × Nat × Nat)).length) := by unfold Up; decide +kernel

theorem witness_phyPolled :
    (Up up ∧ up.dev.get R.NET_CTRL_FORCE = 0 ∧ 2 = phySpeed 64 0 0 ∧ (4 : Nat).testBit 2 = true ∧ (0 : Nat).testBit 2 = false ∧
      true ≠ up.dev.is R.NET_STATUS_LINK ∧ false = up.dev.is R.NET_STATUS_LINK ∧
      phySpeed 0 0 0 = up.dev.get R.NET_STATUS_SPEED ∧
      ((up.dev.setB R.NET_STATUS_LINK true).set R.NET_STATUS_SPEED 2 |>.raise Ev.NET_LINK 5).get R.NET_IP = 0) ∧
    (let s := wt (fun d => (d.set R.NET_IP 0x0A000001).set R.NET_CTRL_FORCE 3)
     Up s ∧ s.dev.get R.NET_CTRL_FORCE = 2 + 1 ∧ true ≠ s.dev.is R.NET_STATUS_LINK ∧
      (((s.dev.setB R.NET_STATUS_LINK true).set R.NET_STATUS_SPEED 2).raise Ev.NET_LINK 5).get R.NET_IP ≠ 0) ∧
    (0x200000#32).toNat.testBit 21 = true ∧ (0x1FFFFF#32).toNat.testBit 21 = false := by unfold Up; decide +kernel

theorem witness_arpAndEcho :
    (Up up ∧ up.dev.get R.NET_IP = 0) ∧
    (let s := wt (fun d => d.set R.NET_IP 0x0A000001)
     Up s ∧ s.dev.get R.NET_IP ≠ 0 ∧ 0x0A000002 ≠ s.dev.get R.NET_IP ∧ s.dev.mgmt.arp.any (fun e => e.1 == 0x0A000002) = false ∧
      0x0A000001 = s.dev.get R.NET_IP ∧ 4 ≤ (List.replicate 1476 (0 : Byte)).length ∧
      (List.replicate 1476 (0 : Byte)).length - 4 ≤ 1472) ∧
    (let d := { upD with mgmt := { upD.mgmt with arpWait := [(0x0A000002, [7])] } }
     d.mgmt.arpWait.find? (fun e => e.1 == 0x0A000002) = some (0x0A000002, [7]) ∧
      d.mgmt.arpWait.find? (fun e => e.1 == 0x0A000003) = none) := by
  simp only [List.length_replicate]
  refine ⟨by unfold Up; decide, ⟨by unfold Up; decide, by decide, by decide, by decide, by decide, by decide, by decide⟩, by decide⟩

/-- A broadcast frame of 64 bytes with an ethertype nobody takes. -/
def frame64 : List Byte :=
  let b := List.replicate 6 0xFF ++ [2, 0, 0, 0, 0, 1, 0x88, 0xB5] ++ List.replicate 46 0
  b ++ bytesOf 4 (fcs b)

theorem witness_framesReceived :
    (Up up ∧ up.dev.mgmt.bell = none ∧ (frame64.drop 1).length < 64 ∧ 64 ≤ frame64.length ∧ frame64.length ≤ 1518 ∧ fcsOk frame64 = true ∧
      beAt frame64 12 2 ≠ 0x8100 ∧ beAt frame64 12 2 ≠ 0x88A8 ∧ beAt frame64 0 6 = 0xFFFFFFFFFFFF ∧ up.dev.mgmt.rxq.length < 64 ∧ up.dev.mgmt.rxq = [] ∧
      up.dev.mgmtUp = true ∧ (frameIn up.dev.ingress frame64 up).dev.mgmt.bell = none) ∧
    (let s := wt (fun d => { d with mgmt := { d.mgmt with rxq := List.replicate 64 (0, frame64) } })
     let d := (s.dev.bump R.NET_RX_OVF_CNT 1).occur Ev.NET_RX_OVF 0 1
     Up s ∧ s.dev.mgmt.bell = none ∧ 64 ≤ s.dev.mgmt.rxq.length ∧ d.mgmt.bell = none) := by unfold Up; decide +kernel

/-! ## The object protocol, the settings store, update -/

/-- A session of 10.0.0.9, port 4. -/
def sess : Session := { id := 5, ip := 9, port := 4, seq := 7, openSeq := 7, untouched := true }

/-- A state with sessions. -/
def withSess (l : List Session) : State := wt (fun d => { d with mgmt := { d.mgmt with sessions := l } })

theorem witness_sessionsKept :
    (Managed up ∧ up.dev.mgmt.sessions.find? (fun x => x.ip == 9 && x.port == 4) = none ∧ up.dev.mgmt.sessions.length < 8) ∧
    (let s := withSess ((List.range 8).map (fun k => { sess with id := k + 1, port := k + 10 }))
     Managed s ∧ s.dev.mgmt.sessions.find? (fun x => x.ip == 9 && x.port == 4) = none ∧ 8 ≤ s.dev.mgmt.sessions.length) ∧
    (let s := withSess [sess]
     Managed s ∧ s.dev.mgmt.sessions.find? (fun x => x.ip == 9 && x.port == 4) = some sess ∧ sess.untouched = true ∧
      s.dev.session (.udp 9 4) 5 = some sess) := by unfold Managed Up; decide +kernel

theorem witness_sequencesKept :
    (Managed up ∧ up.dev.session (.udp 9 4) 5 = none) ∧
    (let s := withSess [{ sess with seq := 65535 }]
     Managed s ∧ s.dev.session (.udp 9 4) 5 = some { sess with seq := 65535 } ∧ 65535 < 65536 ∧ 1 ≠ 65535 ∧
      1 ≠ (65535 + 1) % 65536 ∧ 0 = (65535 + 1) % 65536) := by unfold Managed Up; decide +kernel

/-- The session with a credential in force, the last failure at clock `f`. -/
def credS (f : Option Nat) (x : Session) : State := wt (fun d => { d with
  now := 1000000000, mgmt := { d.mgmt with sessions := [x], cred := some [1, 2, 3], failAt := f } })

theorem witness_sessionsElevated :
    (∀ b ∈ [true, false], let x := { sess with expert := b }
     let s := withSess [x]
     Managed s ∧ s.dev.session (.udp 9 4) 5 = some x ∧ 8 = (x.seq + 1) % 65536 ∧ (List.replicate 16 (0 : Byte)).length = 16 ∧
      s.dev.mgmt.cred = none) ∧
    (let s := credS (some 1) sess
     Managed s ∧ s.dev.session (.udp 9 4) 5 = some sess ∧ s.dev.mgmt.cred = some [1, 2, 3] ∧ sess.expert = false ∧
      s.dev.mgmt.failAt = some 1 ∧ s.dev.now < 1 + 1000000000) ∧
    (let s := credS (some 0) sess
     Managed s ∧ s.dev.session (.udp 9 4) 5 = some sess ∧ (∀ t : Nat, s.dev.mgmt.failAt = some t → t + 1000000000 ≤ s.dev.now)) ∧
    (let h := (sha256 ([1, 2, 3] ++ sess.nonce ++ bytesOf 2 5)).take 16
     h.length = 16 ∧ h ≠ List.replicate 16 0) := by
  refine ⟨?_, ?_, ⟨?_, ?_, ?_⟩, ?_⟩
  · unfold Managed Up; decide +kernel
  · unfold Managed Up; decide +kernel
  · unfold Managed Up; decide +kernel
  · decide +kernel
  · intro t h
    have : (0 : Nat) = t := Option.some.inj h
    subst this; decide
  · decide +kernel

/-- A read item and a write item of object 0x1010.02, the idle timeout, and one of an object that is none. -/
def readItem : List Byte := bytesOf 2 0x1010 ++ bytesOf 1 2 ++ bytesOf 1 0 ++ bytesOf 4 0 ++ bytesOf 4 4
def writeItem : List Byte := readItem ++ bytesOf 4 5000

/-- The same, parsed. -/
def readIt : IopItem := { idx := 0x1010, sub := 2, flags := 0, ofs := 0, len := 4, val := [] }
def writeIt : IopItem := { readIt with val := bytesOf 4 5000 }

/-- The object is a command with OVR `f`. -/
def cmdWithOvr (i s : Nat) (f : Fld) : Bool :=
  match findObj i s with
  | .found r _ => (match r.back with
    | .cmd k => k.ovr == some f
    | _ => false)
  | _ => false

/-- What `findObj` answers: 0 an object, 1 no object, 2 no subindex. -/
def foundKind (i s : Nat) : Nat :=
  match findObj i s with
  | .found _ _ => 0
  | .noObject => 1
  | .noSub => 2

theorem witness_itemsAnswered :
    (Managed up ∧ parseItems false 1 [0] = none ∧ parseItems true 1 [0] = none) ∧
    (let s := withSess [sess]
     let d := s.dev.putSession (.udp 9 4) { sess with seq := 8, resp := [], untouched := false, at_ := s.dev.now }
     let r := readAll false 1456 [readIt] { s with dev := d }
     let w := writeAll' (.udp 9 4) 5 false [writeIt] { s with dev := d }
     Managed s ∧ s.dev.session (.udp 9 4) 5 = some sess ∧ 8 = (sess.seq + 1) % 65536 ∧ parseItems false 1 readItem = some [readIt] ∧
      parseItems true 1 writeItem = some [writeIt] ∧ r.1 = .inl (r.1.getLeft?.getD []) ∧ r.2.dev.mgmtUp = true ∧
      r.2.dev.mgmt.bell = none ∧ (r.2.dev.session (.udp 9 4) 5).isSome = true ∧ w.2.dev.mgmtUp = true ∧
      w.2.dev.mgmt.bell = none ∧ (w.2.dev.session (.udp 9 4) 5).isSome = true) ∧
    (let w := { writeIt with idx := 0xFFFF }
     up.dev.readCode true w ≠ 0 ∧ up.dev.writeCode true w ≠ 0 ∧ w ∈ [writeIt, w] ∧ [writeIt].all IopItem.plain = true ∧
      foundKind w.idx w.sub = 1 ∧ foundKind 0x1010 0xFE = 2) ∧
    (let s := wt (fun d => (d.setB R.UPD_RESULT_BUSY true).setB R.TIM_RESULT_BUSY true)
     (let w : IopItem := { idx := 0x1301, sub := 1, flags := 0, ofs := 0, len := 8, val := bytesOf 4 1 ++ bytesOf 4 2048 }
      cmdWithOvr w.idx w.sub R.UPD_RESULT_OVR = true ∧ s.dev.writeCode true w = 10) ∧
     (let w : IopItem := { idx := 0x1200, sub := 4, flags := 0, ofs := 0, len := 12, val := List.replicate 12 0 }
      cmdWithOvr w.idx w.sub R.TIM_RESULT_OVR = true ∧ s.dev.writeCode true w = 10)) ∧
    (up.dev.mgmtFault 3).mgmt.bell = none := by unfold Managed Up; decide +kernel

/-- A state with the mailbox flag BUSY at `busy`. -/
def mbxD (busy : Bool) : State := wt (fun d => d.setB R.DEV_MBX_STATUS_BUSY busy)

theorem witness_mailbox :
    (let s := wt (fun d => { d with pwr := { d.pwr with perst := true } })
     Managed s ∧ s.dev.pwr.perst = true) ∧
    (let s := mbxD true
     Managed s ∧ s.dev.pwr.perst = false ∧ s.dev.is R.DEV_MBX_STATUS_BUSY = true ∧
      (s.dev.setB R.DEV_MBX_STATUS_OVR true).mgmt.bell = none) ∧
    (∀ len ∈ [0, 2049, 4095], let s := mbxD false
     Managed s ∧ s.dev.pwr.perst = false ∧ s.dev.is R.DEV_MBX_STATUS_BUSY = false ∧ (s.dev.ring len).mgmt.bell = some len ∧
      (s.dev.ring len).mgmtUp = true ∧ (2048 < len ∨ parseMsg ((s.dev.ring len).mbxReq len) = none)) := by
  unfold Managed Up; decide +kernel

theorem witness_values :
    (∀ a ∈ [0x1010, 0], let s := wt (fun d => { d with mgmt := { d.mgmt with objs := SMap.put [] (0x6000 * 256 + 1) a } })
     Managed s ∧ a = s.dev.obj 0x6000 1 0 ∧ a % 4 = 0 ∧ (busWrite a 5 s).dev.mgmt.bell = none ∧ (busRead a s).2.dev.mgmt.bell = none) ∧
    (∀ a ∈ [0, 0x7FFFC], let s := wt (fun d => { d with mgmt := { d.mgmt with objs := SMap.put [] (0x6000 * 256 + 3) a } })
     Managed s ∧ a = s.dev.obj 0x6000 3 0 ∧ a % 4 = 0 ∧ (s.dev.bar4Write a 5 14).2.mgmt.bell = none ∧
      (s.dev.bar4Read a 14).2.mgmt.bell = none ∧ (s.dev.bar4Read a 14).1.isSome = true) ∧
    (let s := wt (fun d => badAt 3 (131072 * d.remapHalf false + 131071)
       { d with mgmt := { d.mgmt with objs := SMap.put [] (0x6000 * 256 + 3) 0x7FFFC } })
     Managed s ∧ 0x7FFFC = s.dev.obj 0x6000 3 0 ∧ (s.dev.bar4Read 0x7FFFC 14).1 = none) := by unfold Managed Up; decide +kernel

/-- A state on device `d` with flash `f`. -/
def flashS (d : Dev) (f : Flash) : State := { up with dev := d, nv := { up.nv with flash := f } }

theorem witness_storeCommands :
    (∀ l ∈ [0, 1, 2], let s := wt (fun d => { (if l = 2 then { d with dstate := .armed } else d) with
        job := { d.job with swap := if l = 1 then some { form := 0, arg := 0, n := none, fabric := false, granted := true } else none } })
     Up s ∧ s.dev.storeBusy = false ∧ s.dev.is R.UPD_RESULT_BUSY = false ∧ (l = 0 → s.dev.shadowLocked = false ∧
      s.dev.ecc.diffs = [] ∧ s.dev.profileCopying = false ∧ s.dev.dstate = .idle) ∧ (l = 1 → s.dev.shadowLocked = true) ∧ (l = 2 → s.dev.dstate ≠ .idle)) ∧
    (let s := wt (fun d => d.setB R.DOS_STATUS_CORR_VALID false)
     Up s ∧ s.dev.shadowLocked = false ∧ s.dev.profileCopying = true) ∧
    (let s := wt (fun d => d.setB R.DEV_STORE_RESULT_BUSY true)
     Up s ∧ s.dev.storeBusy = true) := by unfold Up; decide +kernel

/-- A bundle header that passes check 1. -/
def bundle : List Byte := bytesOf 4 0x314D5844 ++ bytesOf 2 0x0100 ++ bytesOf 2 64 ++ bytesOf 4 1024 ++ bytesOf 4 77 ++ bytesOf 4 3 ++
  [2, 6] ++ bytesOf 2 0 ++ List.replicate 40 0

theorem witness_saveEnds :
    (let s := wt (fun d => { d with mgmt := { d.mgmt with saving := some [1] } })
     Up s ∧ s.dev.mgmt.saving = some [1] ∧ s.nv.flash.newest.map (·.1) ≠ some 1) ∧
    (let f : Flash := { active := some bundle, slotA := storeSlot (bundleSchema bundle) 4 0 [] }
     let s := flashS { upD with mgmt := { upD.mgmt with saving := some [1] } } f
     Up s ∧ s.dev.mgmt.saving = some [1] ∧ s.nv.flash.newest.map (·.1) = some 1 ∧ s.dev.job.swap = none ∧ s.dev.dstate = .idle ∧
      s.dev.storeBusy = false ∧ s.dev.is R.UPD_RESULT_BUSY = false ∧ f.newest = some (1, f.slotA)) ∧
    bundleSchema bundle < 2 ^ 32 := by unfold Up; decide +kernel

theorem witness_saveFits :
    (let s := wt (fun d => d.set R.DEV_STORE_SLOT 0)
     Up s ∧ s.dev.storeBusy = false ∧ s.dev.is R.UPD_RESULT_BUSY = false ∧
      s.dev.get R.DEV_STORE_SLOT < 64 + (s.dev.storeContent s.nv).length) := by
  refine ⟨?_, ?_, ?_, ?_⟩
  · unfold Up; decide +kernel
  · decide +kernel
  · decide +kernel
  · exact Nat.lt_of_lt_of_le (by decide +kernel : _ < 64) (Nat.le_add_right _ _)

/-- A device in an update state, UPD_TOTAL 1,024. -/
def updD (x : Nat) : Dev := (upD.set R.UPD_STATUS_STATE x).set R.UPD_TOTAL 1024

theorem witness_updateLoads :
    (∀ x ∈ [0, 1, 2, 3, 4, 5, 6, 7], let s := wt (fun _ => updD x)
     Up s ∧ s.dev.is R.UPD_RESULT_BUSY = false ∧ s.dev.is R.DEV_STORE_RESULT_BUSY = false ∧ s.dev.get R.UPD_STATUS_STATE = x ∧
      1024 ≤ s.dev.get R.UPD_TOTAL ∧ s.dev.get R.UPD_TOTAL ≤ 3145728) ∧
    (∀ n ∈ [1023, 3145729], let s := wt (fun _ => (updD 0).set R.UPD_TOTAL n)
     Up s ∧ s.dev.is R.UPD_RESULT_BUSY = false ∧ s.dev.is R.DEV_STORE_RESULT_BUSY = false ∧ s.dev.get R.UPD_TOTAL = n) ∧
    (let s := wt (fun _ => (updD 0).setB R.UPD_RESULT_BUSY true)
     Up s ∧ s.dev.is R.UPD_RESULT_BUSY = true) ∧
    (let s := wt (fun _ => (updD 0).setB R.DEV_STORE_RESULT_BUSY true)
     Up s ∧ s.dev.is R.UPD_RESULT_BUSY = false ∧ s.dev.is R.DEV_STORE_RESULT_BUSY = true) := by unfold Up; decide +kernel

theorem witness_updateBlocks :
    (∀ p ∈ [(0, 0, 4), (0, 0, 5), (1020, 1020, 4), (1021, 1021, 3), (1024, 1024, 4), (4, 0, 4)], 
     let s := wt (fun _ => (((updD 2).set R.UPD_NEXT p.1).set R.UPD_BLK_OFS p.2.1).set R.UPD_BLK_LEN p.2.2)
     Up s ∧ s.dev.is R.UPD_RESULT_BUSY = false ∧ s.dev.is R.DEV_STORE_RESULT_BUSY = false ∧ s.dev.get R.UPD_STATUS_STATE = 2 ∧
      s.dev.get R.UPD_BLK_OFS = p.2.1 ∧ s.dev.get R.UPD_NEXT = p.1 ∧ s.dev.get R.UPD_TOTAL = 1024 ∧
      (s.dev.updBuf (s.dev.get R.UPD_BLK_LEN)).length = p.2.2) ∧
    (headerOk [] = false ∧ headerOk bundle = true ∧ 1025 ≠ leAt bundle 8 4) := by unfold Up; decide +kernel

/-- A KEEPALIVE of the mailbox. -/
def kaMsg : IopMsg := { session := 0xFFFF, seq := 1, op := 4 }
/-- The device with `l` in the mailbox request area. -/
def mbxMsg (l : List Byte) : State := wt (fun d => (List.range 4).foldl (fun d k =>
  d.setReg (R.DEV_MBX_REQ k).addr (BitVec.ofNat 32 (leAt l (4 * k) 4))) d)

theorem witness_mailboxHandled : (let s := mbxMsg kaMsg.bytes
   let e := s.dev.ring 16
   let d := { e with mgmt := { e.mgmt with bell := none } }
   let r := iopHandle .mbx kaMsg { s with dev := d }
   Managed s ∧ s.dev.pwr.perst = false ∧ s.dev.is R.DEV_MBX_STATUS_BUSY = false ∧ e.mgmt.bell = some 16 ∧ e.mgmtUp = true ∧
     parseMsg (e.mbxReq 16) = some kaMsg ∧ r.1 = some (r.1.getD []) ∧ r.2.dev.mgmtUp = true ∧
     r.2.dev.is R.DEV_MBX_STATUS_BUSY = true) := by unfold Managed Up; decide +kernel

theorem length_bytesOf (n x : Nat) : (bytesOf n x).length = n := by
  induction n generalizing x with
  | zero => rfl
  | succ n ih => simp [bytesOf, ih]

theorem length_objRecords (d : Dev) (v : NonVol) (r : ObjRow) :
    (d.objRecords v r).length = r.n * (8 + r.ty.size + (4 - r.ty.size % 4) % 4) := by
  simp [Dev.objRecords, storeRecord, List.length_flatMap, length_bytesOf, List.map_const', List.sum_replicate_nat]
  congr 1; omega

theorem length_storeContent (s : State) (h : s.dev.get R.DEV_STORE_CFG_TABLES = 0) (g : s.dev.mgmt.cred = none) :
    (s.dev.storeContent s.nv).length =
      ((objTable.filter ObjRow.stored).map (fun r => r.n * (8 + r.ty.size + (4 - r.ty.size % 4) % 4))).sum + 24 := by
  have t : storeTables.flatMap s.dev.tableRecord = [] := by
    rw [List.flatMap_eq_nil_iff]
    intro k _
    unfold Dev.tableRecord
    split
    · rw [h]; simp [hasBit]
    · rfl
  unfold Dev.storeContent
  rw [t, g]
  simp [List.length_flatMap, length_objRecords, Dev.channelRecords, storeRecord, length_bytesOf]

/-- A device whose store slots are those of an 8 MiB flash (19 R487), no table selected. -/
def slotD : State := wt (fun d => (d.set R.DEV_STORE_SLOT 983040).set R.DEV_STORE_CFG_TABLES 0)

theorem witness_saveStops :
    (let s := { slotD with dev := badAt 4 262143 (slotD.dev.set R.DEV_STORE_CFG_TABLES 2) }
     Up s ∧ s.dev.storeBusy = false ∧ s.dev.is R.UPD_RESULT_BUSY = false ∧
      (s.dev.setB R.DEV_STORE_RESULT_BUSY true).saveReads.pwr.mgmtStop = true) ∧
    (slotD.dev.setB R.DEV_STORE_RESULT_BUSY true).saveReads.pwr.mgmtStop = false := by unfold Up; decide +kernel

theorem witness_saveFitsNot : Up slotD ∧ slotD.dev.storeBusy = false ∧ slotD.dev.is R.UPD_RESULT_BUSY = false ∧
    64 + (slotD.dev.storeContent slotD.nv).length ≤ slotD.dev.get R.DEV_STORE_SLOT := by
  refine ⟨by unfold Up; decide +kernel, by decide +kernel, by decide +kernel, ?_⟩
  rw [length_storeContent slotD (by decide +kernel) (by decide +kernel)]
  decide +kernel

/-! ## Power, calibration, the test port, the machine as a whole -/

/-- A device of whose domains only PD_CORE is on. -/
def coreD : Dev := upD.set R.PWR_DOM_STATUS_ON 1

theorem witness_domainCommands :
    (let s := wt (fun d => d.setB R.PWR_DOM_RESULT_BUSY true)
     Up s ∧ s.dev.is R.PWR_DOM_RESULT_BUSY = true) ∧
    (∀ c ∈ [1, 8], let s := wt (fun _ => coreD)
     Up s ∧ s.dev.is R.PWR_DOM_RESULT_BUSY = false ∧ s.dev.domOn c = false ∧ 1 ≤ c ∧ c ≤ 9) ∧
    (let s := wt (fun _ => onD.set R.PWR_DOM_PENDING 0)
     ∀ c ∈ [1, 8], Up s ∧ s.dev.is R.PWR_DOM_RESULT_BUSY = false ∧ s.dev.domOn c = true ∧ s.dev.offRefused c = none) ∧
    (let s := wt (fun _ => fabD .ready)
     Up s ∧ s.dev.is R.PWR_DOM_RESULT_BUSY = false ∧ s.dev.domOn 3 = true ∧ s.dev.fabOn = true ∧ s.dev.offRefused 3 = some 2) := by
  unfold Up; decide +kernel

/-- A device in which domain `c` is switched off. -/
def offD (c : Nat) : Dev := { onD.set R.PWR_DOM_PENDING (2 ^ c) with pwr := { onD.pwr with offs := [(c, 0)] } }

/-- A device in which domain `c` is powered. -/
def powD (c : Nat) : Dev := { upD.set R.PWR_SUPPLY_STATUS 0x7F with pwr := { upD.pwr with ons := [c] } }

theorem witness_domainsSwitched :
    (∀ c ∈ [1, 8], let s := wt (fun _ => offD c)
     Up s ∧ s.dev.offRuns c = true ∧ s.dev.undrained c = []) ∧
    (let s := wt (fun _ => { (offD 4).set (R.DMA_CH_STATUS_STATE 0) 3 with
      dma := { onD.dma with chs := SMap.put onD.dma.chs 0 { desc := [1, 64, 0, 0, 0, 0, 1, 0] } } })
     Up s ∧ s.dev.offRuns 4 = true ∧ s.dev.undrained 4 = [0]) ∧
    (∀ c ∈ [1, 8], Up up ∧ up.dev.offRuns c = false ∧ c ∉ up.dev.pwr.ons) ∧
    (∀ c ∈ [1, 4, 5, 8], let s := wt (fun _ => powD c)
     Up s ∧ c ∈ s.dev.pwr.ons ∧ (c ≠ 4 ∧ c ≠ 5 ∨ (s.dev.get R.PWR_SUPPLY_STATUS).testBit (c - 1) = true)) ∧
    (∀ c ∈ [4, 5], let s := wt (fun _ => (powD c).set R.PWR_SUPPLY_STATUS 0x67)
     Up s ∧ (c = 4 ∨ c = 5) ∧ (s.dev.get R.PWR_SUPPLY_STATUS).testBit (c - 1) = false) := by unfold Up; decide +kernel

theorem witness_resetsApart :
    (∀ ch ∈ [0, 1], Up (wt (fun _ => coreD)) ∧ ch < 2 ∧ ((coreD.rail (3 + ch) false).raise Ev.VDDQ_FAULT ch).domOn (4 + ch) = false) ∧
    (∀ ch ∈ [0, 1], let s := wt (fun _ => onD)
     Up s ∧ ((s.dev.rail (3 + ch) false).raise Ev.VDDQ_FAULT ch).domOn (4 + ch) = true ∧
      ((s.dev.rail (3 + ch) false).raise Ev.VDDQ_FAULT ch).offRuns (4 + ch) = false) ∧
    (∀ ch ∈ [0, 1], let s := wt (fun _ => offD (4 + ch))
     Up s ∧ ((s.dev.rail (3 + ch) false).raise Ev.VDDQ_FAULT ch).domOn (4 + ch) = true ∧
      ((s.dev.rail (3 + ch) false).raise Ev.VDDQ_FAULT ch).offRuns (4 + ch) = true) ∧
    (let s := wt (fun d => { d with mgmt := { d.mgmt with saving := some [0] } })
     Up s ∧ s.dev.mgmt.saving.isSome = true) ∧
    (up.dev.pwr.perst = false ∧ up.dev.dma.chs = [] ∧ up.dev.mgmt.saving = none ∧ up.dev.awake = true) ∧
    State.reset.dev.awake = false ∧
    (let s := wt (fun d => { d.set R.PWR_WDT 0 with pwr := { d.pwr with perst := true } })
     Up s ∧ s.dev.get R.PWR_WDT = 0 ∧ s.dev.pwr.perst = true) ∧
    (let s := wt (fun d => { d.set R.PWR_WDT 10 with now := 10000000, pwr := { d.pwr with kickAt := some 0 } })
     Up s ∧ s.dev.get R.PWR_WDT ≠ 0 ∧ s.dev.pwr.kickAt = some 0 ∧ 0 + s.dev.get R.PWR_WDT * 1000000 ≤ s.dev.now) ∧
    (let s := wt (fun d => { d.set R.PWR_WDT 10 with now := 9999999, pwr := { d.pwr with kickAt := some 0 } })
     Up s ∧ s.dev.pwr.kickAt = some 0 ∧ s.dev.now < 0 + s.dev.get R.PWR_WDT * 1000000) := by unfold Up; decide +kernel

/-- A device at a service level. -/
def lvlD (x : DevState) (v : Level) : Dev := { onD with dstate := x, level := v }

theorem witness_stateCommands :
    (∀ x ∈ [DevState.idle, .armed, .run], ∀ v ∈ [Level.basic, .reduced, .full], let s := wt (fun _ => lvlD x v)
     Up s ∧ s.dev.dstate = x ∧ s.dev.level = v) ∧
    (let s := wt (fun _ => { lvlD .run .full with job := { onD.job with order := [3], slots := onD.job.slots.put 3 { st := .active } } })
     Up s ∧ s.dev.dstate = .run ∧ 3 ∈ s.dev.job.order ∧ (s.dev.slot 3).st = .active) ∧
    (let s := wt (fun _ => lvlD .run .full)
     Up s ∧ s.dev.dstate = .run ∧ (∀ q ∈ s.dev.job.order, (s.dev.slot q).st ≠ .active)) ∧
    (let s := wt (fun _ => { fabD .forming with level := .full })
     Up s ∧ s.dev.dstate = .idle ∧ s.dev.level ≠ .basic ∧ s.dev.fabOn = true ∧ s.dev.fab.st ≠ .ready) ∧
    (let s := wt (fun _ => { coreD with level := .full })
     Up s ∧ s.dev.fabOn = false ∧ s.dev.domOn 6 = false ∧ s.dev.dstate = .idle) ∧
    (let s := wt (fun _ => (lvlD .idle .full).set64 R.LAS_REG_SIZE_LO 1048576)
     Up s ∧ s.dev.fabOn = false ∧ s.dev.domOn 6 = true ∧ (s.dev.plan s.dev.active).2 = false) ∧
    (let s := wt (fun _ => { (lvlD .idle .full).setB (R.TRG_CFG_EN 7) true with active := SMap.put onD.active (R.TRG_OFS_LO 7).addr 1 })
     Up s ∧ s.dev.fabOn = false ∧ s.dev.domOn 6 = true ∧ (s.dev.plan s.dev.active).2 = true ∧
      (s.dev.plan s.dev.active).1.shortInput (s.dev.plan s.dev.active).1.active = some 7) ∧
    (let s := wt (fun _ => lvlD .idle .full)
     Up s ∧ s.dev.fabOn = false ∧ s.dev.domOn 6 = true ∧ (s.dev.plan s.dev.active).2 = true ∧
      (s.dev.plan s.dev.active).1.shortInput (s.dev.plan s.dev.active).1.active = none ∧
      (s.dev.plan s.dev.active).1.job.swap = none) := by unfold Up; decide +kernel

theorem witness_resetsRecorded :
    (up.dev.dstate ≠ .keep ∧ up.dev.awake = true ∧ up.dev.dstate = .idle) ∧
    (let s := wt (fun d => { d with dstate := .keep })
     s.dev.dstate = .keep) ∧
    (∀ b ∈ [true, false], let s := { up with nv := { up.nv with keep := { up.nv.keep with onVkeep := b, low := b } } }
     s.nv.keep.onVkeep = b ∧ s.nv.keep.low = b) ∧
    (∀ x ∈ [DevState.armed, .run], let s := wt (fun d => { d with dstate := x })
     s.dev.awake = true ∧ s.dev.dstate = x) := by decide +kernel

theorem witness_bootsBegin :
    (State.reset.dev.dstate = .boot ∧ State.reset.dev.pwr.porst = true) ∧
    (up.dev.pwr.porst = false ∧ up.dev.dstate ≠ .boot ∧ up.dev.dstate ≠ .keep) ∧
    (let s := wt (fun d => { d with dstate := .boot })
     s.dev.awake = true ∧ s.dev.dstate = .boot) ∧
    (let s := wt (fun d => { d with dstate := .keep })
     s.dev.dstate = .keep) ∧
    (let s := wt (fun d => d.set R.PWR_SUPPLY_STATUS 0x7F)
     s.dev.dstate ≠ .keep ∧ s.dev.mainRails = true) ∧
    (let s := wt (fun d => d.set R.PWR_SUPPLY_STATUS 0)
     s.dev.dstate ≠ .keep ∧ s.dev.mainRails = false) ∧
    (∀ b ∈ [true, false], let s := wt (fun d => { d with pwr := { d.pwr with noClock := b } })
     s.dev.pwr.noClock = b) ∧
    (({ up.dev.atReset with dstate := .boot } : Dev).awake = true ∧
      ({ ({ up.dev with pwr := { up.dev.pwr with porst := true } } : Dev).atReset with dstate := .boot } : Dev).awake = false) ∧
    (∀ c ∈ [4, 5], (upD.set R.PWR_SUPPLY_STATUS 0x67).railIn c = false ∧ upD.railIn c = true) := by
  decide +kernel

theorem witness_pinLevels :
    (up.dev.vioUp = true ∧ up.dev.dstate ≠ .keep ∧ up.dev.awake = true ∧ up.dev.dstate ≠ .boot) ∧
    (∀ b ∈ [4, 5], let d := ({ upD with dstate := .boot } : Dev).set R.DEV_STATE_BOOT_STEP b
     d.vioUp = true ∧ d.awake = true ∧ d.dstate = .boot ∧ (d.get R.DEV_STATE_BOOT_STEP < 5 ↔ b = 4)) := by decide +kernel

/-- A measurement without errors, of converter `k`. -/
def meas (k : Nat) : AdcMeas := { adc := k, m0 := 0, mp := 40960, mn := -40960, r0 := 0, rp := 40960, out := 0, back := 0 }

theorem witness_calibrates :
    (let s := wt (fun d => d.setB R.CAL_RESULT_BUSY true)
     Up s ∧ s.dev.is R.CAL_RESULT_BUSY = true) ∧
    (∀ m ∈ [0, 1, 256], let s := wt (fun _ => coreD.set R.CAL_ARG_ADC_MASK m)
     Up s ∧ s.dev.is R.CAL_RESULT_BUSY = false ∧ s.dev.get R.CAL_ARG_ADC_MASK = m ∧ s.dev.domOn 8 = false ∧ s.dev.cal.run = none) ∧
    (let s := wt (fun _ => onD.set R.CAL_ARG_ADC_MASK 1)
     Up s ∧ s.dev.is R.CAL_RESULT_BUSY = false ∧ s.dev.get R.CAL_ARG_ADC_MASK ≠ 0 ∧ s.dev.domOn 8 = true) ∧
    (let s := wt (fun _ => { onD with cal := { onD.cal with run := some 1 } })
     let x := s.dev.calibrate 1 [meas 0]
     Up s ∧ s.dev.cal.run = some 1 ∧ x.d.cal.shown = []) ∧
    (∀ k ∈ [0, 8], k < 9 ∧
      (-512 : Int) ≤ upD.getS (R.ADC_TRIM_OFS k) - (meas k).m0 ∧ upD.getS (R.ADC_TRIM_OFS k) - (meas k).m0 ≤ 511 ∧
      (meas k).r0.natAbs ≤ upD.get R.CAL_RES_LIM_OFS ∧ ((meas k).rp - (meas k).r0 - 40960).natAbs ≤ upD.get R.CAL_RES_LIM_GAIN ∧
      (((meas k).mp - (meas k).mn - 81920) * 16384 + 40960) / 81920 = (0 : Int) ∧
      upD.get R.CAL_RES_LIM_OFS < ({ meas k with r0 := 30000 } : AdcMeas).r0.natAbs) := by unfold Up; decide +kernel

/-- A device with a self-test requested. -/
def testD (d : Dev) (t g : Nat) : Dev := (d.set R.CAL_ARG_TEST t).set R.CAL_ARG_TARGET g

theorem witness_selfTests :
    (let s := wt (fun d => d.setB R.BIST_RESULT_BUSY true)
     Up s ∧ s.dev.is R.BIST_RESULT_BUSY = true) ∧
    (let s := wt (fun d => testD d 0 0)
     let p := s.dev.bistRange 0 0
     Up s ∧ s.dev.is R.BIST_RESULT_BUSY = false ∧ s.dev.get R.CAL_ARG_TEST = 0 ∧ s.dev.get R.CAL_ARG_TARGET = 0 ∧
      s.dev.bistArgs 0 0 p.1 p.2 = false) ∧
    (let s := wt (fun _ => testD coreD 5 1)
     let p := s.dev.bistRange 5 1
     Up s ∧ s.dev.is R.BIST_RESULT_BUSY = false ∧ s.dev.bistArgs 5 1 p.1 p.2 = true ∧ s.dev.domOn (bistDomain 5 1) = false) ∧
    (let s := wt (fun _ => testD onD 2 1)
     let p := s.dev.bistRange 2 1
     Up s ∧ s.dev.is R.BIST_RESULT_BUSY = false ∧ s.dev.bistArgs 2 1 p.1 p.2 = true ∧ s.dev.domOn (bistDomain 2 1) = true ∧
      s.dev.get (R.DRC_STATUS_STATE 1) ≠ 3) ∧
    (let s := wt (fun _ => testD ((onD.setB (R.DRC_STATUS_INSVC 1) true).set (R.DRC_STATUS_STATE 1) 3) 2 1)
     let p := s.dev.bistRange 2 1
     Up s ∧ s.dev.is R.BIST_RESULT_BUSY = false ∧ s.dev.bistArgs 2 1 p.1 p.2 = true ∧ s.dev.domOn (bistDomain 2 1) = true ∧
      s.dev.get (R.DRC_STATUS_STATE 1) = 3) ∧
    (let b : BistRun := ⟨2, 1, 0, 1, false⟩
     let s := wt (fun d => { d with cal := { d.cal with bist := some b } })
     Up s ∧ s.dev.cal.bist = some b ∧ b.test = 2 ∧ s.dev.chIn b.target = false) ∧
    (∀ x ∈ [DevState.idle, .run], let s := wt (fun _ => { testD onD 7 0 with dstate := x })
     let p := s.dev.bistRange 7 0
     Up s ∧ s.dev.is R.BIST_RESULT_BUSY = false ∧ s.dev.bistArgs 7 0 p.1 p.2 = true ∧ s.dev.domOn (bistDomain 7 0) = true ∧
      s.dev.bistBusy 7 0 = (x == .run)) ∧
    (let b : BistRun := ⟨7, 0, 0, 1, true⟩
     let s := wt (fun d => { d with cal := { d.cal with bist := some b } })
     Up s ∧ s.dev.cal.bist = some b ∧ b.count ≤ 1 ∧ 0 < b.count ∧ b.abort = true ∧ up.dev.cal.bist = none) := by
  unfold Up; decide +kernel

theorem witness_referencesWatched :
    (∀ x ∈ [(5001 : Int), -5001, 5000], let s := wt (fun d => d)
     let d := s.dev.putSigned R.CAL_BG_DIFF x
     Up s ∧ (x.natAbs ≤ 5000 ∨ d.is R.CAL_BG_DRIFT = false)) ∧
    (∀ p ∈ [((1680 : Int), false), (1679, false), (1600, true), (1599, true)],
     let s := wt (fun d => { d with cal := { d.cal with hot := p.2 } })
     Up s ∧ (s.dev.putSigned R.CAL_TEMP p.1).cal.hot = p.2) ∧
    (let d := ((upD.setB (R.ENC_CFG_EN 0) true).setB (R.ENC_CFG_MODE 0) true).putSigned R.CAL_TEMP 2047
     d.adcServes 0 = true ∧ (d.set R.CAL_SPARE_FOR 0).adcServes 8 = true ∧ 0 ∉ d.cal.due ∧ 16 * d.get R.CAL_TEMP_DELTA < (d.getS R.CAL_TEMP - d.getS (R.ADC_CAL_TEMP 0)).natAbs) ∧
    upD.adcServes 0 = false := by unfold Up; decide +kernel

theorem witness_testPort :
    (∀ b ∈ [true, false], let s : State := { up with tap := { up.tap with held := b } }
     s.tap.held = b ∧ s.dev.pwr.porst = false) ∧
    (let s : State := { State.reset with tap := { held := false } }; s.dev.pwr.porst = true ∧ s.tap.held = false) ∧
    (∃ t : State, exec (.porstRelease env0) State.reset = .next t) := by
  refine ⟨by decide, by decide, ?_⟩
  exact ⟨_, rfl⟩

theorem witness_wholeMachine :
    (State.reset.pending = [] ∧ State.reset.dev.awake = false ∧ State.reset.mem.wf = true) ∧
    Instr.onPins .arm = false ∧ Instr.onTap .arm = false ∧ Instr.wide .arm = false ∧ Instr.onDram .arm = false ∧
    Instr.onKept .arm = false ∧ Instr.instanceOk .arm = true ∧ Instr.wellFormed .arm = true ∧
    (Instr.zRisingEdge 4).instanceOk = false := by decide

theorem witness_wellsInUse :
    (let s := wt (fun d => { d with job := { d.job with order := [3], slots := d.job.slots.put 3 { st := .queued, well := 15 } } })
     Up s ∧ s.dev.is R.JOB_RESULT_BUSY = false ∧ 15 < 16 ∧ 3 ∈ s.dev.job.order ∧ (s.dev.slot 3).well = 15) := by
  unfold Up; decide +kernel

/-! ## Worked examples of the spec -/

/-- 12 R350: the check value of CRC-32C over "123456789". -/
theorem test_crc32c : crc32c [0x31, 0x32, 0x33, 0x34, 0x35, 0x36, 0x37, 0x38, 0x39] = 0xE3069283 := by decide +kernel

/-- 18: ADC 2 of the coder, offset trim +40, m0 = 42, mp − mn = 82,080: the new trims are −2 and −32. -/
theorem test_adcTrims : newOfs 40 { meas 2 with m0 := 42 } = -2 ∧
    newGain 0 { meas 2 with mp := 41040, mn := -41040 } = -32 := by decide

/-- The DRAM geometry of 10 Table 10.2 on channel 0: g = 3, w = 16, two ranks. -/
def geoD : Dev := ((upD.set (R.DRC_CFG_BG_BITS 0) 3).set (R.DRC_CFG_ROW_BITS 0) 2).setB (R.DRC_CFG_TWO_RANKS 0) true

/-- 10 Table 10.2: the job read at 0x2_4C8E_5A40. -/
theorem test_address : mapAddr 0 0x24C8E5A40 = (0, 0x126472D40) ∧ subOf 0x126472D40 = 1 ∧ geoD.colOf 0 0x126472D40 = 11 ∧
    geoD.rowOf 0 0x126472D40 = 18833 ∧ geoD.rankOf 0 0x126472D40 = 0 ∧ geoD.groupOf 0 0x126472D40 = 3 ∧
    geoD.bankOf 0 0x126472D40 = 1 := by decide +kernel

/-- 06 Table 6.8: byte 140 under correction entry 0x8D7A, then the merge of its two fields, then in the reverse order. -/
theorem test_doseColumn : corrected 140 0x8D7A = 153 ∧ merge 1 (merge 0 2 3 false) 2 true = 2 ∧
    merge 0 (merge 1 2 2 true) 3 false = 0 := by decide

/-- The request of 16's example: phase of row 0 to 5.375 lines. -/
def phaseReq : List Byte := [0x40, 0x22, 4, 0, 0, 0, 0, 0, 4, 0, 0, 0, 0, 0x60, 5, 0]

/-- The state of 16's example: session 7 at Basic level, last sequence 0x11, in RUN. -/
def phaseS : State := wt (fun d => { d with
  dstate := .run, mgmt := { d.mgmt with sessions := [{ id := 7, ip := 9, port := 4, seq := 0x11 }] } })

/-- 16's example: the Shadow phase becomes 352,256, the Active one stays, the answer is OK. -/
theorem test_phaseWrite :
    (match exec (.write 9 4 7 0x12 1 false phaseReq none) phaseS with
     | .next t => decide (t.dev.get (R.ROW_PHASE 0) = 352256 ∧
        (t.dev.mgmt.sessions.map (·.resp)).map (fun l => sliceOf l 12 8) = [[0x40, 0x22, 4, 0, 0, 0, 0, 0]])
     | _ => false) = true := by decide +kernel

/-- ISO/IEC 16022 (PRESUMED): "123456" in a 10 × 10 symbol takes the check codewords 114, 25, 5, 88, 102. -/
theorem test_dataMatrix : rsEncode 5 [142, 164, 186] = [114, 25, 5, 88, 102] := by decide +kernel

/-- FIPS 180-4 (PRESUMED): SHA-256 of "abc" starts BA7816BF. -/
theorem test_sha256 : (sha256 [0x61, 0x62, 0x63]).take 4 = [0xBA, 0x78, 0x16, 0xBF] := by decide +kernel

/-- 05's example: 24 months after 2027-03-18, to the end of the month, is 2029-03-31. -/
theorem test_expiryDate : adjustDays (daysOf 2027 3 18) 3 24 = some (daysOf 2029 3 31) := by decide +kernel

end Sys2Proof.Tests
end

-- Register accesses of the host (00_scope R4–R6, 16 R425, R450).
section
/-! PROOFS. What the host's accesses to BAR0 do: the access itself, the words of the event block (EVT), reads. -/

namespace Sys2Proof.Machine

open Sys2Proof

/-! ## Bit fields of a whole word -/

theorem bitsOf_lt (x lo w : Nat) : bitsOf x lo w < 2 ^ w := Nat.mod_lt _ (Nat.two_pow_pos w)

theorem bitsOf_zero_lo (x w : Nat) : bitsOf x 0 w = x % 2 ^ w := by simp [bitsOf]

theorem putBits_mod (x lo w v : Nat) : putBits x lo w (v % 2 ^ w) = putBits x lo w v := by simp [putBits]

theorem putBits_bitsOf (x lo w v : Nat) : putBits x lo w (bitsOf v 0 w) = putBits x lo w v := by
  rw [bitsOf_zero_lo, putBits_mod]

/-- A field that is replaced by itself leaves its word. -/
theorem putBits_bitsOf_self (x lo w : Nat) : putBits x lo w (bitsOf x lo w) = x := by
  have h : bitsOf x lo w * 2 ^ lo ≤ x :=
    calc bitsOf x lo w * 2 ^ lo ≤ x / 2 ^ lo * 2 ^ lo :=
          Nat.mul_le_mul_right _ (by simpa [bitsOf, Nat.shiftRight_eq_div_pow] using Nat.mod_le _ _)
      _ ≤ x := Nat.div_mul_le_self _ _
  rw [putBits, Nat.mod_eq_of_lt (bitsOf_lt x lo w), Nat.sub_add_cancel h]

/-- A field that fills its word. -/
theorem putBits_whole {x w : Nat} (v : Nat) (h : x < 2 ^ w) : putBits x 0 w v = v % 2 ^ w := by
  simp [putBits, bitsOf_zero_lo, Nat.mod_eq_of_lt h]

theorem ofNat_putBits_whole (x : Word) (v : Nat) : BitVec.ofNat 32 (putBits x.toNat 0 32 v) = BitVec.ofNat 32 v :=
  BitVec.eq_of_toNat_eq (by simp [putBits_whole v x.isLt])

/-! ## The access: command, mailbox, host writes that wait -/

/-- Whether a write waits is decided by the job block and the compressors alone. -/
theorem Dev.noneWait_congr {d e : Dev} (hj : e.job = d.job) (hx : e.exp = d.exp) : e.noneWait = d.noneWait := by
  simp [Dev.noneWait, Dev.cmpr, hj, hx]

/-- A write by the host: its effect, then the mailbox, then the host writes that waited. -/
theorem gives_registerWrite {s : State} {a : Nat} (v : Word) (hup : s.dev.hostUp = true) (ha : a % 4 = 0) :
    Gives (.registerWrite a v) s (let t := serveBell (busWrite a v.toNat s)
      let r := drainIntake t.dev t.mem; { t with dev := r.1, mem := r.2 }) := by
  simp only [Gives, exec, execRegisterWrite, served, landed, hostAccess, hup, ha, if_true]

theorem gives_upperWordWrite {s : State} {a : Nat} (v : Word) (hup : s.dev.hostUp = true) (ha : a % 4 = 0) :
    Gives (.upperWordWrite a v) s (serveBell (busWrite a v.toNat s)) := by
  simp only [Gives, exec, execUpperWordWrite, served, hostAccess, hup, ha, if_true]

/-- A write that touches neither mailbox nor waiting writes, while none of them is pending, has its own effect only. -/
theorem runs_registerWrite {s : State} {a : Nat} {v : Word} {d : Dev} (hup : s.dev.hostUp = true) (hb : s.dev.mgmt.bell = none)
    (hw : s.dev.noneWait = true) (ha : a % 4 = 0) (h : busWrite a v.toNat s = { s with dev := d }) (hm : d.mgmt = s.dev.mgmt)
    (hj : d.job = s.dev.job) (hx : d.exp = s.dev.exp) : Runs (.registerWrite a v) s d := by
  have hbell : d.mgmt.bell = none := by rw [hm, hb]
  have hnone : d.noneWait = true := by rw [Dev.noneWait_congr hj hx, hw]
  have hg := gives_registerWrite v hup ha
  simpa [Gives, Runs, h, hbell, hnone] using hg

theorem runs_upperWordWrite {s : State} {a : Nat} {v : Word} {d : Dev} (hup : s.dev.hostUp = true) (hb : s.dev.mgmt.bell = none)
    (ha : a % 4 = 0) (h : busWrite a v.toNat s = { s with dev := d }) (hm : d.mgmt = s.dev.mgmt) :
    Runs (.upperWordWrite a v) s d := by
  have hbell : d.mgmt.bell = none := by rw [hm, hb]
  have hg := gives_upperWordWrite v hup ha
  simpa [Gives, Runs, h, hbell] using hg

/-- A write to an address that is not aligned has no effect (00_scope R4). -/
theorem runs_registerWrite_unaligned {s : State} {a : Nat} (v : Word) (hb : s.dev.mgmt.bell = none) (hw : s.dev.noneWait = true)
    (ha : a % 4 ≠ 0) : Runs (.registerWrite a v) s s.dev := by
  simp [Runs, exec, execRegisterWrite, served, landed, hostAccess, ha, hb, hw]

/-- A read by the host of a word that answers: the value into `resp`, what the read does to the device, then the mailbox. -/
theorem gives_lowerWordRead {s : State} {a : Nat} (hup : s.dev.hostUp = true) (ha : a % 4 = 0) (hs : s.dev.barSilent a = false) :
    Gives (.lowerWordRead a) s (let r := s.dev.readWord s.nv a
      serveBell { s with dev := { r.2 with resp := [BitVec.ofNat 32 r.1] } }) := by
  simp [Gives, exec, execLowerWordRead, served, hostAccess, readInto, busRead, hup, ha, hs]

theorem gives_rocRead {s : State} {a : Nat} (hup : s.dev.hostUp = true) (ha : a % 4 = 0) (hs : s.dev.barSilent a = false) :
    Gives (.rocRead a) s (let r := s.dev.readWord s.nv a
      serveBell { s with dev := { r.2 with resp := [BitVec.ofNat 32 r.1] } }) :=
  gives_lowerWordRead hup ha hs

theorem runs_bar0UnalignedAccess {s : State} (a : Nat) (hup : s.dev.hostUp = true) :
    Runs (.bar0UnalignedAccess true a) s s.dev ∧ Runs (.bar0UnalignedAccess false a) s { s.dev with resp := [0] } := by
  simp [Runs, exec, execBar0UnalignedAccess, hostAccess, readInto, hup]

/-! ## The write of a word -/

/-- Where no register stands a write is counted (16 R450). -/
theorem busWrite_of_no_register {s : State} {a : Nat} (v : Nat) (hr : rowsAt a = []) (hc : activeOf a = none) :
    busWrite a v s = { s with dev := s.dev.bump R.DEV_BAR_DISC_CNT 1 } := by
  simp [busWrite, Dev.barSilent, hr, hc, Dev.barMiss]

/-- A word that answers and is no command word is written as a setting. -/
theorem busWrite_setting {s : State} {a v : Nat} (hs : s.dev.barSilent a = false) (hc : cmdWord a v = none)
    (ho : s.dev.strayCommand a v = none) : busWrite a v s = { s with dev := s.dev.settingWrite a v } := by
  simp [busWrite, hs, hc, ho]

theorem gives_upperWordWrite_setting {s : State} {a : Nat} {v : Word} (hup : s.dev.hostUp = true) (ha : a % 4 = 0)
    (hs : s.dev.barSilent a = false) (hc : cmdWord a v.toNat = none) (ho : s.dev.strayCommand a v.toNat = none) :
    Gives (.upperWordWrite a v) s (serveBell { s with dev := s.dev.settingWrite a v.toNat }) :=
  busWrite_setting hs hc ho ▸ gives_upperWordWrite v hup ha

/-! ## Words of the event block -/

/-- Of the event block only EVT_CMD is a command word. -/
theorem cmdWord_evt {a : Nat} (v : Nat) (hp : a / 0x10000 = 2) (hc : a ≠ 0x20004) : cmdWord a v = none := by
  have hfix : cmdFixed a v = none := by
    unfold cmdFixed
    split
    case h_25 => rfl
    all_goals omega
  have harr : cmdArray a v = none := by
    simp (disch := omega) only [cmdArray, if_neg]
  rw [cmdWord, hfix, harr, Option.none_or]

/-- No word of the event block takes one command at a time. -/
theorem Dev.strayCommand_evt (d : Dev) {a : Nat} (v : Nat) (hp : a / 0x10000 = 2) : d.strayCommand a v = none := by
  have h : busyWord a = none := by
    unfold busyWord
    split
    case h_9 => rfl
    all_goals omega
  simp [Dev.strayCommand, h]

/-- A word of the event block answers past BOOT: no power domain holds the block (17 Table 17.2). -/
theorem Dev.barSilent_evt {d : Dev} {a : Nat} (hp : a / 0x10000 = 2) (hb : d.dstate ≠ .boot) (hr : rowsAt a ≠ []) :
    d.barSilent a = false := by
  simp [Dev.barSilent, Dev.addrOn, addrDomains, hp, hb, hr]

/-- Past BOOT a write of an event word that is no command is that of a setting. -/
theorem busWrite_evt {s : State} {a : Nat} (v : Nat) (hp : a / 0x10000 = 2) (hc : a ≠ 0x20004) (hb : s.dev.dstate ≠ .boot)
    (hr : rowsAt a ≠ []) : busWrite a v s = { s with dev := s.dev.settingWrite a v } :=
  busWrite_setting (Dev.barSilent_evt hp hb hr) (cmdWord_evt v hp hc) (s.dev.strayCommand_evt v hp)

/-- Nothing else depends on a setting of the event block. -/
theorem Dev.settled_evt (d : Dev) {a : Nat} (old new : Nat) (hp : a / 0x10000 = 2) : d.settled a old new = d := by
  have hcls : isClassAddr a = false := by
    simp only [isClassAddr, Bool.or_eq_false_iff, Bool.and_eq_false_iff, decide_eq_false_iff_not]
    omega
  simp (disch := omega) only [Dev.settled, R.LAS_CFG_DEPTH, R.CMP_RES, R.FAB_TIME_LIM, R.FAB_CFG_EN, R.TIM_CTRL_OWNER, R.NET_IP, hcls,
    Bool.false_eq_true, if_neg, if_false]

theorem Dev.putWord_evt (d : Dev) {a : Nat} (new : Nat) (hp : a / 0x10000 = 2) : d.putWord a new = d.setReg a (BitVec.ofNat 32 new) :=
  Dev.settled_evt _ _ _ hp

theorem crcUnitOf_evt {a : Nat} (hp : a / 0x10000 = 2) : crcUnitOf a = none := by
  rw [crcUnitOf, if_neg (by omega)]

theorem Dev.oddCtrl_evt (d : Dev) {a : Nat} (hp : a / 0x10000 = 2) : d.oddCtrl a = false := by
  have h : ¬ 0x100000 ≤ a := by omega
  simp [Dev.oddCtrl, h]

/-! ### Event words with one field -/

section
variable {a : Nat} {r : FieldRow}

theorem Dev.wordOk_evt (d : Dev) (v : Nat) (hp : a / 0x10000 = 2) (hr : rowsAt a = [r]) :
    d.wordOk a v = (!d.takes r || inRanges r.rng (bitsOf v r.lo r.w)) := by
  simp (disch := omega) only [Dev.wordOk, hr, R.CMP_HORIZON, if_neg, List.all_cons, List.all_nil, Bool.and_true]

/-- A write of an event word that is no half of a 64-bit value: its range decides (16 R425). -/
theorem Dev.settingWrite_evt (d : Dev) (v : Nat) (hp : a / 0x10000 = 2) (hr : rowsAt a = [r]) (hh : r.half = 0) :
    d.settingWrite a v =
      if !d.takes r || inRanges r.rng (bitsOf v r.lo r.w) then d.plainWrite a v else d.rangeDiscard := by
  simp [Dev.settingWrite, d.wordOk_evt v hp hr, hr, hh, crcUnitOf_evt hp]

/-- An event word in its range stores what its access code leaves (00_scope R6). -/
theorem Dev.plainWrite_evt (d : Dev) (v : Nat) (hp : a / 0x10000 = 2) (hr : rowsAt a = [r]) (hf : r.prof = false) :
    d.plainWrite a v =
      if d.merged a (d.reg a).toNat v = (d.reg a).toNat ∧ d.takes r = false then d
      else d.setReg a (BitVec.ofNat 32 (d.merged a (d.reg a).toNat v)) := by
  have hprof : isProfileAddr a = false := by simp [isProfileAddr, hr, hf]
  simp (disch := omega) only [Dev.plainWrite, hprof, d.oddCtrl_evt hp, crcUnitOf_evt hp, d.putWord_evt _ hp, R.TIM_ADJ, R.POS_CTRL_SRC,
    R.NET_MAC_LO, R.NET_MAC_HI, Bool.false_and, Bool.false_eq_true, if_neg, if_false, hr, List.any_cons, List.any_nil, Bool.or_false,
    Bool.not_eq_true']

/-- Outside RUN a write of an RWL field is stored. -/
theorem Dev.merged_rwl (d : Dev) (old v : Nat) (hr : rowsAt a = [r]) (hacc : r.acc = .rwl) (hd : d.dstate ≠ .run) :
    d.merged a old v = putBits old r.lo r.w (bitsOf v r.lo r.w) := by
  simp [Dev.merged, hr, hacc, hd]

/-- Outside RUN an RWL word in its range is stored (00_scope R6). -/
theorem Dev.plainWrite_rwl (d : Dev) (v : Nat) (hp : a / 0x10000 = 2) (hr : rowsAt a = [r]) (hf : r.prof = false) (hacc : r.acc = .rwl)
    (hd : d.dstate ≠ .run) :
    d.plainWrite a v = d.setReg a (BitVec.ofNat 32 (putBits (d.reg a).toNat r.lo r.w (bitsOf v r.lo r.w))) := by
  have ht : d.takes r = true := by simp [Dev.takes, hacc, hd]
  simp [d.plainWrite_evt v hp hr hf, d.merged_rwl _ v hr hacc hd, ht]

/-- In RUN an RWL word takes nothing. -/
theorem Dev.settingWrite_rwl_in_run (d : Dev) (v : Nat) (hp : a / 0x10000 = 2) (hr : rowsAt a = [r]) (hf : r.prof = false)
    (hh : r.half = 0) (hacc : r.acc = .rwl) (hd : d.dstate = .run) : d.settingWrite a v = d := by
  have ht : d.takes r = false := by simp [Dev.takes, hacc, hd]
  have hm : d.merged a (d.reg a).toNat v = (d.reg a).toNat := by simp [Dev.merged, hr, hacc, hd]
  simp [d.settingWrite_evt v hp hr hh, d.plainWrite_evt v hp hr hf, ht, hm]

/-- The lower word of a 64-bit setting is held until the upper one is written (00_scope R5). -/
theorem Dev.settingWrite_lower (d : Dev) (v : Word) (hr : rowsAt a = [r]) (hh : r.half = 1) (ht : d.takes r = true) :
    d.settingWrite a v.toNat = { d with held := d.held.put a v } := by
  simp [Dev.settingWrite, hr, hh, ht]

/-- A one-bit W1C field: a 1 clears it, a 0 leaves it (00_scope R6). -/
theorem Dev.settingWrite_w1c_bit (d : Dev) (v : Nat) (hp : a / 0x10000 = 2) (hr : rowsAt a = [r]) (hf : r.prof = false)
    (hh : r.half = 0) (hacc : r.acc = .w1c) (hw : r.w = 1) :
    d.settingWrite a v = if bitsOf v r.lo 1 = 1 ∧ d.is ⟨a, r.lo, 1⟩ = true then d.setB ⟨a, r.lo, 1⟩ false else d := by
  have ht : d.takes r = false := by simp [Dev.takes, hacc]
  have hm : d.merged a (d.reg a).toNat v = putBits (d.reg a).toNat r.lo 1
      (bitsOf (d.reg a).toNat r.lo 1 - (bitsOf (d.reg a).toNat r.lo 1 &&& bitsOf v r.lo 1)) := by
    simp [Dev.merged, hr, hacc, hw]
  have hv : bitsOf v r.lo 1 = 0 ∨ bitsOf v r.lo 1 = 1 := by have := bitsOf_lt v r.lo 1; omega
  have ho : bitsOf (d.reg a).toNat r.lo 1 = 0 ∨ bitsOf (d.reg a).toNat r.lo 1 = 1 := by
    have := bitsOf_lt (d.reg a).toNat r.lo 1; omega
  have hself := putBits_bitsOf_self (d.reg a).toNat r.lo 1
  rw [d.settingWrite_evt v hp hr hh, d.plainWrite_evt v hp hr hf, hm]
  rcases hv with hv | hv <;> rcases ho with ho | ho <;> rw [ho] at hself
  · simp [ht, hv, ho, hself]
  · simp [ht, hv, ho, hself]
  · simp [ht, hv, ho, hself, Dev.is, Dev.get]
  · have hne : putBits (d.reg a).toNat r.lo 1 0 ≠ (d.reg a).toNat := fun h => by
      have := bitsOf_putBits_self (d.reg a).toNat r.lo 1 0
      rw [h, ho] at this
      simp at this
    simp [ht, hv, ho, hne, Dev.is, Dev.get, Dev.setB, Dev.set]

/-- A word that is one ROC field restarts at its row's value. -/
theorem Dev.restarted_roc_word (d : Dev) (hp : a / 0x10000 = 2) (hr : rowsAt a = [r]) (hacc : r.acc = .roc) (hlo : r.lo = 0)
    (hw : r.w = 32) : d.restarted a = d.setReg a (BitVec.ofNat 32 r.rst) := by
  have hpeak : a ≠ R.ITM_PEAK.addr ∧ a ≠ R.CMP_IMG_PEAK.addr := by simp only [R.ITM_PEAK, R.CMP_IMG_PEAK]; omega
  have hrst : d.restart a r = r.rst := by simp [Dev.restart, hpeak]
  simp [Dev.restarted, hr, hacc, hlo, hw, hrst, ofNat_putBits_whole]

end

/-! ### 64-bit values of the event block -/

/-- The row of a 32-bit RWL word at offset `o` of its group that is half `h` of a 64-bit value. -/
def halfRow (o h : Nat) : FieldRow := { off := o, lo := 0, w := 32, acc := .rwl, rst := 0, half := h }

theorem Dev.takes_halfRow {d : Dev} (o h : Nat) (hd : d.dstate ≠ .run) : d.takes (halfRow o h) = true := by
  simp [Dev.takes, halfRow, hd]

section
variable {a o h : Nat}

/-- Outside RUN such a word takes the value written. -/
theorem Dev.plainWrite_halfRow (d : Dev) (v : Word) (hp : a / 0x10000 = 2) (hr : rowsAt a = [halfRow o h]) (hd : d.dstate ≠ .run) :
    d.plainWrite a v.toNat = d.setReg a v := by
  rw [d.plainWrite_rwl v.toNat hp hr rfl rfl hd]
  simp only [halfRow, putBits_bitsOf, ofNat_putBits_whole, BitVec.ofNat_toNat, BitVec.setWidth_eq]

/-- A 64-bit setting of the event block is written as its two words. -/
theorem Dev.pairWrite_evt (d : Dev) (v : Nat) (hp : a / 0x10000 = 2) :
    d.pairWrite a v = (d.plainWrite a (v % 2 ^ 32)).plainWrite (a + 4) (v / 2 ^ 32) := by
  have hl : [0xC0014, 0xC001C, 0xC0030, 0xC0038, 0xC0040, 0xC0048].contains a = false := by
    simp only [List.contains_eq_mem, List.mem_cons, List.not_mem_nil, or_false, decide_eq_false_iff_not]
    omega
  simp (disch := omega) only [Dev.pairWrite, pairOk, hl, Bool.not_true, Bool.false_eq_true, if_neg, if_false]

/-- The upper word of a 64-bit setting writes both, once the lower one is held (00_scope R5). -/
theorem Dev.settingWrite_upper (d : Dev) (lo v : Word) (hp : a / 0x10000 = 2) (hp4 : (a + 4) / 0x10000 = 2)
    (hr : rowsAt a = [halfRow o 1]) (hq : rowsAt (a + 4) = [halfRow (o + 4) 2]) (hd : d.dstate ≠ .run)
    (hl : d.held.find? a = some lo) :
    d.settingWrite (a + 4) v.toNat = ({ d with held := d.held.drop a }.setReg a lo).setReg (a + 4) v := by
  have hset : d.settingWrite (a + 4) v.toNat = { d with held := d.held.drop a }.pairWrite a (lo.toNat + 2 ^ 32 * v.toNat) := by
    have hhalf : (halfRow (o + 4) 2).half = 2 := rfl
    simp [Dev.settingWrite, hq, Dev.takes_halfRow _ _ hd, hl, hhalf]
  have hlow : (lo.toNat + 2 ^ 32 * v.toNat) % 2 ^ 32 = lo.toNat := by have := lo.isLt; omega
  have hhigh : (lo.toNat + 2 ^ 32 * v.toNat) / 2 ^ 32 = v.toNat := by have := lo.isLt; omega
  rw [hset, Dev.pairWrite_evt _ _ hp, hlow, hhigh, Dev.plainWrite_halfRow _ lo hp hr (by exact hd),
    Dev.plainWrite_halfRow _ v hp4 hq (by exact hd)]

end

/-! ## Verdict outputs and the event interrupt -/

theorem rowsAt_vrdGateLo : ∀ o < 4, rowsAt (0x20104 + 0x20 * o) = [halfRow 0x4 1] := by decide

theorem rowsAt_vrdGateHi : ∀ o < 4, rowsAt (0x20108 + 0x20 * o) = [halfRow 0x8 2] := by decide

/-- The row of VRD_WIDTH: 1 to 1,000,000, not written in RUN. -/
def vrdWidthRow : FieldRow := { off := 0xC, lo := 0, w := 20, acc := .rwl, rst := 0x2710, rng := [(1, 1000000)] }

theorem rowsAt_vrdWidth : ∀ o < 4, rowsAt (0x2010C + 0x20 * o) = [vrdWidthRow] := by decide

theorem rowsAt_vrdPulseCnt : ∀ o < 4, rowsAt (0x20110 + 0x20 * o) = [{ off := 0x10, lo := 0, w := 32, acc := .roc, rst := 0 }] := by
  decide

theorem rowsAt_vrdMarginMin :
    ∀ o < 4, rowsAt (0x20114 + 0x20 * o) = [{ off := 0x14, lo := 0, w := 32, acc := .roc, rst := 0xFFFFFFFF }] := by
  decide

theorem rowsAt_evtIrqStatus : rowsAt 0x20020 = [{ off := 0x20, lo := 0, w := 1, acc := .w1c, rst := 0 }] := by decide

/-- A write of VRD_WIDTH in its range, outside RUN. -/
theorem Dev.settingWrite_vrdWidth {d : Dev} {o : Nat} (v : Nat) (ho : o < 4) (hd : d.dstate ≠ .run) (h1 : 1 ≤ v % 2 ^ 20)
    (h2 : v % 2 ^ 20 ≤ 1000000) : d.settingWrite (0x2010C + 0x20 * o) v = d.set (R.VRD_WIDTH o) v := by
  have hp : (0x2010C + 0x20 * o) / 0x10000 = 2 := by omega
  have hin : inRanges vrdWidthRow.rng (bitsOf v vrdWidthRow.lo vrdWidthRow.w) = true := by
    simp [inRanges, vrdWidthRow, bitsOf_zero_lo]; omega
  rw [d.settingWrite_evt v hp (rowsAt_vrdWidth o ho) rfl, hin, Bool.or_true, if_pos rfl,
    d.plainWrite_rwl v hp (rowsAt_vrdWidth o ho) rfl rfl hd]
  simp only [vrdWidthRow, putBits_bitsOf, Dev.set, R.VRD_WIDTH]

/-- A VRD_WIDTH of 0 is outside its range. -/
theorem Dev.settingWrite_vrdWidth_zero {d : Dev} {o : Nat} (v : Nat) (ho : o < 4) (hd : d.dstate ≠ .run) (h : v % 2 ^ 20 = 0) :
    d.settingWrite (0x2010C + 0x20 * o) v = d.bump R.DEV_RANGE_DISC_CNT 1 := by
  have ht : d.takes vrdWidthRow = true := by simp [Dev.takes, vrdWidthRow, hd]
  have hout : inRanges vrdWidthRow.rng (bitsOf v vrdWidthRow.lo vrdWidthRow.w) = false := by
    simp [inRanges, vrdWidthRow, bitsOf_zero_lo]; omega
  simp [d.settingWrite_evt v (by omega) (rowsAt_vrdWidth o ho) rfl, ht, hout, Dev.rangeDiscard]

/-- The event interrupt's pending bit. -/
theorem Dev.settingWrite_evtIrqStatus (d : Dev) (v : Nat) :
    d.settingWrite 0x20020 v =
      if v % 2 = 1 ∧ d.is R.EVT_IRQ_STATUS_PEND = true then d.setB R.EVT_IRQ_STATUS_PEND false else d := by
  have h := d.settingWrite_w1c_bit v (by decide) rowsAt_evtIrqStatus rfl rfl rfl rfl
  rw [bitsOf_zero_lo] at h
  exact h

/-! ## Reads -/

/-- What a read of a lower word does: its ROC fields restart, and the upper word is latched (00_scope R5). -/
theorem Dev.readWord_lower {d : Dev} {a : Nat} (v : NonVol) (hn : a ≠ R.TIM_NOW_NS.addr) (hx : a ≠ R.TS_TX_POP.addr)
    (h : (rowsAt a).any (fun r => r.half == 1) = true) :
    d.readWord v a = (d.word v a, { d.restarted a with latch := d.latch.put (a + 4) (BitVec.ofNat 32 (d.word v (a + 4))) }) := by
  simp only [Dev.readWord, hn, hx, h, if_true, if_false]

/-- A word that is no half, and none of the descriptor table, restarts its ROC fields (00_scope R6). -/
theorem Dev.readWord_whole {d : Dev} {a : Nat} (v : NonVol) (hn : a ≠ R.TIM_NOW_NS.addr) (hx : a ≠ R.TS_TX_POP.addr)
    (h1 : (rowsAt a).any (fun r => r.half == 1) = false) (h2 : (rowsAt a).any (fun r => r.half == 2) = false)
    (ht : ¬(0x198000 ≤ a ∧ a < 0x1A0000)) : d.readWord v a = (d.word v a, d.restarted a) := by
  simp only [Dev.readWord, hn, hx, h1, h2, ht, if_false, Bool.false_eq_true]

/-- A word of the descriptor table comes out of memory 9, corrected, and reads all ones where it is uncorrectable (11 R315, R318). -/
theorem Dev.readWord_descriptor {d e : Dev} {a : Nat} {x : Option Nat} (v : NonVol)
    (h1 : (rowsAt a).any (fun r => r.half == 1) = false) (h2 : (rowsAt a).any (fun r => r.half == 2) = false)
    (hlo : 0x198000 ≤ a) (hhi : a < 0x1A0000) (hr : d.sramRead 9 ((a - 0x198000) / 4) 14 = (x, e)) :
    d.readWord v a = (x.getD 0xFFFFFFFF, if x.isSome then e else e.emit (.poisoned 0 a)) := by
  have hn : a ≠ R.TIM_NOW_NS.addr := by simp only [R.TIM_NOW_NS]; omega
  have hx : a ≠ R.TS_TX_POP.addr := by simp only [R.TS_TX_POP]; omega
  cases x <;> simp [Dev.readWord, hn, hx, h1, h2, hlo, hhi, hr]

theorem gives_rocRead_descriptor {s : State} {e : Dev} {a : Nat} {x : Option Nat} (hup : s.dev.hostUp = true) (ha : a % 4 = 0)
    (hs : s.dev.barSilent a = false) (h1 : (rowsAt a).any (fun r => r.half == 1) = false)
    (h2 : (rowsAt a).any (fun r => r.half == 2) = false) (hlo : 0x198000 ≤ a) (hhi : a < 0x1A0000)
    (hr : s.dev.sramRead 9 ((a - 0x198000) / 4) 14 = (x, e)) :
    Gives (.rocRead a) s (serveBell { s with dev :=
      { (if x.isSome then e else e.emit (.poisoned 0 a)) with resp := [BitVec.ofNat 32 (x.getD 0xFFFFFFFF)] } }) := by
  have hg := gives_rocRead hup ha hs
  rwa [Dev.readWord_descriptor s.nv h1 h2 hlo hhi hr] at hg

@[simp] theorem Dev.restarted_mgmt (d : Dev) (a : Nat) : (d.restarted a).mgmt = d.mgmt := by
  unfold Dev.restarted
  dsimp only
  split <;> rfl

/-! ## The clauses on writes and reads -/

section
variable {s : State} {o a : Nat} (hup : s.dev.hostUp = true) (hb : s.dev.mgmt.bell = none)
include hup hb

/-- A setting write of an event word that touches neither mailbox nor waiting writes. -/
theorem runs_registerWrite_evt {r : FieldRow} {v : Word} {d : Dev} (hw : s.dev.noneWait = true) (hd : s.dev.dstate ≠ .boot)
    (hp : a / 0x10000 = 2) (ha : a % 4 = 0) (hc : a ≠ 0x20004) (hr : rowsAt a = [r]) (h : s.dev.settingWrite a v.toNat = d)
    (hm : d.mgmt = s.dev.mgmt) (hj : d.job = s.dev.job) (hx : d.exp = s.dev.exp) : Runs (.registerWrite a v) s d :=
  runs_registerWrite hup hb hw ha (by rw [busWrite_evt _ hp hc hd (by simp [hr]), h]) hm hj hx

theorem runs_write_vrdWidth (v : Word) (hw : s.dev.noneWait = true) (hd : s.dev.dstate ≠ .boot) (hrun : s.dev.dstate ≠ .run)
    (ho : o < 4) (h1 : 1 ≤ v.toNat % 2 ^ 20) (h2 : v.toNat % 2 ^ 20 ≤ 1000000) :
    Runs (.registerWrite (0x2010C + 0x20 * o) v) s (s.dev.set (R.VRD_WIDTH o) v.toNat) :=
  runs_registerWrite_evt hup hb hw hd (by omega) (by omega) (by omega) (rowsAt_vrdWidth o ho)
    (Dev.settingWrite_vrdWidth _ ho hrun h1 h2) (by simp) (by simp) (by simp)

theorem runs_write_vrdWidth_zero (v : Word) (hw : s.dev.noneWait = true) (hd : s.dev.dstate ≠ .boot) (hrun : s.dev.dstate ≠ .run)
    (ho : o < 4) (h : v.toNat % 2 ^ 20 = 0) :
    Runs (.registerWrite (0x2010C + 0x20 * o) v) s (s.dev.bump R.DEV_RANGE_DISC_CNT 1) :=
  runs_registerWrite_evt hup hb hw hd (by omega) (by omega) (by omega) (rowsAt_vrdWidth o ho)
    (Dev.settingWrite_vrdWidth_zero _ ho hrun h) (by simp) (by simp) (by simp)

theorem runs_write_vrdWidth_in_run (v : Word) (hw : s.dev.noneWait = true) (hrun : s.dev.dstate = .run) (ho : o < 4) :
    Runs (.registerWrite (0x2010C + 0x20 * o) v) s s.dev :=
  runs_registerWrite_evt hup hb hw (by simp [hrun]) (by omega) (by omega) (by omega) (rowsAt_vrdWidth o ho)
    (Dev.settingWrite_rwl_in_run _ _ (by omega) (rowsAt_vrdWidth o ho) rfl rfl rfl hrun) rfl rfl rfl

theorem runs_write_vrdGateLo (v : Word) (hw : s.dev.noneWait = true) (hd : s.dev.dstate ≠ .boot) (hrun : s.dev.dstate ≠ .run)
    (ho : o < 4) : Runs (.registerWrite (0x20104 + 0x20 * o) v) s { s.dev with held := s.dev.held.put (0x20104 + 0x20 * o) v } :=
  runs_registerWrite_evt hup hb hw hd (by omega) (by omega) (by omega) (rowsAt_vrdGateLo o ho)
    (Dev.settingWrite_lower _ v (rowsAt_vrdGateLo o ho) rfl (Dev.takes_halfRow _ _ hrun)) rfl rfl rfl

theorem runs_write_vrdGateHi (lo v : Word) (hd : s.dev.dstate ≠ .boot) (hrun : s.dev.dstate ≠ .run) (ho : o < 4)
    (hl : s.dev.held.find? (0x20104 + 0x20 * o) = some lo) :
    Runs (.upperWordWrite (0x20108 + 0x20 * o) v) s (({ s.dev with held := s.dev.held.drop (0x20104 + 0x20 * o) }.setReg
      (0x20104 + 0x20 * o) lo).setReg (0x20108 + 0x20 * o) v) := by
  have hnext : 0x20104 + 0x20 * o + 4 = 0x20108 + 0x20 * o := by omega
  have hq := rowsAt_vrdGateHi o ho
  have hset := s.dev.settingWrite_upper lo v (a := 0x20104 + 0x20 * o) (by omega) (by omega) (rowsAt_vrdGateLo o ho)
    (by rw [hnext]; exact hq) hrun hl
  rw [hnext] at hset
  exact runs_upperWordWrite hup hb (by omega) (by rw [busWrite_evt v.toNat (by omega) (by omega) hd (by simp [hq]), hset]) rfl

theorem runs_write_evtIrqStatus (v : Word) (hw : s.dev.noneWait = true) (hd : s.dev.dstate ≠ .boot) :
    Runs (.registerWrite 0x20020 v) s (if v.toNat % 2 = 1 ∧ s.dev.is R.EVT_IRQ_STATUS_PEND = true
      then s.dev.setB R.EVT_IRQ_STATUS_PEND false else s.dev) :=
  runs_registerWrite_evt hup hb hw hd (by decide) (by decide) (by decide) rowsAt_evtIrqStatus (s.dev.settingWrite_evtIrqStatus _)
    (by split <;> rfl) (by split <;> rfl) (by split <;> rfl)

theorem runs_lowerWordRead (ha : a % 4 = 0) (hs : s.dev.barSilent a = false) (hn : a ≠ R.TIM_NOW_NS.addr)
    (hx : a ≠ R.TS_TX_POP.addr) (h : (rowsAt a).any (fun r => r.half == 1) = true) :
    Runs (.lowerWordRead a) s { s.dev.restarted a with
      latch := s.dev.latch.put (a + 4) (BitVec.ofNat 32 (s.dev.word s.nv (a + 4))), resp := [BitVec.ofNat 32 (s.dev.word s.nv a)] } := by
  have hg := gives_lowerWordRead hup ha hs
  simpa [Gives, Runs, Dev.readWord_lower s.nv hn hx h, hb] using hg

theorem runs_rocRead (ha : a % 4 = 0) (hs : s.dev.barSilent a = false) (hn : a ≠ R.TIM_NOW_NS.addr)
    (hx : a ≠ R.TS_TX_POP.addr) (h1 : (rowsAt a).any (fun r => r.half == 1) = false)
    (h2 : (rowsAt a).any (fun r => r.half == 2) = false) (ht : ¬(0x198000 ≤ a ∧ a < 0x1A0000)) :
    Runs (.rocRead a) s { s.dev.restarted a with resp := [BitVec.ofNat 32 (s.dev.word s.nv a)] } := by
  have hg := gives_rocRead hup ha hs
  simpa [Gives, Runs, Dev.readWord_whole s.nv hn hx h1 h2 ht, hb] using hg

end

end Sys2Proof.Machine

open Sys2Proof Sys2Proof.Machine

/-- Settles O7: an access is that of the bus; the words named are single fields of the event block, whose access code and range
decide. -/
theorem registerAccesses : Obligations.RegisterAccesses := by
  unfold Obligations.RegisterAccesses
  refine ⟨fun s a v hup ha => ?bus, fun s o v hup hb hw hd hrun ho => ?verdict, fun s o v hup hb hw hrun ho => ?inRun,
    fun s v hup hb hw hd => ?interrupt, fun s a v hup hb hw ha hr hc => ?noRegister, fun s a v hb hw ha => ?notAligned,
    fun s a hup hb ha hs hn hx => ?reads, fun s a x e hup ha hs hlo hhi h1 h2 => ?descriptor, fun d o ho => ?restart,
    fun s a hup _ => runs_bar0UnalignedAccess a hup⟩
  case bus => exact ⟨gives_registerWrite v hup ha, gives_upperWordWrite v hup ha, gives_upperWordWrite_setting hup ha⟩
  case verdict =>
    exact ⟨runs_write_vrdWidth hup hb v hw hd hrun ho, runs_write_vrdWidth_zero hup hb v hw hd hrun ho,
      runs_write_vrdGateLo hup hb v hw hd hrun ho, fun lo hl => runs_write_vrdGateHi hup hb lo v hd hrun ho hl⟩
  case inRun => exact runs_write_vrdWidth_in_run hup hb v hw hrun ho
  case interrupt => exact runs_write_evtIrqStatus hup hb v hw hd
  case noRegister => exact runs_registerWrite hup hb hw ha (busWrite_of_no_register v.toNat hr hc) rfl rfl rfl
  case notAligned => exact runs_registerWrite_unaligned v hb hw ha
  case reads => exact ⟨runs_lowerWordRead hup hb ha hs hn hx, runs_rocRead hup hb ha hs hn hx⟩
  case descriptor => exact ⟨gives_rocRead_descriptor hup ha hs h1 h2 hlo hhi, gives_rocRead_descriptor hup ha hs h1 h2 hlo hhi⟩
  case restart =>
    exact ⟨d.restarted_roc_word (by omega) (rowsAt_vrdPulseCnt o ho) rfl rfl rfl,
      d.restarted_roc_word (by omega) (rowsAt_vrdMarginMin o ho) rfl rfl rfl⟩

end

-- Encoders, position, triggers, the fire scheduler (02 R46–R82).
section
/-! PROOFS. What encoder edges, loads of position, triggers and issue clocks do: the shared operations of position first, then the
commands. -/

namespace Sys2Proof.Machine

open Sys2Proof

/-! ## Effects on a device that works -/

theorem tracking_of_up {s : State} (hup : Up s) : s.dev.tracking = true := by simp [Dev.tracking, hup.2]

@[simp] theorem onDevIf_awake {s : State} {ok : Bool} (f : Dev → Dev) (hok : ok = true) (h : s.dev.awake = true) :
    onDevIf ok f s = .next { s with dev := f s.dev } := by simp [onDevIf, hok, h]

@[simp] theorem onDevKeep_awake {s : State} {ok : Bool} (f : Dev → Dev) (hok : ok = true) (h : s.dev.awake = true) :
    onDevKeep ok f s = .next (keepCommit { s with dev := f s.dev }) := by simp [onDevKeep, hok, h]

/-- Past BOOT a host command has its own effect. -/
theorem onHost_up {s : State} (f : Dev → Dev) (hup : Up s) : onHost f s = .next { s with dev := f s.dev } := by
  obtain ⟨ha, hb⟩ := hup
  simp [onHost, onDev, ha, hb]

theorem onHostKeep_up {s : State} (f : Dev → Dev) (hup : Up s) :
    onHostKeep true f s = .next (keepCommit { s with dev := f s.dev }) := by
  obtain ⟨ha, hb⟩ := hup
  simp [onHostKeep, ha, hb]

/-- With no item record on its way to the keeper nothing is committed. -/
theorem keepCommit_of_none_latched {s : State} (h : s.dev.evt.latched = []) : keepCommit s = s := by
  have he : { s.dev.evt with latched := [] } = s.dev.evt := by rw [← h]
  simp only [keepCommit, h, he, List.foldl_nil]

theorem runs_of_gives_keepCommit {c : Instr} {s : State} {d : Dev} (h : Gives c s (keepCommit { s with dev := d }))
    (hl : d.evt.latched = []) : Runs c s d := by
  rwa [Gives, keepCommit_of_none_latched hl] at h

@[simp] theorem Dev.post_latched (d : Dev) (e : EvEntry) : (d.post e).evt.latched = d.evt.latched := by
  unfold Dev.post
  split <;> rfl

@[simp] theorem Dev.raise_latched (d : Dev) (c x : Nat) : (d.raise c x).evt.latched = d.evt.latched := d.post_latched _

/-! ## An encoder input is replaced -/

section
variable (d : Dev) (n : Nat) (e : Enc)

@[simp] theorem Dev.enc_setEnc_self : (d.setEnc n e).enc n = e := SMap.get_put_self ..
@[simp] theorem Dev.setEnc_srcEnc : (d.setEnc n e).srcEnc = d.srcEnc := rfl

end

/-! ## Checks of an encoder (02 R50, R54, R55) -/

/-- A check that applies to an enabled encoder. -/
theorem Dev.encFail_enabled {d : Dev} {n cause bit : Nat} (hen : d.is (R.ENC_CFG_EN n) = true) (hbit : encStatusBit cause = some bit)
    (happ : checkApplies cause (d.is (R.ENC_CFG_MODE n)) = true) :
    d.encFail n cause =
      if d.srcEnc = some n ∨ d.chkEnc = some n then
        (d.set (R.ENC_STATUS n) (orBit (d.get (R.ENC_STATUS n)) bit)).posInvalid cause n
      else d.set (R.ENC_STATUS n) (orBit (d.get (R.ENC_STATUS n)) bit) := by
  simp [Dev.encFail, hen, hbit, happ]

/-- A and B that change together fail check 1 of an encoder that is neither source nor check encoder in digital mode only. -/
theorem Dev.edgeChecks_quad_other {d : Dev} {n : Nat} {e : Enc} (a b : Bool) (hen : d.is (R.ENC_CFG_EN n) = true)
    (hs : d.srcEnc ≠ some n) (hc : d.chkEnc ≠ some n) :
    d.edgeChecks n e (.quad a b) =
      if e.a ≠ a ∧ e.b ≠ b ∧ d.is (R.ENC_CFG_MODE n) = false then
        d.set (R.ENC_STATUS n) (orBit (d.get (R.ENC_STATUS n)) 0)
      else d := by
  by_cases hm : d.is (R.ENC_CFG_MODE n) = true
  · simp [Dev.edgeChecks, Dev.encFail, encStatusBit, checkApplies, hm]
  · have hm : d.is (R.ENC_CFG_MODE n) = false := by simpa using hm
    have hf : d.encFail n 1 = d.set (R.ENC_STATUS n) (orBit (d.get (R.ENC_STATUS n)) 0) := by
      rw [d.encFail_enabled hen rfl (by simp [checkApplies, hm]), if_neg (by simp [hs, hc])]
    simp [Dev.edgeChecks, hf, hm]

/-- An edge of one signal fails no check. -/
theorem Dev.edgeChecks_quad_single (d : Dev) (n : Nat) {e : Enc} {a b : Bool} (h : e.a = a ∨ e.b = b) :
    d.edgeChecks n e (.quad a b) = d := by
  rcases h with rfl | rfl <;> simp [Dev.edgeChecks]

/-- A sample of at most 1/4 period from the one before fails no check while the amplitude has not been out of its limits 4 times. -/
theorem Dev.edgeChecks_analog_good {d : Dev} {n : Nat} {e : Enc} {x y : Int} (hamp : (d.enc n).ampBad ≠ 4)
    (hang : (angleStep e.ang (sampleAngle x y)).natAbs ≤ 1024) : d.edgeChecks n e (.analog x y) = d := by
  simp [Dev.edgeChecks, hamp, Nat.not_lt.mpr hang]

/-- Without a check encoder nothing is compared. -/
theorem Dev.compareCheck_of_no_check {d : Dev} (h : d.chkEnc = none) : d.compareCheck = d := by
  simp [Dev.compareCheck, Dev.checkApart, h]

/-- An edge of Z stores the count, and compares nothing where the check is off. -/
theorem Dev.zEdge_unchecked {d : Dev} {n : Nat} (hen : d.is (R.ENC_CFG_EN n) = true) (hz : d.get (R.ENC_CFG_ZCHK n) = 0) :
    d.zEdge n = d.setEnc n { d.enc n with lastZ := some (d.enc n).c } := by
  cases hl : (d.enc n).lastZ <;> simp [Dev.zEdge, hen, hz, hl]

/-- A revolution too short is reported, no more, under ZCHK 1. -/
theorem Dev.zEdge_short {d : Dev} {n : Nat} {z : Int} (hen : d.is (R.ENC_CFG_EN n) = true) (hz : d.get (R.ENC_CFG_ZCHK n) = 1)
    (hl : (d.enc n).lastZ = some z) (hm : ((d.enc n).c - z).natAbs + d.get (R.ENC_ZTOL n) < d.get (R.ENC_CPR n)) :
    d.zEdge n = (d.setEnc n { d.enc n with lastZ := some (d.enc n).c }).raise Ev.ENC_Z_MISMATCH
      (((d.enc n).c - z).natAbs % 2 ^ 32 + 2 ^ 32 * n) := by
  simp [Dev.zEdge, hen, hz, hl, hm]

/-! ## A count (02 R46, R47, R52) -/

theorem Dev.countEdge_quad (d : Dev) (n : Nat) (a b : Bool) :
    d.countEdge n (.quad a b) = d.setEnc n { d.enc n with
      c := toSigned 64 (ofSigned 64 ((d.enc n).c + d.edgeDelta n (.quad a b))), a := a, b := b } := rfl

/-- A sample within the amplitude limits: count and angle, ENC_AMP, and check 4 fails no more. -/
theorem Dev.countEdge_analog {d : Dev} {n : Nat} {x y : Int} {e : Enc} (hamp : ampOk (sampleAmp x y) = true)
    (he : e = { d.enc n with
      c := toSigned 64 (ofSigned 64 ((d.enc n).c + d.edgeDelta n (.analog x y)))
      ang := (sampleAngle x y).or (d.enc n).ang
      ampBad := 0 }) :
    d.countEdge n (.analog x y) =
      ((d.setEnc n e).set (R.ENC_AMP n) (sampleAmp x y)).setEnc n { e with failing := e.failing.erase 4 } := by
  have hkeep : ((d.setEnc n e).set (R.ENC_AMP n) (sampleAmp x y)).enc n = e := d.enc_setEnc_self n e
  have hgood : ((0 : Nat) == 4) = false := rfl
  simp only [Dev.countEdge, Dev.followEdge, hamp, if_true, ← he, Dev.encPersist, hkeep, hgood, Bool.false_eq_true, if_false]

/-- An edge of an encoder that is neither source nor check encoder leaves position alone. -/
theorem Dev.posUpdate_other {d : Dev} {n : Nat} (x : EncEdge) (ht : d.tracking = true) (hen : d.is (R.ENC_CFG_EN n) = true)
    (hs : d.srcEnc ≠ some n) (hc : d.chkEnc ≠ some n) :
    d.posUpdate n x = (d.countEdge n x).edgeChecks n (d.enc n) x := by
  simp [Dev.posUpdate, when, ht, hen, hs, hc]

/-- A count of the source encoder by an edge of one signal, with no check encoder: position by R52, then what follows it. -/
theorem Dev.posUpdate_source {d : Dev} {n : Nat} {a b : Bool} {c : Int} (ht : d.tracking = true) (hen : d.is (R.ENC_CFG_EN n) = true)
    (hs : d.srcEnc = some n) (hc : d.chkEnc = none) (hab : (d.enc n).a = a ∨ (d.enc n).b = b)
    (hm : d.edgeDelta n (.quad a b) ≠ 0) (hcnt : c = toSigned 64 (ofSigned 64 ((d.enc n).c + d.edgeDelta n (.quad a b)))) :
    d.posUpdate n (.quad a b) = ((d.setEnc n { d.enc n with c := c, a := a, b := b }).setPos
      (posFrom (d.ratio n) c d.pos.cL d.pos.pL)).checkBack.weirRise := by
  have hpos : (d.setEnc n { d.enc n with c := c, a := a, b := b }).srcPos = posFrom (d.ratio n) c d.pos.cL d.pos.pL := by
    simp only [Dev.srcPos, Dev.setEnc_srcEnc, hs, Dev.enc_setEnc_self]
    rfl
  have hcmp : ∀ p, ((d.setEnc n { d.enc n with c := c, a := a, b := b }).setPos p).compareCheck =
      (d.setEnc n { d.enc n with c := c, a := a, b := b }).setPos p := fun p => Dev.compareCheck_of_no_check hc
  simp [Dev.posUpdate, when, ht, hen, hs, hm, Dev.countEdge_quad, Dev.edgeChecks_quad_single _ n hab, ← hcnt, hpos, hcmp]

/-! ## Backward travel and the weir level (02 R61–R63) -/

/-- The first count back within WEIR_DEPTH is absorbed. -/
theorem Dev.checkBack_absorbed {d : Dev} (hr : d.pos.reversal = false) (hx : d.pos.excursion = false) (h0 : 0 < d.backTravel)
    (hd : d.backTravel ≤ d.get R.WEIR_DEPTH) :
    d.checkBack = { d with pos := { d.pos with excursion := true } }.bump R.REV_ABS_CNT 1 := by
  simp [Dev.checkBack, hr, hx, hd, Int.not_le.mpr h0]

theorem Dev.repPos_le {d : Dev} (h : d.pos.posInt ≤ d.pos.weir) : d.repPos ≤ d.pos.weir := by
  have hmin : d.repPos ≤ d.pos.posInt.toNat := Nat.min_le_left ..
  omega

/-- A position not above the weir level does not move it. -/
theorem Dev.weirRise_of_le {d : Dev} (h : d.pos.posInt ≤ d.pos.weir) : d.weirRise = d := by
  simp [Dev.weirRise, Dev.weirTo, Nat.not_lt.mpr (Dev.repPos_le h)]

/-- A source encoder with count `e.c`, position at `p`: the backward travel is what the count lacks to C_W. -/
theorem Dev.backTravel_counted {d : Dev} {n : Nat} (e : Enc) (p : Int) (hs : d.srcEnc = some n) :
    ((d.setEnc n e).setPos p).backTravel = d.pos.cW - e.c := by
  have hsrc : ((d.setEnc n e).setPos p).srcEnc = some n := hs
  have henc : ((d.setEnc n e).setPos p).enc n = e := d.enc_setEnc_self n e
  simp only [Dev.backTravel, hsrc, henc]
  rfl

/-- A first count of the source encoder back within WEIR_DEPTH, to a position not above the weir level, is counted once and
leaves the weir level where it is. -/
theorem Dev.checkBack_weirRise_absorbed {d : Dev} {n : Nat} {e : Enc} {p : Int} (hs : d.srcEnc = some n) (hr : d.pos.reversal = false)
    (hx : d.pos.excursion = false) (h0 : 0 < d.pos.cW - e.c) (hd : d.pos.cW - e.c ≤ d.get R.WEIR_DEPTH) (hw : p ≤ d.pos.weir) :
    ((d.setEnc n e).setPos p).checkBack.weirRise =
      { (d.setEnc n e).setPos p with pos := { ((d.setEnc n e).setPos p).pos with excursion := true } }.bump R.REV_ABS_CNT 1 := by
  rw [← Dev.backTravel_counted e p hs] at h0 hd
  rw [Dev.checkBack_absorbed (d := (d.setEnc n e).setPos p) hr hx h0 hd]
  exact Dev.weirRise_of_le hw

@[simp] theorem Dev.endReversal_of_none {d : Dev} (h : d.pos.reversal = false) : d.endReversal = d := by simp [Dev.endReversal, h]

/-! ## Restoring position (02 R66) -/

theorem Dev.restoreOk_of_none {d : Dev} (hv : d.is R.POS_STATUS_VALID = false) (hp : d.causePersists = false) : d.restoreOk = true := by
  simp [Dev.restoreOk, hv, hp]

/-- Outside a reversal a restore makes position valid. -/
theorem Dev.restored_of_none {d : Dev} (l : Nat) (h : d.pos.reversal = false) :
    d.restored l = ((d.setB R.POS_STATUS_VALID true).causeOff 0).raise Ev.POS_RESTORED l := by
  simp [Dev.restored, h]

/-! ## Encoder commands -/

section
variable {s : State} {n : Nat} (hup : Up s)
include hup

theorem gives_positionUpdate (x : EncEdge) (hn : n < 4) :
    Gives (.positionUpdate n x) s (keepCommit { s with dev := s.dev.posUpdate n x }) := by
  simp [Gives, exec, execPositionUpdate, hup.1, hn]

/-- An edge of an encoder that is neither source nor check encoder: its count and its own checks. -/
theorem runs_positionUpdate_other {x : EncEdge} {d : Dev} (hn : n < 4) (hen : s.dev.is (R.ENC_CFG_EN n) = true)
    (hl : s.dev.evt.latched = []) (hs : s.dev.srcEnc ≠ some n) (hc : s.dev.chkEnc ≠ some n)
    (hd : (s.dev.countEdge n x).edgeChecks n (s.dev.enc n) x = d) (hdl : d.evt.latched = s.dev.evt.latched) :
    Runs (.positionUpdate n x) s d := by
  have hg := gives_positionUpdate hup x hn
  rw [s.dev.posUpdate_other x (tracking_of_up hup) hen hs hc, hd] at hg
  exact runs_of_gives_keepCommit hg (hdl.trans hl)

theorem gives_positionUpdate_source {a b : Bool} {c : Int} (hn : n < 4) (hen : s.dev.is (R.ENC_CFG_EN n) = true)
    (hs : s.dev.srcEnc = some n) (hc : s.dev.chkEnc = none) (hab : (s.dev.enc n).a = a ∨ (s.dev.enc n).b = b)
    (hm : s.dev.edgeDelta n (.quad a b) ≠ 0)
    (hcnt : c = toSigned 64 (ofSigned 64 ((s.dev.enc n).c + s.dev.edgeDelta n (.quad a b)))) :
    Gives (.positionUpdate n (.quad a b)) s (keepCommit { s with
      dev := ((s.dev.setEnc n { s.dev.enc n with c := c, a := a, b := b }).setPos
        (posFrom (s.dev.ratio n) c s.dev.pos.cL s.dev.pos.pL)).checkBack.weirRise }) := by
  rw [← s.dev.posUpdate_source (tracking_of_up hup) hen hs hc hab hm hcnt]
  exact gives_positionUpdate hup _ hn

theorem runs_encoderCheckFail {cause bit : Nat} (hn : n < 4) (hen : s.dev.is (R.ENC_CFG_EN n) = true)
    (hbit : encStatusBit cause = some bit) (happ : checkApplies cause (s.dev.is (R.ENC_CFG_MODE n)) = true) :
    Runs (.encoderCheckFail n cause .momentary) s
      (if s.dev.srcEnc = some n ∨ s.dev.chkEnc = some n then
        (s.dev.set (R.ENC_STATUS n) (orBit (s.dev.get (R.ENC_STATUS n)) bit)).posInvalid cause n
      else s.dev.set (R.ENC_STATUS n) (orBit (s.dev.get (R.ENC_STATUS n)) bit)) := by
  rw [← s.dev.encFail_enabled hen hbit happ]
  exact onDevIf_awake _ (by simpa using hn) hup.1

theorem runs_zRisingEdge (hn : n < 4) : Runs (.zRisingEdge n) s (s.dev.zEdge n) :=
  onDevIf_awake _ (by simpa using hn) hup.1

theorem runs_predictionWindowEnd (hw : s.dev.windowFull = true) :
    Runs .predictionWindowEnd s { s.dev with pos := { s.dev.pos with tClr := none } } := by
  simp [Runs, exec, execPredictionWindowEnd, onDev, hup.1, hw]

theorem runs_posSrcChange {src : Nat} (hr : s.dev.dstate ≠ .run) (hsrc : src < 4) :
    Runs (.posSrcChange src) s ((s.dev.set R.POS_CTRL_SRC src).latchAt s.dev.pos.posInt).encReview := by
  have hf : s.dev.srcChange src = ((s.dev.set R.POS_CTRL_SRC src).latchAt s.dev.pos.posInt).encReview := by
    simp [Dev.srcChange, hr, hsrc, Nat.not_le.mpr (Nat.lt_succ_of_lt hsrc)]
  exact hf ▸ onHost_up _ hup

/-! ## Loads and restores -/

theorem gives_load : Gives .load s (keepCommit { s with dev := s.dev.load }) := onHostKeep_up _ hup

theorem gives_restoreLoad : Gives .restoreLoad s (keepCommit { s with dev := s.dev.restoreLoad }) := onHostKeep_up _ hup

theorem runs_restoreKeep (hv : s.dev.is R.POS_STATUS_VALID = false) (hp : s.dev.causePersists = false)
    (hr : s.dev.pos.reversal = false) :
    Runs .restoreKeep s
      ((((s.dev.latchAt s.dev.pos.posInt).setB R.POS_STATUS_VALID true).causeOff 0).raise Ev.POS_RESTORED 0) := by
  have hf : s.dev.restoreKeep = _ :=
    (if_pos (Dev.restoreOk_of_none hv hp)).trans (Dev.restored_of_none (d := s.dev.latchAt s.dev.pos.posInt) 0 hr)
  exact hf ▸ onHost_up _ hup

section
variable {d : Dev} {p : Nat} (hsrc : s.dev.get R.POS_CTRL_SRC ≠ 4) (hp : p = s.dev.get64 R.POS_LD_LO)
include hsrc hp

theorem runs_load_not_above (hi : s.dev.dstate = .idle) (hl : s.dev.evt.latched = [])
    (hd : d = ((s.dev.latchAt p).setPos p).forgetIssued) (hw : p ≤ s.dev.pos.weir) (hr : s.dev.pos.reversal = false) :
    Runs .load s { d with pos := { d.pos with weir := p } } := by
  have hrev : d.pos.reversal = false := by rw [hd]; exact hr
  have hload : s.dev.load = { d with pos := { d.pos with weir := p } } := by
    simp [Dev.load, hi, hsrc, ← hp, ← hd, Nat.not_lt.mpr hw, hrev]
  exact runs_of_gives_keepCommit (hload ▸ gives_load hup) (by rw [hd]; exact hl)

theorem gives_load_above (hi : s.dev.dstate = .idle) (hd : d = ((s.dev.latchAt p).setPos p).forgetIssued)
    (hw : s.dev.pos.weir < p) : Gives .load s (keepCommit { s with dev := d.weirJump p Dev.endReversal }) := by
  have hload : s.dev.load = d.weirJump p Dev.endReversal := by simp [Dev.load, hi, hsrc, ← hp, ← hd, hw]
  exact hload ▸ gives_load hup

theorem runs_restoreLoad_not_above (hv : s.dev.is R.POS_STATUS_VALID = false) (hc : s.dev.causePersists = false)
    (hl : s.dev.evt.latched = []) (hd : d = (s.dev.latchAt p).setPos p) (hw : p ≤ s.dev.pos.weir)
    (hr : s.dev.pos.reversal = false) :
    Runs .restoreLoad s (((d.setB R.POS_STATUS_VALID true).causeOff 0).raise Ev.POS_RESTORED 1) := by
  have hrev : d.pos.reversal = false := by rw [hd]; exact hr
  have hload : s.dev.restoreLoad = ((d.setB R.POS_STATUS_VALID true).causeOff 0).raise Ev.POS_RESTORED 1 := by
    rw [← Dev.restored_of_none 1 hrev]
    simp [Dev.restoreLoad, Dev.restoreOk_of_none hv hc, hsrc, ← hp, ← hd, Nat.not_lt.mpr hw]
  refine runs_of_gives_keepCommit (hload ▸ gives_restoreLoad hup) ?_
  rw [Dev.raise_latched, hd]
  exact hl

theorem gives_restoreLoad_above (hv : s.dev.is R.POS_STATUS_VALID = false) (hc : s.dev.causePersists = false)
    (hd : d = (s.dev.latchAt p).setPos p) (hw : s.dev.pos.weir < p) :
    Gives .restoreLoad s (keepCommit { s with dev := d.weirJump p (fun d => d.restored 1) }) := by
  have hload : s.dev.restoreLoad = d.weirJump p (fun d => d.restored 1) := by
    simp [Dev.restoreLoad, Dev.restoreOk_of_none hv hc, hsrc, ← hp, ← hd, hw]
  exact hload ▸ gives_restoreLoad hup

end

end

/-! ## Trigger inputs (02 R67–R69) -/

/-- An active edge of an enabled input starts the filter time. -/
theorem Dev.trgEdge_active {d : Dev} {i : Nat} {v : Bool} (hen : d.is (R.TRG_CFG_EN i) = true)
    (hv : (v != d.is (R.TRG_CFG_EDGE i)) = true) (hl : (d.trg i).level = !v) :
    d.trgEdge i v = d.setTrg i { d.trg i with level := v, edgeAt := some d.now } := by
  have hne : ((d.trg i).level == v) = false := by simp [hl]
  simp only [Dev.trgEdge, hne, hv, hen, Bool.and_self, Bool.false_eq_true, if_false, if_true]

section
variable {d : Dev} {i c : Nat} (ht : d.tracking = true) (hen : d.is (R.TRG_CFG_EN i) = true) (he : (d.trg i).edgeAt = some c)
include ht hen he

/-- At the end of the filter time of an enabled input the hold-off of the trigger before decides. -/
theorem Dev.triggerAccept_enabled {pos : Nat}
    (hpos : satPos (d.extrap ((d.now : Int) - (d.get (R.TRG_FILT i) + 3 : Nat))).toNat = pos) :
    d.triggerAccept i =
      if (d.trg i).lastPos.any (fun p => decide (pos < p + d.get (R.TRG_HOLD i))) then
        (d.setTrg i { d.trg i with edgeAt := none }).bump (R.TRG_REJ_CNT i) 1
      else
        (((d.setTrg i { d.trg i with edgeAt := none }).setTrg i { d.trg i with edgeAt := none, lastPos := some pos }).bump
          (R.TRG_CNT i) 1).triggerItem i pos (d.timeNs - (d.get (R.TRG_FILT i) + 3)) := by
  subst hpos
  cases hlast : (d.trg i).lastPos <;> simp only [Dev.triggerAccept, he, ht, hen, hlast] <;> rfl

/-- A trigger outside the hold-off of the one before is accepted. -/
theorem Dev.triggerAccept_outside {pos : Nat}
    (hpos : pos = satPos (d.extrap ((d.now : Int) - (d.get (R.TRG_FILT i) + 3 : Nat))).toNat)
    (hold : ∀ p, (d.trg i).lastPos = some p → p + d.get (R.TRG_HOLD i) ≤ pos) :
    d.triggerAccept i =
      (((d.setTrg i { d.trg i with edgeAt := none }).setTrg i { d.trg i with edgeAt := none, lastPos := some pos }).bump
        (R.TRG_CNT i) 1).triggerItem i pos (d.timeNs - (d.get (R.TRG_FILT i) + 3)) := by
  rw [d.triggerAccept_enabled ht hen he hpos.symm, if_neg]
  simpa [Option.any_eq_true] using hold

/-- A trigger inside the hold-off is counted as rejected. -/
theorem Dev.triggerAccept_inside {p : Nat} (hlast : (d.trg i).lastPos = some p)
    (hold : satPos (d.extrap ((d.now : Int) - (d.get (R.TRG_FILT i) + 3 : Nat))).toNat < p + d.get (R.TRG_HOLD i)) :
    d.triggerAccept i = (d.setTrg i { d.trg i with edgeAt := none }).bump (R.TRG_REJ_CNT i) 1 := by
  rw [d.triggerAccept_enabled ht hen he rfl, if_pos]
  simpa [hlast] using hold

end

theorem runs_triggerEdge {s : State} {i : Nat} (v : Bool) (hi : i < 8) : Runs (.triggerEdge i v) s (s.dev.trgEdge i v) :=
  if_pos (by simpa using hi)

theorem runs_triggerAccept {s : State} {i : Nat} (hup : Up s) (hi : i < 8) : Runs (.triggerAccept i) s (s.dev.triggerAccept i) :=
  onDevIf_awake _ (by simpa using hi) hup.1

/-! ## The fire scheduler (02 R79–R82) -/

section
variable {d : Dev} {r k p : Nat} {f : Int} (hk : k = (d.row r).next) (hp : p = rowPort (d.fireProf k) r) (hf : f = d.firePoint r k)
  (ht : d.tracking = true) (hon : rowOn (d.fireProf k) r = true) (hrev : d.pos.reversal = false) (hlate : 0 ≤ d.lateness r k)
include hk hp hf ht hon hrev hlate

/-- At its issue clock a row with nothing to withhold it and a free path is issued. -/
theorem Dev.trigIssue_free (hw : d.withhold r k p f = []) (hfree : d.pathFree p k = true) :
    d.trigIssue r = d.issue r k p f (d.lateness r k) := by
  subst hk hp hf
  simp [Dev.trigIssue, ht, hon, hrev, Int.not_lt.mpr hlate, hw, hfree]

/-- At its issue clock a row with a reason to withhold it goes on to the next step. -/
theorem Dev.trigIssue_withheld {cs : List Cause} (hw : d.withhold r k p f = cs) (hcs : cs ≠ []) :
    d.trigIssue r = (((d.withheldEvents r k p cs).causeStep r k cs).nextStep r k none).checkDecided p k := by
  subst hk hp hf
  simp [Dev.trigIssue, ht, hon, hrev, Int.not_lt.mpr hlate, hw, hcs]

end

/-- Past BOOT a change of the filtered inhibit level is taken and raised. -/
theorem Dev.inhibitTo_change {d : Dev} {on : Bool} (ha : d.awake = true) (hb : d.dstate ≠ .boot) (h : d.pos.inhibit = !on) :
    d.inhibitTo on = { d with pos := { d.pos with inhibit := on } }.raise
      (if on then Ev.INHIBIT_ASSERTED else Ev.INHIBIT_RELEASED) 0 := by
  simp [Dev.inhibitTo, ha, hb, h]

theorem runs_trigIssue {s : State} {r : Nat} (hup : Up s) (hr : r < 512) : Runs (.trigIssue r) s (s.dev.trigIssue r) :=
  onDevIf_awake _ (by simpa using hr) hup.1

theorem runs_inhibitAsserted {s : State} (hup : Up s) (h : s.dev.pos.inhibit = false) :
    Runs .inhibitAsserted s ({ s.dev with pos := { s.dev.pos with inhibit := true } }.raise Ev.INHIBIT_ASSERTED 0) :=
  Dev.inhibitTo_change (on := true) hup.1 hup.2 h ▸ (rfl : Runs .inhibitAsserted s (s.dev.inhibitTo true))

theorem runs_inhibitReleased {s : State} (hup : Up s) (h : s.dev.pos.inhibit = true) :
    Runs .inhibitReleased s ({ s.dev with pos := { s.dev.pos with inhibit := false } }.raise Ev.INHIBIT_RELEASED 0) :=
  Dev.inhibitTo_change (on := false) hup.1 hup.2 h ▸ (rfl : Runs .inhibitReleased s (s.dev.inhibitTo false))

end Sys2Proof.Machine

open Sys2Proof Sys2Proof.Machine

/-- Settles O9: an edge of another encoder changes that encoder alone; a count of the source encoder moves position, and the first one
back within WEIR_DEPTH does not move the weir level. -/
theorem positionUpdateCounts : Obligations.PositionUpdateCounts := by
  unfold Obligations.PositionUpdateCounts
  refine ⟨fun s n a b d hup hn hen hl hs hc hd => ?quad, fun s n x y e hup hn hen hl hs hc hamp hang he => ?analog,
    fun s n a b c hup hn hen hs hc hab hm hcnt => gives_positionUpdate_source hup hn hen hs hc hab hm hcnt,
    fun s n a b c p hup hn hen hl hs hc hab hm hr hx hcnt hp h0 hdepth hw => ?absorbed⟩
  case quad =>
    subst hd
    exact runs_positionUpdate_other hup hn hen hl hs hc (Dev.edgeChecks_quad_other a b hen hs hc) (by split <;> rfl)
  case analog =>
    have hcount := Dev.countEdge_analog hamp he
    refine runs_positionUpdate_other hup hn hen hl hs hc ?_ rfl
    rw [hcount, Dev.edgeChecks_analog_good (by simp [he]) hang]
  case absorbed =>
    have hg := gives_positionUpdate_source hup hn hen hs hc hab hm hcnt
    rw [← hp, Dev.checkBack_weirRise_absorbed hs hr hx h0 hdepth hw] at hg
    exact runs_of_gives_keepCommit hg hl

/-- Settles O10: each command is one shared operation of position, in the branch its hypotheses choose. -/
theorem positionKept : Obligations.PositionKept := by
  unfold Obligations.PositionKept
  refine ⟨fun s n cause bit hup hn hen hbit happ => runs_encoderCheckFail hup hn hen hbit happ, fun s n hup hn hen hz => ?zUnchecked,
    fun s n z hup hn hen hz hl hm => ?zShort, fun s hup hw => runs_predictionWindowEnd hup hw,
    fun s src hup hr hsrc => runs_posSrcChange hup hr hsrc, fun s d p hup hi hl hsrc hp hd => ?load,
    fun s hup hv hc hr => runs_restoreKeep hup hv hc hr, fun s d p hup hv hc hsrc hl hp hd => ?restoreLoad⟩
  case zUnchecked => exact Dev.zEdge_unchecked hen hz ▸ runs_zRisingEdge hup hn
  case zShort => exact Dev.zEdge_short hen hz hl hm ▸ runs_zRisingEdge hup hn
  case load => exact ⟨runs_load_not_above hup hsrc hp hi hl hd, gives_load_above hup hsrc hp hi hd⟩
  case restoreLoad => exact ⟨runs_restoreLoad_not_above hup hsrc hp hv hc hl hd, gives_restoreLoad_above hup hsrc hp hv hc hd⟩

/-- Settles O11: an active edge starts the filter time; at its end the hold-off decides. -/
theorem triggersAccepted : Obligations.TriggersAccepted := by
  unfold Obligations.TriggersAccepted
  refine ⟨fun s i v hi hen hv hl => ?edge, fun s i c pos hup hi hen he hpos hold => ?accepted,
    fun s i c p hup hi hen he hlast hold => ?rejected⟩
  case edge => exact Dev.trgEdge_active hen hv hl ▸ runs_triggerEdge v hi
  case accepted =>
    exact Dev.triggerAccept_outside (tracking_of_up hup) hen he hpos hold ▸ runs_triggerAccept hup hi
  case rejected =>
    exact Dev.triggerAccept_inside (tracking_of_up hup) hen he hlast hold ▸ runs_triggerAccept hup hi

/-- Settles O12: at the issue clock the reasons to withhold a row decide; a change of the inhibit level is taken past BOOT. -/
theorem rowsIssue : Obligations.RowsIssue := by
  unfold Obligations.RowsIssue
  refine ⟨fun s r hup hr hon hrev hlate hw hfree => ?issued, fun s r c cs hup hr hon hrev hlate hw => ?withheld,
    fun s hup h => runs_inhibitAsserted hup h, fun s hup h => runs_inhibitReleased hup h⟩
  case issued =>
    exact Dev.trigIssue_free rfl rfl rfl (tracking_of_up hup) hon hrev hlate hw hfree ▸ runs_trigIssue hup hr
  case withheld =>
    exact Dev.trigIssue_withheld rfl rfl rfl (tracking_of_up hup) hon hrev hlate hw (List.cons_ne_nil c cs) ▸
      runs_trigIssue hup hr

end

-- Wells, jobs, swaps, resumes (03 R84–R116, R519).
section
/-! PROOFS. What the commands of the JOB block do: how one is accepted and ends (R116), then the effect of each in the branch its
conditions choose. -/

namespace Sys2Proof.Machine

open Sys2Proof

/-! ## Acceptance and end of a command (03 R116) -/

theorem onDev_awake {s : State} (f : Dev → Dev) (h : s.dev.awake = true) : onDev f s = .next { s with dev := f s.dev } := by
  simp [onDev, h]

/-- Counting a command leaves BUSY, which stands in the same word. -/
@[simp] theorem Dev.wrap_jobSeq_busy (d : Dev) (n : Nat) : (d.wrap R.JOB_RESULT_SEQ n).is R.JOB_RESULT_BUSY = d.is R.JOB_RESULT_BUSY := by
  simp only [Dev.is, Dev.wrap, d.get_set_of_apart R.JOB_RESULT_SEQ R.JOB_RESULT_BUSY _ (by decide) (by decide)]

@[simp] theorem Dev.is_setB_true (d : Dev) {f : Fld} (hw : f.w = 1) (hl : f.lo < 32) : (d.setB f true).is f = true := by
  simp [Dev.is, Dev.setB, d.get_set_self f 1 (by omega), hw]

/-- A command that leaves BUSY clear writes its result code. -/
theorem jobEnd_done {d : Dev} (c : JobCode) (h : d.is R.JOB_RESULT_BUSY = false) : jobEnd (d, c) = d.set R.JOB_RESULT_CODE c.num := by
  simp [jobEnd, h]

/-- A command that sets BUSY is in progress: no result code yet. -/
theorem jobEnd_inProgress (d : Dev) (c : JobCode) : jobEnd (d.setB R.JOB_RESULT_BUSY true, c) = d.setB R.JOB_RESULT_BUSY true := by
  simp [jobEnd, d.is_setB_true (f := R.JOB_RESULT_BUSY) rfl (by decide)]

/-- With no command in progress one is counted and acts. -/
theorem Dev.jobCmd_accepted {d : Dev} (f : Dev → Dev × JobCode) (h : d.is R.JOB_RESULT_BUSY = false) :
    d.jobCmd f = jobEnd (f (d.wrap R.JOB_RESULT_SEQ 1)) := by
  simp [Dev.jobCmd, h]

section
variable {c : Instr} {s : State} {d : Dev} {f : Dev → Dev × JobCode} (hup : Up s) (hb : s.dev.is R.JOB_RESULT_BUSY = false)
  (hd : d = s.dev.wrap R.JOB_RESULT_SEQ 1) (hc : exec c s = onHost (fun d => d.jobCmd f) s)
include hup hb hd hc

/-- A command of the block with effect `f`, on a device that works and has none in progress. -/
theorem runs_jobCmd {r : Dev × JobCode} (hr : f d = r) : Runs c s (jobEnd r) := by
  rw [Runs, hc, onHost_up _ hup, Dev.jobCmd_accepted f hb, ← hd, hr]

/-- Its result code is written where the effect leaves BUSY. -/
theorem runs_jobCmd_done {e : Dev} {r : JobCode} (hr : f d = (e, r)) (he : e.is R.JOB_RESULT_BUSY = d.is R.JOB_RESULT_BUSY) :
    Runs c s (e.set R.JOB_RESULT_CODE r.num) := by
  have hidle : e.is R.JOB_RESULT_BUSY = false := by rw [he, hd, Dev.wrap_jobSeq_busy, hb]
  rw [← jobEnd_done r hidle]
  exact runs_jobCmd hup hb hd hc hr

end

/-- The model tests the number of a well or slot against 15. -/
theorem not_fifteen_lt {n : Nat} (h : n < 16) : ¬ 15 < n := Nat.not_lt.mpr (Nat.le_of_lt_succ h)

/-! ## Wells (03 R89–R91) -/

/-- A slot of the queue that references a well keeps it in use. -/
theorem Dev.wellInUse_of_mem {d : Dev} {w q : Nat} (hq : q ∈ d.job.order) (hw : (d.slot q).well = w) : d.wellInUse w = true :=
  List.any_eq_true.mpr ⟨q, hq, by simp only [hw, beq_self_eq_true]⟩

section
variable {d : Dev} {w : Nat} (hw : w < 16)
include hw

theorem Dev.wellDefine_free {place base size : Nat} (hp : place < 3) (hf : (d.well w).st = .free) (hbase : base % 2 ^ 20 = 0)
    (hsize : size % 2 ^ 20 = 0) (h0 : 0 < size) (hcap : base + size ≤ d.placeCapacity place)
    (hmeet : d.meetsWell (some w) place base size = false)
    (hlas : regionsOverlap place base size (d.get R.LAS_REG_PLACE) (d.get64 R.LAS_REG_BASE_LO) (d.get64 R.LAS_REG_SIZE_LO) = false)
    (hin : d.placeIn place = true) :
    d.wellDefine w place base size = (d.setWell w { st := .closed, place := place, base := base, size := size }, .ok) := by
  have harg : ¬ (15 < w ∨ 2 < place) := by omega
  have hfit : ¬ (base % 2 ^ 20 ≠ 0 ∨ size % 2 ^ 20 ≠ 0 ∨ size = 0 ∨ d.placeCapacity place < base + size) := by omega
  have hapart : ¬ (d.meetsWell (some w) place base size = true ∨ regionsOverlap place base size (d.get R.LAS_REG_PLACE)
      (d.get64 R.LAS_REG_BASE_LO) (d.get64 R.LAS_REG_SIZE_LO) = true) := by simp [hmeet, hlas]
  simp only [Dev.wellDefine, if_neg harg, hf, ne_eq, not_true_eq_false, if_false, if_neg hfit, if_neg hapart, hin, Bool.not_true,
    Bool.false_eq_true]

theorem Dev.wellOpen_inUse (hu : d.wellInUse w = true) : d.wellOpen w = (d, .wellInUse) := by
  simp [Dev.wellOpen, not_fifteen_lt hw, hu]

theorem Dev.wellRelease_inUse (hu : d.wellInUse w = true) : d.wellRelease w = (d, .wellInUse) := by
  simp [Dev.wellRelease, not_fifteen_lt hw, hu]

theorem Dev.wellOpen_unused (hu : d.wellInUse w = false) (hst : (d.well w).st = .closed ∨ (d.well w).st = .sealed) :
    d.wellOpen w = (d.setWell w { d.well w with st := .loading }, .ok) := by
  simp [Dev.wellOpen, not_fifteen_lt hw, hu, hst]

theorem Dev.wellRelease_unused (hu : d.wellInUse w = false) (hst : (d.well w).st = .closed ∨ (d.well w).st = .sealed) :
    d.wellRelease w = (d.setWell w {}, .ok) := by
  simp [Dev.wellRelease, not_fifteen_lt hw, hu, hst]

theorem Dev.wellSeal_loading (hst : (d.well w).st = .loading) (hc : d.cmprOnWell w = false) :
    d.wellSeal w = ({ d.setWell w { d.well w with st := .sealing } with
      job := { (d.setWell w { d.well w with st := .sealing }).job with sealing := some w } }.setB R.JOB_RESULT_BUSY true, .ok) := by
  simp [Dev.wellSeal, not_fifteen_lt hw, hst, hc]

end

/-! ### The structure check (03 R91, R519) -/

section
variable {d : Dev} {m : Mem} {w : Nat} (hs : d.job.sealing = some w)
include hs

/-- With the well's channels ready and no host write waiting, the check reads the well and ends. -/
theorem Dev.sealRead_ready (hm : d.memHeld (d.well w).place = false) (hi : d.job.intake = []) :
    d.sealRead m = (d.wellReads m 6 w (sealReads (fun o n => d.wellRead m w o n) (d.well w).size)).sealComplete m := by
  simp [Dev.sealRead, hs, hm, hi]

variable {e : Dev} (he : e = { d with job := { d.job with sealing := none } }.setB R.JOB_RESULT_BUSY false)
include he

theorem Dev.sealComplete_pass {h : DxsHdr} {j : Nat} (hc : sealCheck (fun o n => d.wellRead m w o n) (d.well w).size = .pass h j) :
    d.sealComplete m = (e.setWell w { d.well w with st := .sealed, hdr := h, jmax := j }).set R.JOB_RESULT_CODE 0 := by
  simp only [Dev.sealComplete, hs, hc, ← he, JobCode.num]

theorem Dev.sealComplete_fail {c o : Nat} (hc : sealCheck (fun o n => d.wellRead m w o n) (d.well w).size = .fail c o) :
    d.sealComplete m = ((((e.setWell w { d.well w with st := .closed, sealErr := c, sealOfs := o % 2 ^ 32 }).set
      R.JOB_RESULT_CODE JobCode.sealFail.num).set R.SEAL_LAST_WELL w).set64 R.SEAL_LAST_OFS_LO o).raise Ev.SEAL_FAIL
        (w + 256 * c + 65536 * (o % 2 ^ 48)) := by
  simp only [Dev.sealComplete, hs, hc, ← he]

end

/-! ## The queue (03 R97, R98, R102, R103) -/

/-- A job on a SEALED well whose start passes the checks joins the back of the queue, which advances. -/
theorem Dev.enqueue_sealed {d e : Dev} {w mode input gap line band q : Nat}
    (hq : (List.range 16).find? (fun q => (d.slot q).st == .empty) = some q) (hw : w < 16) (hst : (d.well w).st = .sealed)
    (hmode : mode < 3) (hin : input < 8) (hgap : gap < 65536) (hband : band < (d.well w).hdr.bandCount)
    (hover : mode = 0 → ∀ e, d.endBefore d.job.order.getLast? = some e → e ≤ line)
    (hfit : posFits (if mode = 0 then line else (d.endBefore d.job.order.getLast?).getD (ceilLine d.pos.weir))
      (d.well w).hdr.lines = true)
    (he : e = d.setSlot q {
      st := .queued, well := w, mode := mode, input := input, gap := gap, argS := line, firstBand := band
      hdr := (d.well w).hdr, jmax := (d.well w).jmax }) :
    d.enqueue w mode input gap line band = ({ e with job := { e.job with order := d.job.order ++ [q] } }.advance, .ok) := by
  subst he
  have harg : ¬ (2 < mode ∨ 7 < input ∨ 65535 < gap ∨ (d.well w).hdr.bandCount ≤ band) := by omega
  have hnone : ¬ (mode = 0 ∧ ((d.endBefore d.job.order.getLast?).map (fun e => decide (line < e))).getD false = true) := by
    rintro ⟨h0, h⟩
    cases hend : d.endBefore d.job.order.getLast? with
    | none => simp [hend] at h
    | some b => exact Nat.not_lt.mpr (hover h0 b hend) (by simpa [hend] using h)
  simp only [Dev.enqueue, hq, if_neg (not_fifteen_lt hw), hst, ne_eq, not_true_eq_false, if_false, if_neg harg,
    if_neg hnone, hfit, Bool.not_true, Bool.false_eq_true]
  rfl

section
variable {d : Dev} {q : Nat} (hq : q < 16)
include hq

theorem Dev.abort_ended (h : (d.slot q).st = .ended) :
    d.abort q = ((d.setSlot q { d.slot q with abortLate := true }).raise Ev.ABORT_LATE q, .abortLate) := by
  simp only [Dev.abort, if_neg (not_fifteen_lt hq), h]

theorem Dev.abort_active (h : (d.slot q).st = .active) : d.abort q = ((d.endActive q 2).advance, .ok) := by
  simp only [Dev.abort, if_neg (not_fifteen_lt hq), h]

theorem Dev.abort_waiting (h : (d.slot q).st = .queued ∨ (d.slot q).st = .head) : d.abort q = ((d.endUnstarted q 2).advance, .ok) := by
  rcases h with h | h <;> simp only [Dev.abort, if_neg (not_fifteen_lt hq), h]

end

/-! ## Profile swaps (01 R41, 03 R107–R109) -/

section
variable {d e : Dev} {form arg line : Nat} (hform : form ≤ 2)
  (hslot : form = 2 → arg < 16 ∧ (d.slot arg).st ≠ .empty ∧ (d.slot arg).st ≠ .ended)
include hform hslot

/-- A form of R107 that names a job which has not ended, or none. -/
theorem Dev.swapArgs_ok : ¬ (2 < form ∨ (form = 2 ∧ (15 < arg ∨ (d.slot arg).st = .empty ∨ (d.slot arg).st = .ended))) := by
  rintro (h | ⟨h2, h⟩)
  · omega
  · obtain ⟨harg, hne, hnd⟩ := hslot h2
    rcases h with h | h | h
    · omega
    · exact hne h
    · exact hnd h

variable (hr : d.swapRefused (d.swapLine form arg line) = none)
  (he : e = { d with job := { d.job with swap := some { form := form, arg := arg, n := none, fabric := false, granted := false } } }.raise
    Ev.SWAP_SCHEDULED (65536 * ((d.swapLine form arg line).getD 0 % 2 ^ 48)))
include hr he

/-- In IDLE a swap takes effect at once (01 R41). -/
theorem Dev.swapLocal_idle (hp : d.printing = false) : d.swapLocal form arg line = (e.swapAccepted, .ok) := by
  simp only [Dev.swapLocal, if_neg (Dev.swapArgs_ok hform hslot), hr, ← he, hp, Bool.not_false, if_true]

/-- In ARMED and RUN a swap whose N is known converts. -/
theorem Dev.swapLocal_known {n : Nat} (hp : d.printing = true) (hn : d.swapLine form arg line = some n) :
    d.swapLocal form arg line = (e.convertSwap n, .ok) := by
  rw [hn] at hr he
  simp only [Dev.swapLocal, if_neg (Dev.swapArgs_ok hform hslot), hn, hr, ← he, hp, Bool.not_true, Bool.false_eq_true, if_false]

/-- In ARMED and RUN a swap whose N is not known waits for it. -/
theorem Dev.swapLocal_unknown (hp : d.printing = true) (hn : d.swapLine form arg line = none) :
    d.swapLocal form arg line = (e, .ok) := by
  rw [hn] at hr he
  simp only [Dev.swapLocal, if_neg (Dev.swapArgs_ok hform hslot), hn, hr, ← he, hp, Bool.not_true, Bool.false_eq_true, if_false]

end

theorem Dev.swapHere_of_swapLocal {d x : Dev} {form arg line : Nat} {c : JobCode} (h : d.swapLocal form arg line = (x, c)) :
    d.swapHere form arg line = (if x.job.gen = d.job.gen then x else x.reSluiceAll, c) := by
  simp only [Dev.swapHere, h]

theorem Dev.swapCancel_scheduled {d : Dev} (h : d.job.swap.isSome = true) :
    d.swapCancel = ({ d with job := { d.job with swap := none } }.replanAll, .ok) := if_pos h

theorem Dev.swapCancel_none {d : Dev} (h : d.job.swap = none) : d.swapCancel = (d.raise Ev.SWAP_CANCEL_LATE 0, .swapCancelLate) := by
  simp [Dev.swapCancel, h]

/-! ## Resume-at-line (03 R111, R115) -/

theorem Dev.resume_ahead {d : Dev} {n : Nat} (hrun : d.dstate = .run) (hl : d.level ≠ .basic) (hr : d.job.resume = none)
    (hn : floorLine d.pos.weir + d.job.workW + 1 ≤ n) : d.resume n = (d.resumeAt n, .ok) := by
  simp [Dev.resume, hrun, hl, hr, Nat.not_lt.mpr hn]

theorem Dev.resumeDone_refilled {d : Dev} {r : Resume} (hr : d.job.resume = some r) (hf : d.refilled r = true) :
    d.resumeDone = { d with job := { d.job with resume := none, resumeReady := true } }.raise Ev.RESUME_READY
      (65536 * (r.n % 2 ^ 48)) := by
  simp [Dev.resumeDone, hr, hf]

end Sys2Proof.Machine

open Sys2Proof Sys2Proof.Machine

/-- Settles O13: counting the command leaves the queue, which holds a slot of the well. -/
theorem wellsInUse : Obligations.WellsInUse := by
  unfold Obligations.WellsInUse
  intro s w q hup hb hw hq hwell
  have hu : (s.dev.wrap R.JOB_RESULT_SEQ 1).wellInUse w = true := Dev.wellInUse_of_mem hq hwell
  exact ⟨runs_jobCmd_done hup hb rfl (f := (·.wellOpen w)) rfl (Dev.wellOpen_inUse hw hu) rfl,
    runs_jobCmd_done hup hb rfl (f := (·.wellRelease w)) rfl (Dev.wellRelease_inUse hw hu) rfl⟩

/-- Settles O14: each command takes the branch its conditions choose; all but WELL_SEAL leave BUSY clear and write their result code. -/
theorem wellCommands : Obligations.WellCommands := by
  unfold Obligations.WellCommands
  refine ⟨fun s d w place base size hup hb hd hw hp hf hbase hsize h0 hcap hmeet hlas hin => ?define,
    fun s d w hup hb hd hw hu hst => ⟨?openWell, ?release⟩, fun s d w hup hb hd hw hst hc => ?sealing,
    fun s hup => onDev_awake _ hup.1, fun d m w hs hm hi => Dev.sealRead_ready hs hm hi,
    fun d e m w j h hs he hc => Dev.sealComplete_pass hs he hc, fun d e m w c o hs he hc => Dev.sealComplete_fail hs he hc⟩
  case define =>
    exact runs_jobCmd_done hup hb hd (f := (·.wellDefine w place base size)) rfl
      (Dev.wellDefine_free hw hp hf hbase hsize h0 hcap hmeet hlas hin) rfl
  case openWell => exact runs_jobCmd_done hup hb hd (f := (·.wellOpen w)) rfl (Dev.wellOpen_unused hw hu hst) rfl
  case release => exact runs_jobCmd_done hup hb hd (f := (·.wellRelease w)) rfl (Dev.wellRelease_unused hw hu hst) rfl
  case sealing =>
    rw [← jobEnd_inProgress _ .ok]
    exact runs_jobCmd hup hb hd (f := (·.wellSeal w)) rfl (Dev.wellSeal_loading hw hst hc)

/-- Settles O15: each command takes the branch its conditions choose; a swap by whether the device prints and whether N is known. -/
theorem jobCommands : Obligations.JobCommands := by
  unfold Obligations.JobCommands
  refine ⟨fun s d w mode input gap line band q hup hb hd hq hw hst hmode hin hgap hband hover hfit e he => ?enqueue,
    fun s d q hup hb hd hq => ⟨fun h => ?ended, fun h => ?active, fun h => ?waiting⟩,
    fun s d e x form arg line hup hb hd hform hslot hr he hx => ?swap, fun s d hup hb hd => ⟨fun h => ?cancel, fun h => ?cancelLate⟩,
    fun s d n hup hb hd hrun hl hr hn => ?resume, fun s r hup hr hf => ?resumeReady⟩
  case enqueue =>
    exact runs_jobCmd hup hb hd (f := (·.enqueue w mode input gap line band)) rfl
      (Dev.enqueue_sealed hq hw hst hmode hin hgap hband hover hfit he)
  case ended => exact runs_jobCmd hup hb hd (f := (·.abort q)) rfl (Dev.abort_ended hq h)
  case active => exact runs_jobCmd hup hb hd (f := (·.abort q)) rfl (Dev.abort_active hq h)
  case waiting => exact runs_jobCmd hup hb hd (f := (·.abort q)) rfl (Dev.abort_waiting hq h)
  case swap =>
    have hlocal : d.swapLocal form arg line = (x, .ok) := by
      cases hp : d.printing with
      | false => rw [hx, if_pos hp, Dev.swapLocal_idle hform hslot hr he hp]
      | true =>
        cases hn : d.swapLine form arg line with
        | none => simpa [hp, hn, hx] using Dev.swapLocal_unknown hform hslot hr he hp hn
        | some n => simpa [hp, hn, hx] using Dev.swapLocal_known hform hslot hr he hp hn
    exact runs_jobCmd hup hb hd (f := (·.swapHere form arg line)) rfl (Dev.swapHere_of_swapLocal hlocal)
  case cancel => exact runs_jobCmd hup hb hd (f := (·.swapCancel)) rfl (Dev.swapCancel_scheduled (by simpa [hd] using h))
  case cancelLate => exact runs_jobCmd hup hb hd (f := (·.swapCancel)) rfl (Dev.swapCancel_none (by simpa [hd] using h))
  case resume =>
    subst hd
    exact runs_jobCmd hup hb rfl (f := (·.resume n)) rfl (Dev.resume_ahead hrun hl hr hn)
  case resumeReady => exact Dev.resumeDone_refilled hr hf ▸ onDev_awake Dev.resumeDone hup.1

end

-- The compressors (04 R139–R148).
section
/-! PROOFS. What the commands and events of a compressor do: how one is paced, then the task from START to its end, the header of
zeros, and a block. -/

namespace Sys2Proof.Machine

open Sys2Proof

/-! ## Effects on device and DRAM that pace the DMA channels (12 R335) -/

theorem onDevMemIf_awake {s : State} {ok : Bool} (f : Dev → Mem → Dev × Mem) (hok : ok = true) (h : s.dev.awake = true) :
    onDevMemIf ok f s = .next { s with dev := (f s.dev s.mem).1, mem := (f s.dev s.mem).2 } := by simp [onDevMemIf, hok, h]

/-- Past BOOT a host command has its own effect. -/
theorem onHostMemIf_up {s : State} {ok : Bool} (f : Dev → Mem → Dev × Mem) (hok : ok = true) (hup : Up s) :
    onHostMemIf ok f s = .next { s with dev := (f s.dev s.mem).1, mem := (f s.dev s.mem).2 } := by
  obtain ⟨ha, hb⟩ := hup
  simp only [onHostMemIf, onDevMemIf_awake _ hok ha, if_neg hb]

theorem Dev.inDomain_on {d : Dev} {n : Nat} (f : Dev → Dev) (h : d.domOn n = true) : d.inDomain n f = f d := if_pos h

/-! ## What a compressor's fields keep -/

section
variable (d : Dev) (c : Nat)

@[simp] theorem Dev.cmpr_setCmpr_self (x : Cmpr) : (d.setCmpr c x).cmpr c = x := SMap.get_put_self ..
@[simp] theorem Dev.setCmpr_well (x : Cmpr) (w : Nat) : (d.setCmpr c x).well w = d.well w := rfl
@[simp] theorem Dev.setCmpr_wellTakes (x : Cmpr) (w o n : Nat) : (d.setCmpr c x).wellTakes w o n = d.wellTakes w o n := rfl
@[simp] theorem Dev.set_cmpr (f : Fld) (v : Nat) : (d.set f v).cmpr c = d.cmpr c := rfl
@[simp] theorem Dev.setB_cmpr (f : Fld) (b : Bool) : (d.setB f b).cmpr c = d.cmpr c := rfl
@[simp] theorem Dev.bistTouch_cmpr : d.bistTouch.cmpr c = d.cmpr c := rfl
@[simp] theorem Dev.bistTouch_get (f : Fld) : d.bistTouch.get f = d.get f := rfl
@[simp] theorem Dev.bistTouch_is (f : Fld) : d.bistTouch.is f = d.is f := rfl

end

/-! ## One-bit fields among other fields -/

theorem Dev.is_set_of_addr_ne (d : Dev) {f g : Fld} (v : Nat) (h : g.addr ≠ f.addr) : (d.set f v).is g = d.is g := by
  rw [Dev.is, Dev.is, d.get_set_of_addr_ne f g v h]

theorem Dev.is_setB_of_addr_ne (d : Dev) {f g : Fld} (b : Bool) (h : g.addr ≠ f.addr) : (d.setB f b).is g = d.is g :=
  d.is_set_of_addr_ne _ h

/-- Two bits of one word. -/
theorem Dev.is_setB_of_apart (d : Dev) {f g : Fld} (b : Bool) (hf : f.lo + f.w ≤ 32) (h : g.lo + g.w ≤ f.lo ∨ f.lo + f.w ≤ g.lo) :
    (d.setB f b).is g = d.is g := by
  rw [Dev.is, Dev.is, Dev.setB, d.get_set_of_apart f g _ hf (.inr h)]

theorem Dev.is_setB_false (d : Dev) {f : Fld} (h : f.lo + f.w ≤ 32) : (d.setB f false).is f = false := by
  simp [Dev.is, Dev.setB, d.get_set_self f 0 h]

/-! ## START and ABORT (04 R139, R147) -/

/-- The task that the registers of a compressor describe. -/
def Dev.cmprTask (d : Dev) (c : Nat) : Cmpr :=
  { busy := true, slice := d.get (R.CMPR_SEG1_SLICE c), plane := d.get (R.CMPR_SEG1_PLANE c), format := d.get (R.CMPR_CFG_FORMAT c)
    depth := d.get (R.CMPR_CFG_DEPTH c), colFirst := d.get (R.CMPR_SEG1_COL_FIRST c), colCount := d.get (R.CMPR_SEG2_COL_COUNT c)
    lines := d.get (R.CMPR_SEG2_LINES c), effort := d.get (R.CMPR_CFG_EFFORT c), distLim := d.get (R.CMPR_CFG_DIST_LIM c)
    band := d.get (R.CMPR_SEG0 c)
    rawLen := d.get (R.CMPR_SEG2_LINES c) *
      lineLen (d.get (R.CMPR_CFG_FORMAT c)) (d.get (R.CMPR_CFG_DEPTH c)) (d.get (R.CMPR_SEG2_COL_COUNT c)) }

section
variable {d : Dev} {c : Nat}

theorem Dev.cmprStart_busy (hb : (d.cmpr c).busy = true) : d.cmprStart c = d := if_pos hb

theorem Dev.cmprStart_refused (hb : (d.cmpr c).busy = false) (hok : d.cmprTaskOk c = false) :
    d.cmprStart c = d.cmprEnd c .badTask := by
  simp [Dev.cmprStart, hb, hok]

theorem Dev.cmprStart_taken (hb : (d.cmpr c).busy = false) (hok : d.cmprTaskOk c = true) :
    d.cmprStart c = ((((((d.setCmpr c (d.cmprTask c)).setB (R.CMPR_STATUS_BUSY c) true).setB (R.CMPR_STATUS_DONE c) false).set
      (R.CMPR_RAW_LEN c) (d.cmprTask c).rawLen).set (R.CMPR_IN_CNT c) 0).setB (R.CMPR_FLAGS_RAW c)
        (decide ((d.cmprTask c).effort = 0))).bistTouch := by
  simp only [Dev.cmprStart, hb, hok, Bool.false_eq_true, if_false, if_true]
  rfl

section
variable (hb : (d.cmpr c).busy = false) (hok : d.cmprTaskOk c = true)
include hb hok

theorem Dev.cmprStart_cmpr : (d.cmprStart c).cmpr c = d.cmprTask c := by simp [Dev.cmprStart_taken hb hok]

/-- Of what START writes only BUSY and DONE stand in CMPR_STATUS. -/
theorem Dev.cmprStart_status {f : Fld} (hf : f.addr = 0x99014 + 0x400 * c) :
    (d.cmprStart c).is f =
      (((d.setCmpr c (d.cmprTask c)).setB (R.CMPR_STATUS_BUSY c) true).setB (R.CMPR_STATUS_DONE c) false).is f := by
  rw [Dev.cmprStart_taken hb hok, Dev.bistTouch_is, Dev.is_setB_of_addr_ne _ _ (by simp [hf, R.CMPR_FLAGS_RAW]),
    Dev.is_set_of_addr_ne _ _ (by simp [hf, R.CMPR_IN_CNT]), Dev.is_set_of_addr_ne _ _ (by simp [hf, R.CMPR_RAW_LEN])]

theorem Dev.cmprStart_statusBusy : (d.cmprStart c).is (R.CMPR_STATUS_BUSY c) = true := by
  rw [Dev.cmprStart_status hb hok rfl, Dev.is_setB_of_apart _ _ (by simp [R.CMPR_STATUS_DONE])
      (.inl (by simp [R.CMPR_STATUS_DONE, R.CMPR_STATUS_BUSY])),
    Dev.is_setB_true _ rfl (by simp [R.CMPR_STATUS_BUSY])]

theorem Dev.cmprStart_statusDone : (d.cmprStart c).is (R.CMPR_STATUS_DONE c) = false := by
  rw [Dev.cmprStart_status hb hok rfl, Dev.is_setB_false _ (by simp [R.CMPR_STATUS_DONE])]

theorem Dev.cmprStart_inCnt : (d.cmprStart c).get (R.CMPR_IN_CNT c) = 0 := by
  rw [Dev.cmprStart_taken hb hok, Dev.bistTouch_get, Dev.setB, Dev.get_set_of_addr_ne _ _ _ _ (by simp [R.CMPR_FLAGS_RAW, R.CMPR_IN_CNT]),
    Dev.get_set_self _ _ _ (by simp [R.CMPR_IN_CNT]), Nat.zero_mod]

end

theorem Dev.cmprAbort_running (hb : (d.cmpr c).busy = true) : d.cmprAbort c = d.cmprEnd c .aborted := if_pos hb

theorem Dev.cmprAbort_committed (hb : (d.cmpr c).busy = false) (hc : (d.cmpr c).committed = true) :
    d.cmprAbort c = d.setB (R.CMPR_STATUS_ABORT_LATE c) true := by
  simp [Dev.cmprAbort, hb, hc]

theorem Dev.cmprAbort_none (hb : (d.cmpr c).busy = false) (hc : (d.cmpr c).committed = false) : d.cmprAbort c = d := by
  simp [Dev.cmprAbort, hb, hc]

end

/-! ## Writes into the well (04 R142, R148) -/

section
variable {d : Dev} {m : Mem} {c : Nat}

theorem cmprWrite_taken {o : Nat} {l : List Byte} (h : d.wellTakes (d.cmpr c).well o l.length = true) :
    cmprWrite d m c o l =
      some (regionWrite d m 5 (d.well (d.cmpr c).well).place ((d.well (d.cmpr c).well).base + o) l).2 := if_pos h

/-- No header of zeros is due, or its channel is not ready. -/
theorem cmprZero_none (h : (d.cmpr c).hdrDue = false ∨ d.memHeld (d.well (d.cmpr c).well).place = true) : cmprZero d m c = (d, m) :=
  if_pos (by simpa using h)

theorem cmprZero_lands (hdue : (d.cmpr c).hdrDue = true) (hready : d.memHeld (d.well (d.cmpr c).well).place = false)
    (htake : d.wellTakes (d.cmpr c).well (d.cmpr c).ofs 32 = true) :
    cmprZero d m c = (regionWrite (d.setCmpr c { d.cmpr c with hdrDue := false }) m 5 (d.well (d.cmpr c).well).place
      ((d.well (d.cmpr c).well).base + (d.cmpr c).ofs) (List.replicate 32 0)).2 := by
  have hwrite := cmprWrite_taken (d := d.setCmpr c { d.cmpr c with hdrDue := false }) (m := m) (c := c) (o := (d.cmpr c).ofs)
    (l := List.replicate 32 0) (by simpa using htake)
  simp only [Dev.cmpr_setCmpr_self, Dev.setCmpr_well] at hwrite
  simp only [cmprZero, hdue, hready, Bool.not_true, Bool.or_self, Bool.false_eq_true, if_false, hwrite]

/-! ## Input (04 R142, R146) -/

/-- A task with input `l` offered for a well and an offset: the first input fixes both, and what lies beyond raw length waits. -/
def Cmpr.fed (x : Cmpr) (w o : Nat) (l : List Byte) : Cmpr :=
  { x with started := true, well := if x.started then x.well else w, ofs := if x.started then x.ofs else o
           inp := x.inp ++ l.take (x.rawLen - x.inp.length), beyond := x.beyond + (l.length - (x.rawLen - x.inp.length))
           hdrDue := x.hdrDue || !x.started }

theorem cmprInput_idle (w o : Nat) (l : List Byte) (hb : (d.cmpr c).busy = false) :
    cmprInput d m c w o l = (d.cmprExcess c l.length, m) := by
  simp [cmprInput, hb]

theorem cmprInput_running (w o : Nat) (l : List Byte) (hb : (d.cmpr c).busy = true) :
    cmprInput d m c w o l =
      cmprZero ((d.setCmpr c ((d.cmpr c).fed w o l)).set (R.CMPR_IN_CNT c) ((d.cmpr c).fed w o l).inp.length) m c := by
  have htake (k : Nat) : l.take (min l.length k) = l.take k := by rw [Nat.min_comm, ← List.take_take, List.take_length]
  have hrest (k : Nat) : l.length - min l.length k = l.length - k := by omega
  simp only [cmprInput, htake, hrest]
  exact if_neg (by simp [hb])

/-! ## Blocks (04 R141–R145) -/

section
variable {n : Nat} (hb : (d.cmpr c).busy = true) (hs : (d.cmpr c).started = true)
  (hready : d.memHeld (d.well (d.cmpr c).well).place = false) (hleft : (d.cmpr c).coded < (d.cmpr c).rawLen)
  (hn : n = min 65536 ((d.cmpr c).rawLen - (d.cmpr c).coded)) (hin : (d.cmpr c).coded + n ≤ (d.cmpr c).inp.length)
include hb hs hready hleft hn hin

/-- The next block of the task is whole and its well's channels are ready: the block is closed. -/
theorem cmprBlock_closes :
    (!(d.cmpr c).busy || !(d.cmpr c).started || d.memHeld (d.well (d.cmpr c).well).place ||
      decide ((d.cmpr c).inp.length < (d.cmpr c).coded + n) || n == 0) = false := by
  have h0 : n ≠ 0 := by omega
  simp [hb, hs, hready, h0, hin]

theorem cmprBlock_verifyFail (v : Nat) :
    cmprBlock d m c (some v) = ((((d.cmprEnd c .verifyFail).set64 (R.CMPR_ERR_OFS_LO c) v).bump (R.CMPR_VERIFY_CNT c) 1).raise
      Ev.CMPR_VERIFY (c + 65536 * (v % 2 ^ 48)), m) := by
  simp only [cmprBlock, ← hn, cmprBlock_closes hb hs hready hleft hn hin, Bool.false_eq_true, if_false]

variable {pay : List Byte} {tail : List Bool}
  (hpay : (d.cmpr c).blockPay (sliceOf (d.cmpr c).inp (d.cmpr c).coded n) ((d.cmpr c).coded + n == (d.cmpr c).rawLen) = (pay, tail))
include hpay

/-- The payload outgrows the input (R145). -/
theorem cmprBlock_noGain (heff : (d.cmpr c).effort ≠ 0) (hlast : (d.cmpr c).coded + n = (d.cmpr c).rawLen)
    (hlong : (d.cmpr c).rawLen < (d.cmpr c).pay.length + pay.length) :
    cmprBlock d m c none = ((d.cmprEnd c .noGain).raise Ev.CMPR_NO_GAIN
      (c + 2 ^ 32 * (((d.cmpr c).pay.length + pay.length) % 2 ^ 32)), m) := by
  have hlost : (d.cmpr c).effort ≠ 0 ∧ (d.cmpr c).coded + n = (d.cmpr c).rawLen ∧
      (d.cmpr c).rawLen < (d.cmpr c).pay.length + pay.length := ⟨heff, hlast, hlong⟩
  simp only [cmprBlock, ← hn, cmprBlock_closes hb hs hready hleft hn hin, Bool.false_eq_true, if_false, hpay, List.length_append,
    beq_iff_eq, if_pos hlost]

/-- A block whose payload the well takes is written; the last one is followed by the commit. -/
theorem cmprBlock_written
    (hgain : (d.cmpr c).effort = 0 ∨ (d.cmpr c).coded + n ≠ (d.cmpr c).rawLen ∨
      (d.cmpr c).pay.length + pay.length ≤ (d.cmpr c).rawLen)
    (htake : d.wellTakes (d.cmpr c).well ((d.cmpr c).ofs + 32 + (d.cmpr c).pay.length) pay.length = true)
    {r : Option Nat × Dev × Mem} {e : Dev}
    (hr : r = regionWrite d m 5 (d.well (d.cmpr c).well).place
      ((d.well (d.cmpr c).well).base + ((d.cmpr c).ofs + 32 + (d.cmpr c).pay.length)) pay)
    (he : e = r.2.1.setCmpr c { d.cmpr c with pay := (d.cmpr c).pay ++ pay, tail := tail, coded := (d.cmpr c).coded + n }) :
    cmprBlock d m c none = if (d.cmpr c).coded + n = (d.cmpr c).rawLen then cmprCommit e r.2.2 c else (e, r.2.2) := by
  have hkept : ¬ ((d.cmpr c).effort ≠ 0 ∧ (d.cmpr c).coded + n = (d.cmpr c).rawLen ∧
      (d.cmpr c).rawLen < (d.cmpr c).pay.length + pay.length) := by omega
  simp only [cmprBlock, ← hn, cmprBlock_closes hb hs hready hleft hn hin, Bool.false_eq_true, if_false, hpay, List.length_append,
    beq_iff_eq, if_neg hkept, cmprWrite_taken htake, ← hr, ← he]

end

end

/-! ## The commands and events -/

section
variable {s : State} {c : Nat} (hup : Up s) (hc : c < 2)
include hup hc

theorem runs_cmprStart {d : Dev} (h7 : s.dev.domOn 7 = true) (h : s.dev.cmprStart c = d) :
    Runs (.cmprStart c) s (d.pace (fun i => (s.dev.cmpr i).busy)) := by
  simp only [Runs, exec, execCmprStart, onHostMemIf_up _ (decide_eq_true hc) hup, paced, Dev.inDomain_on _ h7, h]

theorem runs_cmprAbort {d : Dev} (h7 : s.dev.domOn 7 = true) (h : s.dev.cmprAbort c = d) :
    Runs (.cmprAbort c) s (d.pace (fun i => (s.dev.cmpr i).busy)) := by
  simp only [Runs, exec, execCmprAbort, onHostMemIf_up _ (decide_eq_true hc) hup, paced, Dev.inDomain_on _ h7, h]

theorem gives_compressorInput {w o : Nat} {l : List Byte} {r : Dev × Mem} (hw : w < 16) (h : cmprInput s.dev s.mem c w o l = r) :
    Gives (.compressorInput c w o l) s { s with dev := r.1.pace (fun i => (s.dev.cmpr i).busy), mem := r.2 } := by
  simp only [Gives, exec, execCompressorInput, onDevMemIf_awake _ (show (decide (c < 2) && decide (w < 16)) = true by simp [hc, hw]) hup.1,
    paced, h]

theorem gives_compressorBlockDone {v : Option Nat} {r : Dev × Mem} (h : cmprBlock s.dev s.mem c v = r) :
    Gives (.compressorBlockDone c v) s { s with dev := r.1.pace (fun i => (s.dev.cmpr i).busy), mem := r.2 } := by
  simp only [Gives, exec, execCompressorBlockDone, onDevMemIf_awake _ (decide_eq_true hc) hup.1, paced, h]

end

end Sys2Proof.Machine

open Sys2Proof Sys2Proof.Machine

/-- Settles O17: START and ABORT by whether a task runs, fits its limits or is committed; input by whether a task runs; a closed block
by what the verifier found and whether the payload is still no longer than the input. -/
theorem compressorRuns : Obligations.CompressorRuns := by
  unfold Obligations.CompressorRuns
  refine ⟨fun s c hup _ h7 hc hb => ⟨fun hok => ?started, fun hok => ?refused, fun hcom => ?abortLate, fun hcom => ?abortNone⟩,
    fun s c hup _ h7 hc hb => ⟨?startBusy, ?aborted⟩, fun s d c w o l x y r hup hc hw hx hb hy hd hr => ?input,
    fun d m c x r hx => ⟨fun h => ?noHeader, fun hdue hready htake hr => ?header⟩, fun s c w o l hup hc hw hb => ?excess,
    fun s c v n x block pay r d hup hc hx hb hs hready hleft hn hin hblock hpay => ?block⟩
  case started =>
    have htask := Dev.cmprStart_cmpr hb hok
    exact ⟨s.dev.cmprStart c, runs_cmprStart hup hc h7 rfl, by rw [htask]; rfl, by rw [htask]; rfl, Dev.cmprStart_statusBusy hb hok,
      Dev.cmprStart_statusDone hb hok, Dev.cmprStart_inCnt hb hok, by rw [htask]; rfl⟩
  case refused => exact runs_cmprStart hup hc h7 (Dev.cmprStart_refused hb hok)
  case abortLate => exact runs_cmprAbort hup hc h7 (Dev.cmprAbort_committed hb hcom)
  case abortNone => exact runs_cmprAbort hup hc h7 (Dev.cmprAbort_none hb hcom)
  case startBusy => exact runs_cmprStart hup hc h7 (Dev.cmprStart_busy hb)
  case aborted => exact runs_cmprAbort hup hc h7 (Dev.cmprAbort_running hb)
  case input =>
    subst hx hy hd hr
    exact gives_compressorInput hup hc hw (cmprInput_running w o l hb)
  case noHeader => exact cmprZero_none (hx ▸ h)
  case header =>
    subst hx hr
    exact cmprZero_lands hdue hready htake
  case excess => exact gives_compressorInput hup hc hw (cmprInput_idle w o l hb)
  case block =>
    subst hx hblock hpay
    refine ⟨?verifyFail, fun heff hlast hlong => ?noGain, fun hgain htake hr hd => ?written⟩
    case verifyFail => exact gives_compressorBlockDone hup hc (cmprBlock_verifyFail hb hs hready hleft hn hin v)
    case noGain => exact gives_compressorBlockDone hup hc (cmprBlock_noGain hb hs hready hleft hn hin rfl heff hlast hlong)
    case written =>
      have hg := gives_compressorBlockDone hup hc (cmprBlock_written hb hs hready hleft hn hin rfl hgain htake hr hd)
      by_cases hlast : (s.dev.cmpr c).coded + n = (s.dev.cmpr c).rawLen
      · rw [if_pos hlast] at hg ⊢
        exact hg
      · rw [if_neg hlast] at hg ⊢
        exact hg

end

-- Templates, records, fonts, counters, renderings (05 R151–R162, R170–R173).
section
/-! PROOFS. What the commands and events of composition do: the validation of the store, the font check, records and counters, then
the start of a rendering and its compare. -/

namespace Sys2Proof.Machine

open Sys2Proof

/-! ## Commands that are one effect on the device -/

theorem runs_of_onHost {c : Instr} {s : State} {f : Dev → Dev} {d : Dev} (hup : Up s) (hc : exec c s = onHost f s) (h : f s.dev = d) :
    Runs c s d := by
  rw [Runs, hc, onHost_up f hup, h]

theorem runs_of_onDev {c : Instr} {s : State} {f : Dev → Dev} {d : Dev} (hup : Up s) (hc : exec c s = onDev f s) (h : f s.dev = d) :
    Runs c s d := by
  rw [Runs, hc, onDev_awake f hup.1, h]

/-! ## Memories without a stored word in error (11 R315, R316) -/

section
variable {d : Dev} (h : d.ecc.diffs = [])
include h

theorem Dev.sramReads_unmarked (m a b req : Nat) : d.sramReads m a b req = d := by simp [Dev.sramReads, inRange, forEach, h]

theorem Dev.readTable_unmarked (m lo n k : Nat) (t : SMap Word) : d.readTable m lo n k t = t := by simp [Dev.readTable, inRange, h]

theorem Dev.badIn_unmarked (m a b : Nat) : d.badIn m a b = [] := by simp [Dev.badIn, inRange, h]

theorem Dev.sramKind_unmarked (m w : Nat) : d.sramKind m w = .clean := by simp [Dev.sramKind, readKind, SMap.get, h]

theorem Dev.fontMarks_unmarked (n : Nat) : d.fontMarks n = [] := by simp [Dev.fontMarks, inRange, h]

theorem Dev.fontBad_unmarked (n : Nat) : d.fontBad n = [] := by simp [Dev.fontBad, Dev.fontMarks_unmarked h]

theorem Dev.fontReads_unmarked (n : Nat) : d.fontReads n = d := by simp [Dev.fontReads, forEach, Dev.fontMarks_unmarked h]

/-- Both stores read as they stand and no word is unreadable: the checks of the store decide. -/
theorem Dev.tplFailure_unmarked : d.tplFailure = firstFailure d.cmp.tplS d.cmp.glyph := by
  have hfont (l : List Nat) : l.flatMap d.fontBad = [] := List.flatMap_eq_nil_iff.mpr fun n _ => Dev.fontBad_unmarked h n
  simp [Dev.tplFailure, hfont, Dev.badIn_unmarked h, Dev.tplShadow, Dev.glyphStore, Dev.readTable_unmarked h]

/-- A partial write of a clean glyph word merges into what is stored. -/
theorem Dev.sramPartial_glyph_unmarked (w req : Nat) (f : Nat → Nat) :
    d.sramPartial 2 w req f =
      (true, { d with cmp := { d.cmp with glyph := putWord32 d.cmp.glyph w (f (d.cmp.glyph.get 0 w).toNat) } }) := by
  have hdrop : d.ecc.diffs.drop (eccKey 2 w) = d.ecc.diffs := by simp [SMap.drop, h]
  simp [Dev.sramPartial, Dev.sramData, Dev.sramKind_unmarked h, Dev.sramWord, Dev.putSramWord, hdrop]

end

/-! ## Validation of the templates (05 R151, R152) -/

theorem Dev.cmpValidate_idle {d : Dev} (h : d.cmp.validating = false) :
    d.cmpValidate = { d with cmp := { d.cmp with validating := true } }.setB R.CMP_STATUS_BUSY true := by
  simp [Dev.cmpValidate, h]

/-- The end of a validation whatever it finds: the two times of the store are left, store and fonts are read with their counts. -/
def Dev.cmpChecked (d : Dev) : Dev :=
  forEach (tplFonts d.tplShadow) Dev.fontReads (((({ d with cmp := { d.cmp with validating := false } }.setB
    R.CMP_STATUS_BUSY false).set R.CMP_TMAX (storeTime d.tplShadow)).set R.CMP_RATE_LIM (d.renderRate (storeTime d.tplShadow))).sramReads
      6 0 tplActiveWord 11)

section
variable {d : Dev} (h : d.cmp.validating = true)
include h

theorem Dev.cmpValidated_pass (hf : d.tplFailure = none) :
    d.cmpValidated = (d.cmpChecked.setB R.CMP_STATUS_TPL_VALID true).set R.CMP_STATUS_RESULT 0 := by
  simp only [Dev.cmpValidated, h, if_true, hf, Dev.cmpChecked]

theorem Dev.cmpValidated_fail {c o : Nat} (hf : d.tplFailure = some (c, o)) :
    d.cmpValidated = ((((d.cmpChecked.setB R.CMP_STATUS_TPL_VALID false).set R.CMP_STATUS_RESULT 1).set R.CMP_STATUS_CHECK c).set
      R.CMP_CHECK_OFS o).raise Ev.VALIDATE_FAIL (c + 2 ^ 32 * o) := by
  simp only [Dev.cmpValidated, h, if_true, hf, Dev.cmpChecked]

end

/-! ## Fonts (05 R162) -/

/-- Storing what a key already holds. -/
theorem SMap.put_of_find? {α : Type} (m : SMap α) {k : Nat} {v : α} (h : m.find? k = some v) : m.put k v = m := by
  induction m with
  | nil => simp at h
  | cons p r ih =>
    obtain ⟨a, w⟩ := p
    simp only [SMap.find?, SMap.put] at h ⊢
    split at h
    · cases h
    · split at h
      · next hlt heq => simp_all
      · next hlt hne => simp [hlt, hne, ih h]

/-- A word that is not the default of its table stands in the table once it is stored, also where it stood before. -/
theorem putWord32_of_ne_zero (m : SMap Word) (k : Nat) {v : Nat} (h : BitVec.ofNat 32 v ≠ 0) :
    putWord32 m k v = m.put k (BitVec.ofNat 32 v) := by
  unfold putWord32
  split
  · next hv =>
    cases hf : m.find? k with
    | none => exact absurd (by simpa [SMap.get, hf] using hv.symm) h
    | some x =>
      have hx : x = BitVec.ofNat 32 v := by simpa [SMap.get, hf] using hv
      exact (SMap.put_of_find? m (hx ▸ hf)).symm
  · rfl

/-- The second word of a slot table entry with VALID set is not zero. -/
theorem ofNat_putBits_valid_ne_zero (w : Nat) : BitVec.ofNat 32 (putBits w 0 1 1) ≠ 0 := by
  intro h
  have hbit : (BitVec.ofNat 32 (putBits w 0 1 1)).toNat.testBit 0 = false := by rw [h]; rfl
  rw [BitVec.toNat_ofNat, Nat.testBit_mod_two_pow, putBits_testBit] at hbit
  simp at hbit

section
variable {d : Dev} {n : Nat} (h : d.cmp.validating = false) (hn : n = d.get R.CMP_GLYPH_SEL)
include h hn

theorem Dev.glyphCommit_locked (hl : d.fontLocked n = true) : d.glyphCommit = d.set R.CMP_STATUS_RESULT 2 := by
  simp [Dev.glyphCommit, h, ← hn, hl]

variable (hl : d.fontLocked n = false)
include hl

theorem Dev.glyphCommit_unlocked {ok : Bool} (hok : ok = (fontOk d.glyphStore n && (d.fontBad n).isEmpty)) :
    d.glyphCommit = ((d.fontReads n).sramPartial 2 (2 * n + 1) 11 (fun w => putBits w 0 1 (if ok then 1 else 0))).2.set
      R.CMP_STATUS_RESULT (if ok then 0 else 1) := by
  simp only [Dev.glyphCommit, h, ← hn, hl, Bool.false_eq_true, if_false, ← hok]

/-- A font that passes, in a store without a word in error: VALID is set in what is stored. -/
theorem Dev.glyphCommit_unmarked (hd : d.ecc.diffs = []) (hf : fontOk d.glyphStore n = true) :
    d.glyphCommit = { d with cmp := { d.cmp with
      glyph := d.cmp.glyph.put (2 * n + 1) (BitVec.ofNat 32 (putBits (d.cmp.glyph.get 0 (2 * n + 1)).toNat 0 1 1)) } }.set
        R.CMP_STATUS_RESULT 0 := by
  have hok : true = (fontOk d.glyphStore n && (d.fontBad n).isEmpty) := by simp [hf, Dev.fontBad_unmarked hd]
  rw [Dev.glyphCommit_unlocked h hn hl hok, Dev.fontReads_unmarked hd, Dev.sramPartial_glyph_unmarked hd]
  simp only [if_true, putWord32_of_ne_zero _ _ (ofNat_putBits_valid_ne_zero _)]

end

/-! ## Records and counters (05 R153–R157) -/

theorem Dev.flushRecs_idle {d : Dev} (h : d.cmp.validating = false) :
    d.flushRecs = ({ d with cmp := { d.cmp with
      recs := d.cmp.recs.filter (fun (r : Rec) => !(r.bound.isNone && !r.byNumber)) } }.set R.CMP_STATUS_RESULT 0).raise Ev.REC_FLUSHED
        (d.cmp.recs.filter (fun (r : Rec) => r.bound.isNone && !r.byNumber)).length := by
  simp only [Dev.flushRecs, h, Bool.false_eq_true, if_false]

theorem Dev.cntLoad_in_run {d : Dev} (h : d.cmp.validating = false) (hr : d.dstate = .run) :
    d.cntLoad = d.set R.CMP_STATUS_RESULT 3 := by
  simp [Dev.cntLoad, h, hr]

theorem Dev.cntLoad_selected {d : Dev} {n : Nat} (h : d.cmp.validating = false) (hr : d.dstate ≠ .run) (hn : n = d.get R.CMP_CNT_SEL) :
    d.cntLoad = { d with cmp := { d.cmp with
      ctrs := d.cmp.ctrs.put n { next := d.get64 (R.CNT_START_LO n), loaded := true, wrapped := false } } }.set
        R.CMP_STATUS_RESULT 0 := by
  simp only [Dev.cntLoad, h, hr, Bool.false_eq_true, if_false, Dev.loadCtr, Dev.setCtr, hn]

theorem Dev.pushRec_accepted {d : Dev} {l : List Byte} {r : Rec} (h : d.pushResult l = (0, some r)) :
    d.pushRec l = ((d.set R.CMP_REC_RESULT_CODE 0).wrap R.CMP_REC_RESULT_SEQ 1).queueRec r := by
  simp only [Dev.pushRec, h]

theorem Dev.pushRec_refused {d : Dev} {l : List Byte} {c : Nat} (h : d.pushResult l = (c, none)) :
    d.pushRec l = ((d.set R.CMP_REC_RESULT_CODE c).wrap R.CMP_REC_RESULT_SEQ 1).bump R.CMP_REC_REF_CNT 1 := by
  simp only [Dev.pushRec, h]

/-- The bytes pushed are the first `n` of CMP_REC_WIN where the window holds as many. -/
theorem runs_recPush {s : State} {n : Nat} {d : Dev} (hup : Up s) (hn : n ≤ 1024)
    (h : s.dev.pushRec ((bytesOfWords ((List.range 256).map (fun i => s.dev.reg (R.CMP_REC_WIN i).addr))).take n) = d) :
    Runs (.recPush n) s d := by
  refine runs_of_onHost hup rfl ?_
  have hmod : n % 2048 = n := Nat.mod_eq_of_lt (by omega)
  have hnone : n - 1024 = 0 := by omega
  simpa only [hmod, hnone, List.replicate_zero, List.append_nil] using h

/-! ## Renderings (05 R170, R172) -/

theorem Dev.renderStart_running {d : Dev} {x : Nat × Nat} (h : d.cmp.rendering = some x) : d.renderStart = d := by
  simp only [Dev.renderStart, h]

/-- The first item with a rendering that waits starts it, where its record allows it and the image store has room. -/
theorem Dev.renderStart_starts {d e : Dev} {i : Item} {rest : List Item} {r : Rend} {fs : List FieldImg} (h : d.cmp.rendering = none)
    (hi : d.inOrder (fun i => i.rends.any (fun r => r.st == .waiting)) = i :: rest)
    (hrec : (i.takesRec && i.record.isNone && !i.dataLate) = false) (hr : i.rends.find? (fun r => r.st == .waiting) = some r)
    (hfs : fs = d.renderAll i r.gen) (hroom : d.imageUse + 2 * (fs.map (fun f => f.img.size)).sum ≤ 1310720)
    (he : e = { d.renderReads i r.gen with cmp := { (d.renderReads i r.gen).cmp with rendering := some (i.num, r.gen) } }.updItem i.num
      (fun i => i.setRend r.gen (fun r => { r with st := .running, fields := fs.map (fun (f : FieldImg) => { f with stamped := false }) }))) :
    d.renderStart = e.keepMax R.CMP_IMG_PEAK e.imageUse := by
  subst hfs he
  simp only [Dev.renderStart, h, hi, hrec, hr, Bool.false_eq_true, if_false, if_neg (Nat.not_lt.mpr hroom)]

theorem Dev.compareDone_none {d : Dev} (e b : List (Nat × Nat)) (h : d.cmp.rendering = none) : d.compareDone e b = d := by
  simp only [Dev.compareDone, h]

/-- The compare of a running rendering, without a bus error, ends it DONE and reports its fields. -/
theorem Dev.compareDone_running {d : Dev} {n g act : Nat} {i : Item} {r : Rend} {fs : List FieldImg} {b : List (Nat × Nat)}
    (h : d.cmp.rendering = some (n, g)) (hi : d.item? n = some i) (hr : i.rends.find? (fun r => r.gen == g) = some r)
    (hst : r.st = .running) (hact : act = profGet (d.genProf g) R.CMP_MISMATCH_ACT) (hfs : fs = r.fields.map (comparedField act [] b)) :
    d.compareDone [] b = fs.foldl (fun d f => d.fieldReport n act b f) ({ d with cmp := { d.cmp with rendering := none } }.updItem n
      (fun i => i.setRend g (fun r => { r with st := .done, fields := fs, again := false }))) := by
  subst hact hfs
  simp only [Dev.compareDone, h, hi, Option.bind_some, hr, hst, if_true, List.map_nil, forEach, List.foldl_nil]

theorem runs_renderCompareDone {s : State} {b : List (Nat × Nat)} {d : Dev} (hup : Up s) (h : s.dev.compareDone [] b = d) :
    Runs (.renderCompareDone [] b) s d :=
  h ▸ onDevIf_awake (fun d => d.compareDone [] b) rfl hup.1

/-- A field in which renderer B differs keeps B's result and is stamped under A_SIDE only. -/
theorem comparedField_differs (act : Nat) (f : FieldImg) (b : Nat) :
    (comparedField act [] [(f.idx, b)] f).resB = b ∧ (comparedField act [] [(f.idx, b)] f).stamped = (act == 1) := by
  simp [comparedField]

theorem comparedField_agrees (act : Nat) (f : FieldImg) : (comparedField act [] [] f).stamped = true := rfl

end Sys2Proof.Machine

open Sys2Proof Sys2Proof.Machine

/-- Settles O18: the commands by whether a validation runs, a font slot is locked, the device prints and the record's form allows it; the
end of a validation by its first failing check; a rendering by whether one is in progress. -/
theorem compositionRuns : Obligations.CompositionRuns := by
  unfold Obligations.CompositionRuns
  refine ⟨fun s hup hv => ⟨?validate, ?flush, fun n ok hn hl hok => ?commit, fun n w hn hw hl hd hf => ?commitClean,
      fun hr n hn => ?load, fun hr => ?loadInRun, fun hl => ?commitLocked⟩,
    fun s d t hup hv ht hd => ⟨fun hf => ?passes, fun c o hf => ?fails⟩,
    fun d hd => ⟨Dev.sramReads_unmarked hd 6 0 tplActiveWord 11, Dev.tplFailure_unmarked hd⟩,
    fun s n l hup hn hl => ⟨fun r hp => ?accepted, fun c hp => ?refused⟩,
    fun s i rest r fs d hup hnone hi hrec hr hfs hroom hd => ?starts, fun s x hup hx => ?inProgress,
    fun s n g i r act fs b hup hrun hi hr hst hact hfs => ?compared, fun s b hup hnone => ?notRendering,
    fun act f b => ?field⟩
  case validate => exact runs_of_onHost hup rfl (Dev.cmpValidate_idle hv)
  case flush => exact runs_of_onHost hup rfl (Dev.flushRecs_idle hv)
  case commit => exact runs_of_onHost hup rfl (Dev.glyphCommit_unlocked hv hn hl hok)
  case commitClean =>
    subst hw
    exact runs_of_onHost hup rfl (Dev.glyphCommit_unmarked hv hn hl hd hf)
  case load => exact runs_of_onHost hup rfl (Dev.cntLoad_selected hv hr hn)
  case loadInRun => exact runs_of_onHost hup rfl (Dev.cntLoad_in_run hv hr)
  case commitLocked => exact runs_of_onHost hup rfl (Dev.glyphCommit_locked hv rfl hl)
  case passes =>
    subst ht hd
    exact runs_of_onDev hup rfl (Dev.cmpValidated_pass hv hf)
  case fails =>
    subst ht hd
    exact runs_of_onDev hup rfl (Dev.cmpValidated_fail hv hf)
  case accepted => exact runs_recPush hup hn (hl ▸ Dev.pushRec_accepted hp)
  case refused => exact runs_recPush hup hn (hl ▸ Dev.pushRec_refused hp)
  case starts => exact runs_of_onDev hup rfl (Dev.renderStart_starts hnone hi hrec hr hfs hroom hd)
  case inProgress => exact runs_of_onDev hup rfl (Dev.renderStart_running hx)
  case compared => exact runs_renderCompareDone hup (Dev.compareDone_running hrun hi hr hst hact hfs)
  case notRendering => exact runs_renderCompareDone hup (Dev.compareDone_none [] b hnone)
  case field =>
    obtain ⟨hres, hstamp⟩ := comparedField_differs act f b
    exact ⟨hres, hstamp, comparedField_agrees act f⟩

end

-- Lines and beats of dose mapping, screen validation, the correction half (06 R184, R187, R189, R193–R199).
section
/-! PROOFS. What the events and commands of dose mapping do: the start of a line and its wait, a beat and its errors, the validation of
the screen, the copy of the correction half. -/

namespace Sys2Proof.Machine

open Sys2Proof

@[simp] theorem forEach_nil {α β : Type} (f : α → β → α) (x : α) : forEach [] f x = x := rfl

/-! ## The start of a line (06 R187, R193, 07 R211) -/

section
variable {d : Dev} {l : RelLine} {rest : List RelLine} (hline : d.dos.line = none) (hq : d.dos.queue = l :: rest)
include hline hq

/-- Every long cistern has a free headrace slot and no rendering is awaited: the next released line starts. -/
theorem Dev.doseStart_starts (ha : d.admits = true) (hw : d.waitsRendering l.line = false) :
    d.doseStart = { d with dos := { d.dos with
      line := some l.line, rowBuf := [], taken := [], levels := [], memRaised := [], waited := false } }.loadRows l := by
  simp only [Dev.doseStart, hline, hq, ha, hw, if_true, Bool.false_eq_true, if_false]

/-- A long cistern has no free headrace slot: the first attempt is counted as a wait. -/
theorem Dev.doseStart_waits (ha : d.admits = false) (hw : d.dos.waited = false) :
    d.doseStart = { d with dos := { d.dos with waited := true } }.bump R.LAS_ADMIT_WAIT 1 := by
  simp only [Dev.doseStart, hline, hq, ha, hw, Bool.false_eq_true, if_false]

/-- A wait that is counted already is not counted again. -/
theorem Dev.doseStart_waited (ha : d.admits = false) (hw : d.dos.waited = true) : d.doseStart = d := by
  simp only [Dev.doseStart, hline, hq, ha, hw, Bool.false_eq_true, if_false, if_true]

end

/-! ## A beat (06 R192–R196, R199) -/

/-- A beat on which no word has just become uncorrectable and no field meets a column of another plane: its levels are those computed
unless the rails differ, an injection waits or a stored word is in error, and each error is reported. -/
theorem Dev.doseBeat_taken {d e : Dev} {l sl i : Nat} {x : RelLine} {rest : List RelLine} {parts : List (Seg × List Byte)}
    {lv faults : List Nat} (err : Bool) (hline : d.dos.line = some l) (hq : d.dos.queue = x :: rest) (hs : d.nextSlice x = some sl)
    (hi : i = d.dos.taken.get 0 sl) (hparts : d.sliceParts x sl = some parts)
    (hplane : planeConflicts ((List.range 64).map (fun j => (8192 * sl + 64 * i + j, planeAt parts (64 * i + j)))) l (d.fieldsOn l) = [])
    (hfaults : faults = (d.beatFaults (d.slot x.slot).hdr parts l sl i).eraseDups)
    (hlv : lv = (if err || d.dos.inject || !faults.isEmpty then zeroBeat else d.beatLevels (d.slot x.slot).hdr parts l sl i))
    (he : e = { d with dos := { d.dos with taken := d.dos.taken.put sl (i + 1)
                                           levels := d.dos.levels.put (128 * sl + i) lv, lastSlice := sl, inject := false } }) :
    d.doseBeat err [] = (forEach faults (fun (d : Dev) src => d.doseMemory l sl src)
      ((if err || d.dos.inject then ((e.raise Ev.DOSE_MISMATCH (sl + 32 * i + 65536 * l)).bump
        R.DOS_MISMATCH_CNT 1).causeItems .dose (fun it => it.touchesLine l) else e).sramReads 4 (8192 * sl + 64 * i)
          (8192 * sl + 64 * i + 64) 8)).doseFinish l := by
  subst hi hfaults hlv he
  simp only [Dev.doseBeat, hline, hq, hs, hparts, Option.getD_some, List.append_nil, hplane, forEach_nil]

theorem runs_doseBeat {s : State} {err : Bool} {d : Dev} (hup : Up s) (h : s.dev.doseBeat err [] = d) : Runs (.doseBeat err []) s d :=
  h ▸ onDevIf_awake (fun d => d.doseBeat err []) rfl hup.1

/-! ## Validation of the screen (06 R189) -/

/-- VALIDATE is taken while no validation runs. -/
theorem runs_dosValidate {s : State} (hup : Up s) (h : s.dev.dos.validating = false) :
    Runs .dosValidate s ({ s.dev with dos := { s.dev.dos with validating := true } }.setB R.DOS_STATUS_BUSY true) := by
  refine runs_of_onHost hup rfl ?_
  simp only [h, Bool.false_eq_true, if_false]

/-- The end of a validation whatever it finds: BUSY falls and the cells are read with their counts. -/
def Dev.dosChecked (d : Dev) : Dev :=
  ({ d with dos := { d.dos with validating := false } }.setB R.DOS_STATUS_BUSY false).screenReads

section
variable {d : Dev} (h : d.dos.validating = true)
include h

theorem Dev.dosValidated_pass (hc : d.screenCheck = none) : d.dosValidated = d.dosChecked.setB R.DOS_STATUS_SCR_VALID true := by
  simp only [Dev.dosValidated, h, if_true, hc, Dev.dosChecked]

theorem Dev.dosValidated_fail {c i : Nat} (hc : d.screenCheck = some (c, i)) :
    d.dosValidated = (((d.dosChecked.setB R.DOS_STATUS_SCR_VALID false).set R.DOS_STATUS_CHECK c).set R.DOS_CHECK_INFO i).raise
      Ev.SCREEN_INVALID (c + 65536 * i) := by
  simp only [Dev.dosValidated, h, if_true, hc, Dev.dosChecked]

end

/-! ## The copy of the correction half (06 R184) -/

theorem Dev.corrCopied_copying {d : Dev} (h : d.is R.DOS_STATUS_COPYING = true) :
    d.corrCopied = ((d.corrLoad 0 (eccSramWords 4) 8 (fun d => d.dos.corrA)).setB R.DOS_STATUS_COPYING false).setB
      R.DOS_STATUS_CORR_VALID true := by
  simp only [Dev.corrCopied, h, if_true]

theorem Dev.corrCopied_idle {d : Dev} (h : d.is R.DOS_STATUS_COPYING = false) : d.corrCopied = d := by
  simp only [Dev.corrCopied, h, Bool.false_eq_true, if_false]

/-! ### Memories without a stored word in error (11 R315, R321) -/

section
variable {d : Dev} (h : d.ecc.diffs = [])
include h

theorem Dev.screenReads_unmarked : d.screenReads = d := by simp [Dev.screenReads, inRange, h]

/-- No partial write is refused: the written columns are as `new` gives them. -/
theorem Dev.corrLoad_unmarked (a b req : Nat) (new : Dev → SMap Word) :
    d.corrLoad a b req new = { d with dos := { d.dos with corrS := new d } } := by
  simp [Dev.corrLoad, Dev.badIn_unmarked h, inRange, h]

end

end Sys2Proof.Machine

open Sys2Proof Sys2Proof.Machine

/-- Settles O19: a line by whether the cisterns admit it and whether its wait is counted; a beat by its errors; a validation by its first
failing check; the copy by whether one runs. -/
theorem doseRuns : Obligations.DoseRuns := by
  unfold Obligations.DoseRuns
  refine ⟨fun s l rest hup hline hq => ⟨fun ha hw => ?starts, fun ha hw => ?waits, fun ha hw => ?waited⟩,
    fun s l sl i x rest parts lv faults d err hup hline hq hs hi hparts hplane hfaults hlv hd => ?beat, fun s hup => ?inject,
    fun s hup hv => runs_dosValidate hup hv, fun s d hup hv hd => ⟨fun hc => ?passes, fun c i hc => ?fails⟩,
    fun s hup hc => ?copied, fun d hd => ⟨Dev.screenReads_unmarked hd, Dev.corrLoad_unmarked hd _ _ _ _⟩, fun s hup hc => ?noCopy⟩
  case starts => exact runs_of_onDev hup rfl (Dev.doseStart_starts hline hq ha hw)
  case waits => exact runs_of_onDev hup rfl (Dev.doseStart_waits hline hq ha hw)
  case waited => exact runs_of_onDev hup rfl (Dev.doseStart_waited hline hq ha hw)
  case beat => exact runs_doseBeat hup (Dev.doseBeat_taken err hline hq hs hi hparts hplane hfaults hlv hd)
  case inject => exact runs_of_onHost hup rfl rfl
  case passes =>
    subst hd
    exact runs_of_onDev hup rfl (Dev.dosValidated_pass hv hc)
  case fails =>
    subst hd
    exact runs_of_onDev hup rfl (Dev.dosValidated_fail hv hc)
  case copied => exact runs_of_onDev hup rfl (Dev.corrCopied_copying hc)
  case noCopy => exact runs_of_onDev hup rfl (Dev.corrCopied_idle hc)

end

-- The remap store, the cistern plan and the hold output of line assembly (07 R204–R208, R212–R214, R223).
section
/-! PROOFS. What the commands and events of line assembly do: the validation of the remap store, the plan, the identity map, the copy of
the Active half, the release of the hold output. -/

namespace Sys2Proof.Machine

open Sys2Proof

/-! ## Commands while no validation runs (07 R204, R206, R208, R214) -/

section
variable {d : Dev} (h : d.las.validating = false)
include h

theorem Dev.lasValidate_idle :
    d.lasValidate = { d with las := { d.las with validating := true } }.setB R.LAS_STATUS_BUSY true := by
  simp only [Dev.lasValidate, h, Bool.false_eq_true, if_false]

theorem Dev.planCmd_in_idle (hs : d.dstate = .idle) : d.planCmd = (d.plan d.active).1 := by
  simp only [Dev.planCmd, hs, h, and_self, if_true]

theorem Dev.fillIdentity_writable (hw : d.remapWritable = true) :
    d.fillIdentity = ({ d with las := { d.las with remapS := identityMap d.regs } }.freshWords 3 (131072 * d.remapHalf false)
      (131072 * (d.remapHalf false + 1))).setB R.LAS_STATUS_REMAP_VALID false := by
  simp only [Dev.fillIdentity, h, hw, Bool.false_eq_true, if_false, if_true]

/-- A swap or a copy holds the Shadow half: the command is discarded and counted. -/
theorem Dev.fillIdentity_held (hw : d.remapWritable = false) : d.fillIdentity = d.bump R.LAS_DISC_CNT 1 := by
  simp only [Dev.fillIdentity, h, hw, Bool.false_eq_true, if_false]

end

theorem Dev.planCmd_elsewhere {d : Dev} (hs : d.dstate ≠ .idle) : d.planCmd = d := by
  simp only [Dev.planCmd, hs, false_and, if_false]

/-! ## The end of a validation (07 R206, Table 7.2) -/

/-- The first check of Table 7.2 that fails, with what it names: check 4 on the rows decides alone; an entry that cannot be read fails
check 1 where checks 1–3 pass. -/
def Dev.remapFailure (d : Dev) : Option (Nat × Nat) :=
  match d.rowCheck with
  | some r => some (4, r)
  | none => (remapCheck d.regs (remapEntries (d.remapRead false)) []).or
      (((d.badIn 3 (131072 * d.remapHalf false) (131072 * d.remapHalf false + 131072)).map
        (fun w => 2 * (w - 131072 * d.remapHalf false))).head?.map (fun n => (1, n)))

/-- A result that is as the rows and the entries give it in either case is the first failing check. -/
theorem Dev.remapFailure_eq {d : Dev} {res : Option (Nat × Nat)} {h : Nat} (hh : h = 131072 * d.remapHalf false)
    (hentries : d.rowCheck = none → res = (remapCheck d.regs (remapEntries (d.remapRead false)) []).or
      (((d.badIn 3 h (h + 131072)).map (fun w => 2 * (w - h))).head?.map (fun n => (1, n))))
    (hrow : ∀ r, d.rowCheck = some r → res = some (4, r)) : d.remapFailure = res := by
  subst hh
  cases hr : d.rowCheck with
  | none => simp only [Dev.remapFailure, hr, hentries hr]
  | some r => simp only [Dev.remapFailure, hr, hrow r hr]

/-- The end of a validation whatever it finds: BUSY falls and the Shadow half is read with its counts. -/
def Dev.remapChecked (d : Dev) : Dev :=
  ({ d with las := { d.las with validating := false } }.setB R.LAS_STATUS_BUSY false).sramReads 3 (131072 * d.remapHalf false)
    (131072 * d.remapHalf false + 131072) 9

/-- What the end of a validation reports of its result: a valid half with a fresh scatter map, REMAP_VALID not set during a copy, or the
failing check. -/
def Dev.remapReport (d : Dev) : Option (Nat × Nat) → Dev
  | none => (d.remapChecked.freshWords 8 (scatterWord (d.remapHalf false) 0) (scatterWord (d.remapHalf false + 1) 0)).setB
      R.LAS_STATUS_REMAP_VALID (!d.is R.LAS_STATUS_COPYING)
  | some (c, i) => (((d.remapChecked.setB R.LAS_STATUS_REMAP_VALID false).set R.LAS_STATUS_CHECK c).set R.LAS_CHECK_INFO i).raise
      Ev.REMAP_INVALID (c + 2 ^ 32 * i)

theorem Dev.lasValidated_validating {d : Dev} (h : d.las.validating = true) : d.lasValidated = d.remapReport d.remapFailure :=
  if_pos h

theorem runs_lasValidateDone {s : State} {res : Option (Nat × Nat)} (hup : Up s) (hv : s.dev.las.validating = true)
    (hres : s.dev.remapFailure = res) : Runs .lasValidateDone s (s.dev.remapReport res) :=
  runs_of_onDev hup rfl (hres ▸ Dev.lasValidated_validating hv)

/-! ## The copy of the Active half (07 R208) -/

theorem Dev.remapCopied_copying {d : Dev} (h : d.is R.LAS_STATUS_COPYING = true) :
    d.remapCopied = ((({ d with las := { d.las with remapS := d.remapRead true } }.copyMarks 3 (131072 * d.remapHalf true)
      (131072 * d.remapHalf false) 131072 9).freshWords 8 (scatterWord (d.remapHalf false) 0)
        (scatterWord (d.remapHalf false + 1) 0)).setB R.LAS_STATUS_COPYING false).setB R.LAS_STATUS_REMAP_VALID true := by
  simp only [Dev.remapCopied, h, if_true]

/-! ### Memories without a stored word in error (11 R315, R320) -/

section
variable {d : Dev} (h : d.ecc.diffs = [])
include h

theorem Dev.remapRead_active_unmarked : d.remapRead true = d.las.remapA := Dev.readTable_unmarked h ..

theorem Dev.remapRead_shadow_unmarked : d.remapRead false = d.las.remapS := Dev.readTable_unmarked h ..

/-- No word is uncorrectable, so every copied word is clean. -/
theorem Dev.copyMarks_unmarked (m a b n req : Nat) : d.copyMarks m a b n req = d.freshWords m b (b + n) := by
  simp [Dev.copyMarks, Dev.sramReads_unmarked h, inRange, h]

end

/-! ## The hold output (07 R223) -/

theorem Dev.holdClear_held {d : Dev} (byResume : Bool) (h : d.is R.LAS_STATUS_HOLD = true) :
    d.holdClear byResume = (d.setB R.LAS_STATUS_HOLD false).raise Ev.HOLD_RELEASED (if byResume then 1 else 0) := by
  simp only [Dev.holdClear, h, if_true]

theorem Dev.holdClear_released {d : Dev} (byResume : Bool) (h : d.is R.LAS_STATUS_HOLD = false) : d.holdClear byResume = d := by
  simp only [Dev.holdClear, h, Bool.false_eq_true, if_false]

end Sys2Proof.Machine

open Sys2Proof Sys2Proof.Machine

/-- Settles O21: the commands by whether the device is in IDLE and the Shadow half may be written; the end of a validation by its first
failing check; the copy and the hold output by their status bits. -/
theorem remapAndPlan : Obligations.RemapAndPlan := by
  unfold Obligations.RemapAndPlan
  refine ⟨fun s hup hv => ⟨?validate, fun hs => ?plan, fun hs => ?planElsewhere, fun hw => ?fill, fun hw => ?fillHeld⟩,
    fun s d h res hup hv hh hd hentries hrow => ⟨fun hc => ?passes, fun c i hc => ?fails⟩, fun s h hup hc hh => ?copied,
    fun d a b hd => ⟨Dev.remapRead_active_unmarked hd, Dev.remapRead_shadow_unmarked hd, Dev.copyMarks_unmarked hd 3 a b 131072 9,
      Dev.sramReads_unmarked hd 3 a b 9⟩,
    fun s hup hh => ?release, fun s hup hh => ?released⟩
  case validate => exact runs_of_onHost hup rfl (Dev.lasValidate_idle hv)
  case plan => exact runs_of_onHost hup rfl (Dev.planCmd_in_idle hv hs)
  case planElsewhere => exact runs_of_onHost hup rfl (Dev.planCmd_elsewhere hs)
  case fill => exact runs_of_onHost hup rfl (Dev.fillIdentity_writable hv hw)
  case fillHeld => exact runs_of_onHost hup rfl (Dev.fillIdentity_held hv hw)
  case passes =>
    subst hh hd hc
    exact runs_lasValidateDone hup hv (Dev.remapFailure_eq rfl hentries hrow)
  case fails =>
    subst hh hd hc
    exact runs_lasValidateDone hup hv (Dev.remapFailure_eq rfl hentries hrow)
  case copied =>
    subst hh
    exact runs_of_onDev hup rfl (Dev.remapCopied_copying hc)
  case release => exact runs_of_onHost hup rfl (Dev.holdClear_held false hh)
  case released => exact runs_of_onHost hup rfl (Dev.holdClear_released false hh)

end

-- Blocks, bring-up, loss, electrical idle and loopbacks of head lanes and fabric ports (08 R229–R252, 14 R372, R373, 18 R485).
section
/-! PROOFS. What the commands and events of the lane layer do: the shapes of a command first, then what keeps the links, the commands, the
reception of a block, bring-up and loss. -/

namespace Sys2Proof.Machine

open Sys2Proof

/-! ## Commands and events of a port or lane -/

theorem runs_of_onDevIf {c : Instr} {s : State} {ok : Bool} {f : Dev → Dev} {d : Dev} (hup : Up s) (hok : ok = true)
    (hc : exec c s = onDevIf ok f s) (h : f s.dev = d) : Runs c s d := by
  rw [Runs, hc, onDevIf_awake f hok hup.1, h]

/-- An event of a port or lane that exists has its effect. -/
theorem runs_of_event {c : Instr} {s : State} {p n : Nat} {f : Dev → Dev} {d : Dev} (hup : Up s) (hp : p < n)
    (hc : exec c s = onDevIf (decide (p < n)) f s) (h : f s.dev = d) : Runs c s d :=
  runs_of_onDevIf hup (decide_eq_true hp) hc h

theorem runs_of_onHostIf {c : Instr} {s : State} {ok : Bool} {f : Dev → Dev} {d : Dev} (hup : Up s) (hok : ok = true)
    (hc : exec c s = onHostIf ok f s) (h : f s.dev = d) : Runs c s d :=
  runs_of_onDevIf hup hok hc ((Dev.hosted_up f hup.2).trans h)

/-- A lane command of a port whose domain is on is counted, acts, and leaves its result (08 R252). -/
theorem runs_of_laneCmd {c : Instr} {s : State} {p k : Nat} {f : Dev → Dev × Nat} {e : Dev} (hup : Up s) (hp : p < 32)
    (hdom : s.dev.domOn (headDomain p) = true)
    (hc : exec c s = onHostIf (decide (p < 32)) (fun d => d.laneCmd p f) s)
    (hf : f (s.dev.wrap (R.HPL_RESULT_SEQ p) 1) = (e, k)) : Runs c s (e.set (R.HPL_RESULT_CODE p) k) := by
  refine runs_of_onHostIf hup (decide_eq_true hp) hc ?_
  rw [Dev.laneCmd, Dev.inDomain_on _ hdom, hf]

/-- A command of a fabric port while the domain of the fabric is on. -/
theorem runs_of_fabPortCmd {c : Instr} {s : State} {n : Nat} {f : Dev → Dev} {d : Dev} (hup : Up s) (hn : n < 8)
    (hdom : s.dev.domOn 3 = true) (hc : exec c s = onHostIf (decide (n < 8)) (fun d => d.inDomain 3 f) s) (h : f s.dev = d) :
    Runs c s d :=
  runs_of_onHostIf hup (decide_eq_true hn) hc ((Dev.inDomain_on f hdom).trans h)

/-! ## Lanes and links: a read after a write, and what keeps the links -/

section
variable (d : Dev) (p l : Nat)

@[simp] theorem Dev.lane_setLane_self (x : Lane) : (d.setLane p x).lane p = x := SMap.get_put_self ..
@[simp] theorem Dev.link_setLink_self (x : Link) : (d.setLink l x).link l = x := SMap.get_put_self ..
@[simp] theorem Dev.set_link (f : Fld) (v : Nat) : (d.set f v).link l = d.link l := rfl
@[simp] theorem Dev.setLane_linkOf (x : Lane) (q : Nat) : (d.setLane p x).linkOf q = d.linkOf q := rfl
@[simp] theorem Dev.setLane_links (x : Lane) : (d.setLane p x).links = d.links := rfl
@[simp] theorem Dev.setPort_links (x : Port) : (d.setPort p x).links = d.links := rfl
@[simp] theorem Dev.causeRows_links (c : Cause) (k : Nat) (rows : List Nat) : (d.causeRows c k rows).links = d.links := rfl

/-- What differs from a replaced link outside the links only has that link. -/
theorem Dev.link_of_setLink_links {d e : Dev} {l : Nat} {x : Link} (h : e.links = (d.setLink l x).links) : e.link l = x := by
  rw [Dev.link, h]
  exact d.link_setLink_self l x

/-- What keeps the links in each round keeps them. -/
theorem forEach_links {β : Type} {f : Dev → β → Dev} (hf : ∀ d b, (f d b).links = d.links) (bs : List β) (d : Dev) :
    (forEach bs f d).links = d.links := by
  induction bs generalizing d with
  | nil => rfl
  | cons b bs ih => exact (ih (f d b)).trans (hf d b)

@[simp] theorem Dev.mapLanes_links (f : Lane → Lane) : (d.mapLanes l f).links = d.links :=
  forEach_links (fun d p => d.setLane_links p _) _ _

@[simp] theorem Dev.mapLanes_link (f : Lane → Lane) (m : Nat) : (d.mapLanes m f).link l = d.link l := by
  rw [Dev.link, Dev.mapLanes_links, Dev.link]

@[simp] theorem Dev.freshSlips_links : (d.freshSlips l).links = d.links := by
  unfold Dev.freshSlips
  split <;> rfl

@[simp] theorem Dev.sendTrain_links (flags target : Nat) : (d.sendTrain l flags target).links = d.links := rfl

@[simp] theorem Dev.runEvent_links (code cause k detail : Nat) : (d.runEvent p code cause k detail).links = d.links := by
  unfold Dev.runEvent
  dsimp only
  split
  · rfl
  · exact Dev.raiseAt_links _ _ _ _

@[simp] theorem Dev.echoMissing_links (r : StepRec) (lost : Bool) : (d.echoMissing p r lost).links = d.links := by
  simp [Dev.echoMissing]

@[simp] theorem Dev.endCmd_links (code : Nat) : (d.endCmd p code).links = d.links := by
  unfold Dev.endCmd
  dsimp only
  split
  · rfl
  · split <;> rfl

@[simp] theorem Dev.frameDown_links : (d.frameDown p).links = d.links :=
  (forEach_links (fun d r => d.echoMissing_links p r true) _ _).trans (by simp)

/-- The frame layer of a link that leaves UP keeps the links. -/
@[simp] theorem Dev.leaveUp_links : (d.leaveUp l).links = d.links := by
  unfold Dev.leaveUp
  split
  · exact forEach_links (fun d q => d.frameDown_links q) _ _
  · rfl

end

/-! ## States that a link enters (08 R241, R245, R248) -/

/-- In SEARCH the lane order is forgotten. -/
theorem Dev.enterSearch_link (d : Dev) (l : Nat) :
    ((d.enterSearch l).link l).st = .search ∧ ((d.enterSearch l).link l).reversed = false := by
  have h : (d.enterSearch l).link l = { d.link l with
      st := .search, rate := if isHead l then 1 else 3, reversed := false, seen := false, further := 0, go := false, goSeen := 0,
      startAt := d.now, body := 0, skip := false } := by
    refine Dev.link_of_setLink_links (d := d) ?_
    unfold Dev.enterSearch
    dsimp only
    split <;> simp
  rw [h]
  exact ⟨rfl, rfl⟩

theorem Dev.startTrain_link (d : Dev) (p : Nat) :
    ((d.startTrain p).link p).st = .search ∧ ((d.startTrain p).link p).reversed = false := by
  unfold Dev.startTrain
  exact Dev.enterSearch_link _ p

theorem Dev.enterBurst_link (d : Dev) (l : Nat) :
    (d.enterBurst l).link l = { d.link l with st := .burst, seen := false, further := 0 } :=
  Dev.link_of_setLink_links (d := d) (by simp [Dev.enterBurst])

/-- A head link that is lost is DOWN. -/
theorem Dev.linkLoss_link {d : Dev} {l : Nat} (c : Nat) (hl : isHead l = true) : (d.linkLoss l c).link l = { d.link l with st := .down } :=
  Dev.link_of_setLink_links (d := d) (by simp [Dev.linkLoss, hl])

/-! ## Commands of head ports (08 R246–R252) -/

section
variable {d : Dev} {p : Nat}

theorem Dev.train_admitted (ho : d.oddBonded p = false) (hen : d.is (R.HPL_CTRL_EN p) = true) (hloop : (d.link p).st ≠ .loop)
    (hlive : (d.link p).st = .up → d.live p = false) (hc : d.crcTaken p = false)
    (hc1 : p % 2 = 0 → d.is (R.HPL_CTRL_BOND p) = true → d.crcTaken (p + 1) = false) : d.train p = (d.startTrain p, 0) := by
  have hstate : ¬ ((d.link p).st = .loop ∨ d.is (R.HPL_CTRL_EN p) = false) := by simp [hloop, hen]
  have hquiet : ¬ ((d.link p).st = .up ∧ d.live p = true) := fun ⟨hu, hl⟩ => by simp [hlive hu] at hl
  have hcrc : ¬ (d.crcTaken p || (p % 2 == 0 && d.is (R.HPL_CTRL_BOND p) && d.crcTaken (p + 1))) = true := by
    simpa [hc] using hc1
  simp only [Dev.train, ho, Bool.false_eq_true, if_false, if_neg hstate, if_neg hquiet, if_neg hcrc]

theorem Dev.eiEnter_quiet (hst : (d.link (d.linkOf p)).st = .up) (hl : d.live p = false) :
    d.eiEnter p = (d.enterEi (d.linkOf p) false, 0) := by simp [Dev.eiEnter, hst, hl]

theorem Dev.eiEnter_live (hst : (d.link (d.linkOf p)).st = .up) (hl : d.live p = true) : d.eiEnter p = (d, 1) := by
  simp [Dev.eiEnter, hst, hl]

theorem Dev.eiExit_ei (hst : (d.link (d.linkOf p)).st = .ei) : d.eiExit p = (d.leaveEi (d.linkOf p), 0) := if_pos hst

theorem Dev.loopStart_admitted {m : Nat} (hm : m = d.get (R.HPL_LOOP_CFG_MODE (d.linkOf p))) (h0 : m ≠ 0)
    (h3 : m = 3 → (d.link (d.linkOf p)).st = .up)
    (hst : (d.link (d.linkOf p)).st = .off ∨ (d.link (d.linkOf p)).st = .up ∨ (d.link (d.linkOf p)).st = .down ∨
      (d.link (d.linkOf p)).st = .failed)
    (hl : d.domainLive p = false) (hc : (d.linkLanes (d.linkOf p)).any d.crcTaken = false) :
    d.loopStart p = ((forEach (d.linkLanes (d.linkOf p)) (fun d q => d.takeCrc q) d).startLoop (d.linkOf p) m, 0) := by
  subst hm
  have hstate : (if d.get (R.HPL_LOOP_CFG_MODE (d.linkOf p)) = 3 then (d.link (d.linkOf p)).st == .up
      else (d.link (d.linkOf p)).st == .off || (d.link (d.linkOf p)).st == .up || (d.link (d.linkOf p)).st == .down ||
        (d.link (d.linkOf p)).st == .failed) = true := by
    split
    next h => simp [h3 h]
    next => simpa [or_assoc] using hst
  simp only [Dev.loopStart, if_neg h0, hstate, hl, hc, Bool.true_eq_false, Bool.false_eq_true, if_false]

theorem Dev.loopStop_open (hst : (d.link (d.linkOf p)).st = .loop) (ht : d.get (R.HPL_LOOP_TIME (d.linkOf p)) = 0) :
    d.loopStop p = (d.endLoop (d.linkOf p) 0, 0) := if_pos ⟨hst, ht⟩

end

/-! ## Commands of fabric ports (14 R372, R373, 18 R485) -/

@[simp] theorem not_isHead_fabLink (n : Nat) : isHead (fabLink n) = false := decide_eq_false (by unfold fabLink; omega)

@[simp] theorem fabPortOf_fabLink (n : Nat) : fabPortOf (fabLink n) = n := by unfold fabPortOf fabLink; omega

section
variable {d : Dev} {n : Nat}

theorem Dev.fpTrain_admitted {e : Dev} (hen : d.is (R.FP_CTRL_EN n) = true) (hloop : (d.link (fabLink n)).st ≠ .loop)
    (he : e = if (d.link (fabLink n)).st = .up then d.fabPortLeave n else d) :
    d.fpTrain n = ((e.setLink (fabLink n) { e.link (fabLink n) with bonded := true, target := 3 }).enterSearch (fabLink n)).set
      (R.FP_STATUS_FSTATE n) 0 := by
  subst he
  simp [Dev.fpTrain, hen, hloop]

theorem Dev.fpTrain_disabled (hen : d.is (R.FP_CTRL_EN n) = false) : d.fpTrain n = d := by simp [Dev.fpTrain, hen]

theorem Dev.fpLoopStart_admitted {e : Dev} {f : Nat × Dev} (hf : f = d.fresh 0x372 1) (hm : d.get (R.FP_STATUS_FSTATE n) ≠ 2)
    (hst : (d.link (fabLink n)).st = .off ∨ (d.link (fabLink n)).st = .up ∨ (d.link (fabLink n)).st = .down ∨
      (d.link (fabLink n)).st = .failed)
    (he : e = if (d.link (fabLink n)).st = .up then f.2.fabPortLeave n else f.2) :
    d.fpLoopStart n = e.startLoop (fabLink n) (1 + f.1 % 2) := by
  subst hf he
  rcases hst with hst | hst | hst | hst <;> simp [Dev.fpLoopStart, hm, hst]

theorem Dev.endLoop_fabLink (d : Dev) (n c : Nat) : d.endLoop (fabLink n) c = ((d.setLink (fabLink n) { d.link (fabLink n) with
    st := .down, loopMode := 0, loopAck := false }).sendTrain (fabLink n) 0 0).set (R.FP_STATUS_FSTATE n) 3 := by
  simp [Dev.endLoop]

end

end Sys2Proof.Machine

open Sys2Proof Sys2Proof.Machine

/-- Settles O22: each command in the branch its conditions choose; a command of a head port counts and leaves its result, one of a fabric
port acts alone. -/
theorem linkCommands : Obligations.LinkCommands := by
  unfold Obligations.LinkCommands
  refine ⟨fun s d p hup hp hdom hd => ⟨fun ho hen hloop hlive hc hc1 => ?train, fun hst hl => ?eiEnter, fun hst hl => ?eiLive,
      fun hst => ?eiExit, fun m hm h0 h3 hst hl hc => ?loopStart, fun hst ht => ?loopStop⟩,
    fun s p l hup hp hl hst ht => ?loopTime, Dev.startTrain_link,
    fun s n d e f hup hn hdom hf hd he => ⟨fun hen hloop => ?fpTrain, fun hen => ?fpDisabled, fun hm hst => ?fpLoopStart,
      fun hst => ?fpLoopStop, fun hst => ?fpNoLoop⟩⟩
  case train => exact runs_of_laneCmd hup hp hdom rfl (hd ▸ Dev.train_admitted ho hen hloop hlive hc hc1)
  case eiEnter => exact runs_of_laneCmd hup hp hdom rfl (hd ▸ Dev.eiEnter_quiet hst hl)
  case eiLive => exact runs_of_laneCmd hup hp hdom rfl (hd ▸ Dev.eiEnter_live hst hl)
  case eiExit => exact runs_of_laneCmd hup hp hdom rfl (hd ▸ Dev.eiExit_ei hst)
  case loopStart => exact runs_of_laneCmd hup hp hdom rfl (hd ▸ Dev.loopStart_admitted hm h0 h3 hst hl hc)
  case loopStop => exact runs_of_laneCmd hup hp hdom rfl (hd ▸ Dev.loopStop_open hst ht)
  case loopTime =>
    subst hl
    exact runs_of_event hup hp rfl (if_pos ⟨hst, ht⟩)
  case fpTrain => exact runs_of_fabPortCmd hup hn hdom rfl (Dev.fpTrain_admitted hen hloop hd)
  case fpDisabled => exact runs_of_fabPortCmd hup hn hdom rfl (Dev.fpTrain_disabled hen)
  case fpLoopStart => exact runs_of_fabPortCmd hup hn hdom rfl (Dev.fpLoopStart_admitted hf hm hst he)
  case fpLoopStop => exact runs_of_fabPortCmd hup hn hdom rfl ((if_pos hst).trans (Dev.endLoop_fabLink ..))
  case fpNoLoop => exact runs_of_fabPortCmd hup hn hdom rfl (if_neg hst)

end

-- The reception of a block on a lane, and what its loss detectors make of it (08 R229–R234, R239, R240, R245).
section
/-! PROOFS. What a block of 70 bits does on a lane that searches for block lock and on one that has it. -/

namespace Sys2Proof.Machine

open Sys2Proof

/-! ## A block on a lane (08 R239) -/

section
variable {d : Dev} {p b a : Nat} {x : Lane}

theorem Dev.blockIn_quiet (hr : d.receiving p = false) : d.blockIn p b a = d := by simp [Dev.blockIn, hr]

variable (hr : d.receiving p = true) (ha : a < 3) (hx : x = { d.lane p with los := false, cdr := true })
include hr ha hx

theorem Dev.blockIn_searching (hb : x.block = false) :
    d.blockIn p b a = (d.setLane p x).candidate p (blockValid (if x.inv then invertBlock b else b)) := by
  have hact : (a == 3) = false := beq_false_of_ne (by omega)
  subst hx
  simp only [Dev.blockIn, hr, if_true, if_neg (Bool.eq_false_iff.mp hb), hact, when, Bool.false_eq_true, if_false]

theorem Dev.blockIn_locked (hb : x.block = true) :
    d.blockIn p b a = ((d.setLane p (x.sight (!blockValid (if x.inv then invertBlock b else b)))).laneBlock p
      (if x.inv then invertBlock b else b) a).detect p := by
  have hact : (a == 3) = false := beq_false_of_ne (by omega)
  subst hx
  simp only [Dev.blockIn, hr, if_true, if_pos hb, hact, when, Bool.false_eq_true, if_false]

end

theorem Dev.candidate_valid (d : Dev) (p : Nat) (x : Lane) :
    (d.setLane p x).candidate p true = (d.setLane p x).setLane p { x with good := x.good + 1, block := decide (64 ≤ x.good + 1) } := by
  simp only [Dev.candidate, Dev.lane_setLane_self, if_true]

theorem Dev.candidate_invalid {d : Dev} {p : Nat} (x : Lane) (hh : isHead (d.linkOf p) = true) :
    (d.setLane p x).candidate p false =
      ((d.setLane p x).setLane p { x with good := 0, ofs := (x.ofs + 1) % 70 }).wrap (R.HPL_SLIP_CNT (d.linkOf p)) 1 := by
  simp only [Dev.candidate, Dev.lane_setLane_self, Dev.setLane_linkOf, hh, Bool.false_eq_true, if_false, if_true]

/-! ## A block with block lock (08 R229, R234, R245) -/

section
variable {d : Dev} {p b a : Nat}

/-- An AM is known by its payload under either header, whether its T-bits are right or not. -/
theorem Dev.laneBlock_am {v : Bool} (hh : hasBit b 0 ≠ hasBit b 1)
    (hk : amKind (blockData b) (bytesOf 8 (blockPayload b)) = some v) :
    d.laneBlock p b a = (if blockValid b = false ∧ (d.link (d.linkOf p)).st = .up then d.codeErr (d.linkOf p) else d).amIn p
      (bytesOf 8 (if v then 2 ^ 64 - 1 - blockPayload b else blockPayload b)) v := by
  simp only [Dev.laneBlock, when, bne_iff_ne.mpr hh, if_true, hk, Bool.and_eq_true, Bool.not_eq_true', beq_iff_eq]

variable (hn : hasBit b 0 = hasBit b 1 ∨ amKind (blockData b) (bytesOf 8 (blockPayload b)) = none)
include hn

/-- A block that is no AM is read as none. -/
theorem amRead_none : (if hasBit b 0 != hasBit b 1 then amKind (blockData b) (bytesOf 8 (blockPayload b)) else none) = none := by
  rcases hn with h | h
  · simp [h]
  · rw [h, ite_self]

theorem Dev.laneBlock_valid_due (hv : blockValid b = true) (hdue : (d.lane p).due = true) :
    d.laneBlock p b a = (d.setLane p ((d.lane p).missAm (d.seed (d.linkOf p)))).deskewAll (d.linkOf p) := by
  simp only [Dev.laneBlock, amRead_none hn, hv, hdue, when, Bool.not_true, Bool.false_and, Bool.false_eq_true, if_false, if_true]

theorem Dev.laneBlock_valid_seeded {pl : Nat} (hpl : pl = blockPayload b ^^^ (scrBits 64 (d.lane p).scr).1) (hv : blockValid b = true)
    (hdue : (d.lane p).due = false) (hs : (d.lane p).seeded = true) :
    d.laneBlock p b a = ((d.setLane p ((d.lane p).pass.watch (b % 4) pl)).elastic (d.linkOf p) (if a = 3 then 0 else a)
      (b % 4 == 2 && pl % 256 == 0x1E)).handOn p (b % 4) true pl := by
  subst hpl
  simp only [Dev.laneBlock, amRead_none hn, hv, hdue, hs, when, Bool.not_true, Bool.false_and, Bool.true_and, Bool.or_false,
    Bool.false_eq_true, if_false, if_true]

variable (hv : blockValid b = false) (hup : (d.link (d.linkOf p)).st = .up)
include hv hup

theorem Dev.laneBlock_errored_due (hdue : (d.lane p).due = true) :
    d.laneBlock p b a = ((((d.codeErr (d.linkOf p)).setLane p ((d.lane p).missAm (d.seed (d.linkOf p)))).deskewAll (d.linkOf p)).linkBlock
      (d.linkOf p) (b % 4) false (blockPayload b)) := by
  simp only [Dev.laneBlock, amRead_none hn, hv, hup, hdue, when, Bool.not_false, Bool.true_and, beq_self_eq_true, Bool.false_eq_true,
    if_false, if_true]

/-- An errored block is no IDLE block at which the elastic buffer acts. -/
theorem Dev.laneBlock_errored {pl : Nat} (hpl : pl = blockPayload b ^^^ (scrBits 64 (d.lane p).scr).1) (ha : a < 3)
    (hdue : (d.lane p).due = false) :
    d.laneBlock p b a = ((d.codeErr (d.linkOf p)).setLane p (d.lane p).pass).handOn p (b % 4) false pl := by
  have hact : a ≠ 3 := by omega
  subst hpl
  simp only [Dev.laneBlock, Dev.elastic, amRead_none hn, hv, hup, hdue, when, if_neg hact, Bool.not_false, Bool.true_and, Bool.false_and,
    Bool.or_true, beq_self_eq_true, Bool.false_eq_true, and_false, if_false, if_true]

end

/-! ## Loss detectors (08 R245) -/

section
variable {d : Dev} {p : Nat}

/-- Sixteen invalid blocks of 64 are more than none. -/
theorem hist_ne_zero_of_invalids {h : Nat} (hi : 16 ≤ ((List.range 64).filter (hasBit h)).length) : h ≠ 0 := by
  rintro rfl
  have hnone : (List.range 64).filter (hasBit 0) = [] :=
    List.filter_eq_nil_iff.mpr fun i _ => by rw [hasBit, Nat.zero_testBit]; exact Bool.false_ne_true
  rw [hnone] at hi
  exact absurd hi (by decide)

theorem Dev.detect_invalids (hi : 16 ≤ ((List.range 64).filter (hasBit (d.lane p).hist)).length) : d.detect p = d.laneLoss p 3 :=
  if_pos (by simp [hist_ne_zero_of_invalids hi, hi])

variable (hi : ((List.range 64).filter (hasBit (d.lane p).hist)).length < 16)
include hi

theorem Dev.detect_missed (hm : 2 ≤ (d.lane p).missed) : d.detect p = d.laneLoss p 4 := by
  simp only [Dev.detect, decide_eq_false (Nat.not_le.mpr hi), Bool.and_false, Bool.false_eq_true, if_false, if_pos hm]

theorem Dev.detect_notReady (hm : (d.lane p).missed < 2) (ht : 4 ≤ (d.lane p).notReady) : d.detect p = d.laneLoss p 5 := by
  simp only [Dev.detect, decide_eq_false (Nat.not_le.mpr hi), Bool.and_false, Bool.false_eq_true, if_false, if_neg (Nat.not_le.mpr hm),
    if_pos ht]

end

/-! ## Control blocks of a reserved type (08 R231) -/

theorem Dev.plainBlock_reserved {d : Dev} {l pl : Nat} (ht : leAt (bytesOf 8 pl) 0 1 ≠ 0x2D)
    (hs : isStart l (leAt (bytesOf 8 pl) 0 1) = false) (hk : isKnown l (leAt (bytesOf 8 pl) 0 1) = false) :
    d.plainBlock l false pl = d.codeErr l := by
  have hei : leAt (bytesOf 8 pl) 0 1 ≠ 0x4B := fun h => by simp [isKnown, h] at hk
  simp only [Dev.plainBlock, if_neg ht, hei, hs, hk, false_and, Bool.false_eq_true, if_false]

end Sys2Proof.Machine

open Sys2Proof Sys2Proof.Machine

/-- Settles O23: a block by whether its lane receives and has block lock; with it, by whether the block is an AM, is valid and stands where
an AM is due. -/
theorem blocksReceived : Obligations.BlocksReceived := by
  unfold Obligations.BlocksReceived
  refine ⟨fun s p b a x hup hp hr ha hx => ⟨fun hb hv => ?good, fun hb hv hh => ?slip, fun hb => ?locked⟩,
    fun s p b a hup hp hr => ?quiet, fun d p b a l pl x hx hl hpl => ?laneBlock, fun d l pl => Dev.plainBlock_reserved⟩
  case good =>
    refine runs_of_event hup hp rfl ?_
    rw [Dev.blockIn_searching hr ha hx hb, hv, Dev.candidate_valid]
  case slip =>
    refine runs_of_event hup hp rfl ?_
    rw [Dev.blockIn_searching hr ha hx hb, hv, Dev.candidate_invalid x hh]
  case locked => exact runs_of_event hup hp rfl (Dev.blockIn_locked hr ha hx hb)
  case quiet => exact runs_of_event hup hp rfl (Dev.blockIn_quiet hr)
  case laneBlock =>
    subst hx hl
    exact ⟨fun v => Dev.laneBlock_am,
      fun hv hn => ⟨Dev.laneBlock_valid_due (.inr hn) hv, Dev.laneBlock_valid_seeded (.inr hn) hpl hv⟩,
      fun hv hn hst => ⟨fun hdue ha => Dev.laneBlock_errored hn hv hst hpl ha hdue, Dev.laneBlock_errored_due hn hv hst⟩,
      Dev.detect_invalids, fun hi => ⟨Dev.detect_missed hi, Dev.detect_notReady hi⟩⟩

end

-- Alignment markers, TRAIN blocks, timeouts, loss and electrical idle of links (08 R236–R250).
section
/-! PROOFS. What brings a link up and what takes it down: AMs and TRAIN blocks of a lane first, then the events of a link. -/

namespace Sys2Proof.Machine

open Sys2Proof

/-! ## Alignment markers and TRAIN blocks of a lane (08 R236–R242, R245) -/

section
variable {d : Dev} {p : Nat} {b : List Byte}

theorem Dev.amReceived_locked (v : Bool) (hr : d.receiving p = true) (hb : (d.lane p).block = true) :
    d.amReceived p b v = (d.setLane p ((d.lane p).sight false)).amIn p b v := if_pos (by rw [hr, hb]; rfl)

theorem Dev.amReceived_searching (v : Bool) (hb : (d.lane p).block = false) : d.amReceived p b v = d := by simp [Dev.amReceived, hb]

theorem Dev.trainReceived_due (hr : d.receiving p = true) (ham : (d.lane p).am = true) (hdue : (d.lane p).due = true) :
    d.trainReceived p b =
      ((d.setLane p (((d.lane p).sight false).missAm (d.seed (d.linkOf p)))).deskewAll (d.linkOf p)).detect p :=
  if_pos (by rw [hr, ham, hdue]; rfl)

theorem Dev.trainReceived_not_due {pl : Nat} (hpl : pl = 0x2D + 256 * leOf (b.drop 1)) (hr : d.receiving p = true)
    (ham : (d.lane p).am = true) (hdue : (d.lane p).due = false) :
    d.trainReceived p b = ((d.setLane p (((d.lane p).sight false).pass.watch 2 pl)).handOn p 2 true pl).detect p := by
  subst hpl
  simp only [Dev.trainReceived, hr, ham, hdue, Bool.and_false, Bool.and_true, Bool.false_eq_true, if_false, if_true]

theorem Dev.trainReceived_unaligned (ham : (d.lane p).am = false) : d.trainReceived p b = d := by simp [Dev.trainReceived, ham]

end

/-- Whatever else a TRAIN block brings, RX_READY of the partner once seen stays seen. -/
theorem Dev.trainIn_seen (d : Dev) (l : Nat) (b : List Byte) :
    ((d.trainIn l b).link l).seen = ((d.link l).seen || hasBit (leAt b 1 1) 0) := by
  unfold Dev.trainIn
  dsimp only
  generalize he : (if isHead l = true then Dev.set _ _ _ else _) = e
  have hs : (e.link l).seen = ((d.link l).seen || hasBit (leAt b 1 1) 0) := by
    rw [← he]
    split
    · rw [Dev.set_link, Dev.link_setLink_self]
    · rw [Dev.link_setLink_self]
  -- what a state does beyond noting the flags either leaves the link or replaces it by one with the same `seen`
  split
  case h_1 =>
    split
    · split
      · split
        · rw [Dev.link_setLink_self]
          exact hs
        · rw [Dev.mapLanes_link, Dev.link_setLink_self]
          exact hs
      · exact hs
    · exact hs
  case h_2 =>
    split
    · rw [Dev.link_setLink_self]
      exact hs
    · exact hs
  case h_3 => exact hs

/-! ## Events of a link (08 R242–R248) -/

section
variable {d : Dev} {l : Nat}

theorem Dev.pllLocked_rate (h : (d.link l).st = .rate) :
    d.pllLocked l = (d.setLink l { d.link l with rate := (d.link l).target }).enterBurst l := if_pos h

theorem Dev.pllLocked_other (h : (d.link l).st ≠ .rate) : d.pllLocked l = d := if_neg h

theorem Dev.trainTimeout_bringUp
    (h : (d.link l).st = .search ∨ (d.link l).st = .ready ∨ (d.link l).st = .rate ∨ (d.link l).st = .burst) :
    d.trainTimeout l = d.trainFail l (d.unmet l) := by
  rcases h with h | h | h | h <;> simp only [Dev.trainTimeout, h]

theorem Dev.trainTimeout_unanswered (h : (d.link l).st = .loop) (hm : (d.link l).loopMode = 3) (ha : (d.link l).loopAck = false) :
    d.trainTimeout l = d.endLoop l 5 := by
  simp only [Dev.trainTimeout, h, if_pos (And.intro hm ha)]

theorem Dev.trainTimeout_up (h : (d.link l).st = .up) : d.trainTimeout l = d := by simp only [Dev.trainTimeout, h]

end

section
variable {d : Dev} {p : Nat}

theorem Dev.signalIn_ei {e : Dev} (he : e = d.setLane p { d.lane p with los := false }) (h : (e.link (e.linkOf p)).st = .ei) :
    d.signalIn p = e.leaveEi (e.linkOf p) := by
  subst he
  exact if_pos h

theorem Dev.signalIn_other {e : Dev} (he : e = d.setLane p { d.lane p with los := false }) (h : (e.link (e.linkOf p)).st ≠ .ei) :
    d.signalIn p = e := by
  subst he
  exact if_neg h

theorem Dev.eiReceived_live (h : (d.link (d.linkOf p)).st = .up) (hl : d.live p = true) : d.eiReceived p = d.linkLoss (d.linkOf p) 9 := by
  simp only [Dev.eiReceived, h, hl, if_true]

theorem Dev.eiReceived_quiet (h : (d.link (d.linkOf p)).st = .up) (hl : d.live p = false) :
    d.eiReceived p = d.enterEi (d.linkOf p) true := by
  simp only [Dev.eiReceived, h, hl, Bool.false_eq_true, if_false, if_true]

theorem Dev.laneLoss_up {c : Nat} (h : (d.link (d.linkOf p)).st = .up) (hc : c ≠ 3) :
    d.laneLoss p c = (d.setLane p ((d.lane p).lost c)).linkLoss (d.linkOf p) c := by
  simp only [Dev.laneLoss, h, if_true, when, beq_iff_eq, if_neg hc]

/-- With block lock lost a new search counts its slips afresh. -/
theorem Dev.laneLoss_blockLock (h : (d.link (d.linkOf p)).st = .up) :
    d.laneLoss p 3 = ((d.setLane p ((d.lane p).lost 3)).freshSlips (d.linkOf p)).linkLoss (d.linkOf p) 3 := by
  simp only [Dev.laneLoss, h, if_true, when, beq_self_eq_true]

theorem Dev.laneLoss_not_up (c : Nat) (h : (d.link (d.linkOf p)).st ≠ .up) : d.laneLoss p c = d := if_neg h

end

/-- Table 8.8 gives the detectors of a lane the causes 1 to 5. -/
theorem exec_laneLoss_of_no_detector {p c : Nat} (s : State) (hc : c = 0 ∨ 5 < c) :
    exec (.laneLoss p c) s = .fault .noSuchInstance := by
  have hbad : (decide (p < 48) && decide (1 ≤ c) && decide (c ≤ 5)) = false := by
    simp only [Bool.and_eq_false_iff, decide_eq_false_iff_not]
    omega
  exact if_neg (Bool.eq_false_iff.mp hbad)

end Sys2Proof.Machine

open Sys2Proof Sys2Proof.Machine

/-- Settles O24: what arrives on a lane by its locks; what a link meets by its state, and by whether its port is live. -/
theorem linksRise : Obligations.LinksRise := by
  unfold Obligations.LinksRise
  refine ⟨fun s p pl b v hup hp hpl => ⟨fun hr hb => ?marker, fun hb => ?noBlockLock, fun hr ham hdue => ?trainWhereDue,
      fun hr ham hdue => ?train, fun ham => ?noAmLock⟩,
    Dev.trainIn_seen, fun s p l hup hp hl => ?pll, fun s p d hup hp hd => ⟨fun h => ?signalInEi, fun h => ?signal⟩, fun d l => ?burst,
    fun s p l hup hp hl => ?timeoutAndIdle, fun s p c l hup hp h1 h5 hl => ?loss,
    fun s p c hp hc => exec_laneLoss_of_no_detector s hc, fun d l c hl => ?down⟩
  case marker => exact runs_of_event hup hp rfl (Dev.amReceived_locked v hr hb)
  case noBlockLock => exact runs_of_event hup hp rfl (Dev.amReceived_searching v hb)
  case trainWhereDue => exact runs_of_event hup hp rfl (Dev.trainReceived_due hr ham hdue)
  case train => exact runs_of_event hup hp rfl (Dev.trainReceived_not_due hpl hr ham hdue)
  case noAmLock => exact runs_of_event hup hp rfl (Dev.trainReceived_unaligned ham)
  case pll =>
    subst hl
    exact ⟨fun h => runs_of_event hup hp rfl (Dev.pllLocked_rate h), fun h => runs_of_event hup hp rfl (Dev.pllLocked_other h)⟩
  case signalInEi => exact runs_of_event hup hp rfl (Dev.signalIn_ei hd h)
  case signal => exact runs_of_event hup hp rfl (Dev.signalIn_other hd h)
  case burst =>
    rw [Dev.enterBurst_link]
    exact ⟨rfl, rfl⟩
  case timeoutAndIdle =>
    subst hl
    refine ⟨fun h => ?bringUp, fun h hm ha => ?unanswered, fun h => ?up, fun h hl => ?idleLive, fun h hl => ?idleGranted⟩
    case bringUp => exact runs_of_event hup hp rfl (Dev.trainTimeout_bringUp h)
    case unanswered => exact runs_of_event hup hp rfl (Dev.trainTimeout_unanswered h hm ha)
    case up => exact runs_of_event hup hp rfl (Dev.trainTimeout_up h)
    case idleLive => exact runs_of_event hup hp rfl (Dev.eiReceived_live h hl)
    case idleGranted => exact runs_of_event hup hp rfl (Dev.eiReceived_quiet h hl)
  case loss =>
    subst hl
    have hok : (decide (p < 48) && decide (1 ≤ c) && decide (c ≤ 5)) = true := by simp [hp, h1, h5]
    refine ⟨fun h => ⟨fun hc => runs_of_onDevIf hup hok rfl (Dev.laneLoss_up h hc), fun hc => ?_⟩,
      fun h => runs_of_onDevIf hup hok rfl (Dev.laneLoss_not_up c h)⟩
    subst hc
    exact runs_of_onDevIf hup hok rfl (Dev.laneLoss_blockLock h)
  case down => rw [Dev.linkLoss_link c hl]

end

-- STATUS and ECHO of a head (09 R259, R271–R276).
section
/-! PROOFS. What a head's reports do: a STATUS by whether it is whole and by the readiness state it meets, an ECHO by whether its step is in
flight, and the comparison of an ECHO that agrees with its step. -/

namespace Sys2Proof.Machine

open Sys2Proof

/-! ## Reports with 32 body bytes: the test they are accepted by (09 R256, R257) -/

theorem reportDiscarded_of_intact {f : HFrame} (hok : frameOk f = true) (hlen : f.body.length = 32) :
    (!frameOk f || f.body.length != 32) = false := by simp [hok, hlen]

theorem reportDiscarded_of_malformed {f : HFrame} (h : frameOk f = false ∨ f.body.length ≠ 32) :
    (!frameOk f || f.body.length != 32) = true := by simpa using h

section
variable {d : Dev} {p : Nat} {f : HFrame} (hu : d.portUp p = true)
include hu

/-! ## STATUS (09 R259, R275, R276) -/

theorem Dev.statusIn_malformed (h : frameOk f = false ∨ f.body.length ≠ 32) : d.statusIn p f = d.frameErr p := by
  simp only [Dev.statusIn, hu, reportDiscarded_of_malformed h, if_true]

/-- `e` is the device with the registers filled and the events raised, `g` the one that has also noted the time and what READY needs. -/
theorem Dev.statusIn_intact {e g : Dev} (hok : frameOk f = true) (hlen : f.body.length = 32)
    (he : e = (d.statusRegs p f.body).statusEvents p (d.is (R.HPF_STATUS_TEMP_WARN p)) (d.is (R.HPF_STATUS_TEMP_LIMIT p))
      (d.is (R.HPF_STATUS_FAULT p)) f.body)
    (hg : g = e.setPort p { e.port p with statusAt := d.now, depths := leAt f.body 0xA 1, rowExp := leAt f.body 0xB 1 }) :
    d.statusIn p f = if d.fstate p = 1 then ((g.endCmd p 0).set (R.HPF_STATUS_FSTATE p) 2).sendCmd p 1 [] true else g := by
  subst he hg
  simp only [Dev.statusIn, hu, reportDiscarded_of_intact hok hlen, if_true, Bool.false_eq_true, if_false]

/-! ## ECHO (09 R271–R273) -/

theorem Dev.echoIn_intact (hok : frameOk f = true) (hlen : f.body.length = 32) {o : Option StepRec}
    (ho : (d.port p).steps.find? (fun r => r.sent && r.k % 65536 == frameTag f) = o) :
    d.echoIn p f = o.elim (d.bump (R.HPF_ECHO_LATE_CNT p) 1) (fun r =>
      (d.setPort p { d.port p with steps := (d.port p).steps.filter (fun y => y.k != r.k) }).echoCompare p r f.body) := by
  simp only [Dev.echoIn, hu, reportDiscarded_of_intact hok hlen, ho, if_true, Bool.false_eq_true, if_false]
  cases o <;> rfl

end

/-! ## The comparison of an ECHO with its step (09 Table 9.7) -/

/-- With the fired mask and the readback of the step no row is missing, none is unexpected and the check holds: the three branches that
count and give causes are not taken. -/
theorem Dev.echoCompare_agrees (d : Dev) (p : Nat) {r : StepRec} {b : List Byte} (hfired : leAt b 4 2 = r.mask)
    (hcheck : leAt b 0x10 4 = r.check) (hmask : r.mask ≠ 0) :
    d.echoCompare p r b = (d.attempt (d.maskRows p r.k r.mask) r.k).set (R.HPF_DELAY_LAST p) (leAt b 0x14 2) := by
  have hnone : r.mask - (r.mask &&& r.mask) = 0 := by rw [Nat.and_self, Nat.sub_self]
  simp only [Dev.echoCompare, hfired, hcheck, hnone, or_true, if_true, if_neg hmask]

end Sys2Proof.Machine

open Sys2Proof Sys2Proof.Machine

/-- Settles O26: a STATUS by whether it is whole and by the readiness state, a timeout by whether the link is UP, an ECHO by whether its
step is in flight. -/
theorem headsReport : Obligations.HeadsReport := by
  unfold Obligations.HeadsReport
  refine ⟨fun s d p f hup hp hu hok hlen hd => ⟨fun hst => ?elsewhere, fun hst => ?waitStatus⟩,
    fun s p f hup hp hu hbad => ?malformed, fun s p hup hp => ⟨fun hu => ?timeout, fun hu => ?timeoutDown⟩,
    fun s p f r hup hp hu hok hlen hr => ?inFlight, fun s p f hup hp hu hok hlen hr => ?late,
    fun d p r b => Dev.echoCompare_agrees d p, fun d l k => ⟨rfl, rfl, rfl⟩⟩
  case elsewhere => exact runs_of_event hup hp rfl ((Dev.statusIn_intact hu hok hlen hd rfl).trans (if_neg hst))
  case waitStatus => exact runs_of_event hup hp rfl ((Dev.statusIn_intact hu hok hlen hd rfl).trans (if_pos hst))
  case malformed => exact runs_of_event hup hp rfl (Dev.statusIn_malformed hu hbad)
  case timeout => exact runs_of_event hup hp rfl (if_pos hu)
  case timeoutDown => exact runs_of_event hup hp rfl (if_neg (Bool.eq_false_iff.mp hu))
  case inFlight => exact runs_of_event hup hp rfl (Dev.echoIn_intact hu hok hlen hr)
  case late => exact runs_of_event hup hp rfl (Dev.echoIn_intact hu hok hlen hr)

end

-- The operations on DRAM keep its canonical form (10 R285, 11 R320–R322).
section
/-! PROOFS. Every operation on DRAM keeps its canonical form: writes with their counts, writes that wait for a channel, records, compressor output,
DMA, bursts, scrub and fill, test mode. -/

namespace Sys2Proof.Machine

open Sys2Proof

/-! ## Operations on DRAM -/

theorem cellsFrom_filter {lo : Nat} {l : List Host.Cell} (q : Host.Cell → Bool) (hl : cellsFrom lo l = true) :
    cellsFrom lo (l.filter q) = true := by
  induction l generalizing lo with
  | nil => exact hl
  | cons p r ih =>
    simp only [cellsFrom, Bool.and_eq_true, decide_eq_true_eq] at hl
    obtain ⟨⟨ha, hb⟩, hr⟩ := hl
    rw [List.filter_cons]
    split
    · simp only [cellsFrom, Bool.and_eq_true, decide_eq_true_eq]
      exact ⟨⟨ha, hb⟩, ih hr⟩
    · exact cellsFrom_mono (by omega) (ih hr)

theorem diffsFrom_filter {lo : Nat} {l : SMap Nat} (q : Nat × Nat → Bool) (hl : diffsFrom lo l = true) :
    diffsFrom lo (l.filter q) = true := by
  induction l generalizing lo with
  | nil => exact hl
  | cons p r ih =>
    simp only [diffsFrom, Bool.and_eq_true, decide_eq_true_eq] at hl
    obtain ⟨⟨ha, hx⟩, hr⟩ := hl
    rw [List.filter_cons]
    split
    · simp only [diffsFrom, Bool.and_eq_true, decide_eq_true_eq]
      exact ⟨⟨ha, hx⟩, ih hr⟩
    · exact diffsFrom_mono (by omega) (ih hr)

theorem Mem.zero_wf {m : Mem} (ch a b : Nat) (h : m.wf = true) : (m.zero ch a b).wf = true := by
  rw [Mem.wf_iff] at h
  obtain ⟨h0, h1, hx0, hx1⟩ := h
  rw [Mem.wf_iff]
  unfold Mem.zero
  split
  · exact ⟨cellsFrom_filter _ h0, h1, diffsFrom_filter _ hx0, hx1⟩
  · exact ⟨h0, cellsFrom_filter _ h1, hx0, diffsFrom_filter _ hx1⟩

theorem Mem.lose_wf {m : Mem} (ch : Nat) (h : m.wf = true) : (m.lose ch).wf = true := by
  unfold Mem.lose
  split
  · exact (Mem.lose_wf' h).1
  · exact (Mem.lose_wf' h).2

theorem wf_ite {p : Prop} [Decidable p] {x y : Dev × Mem} (hx : x.2.wf = true) (hy : y.2.wf = true) :
    (if p then x else y).2.wf = true := by
  split
  · exact hx
  · exact hy

theorem wf_ite_answer {p : Prop} [Decidable p] {x y : Option Nat × Dev × Mem} (hx : x.2.2.wf = true) (hy : y.2.2.wf = true) :
    (if p then x else y).2.2.wf = true := by
  split
  · exact hx
  · exact hy

/-! ### Writes with their counts -/

theorem writeCounted_wf (ch req a : Nat) (l : List Byte) {x : Bool × Dev × Mem} (h : x.2.2.wf = true) :
    (writeCounted ch req a l x).2.2.wf = true := by
  unfold writeCounted
  dsimp only
  split
  · exact Mem.writeWord_wf ch a l h
  · split
    · exact Mem.writeWord_wf ch a l h
    · exact Mem.writeWord_wf ch a l h
    · exact h

theorem writeAll_wf (f ch req a : Nat) (l : List Byte) {x : Bool × Dev × Mem} (h : x.2.2.wf = true) :
    (writeAll f ch req a l x).2.2.wf = true := by
  induction f generalizing a l x with
  | zero => exact h
  | succ f ih =>
    unfold writeAll
    split
    · exact h
    · exact ih _ _ (writeCounted_wf ch req a _ h)

theorem regionWrite_wf {m : Mem} (d : Dev) (req place x : Nat) (l : List Byte) (h : m.wf = true) :
    (regionWrite d m req place x l).2.2.wf = true := by
  refine List.foldlRecOn (motive := fun r : Option Nat × Dev × Mem => r.2.2.wf = true) _ _ h fun r hr p _ => ?_
  split
  · exact hr
  · exact writeAll_wf 9 p.1 req p.2.1 _ hr

theorem wellWrite_wf {m : Mem} (d : Dev) (req w o : Nat) (l : List Byte) (h : m.wf = true) :
    (wellWrite d m req w o l).2.2.wf = true := by
  unfold wellWrite
  split
  · exact regionWrite_wf d req _ _ l h
  · exact h

/-! ### Writes that wait for a channel -/

theorem landIntake_wf (f : Nat) (d : Dev) {m : Mem} (h : m.wf = true) : (landIntake f d m).2.wf = true := by
  induction f generalizing d m with
  | zero => exact h
  | succ f ih =>
    unfold landIntake
    split
    · exact h
    · split
      · exact h
      · exact ih _ (regionWrite_wf _ 3 _ _ _ h)

theorem cmprWrite_wf {d e : Dev} {m m' : Mem} {c o : Nat} {l : List Byte} (h : m.wf = true)
    (hr : cmprWrite d m c o l = some (e, m')) : m'.wf = true := by
  unfold cmprWrite at hr
  dsimp only at hr
  split at hr
  · have hm := congrArg Prod.snd (Option.some.inj hr)
    dsimp only at hm
    exact hm ▸ regionWrite_wf d 5 _ _ l h
  · cases hr

theorem cmprZero_wf (d : Dev) {m : Mem} (c : Nat) (h : m.wf = true) : (cmprZero d m c).2.wf = true := by
  unfold cmprZero
  dsimp only
  split
  · exact h
  · split
    next hr => exact cmprWrite_wf h hr
    next => exact h

theorem drainIntake_wf (d : Dev) {m : Mem} (h : m.wf = true) : (drainIntake d m).2.wf = true := by
  unfold drainIntake
  split
  · refine landIntake_wf _ _ ?_
    split
    · exact cmprZero_wf _ 1 (cmprZero_wf d 0 h)
    · exact h
  · exact h

theorem bar2Write_wf (ofs : Nat) (data : List Byte) (d : Dev) {m : Mem} (h : m.wf = true) : (bar2Write ofs data d m).2.wf = true := by
  unfold bar2Write
  dsimp only
  split
  · exact drainIntake_wf _ h
  · exact h

/-! ### Records, compressor output, DMA -/

theorem spillDone_wf (d : Dev) {m : Mem} (c : Nat) (poison : List Nat) (h : m.wf = true) : (spillDone d m c poison).2.wf = true := by
  unfold spillDone
  dsimp only
  split
  · exact h
  · split
    · exact h
    · refine List.foldlRecOn (motive := fun z : Dev × Mem => z.2.wf = true) _ _ (regionWrite_wf _ 0 _ _ _ h) fun z hz b _ => ?_
      split
      · exact hz
      · exact Mem.poison_wf _ _ hz

theorem cmprInput_wf (d : Dev) {m : Mem} (c w o : Nat) (data : List Byte) (h : m.wf = true) : (cmprInput d m c w o data).2.wf = true := by
  unfold cmprInput
  dsimp only
  split
  · exact h
  · exact cmprZero_wf _ c h

theorem cmprCommit_wf (d : Dev) {m : Mem} (c : Nat) (h : m.wf = true) : (cmprCommit d m c).2.wf = true := by
  unfold cmprCommit
  dsimp only
  split
  next => exact h
  next h1 =>
    split
    next => exact cmprWrite_wf h h1
    next h2 => exact cmprWrite_wf (cmprWrite_wf h h1) h2

theorem cmprBlock_wf (d : Dev) {m : Mem} (c : Nat) (verify : Option Nat) (h : m.wf = true) : (cmprBlock d m c verify).2.wf = true := by
  unfold cmprBlock
  dsimp only
  split
  · exact h
  · split
    · exact h
    · split
      · exact h
      · split
        next => exact h
        next h1 =>
          split
          · exact cmprCommit_wf _ c (cmprWrite_wf h h1)
          · exact cmprWrite_wf h h1

theorem destWrite_wf (d : Dev) {m : Mem} (n pos : Nat) (l : List Byte) (h : m.wf = true) : (destWrite d m n pos l).2.2.wf = true := by
  have hregion := fun place a => regionWrite_wf d 4 place a l h
  have hwell := fun w o => wellWrite_wf d 4 w o l h
  have hcmpr := fun c w o => cmprInput_wf d c w o l h
  exact wf_ite_answer h (wf_ite_answer (wf_ite_answer h h) (wf_ite_answer (hregion _ _) (wf_ite_answer (hwell _ _) (wf_ite_answer h
    (wf_ite_answer (hcmpr _ _ _) (wf_ite_answer h h))))))

theorem descEnd_wf (d : Dev) {m : Mem} (n : Nat) (memErr : Bool) (h : m.wf = true) : (descEnd d m n memErr).2.wf = true := by
  unfold descEnd
  dsimp only
  split
  · exact destWrite_wf d n _ _ h
  · have hd (l : List Byte) := destWrite_wf d n (d.dch n).seen l h
    exact wf_ite (hd _) (wf_ite (hd _) (wf_ite (hd _) (hd _)))

theorem burstWrite_wf (d : Dev) {m : Mem} (n : Nat) (raw : List Byte) (memErr : Bool) (h : m.wf = true) :
    (burstWrite d m n raw memErr).2.wf = true := by
  unfold burstWrite
  dsimp only
  split
  · exact destWrite_wf _ n _ _ h
  · split
    · exact descEnd_wf _ n memErr (destWrite_wf _ n _ _ h)
    · exact destWrite_wf _ n _ _ h

theorem dmaBurstDone_wf (d : Dev) {m : Mem} (n : Nat) (host : Option (List Byte)) (memErr : Bool) (h : m.wf = true) :
    (dmaBurstDone d m n host memErr).2.wf = true := by
  unfold dmaBurstDone
  dsimp only
  split
  · exact h
  · split
    · exact h
    · split
      · exact h
      · split
        · exact h
        · exact burstWrite_wf _ n _ memErr h

theorem paced_wf {f : Dev → Mem → Dev × Mem} {d : Dev} {m : Mem} (h : (f d m).2.wf = true) : (paced f d m).2.wf = true := h

/-! ### Bursts, scrub and fill, test mode -/

theorem burstData_wf (c : Nat) (b : Burst) (d : Dev) {m : Mem} (h : m.wf = true) : (burstData c b d m).2.wf = true := by
  unfold burstData
  split
  · exact writeAll_wf 9 c b.port b.addr b.data (x := (true, d, m)) h
  · exact h

theorem burstDone_wf (c id : Nat) (d : Dev) {m : Mem} (h : m.wf = true) : (burstDone c id d m).2.wf = true := by
  unfold burstDone
  split
  · exact h
  · refine wf_ite h ?_
    dsimp only
    exact burstData_wf c _ _ h

theorem scrubDram_wf (ch : Nat) {x : (Dev × Mem) × Nat × Nat} (e : Nat × Nat) (h : x.1.2.wf = true) : (scrubDram ch x e).1.2.wf = true := by
  unfold scrubDram
  dsimp only
  split
  · exact h
  · exact Mem.repair_wf ch e.1 h
  · exact h

theorem runEffect_wf (r : EccRun) (n : Nat) (d : Dev) {m : Mem} (h : m.wf = true) : (runEffect r n d m).1.2.wf = true := by
  unfold runEffect
  dsimp only
  split
  · split
    · exact Mem.zero_wf _ _ _ h
    · exact List.foldlRecOn (motive := fun x : (Dev × Mem) × Nat × Nat => x.1.2.wf = true) _ _ h fun x hx e _ => scrubDram_wf _ e hx
  · split <;> exact h

theorem scrubDone_wf (handled : Nat) {s : State} (h : s.mem.wf = true) : (scrubDone handled s).mem.wf = true := by
  unfold scrubDone
  split
  · exact h
  · split
    · exact h
    · exact runEffect_wf _ _ s.dev h

theorem testWrite_wf (m w : Nat) {s : State} (h : s.mem.wf = true) : (testWrite m w s).mem.wf = true := by
  unfold testWrite
  dsimp only
  split
  · exact Mem.putDiff_wf _ _ _ (Mem.putBytes_wf _ _ _ h)
  · exact h

end Sys2Proof.Machine
end

-- The commands that reach one block keep the canonical form of DRAM.
section
/-! PROOFS. The shared shapes of a command's effect keep the canonical form of DRAM, and so does every command that reaches one block. -/

namespace Sys2Proof.Machine

open Sys2Proof

/-! ## Shapes of a command's effect -/

/-- The state that an outcome answers, if any, holds DRAM in its canonical form. -/
def Canonical : Out → Prop
  | .next t => t.mem.wf = true
  | _ => True

/-- An effect on the whole state keeps the canonical form of DRAM. -/
def KeepsWf (f : State → State) : Prop := ∀ s : State, s.mem.wf = true → (f s).mem.wf = true

theorem wf_state_ite {p : Prop} [Decidable p] {s t : State} (hs : s.mem.wf = true) (ht : t.mem.wf = true) :
    (if p then s else t).mem.wf = true := by
  split
  · exact hs
  · exact ht

theorem canonical_ite {p : Prop} [Decidable p] {a b : Out} (ha : Canonical a) (hb : Canonical b) : Canonical (if p then a else b) := by
  split
  · exact ha
  · exact hb

section
variable {s : State} (h : s.mem.wf = true)
include h

theorem canonical_onDev (f : Dev → Dev) : Canonical (onDev f s) := h

theorem canonical_onDevIf (ok : Bool) (f : Dev → Dev) : Canonical (onDevIf ok f s) := by
  cases ok
  · trivial
  · exact h

theorem canonical_onPin (ok : Bool) (f : Dev → Dev) : Canonical (onPin ok f s) := by
  cases ok
  · trivial
  · exact h

theorem canonical_onDevMemIf (ok : Bool) {f : Dev → Mem → Dev × Mem} (hf : ∀ (d : Dev) (m : Mem), m.wf = true → (f d m).2.wf = true) :
    Canonical (onDevMemIf ok f s) := by
  cases ok
  · trivial
  · exact wf_state_ite (hf s.dev s.mem h) h

theorem canonical_onHostMemIf (ok : Bool) {f : Dev → Mem → Dev × Mem} (hf : ∀ (d : Dev) (m : Mem), m.wf = true → (f d m).2.wf = true) :
    Canonical (onHostMemIf ok f s) :=
  canonical_onDevMemIf h ok fun d m hm => wf_ite hm (hf d m hm)

theorem canonical_onDevNv (f : Dev → NonVol → Dev × NonVol) : Canonical (onDevNv f s) := wf_state_ite h h

theorem canonical_onHostNv (f : Dev → NonVol → Dev × NonVol) : Canonical (onHostNv f s) := canonical_onDevNv h _

theorem canonical_onDevKeep (ok : Bool) (f : Dev → Dev) : Canonical (onDevKeep ok f s) := by
  cases ok
  · trivial
  · exact wf_state_ite h h

theorem canonical_onHostKeep (ok : Bool) (f : Dev → Dev) : Canonical (onHostKeep ok f s) := canonical_onDevKeep h ok _

theorem canonical_onTap (f : Tap → Bool → Tap) : Canonical (onTap f s) := wf_state_ite h h

theorem hostState_wf {f : State → State} (hf : (f s).mem.wf = true) : (hostState f s).mem.wf = true :=
  wf_state_ite h (wf_state_ite h hf)

end

theorem startUp_keepsWf (env : BootEnv) : KeepsWf (startUp env) := fun _ h => wf_state_ite h h

theorem canonical_landed {o : Out} (h : Canonical o) : Canonical (landed o) := by
  cases o with
  | next s => exact drainIntake_wf s.dev h
  | fault r => trivial
  | refused r => trivial

/-- A test command writes memory by its effect only. -/
theorem testCmd_keepsWf {f : Nat → Nat → State → State} (hf : ∀ m w, KeepsWf (f m w)) : KeepsWf (testCmd f) := fun s h =>
  wf_state_ite h (wf_state_ite h (wf_state_ite h (wf_state_ite h (hf _ _ s h))))

/-- After a reset DRAM counts as never written. -/
theorem deviceReset_wf (s : State) : (deviceReset s).mem.wf = true := rfl

theorem supplyFault_wf (r : Nat) {s : State} (h : s.mem.wf = true) : (supplyFault r s).mem.wf = true := by
  unfold supplyFault
  split
  · exact h
  · exact deviceReset_wf s

/-! ## Commands that reach one block -/

section
variable {s : State} (h : s.mem.wf = true)
include h

theorem canonical_set (servo : Bool) (sec ns : Nat) : Canonical (exec (.set servo sec ns) s) := by
  change Canonical (execSet servo sec ns s)
  unfold execSet
  dsimp only
  exact canonical_ite h (canonical_ite h (canonical_ite h (canonical_ite h h)))

theorem canonical_bar0UnalignedAccess (write : Bool) (addr : Nat) : Canonical (exec (.bar0UnalignedAccess write addr) s) := by
  cases write <;> exact wf_state_ite h h

theorem canonical_eventLogWrite : Canonical (exec .eventLogWrite s) := by
  change Canonical (execEventLogWrite s)
  unfold execEventLogWrite
  split <;> exact h

theorem canonical_porstRelease (env : BootEnv) : Canonical (exec (.porstRelease env) s) := by
  change Canonical (execPorstRelease env s)
  unfold execPorstRelease
  dsimp only
  refine wf_state_ite (startUp_keepsWf env _ ?_) ?_
  all_goals
    dsimp only
    exact wf_state_ite h h

end

/-- Commands that reach one block keep the canonical form. -/
theorem canonical_exec_of_not_wide (c : Instr) {s : State} (hw : c.wide = false) (h : s.mem.wf = true) : Canonical (exec c s) := by
  cases c
  case registerWrite | upperWordWrite | lowerWordRead | rocRead | devMbxDoorbell | bar0ValueAccess | bar4ValueAccess | sessionOpen
    | sessionClose | elevate | keepalive | read | write | info | netFrameReceived => exact Bool.noConfusion hw
  case posSrcChange | restoreKeep | plan | lasValidate | fillIdentity | lasHoldClr | inject | dosValidate | recPush | flush | cntLoad
    | cmpValidate | glyphCommit | wellDefine | wellOpen | wellRelease | wellSeal | enqueue | abort | swapCancel | resume | fabCmdMerge
    | fabCmdAnchor | swap | clear | restore | scrub | fill | eccAbort | netMdioAccess | calAdc | bist | calAbort
    | predictionWindowEnd | lasValidateDone | remapCopyDone | doseLineStart | dosValidateDone | correctionCopyDone | renderStart
    | cmpValidateDone | resumeReady | timNowRead | helloPeriod | formTimeout | interval1ms | posPeriod | posTimeout | timePeriod | bar4Write
    | sealComplete | dmaBurstIssue | stepRetry | announce | announceReceiptTimeout | sync | followUp | delayReq | delayResp | pdelayReq
    | pdelayResp | pdelayRespFollowUp | tsTxPop | phyPoll | arp | arpExpiry | icmpEcho | calDone | bistDone | bandgapCheck | dieTempChange
    | updEraseDone | updVerified | revert | pwrDomOn | pwrDomOff | pwrWdtKick | arm | run | disarm | stop | sessionTimeout =>
    exact canonical_onDev h _
  case encoderCheckFail | zRisingEdge | engineStagingFreed | doseBeat | renderCompareDone | lineFrameSend | credit | echo | status
    | statusTimeout | cmdRsp | cmdTimeout | hello | helloTimeout | lsa | assign | report | ready | merge | anchor | swapReq | swapPrep
    | swapVote | swapDecide | blockReceived | amReceived | trainBlockReceived | pllLocked | trainTimeout | laneLoss | eiEnterReceived
    | signalDetected | loopTimeExpiry | pulseEnd | triggerAccept | trigIssue | time | item | burstLate | refreshInterval | mr4Poll
    | pageIdleExpiry | powerDownTimer | refillDone | bandWalkDone | sliceLineDone | ptpMessageInterval | drainTimeout | domainOn
    | ping | statusReq | elemCheck | setParam | getParam | clearFault | elemCancel | train | eiEnter | eiExit | loopStart | loopStop
    | fpTrain | fpLoopStart | fpLoopStop | retrain | freq | crcLoad | crcData | crcData8 | dmaStart | dmaPause | dmaResume | dmaStop
    | dramRequest => exact canonical_onDevIf h _ _
  case triggerEdge | inhibitAsserted | inhibitReleased | perstAssert | perstRelease => simp only [exec]; exact canonical_onPin h _ _
  case itemDecided | pos | verdict => simp only [exec]; exact canonical_onDevKeep h _ _
  case load | restoreLoad => simp only [exec]; exact canonical_onHostKeep h _ _
  case extest | idcode | samplePreload | clamp | highz | bypass => simp only [exec]; exact canonical_onTap h _
  case save | storeSaved | storeLoad | erase | mgmt | watchdogExpiry => simp only [exec]; exact canonical_onDevNv h _
  case updBegin | updBlock | updVerify | updActivate | updCancel => simp only [exec]; exact canonical_onHostNv h _
  case cmprStart | cmprAbort => simp only [exec]; exact canonical_onHostMemIf h _ fun _ _ h => paced_wf h
  case spillWriteDone cls poison => simp only [exec]; exact canonical_onDevMemIf h _ fun d _ => spillDone_wf d cls poison
  case dmaBurstDone n host descErr => simp only [exec]; exact canonical_onDevMemIf h _ fun d _ => dmaBurstDone_wf d n host descErr
  case compressorInput c well ofs data =>
    simp only [exec]; exact canonical_onDevMemIf h _ fun d _ h => paced_wf (cmprInput_wf d c well ofs data h)
  case compressorBlockDone c verify =>
    simp only [exec]; exact canonical_onDevMemIf h _ fun d _ h => paced_wf (cmprBlock_wf d c verify h)
  case dramBurstComplete ch id => exact canonical_landed (canonical_onDevMemIf h _ fun d _ => burstDone_wf ch id d)
  case vddqFault ch => exact canonical_landed (canonical_onDevMemIf h _ fun _ _ => Mem.lose_wf ch)
  case trainDone | freqDone | domainOff => exact canonical_landed (canonical_onDevIf h _ _)
  case set servo sec ns => exact canonical_set h servo sec ns
  case eventLogWrite => exact canonical_eventLogWrite h
  case keeperWrite | trst => exact h
  case bar0UnalignedAccess write addr => exact canonical_bar0UnalignedAccess h write addr
  case step | timAdjWrite => exact canonical_ite (canonical_onDev h _) (canonical_onDev h _)
  case positionUpdate enc edge => exact canonical_ite (canonical_onDevKeep h _ _) (canonical_onPin h _ _)
  case bar2Write ofs data => exact canonical_ite (a := .next _) (bar2Write_wf ofs data s.dev h) h
  case scrubDone handled => exact wf_state_ite (scrubDone_wf handled h) h
  case testWrite => exact hostState_wf h (testCmd_keepsWf (fun m w _ h => testWrite_wf m w h) s h)
  case testRead => exact hostState_wf h (testCmd_keepsWf (f := testRead) (fun _ _ _ h => h) s h)
  case testGen => exact hostState_wf h (testCmd_keepsWf (f := testGen) (fun _ _ _ h => h) s h)
  case porstAssert => exact wf_state_ite h (deviceReset_wf s)
  case porstRelease env => exact canonical_porstRelease h env
  case clockFailure => exact canonical_ite (a := .next s) (b := .next _) h (deviceReset_wf s)
  case mainPowerLoss => exact deviceReset_wf s
  case supplyFault rail => exact canonical_ite (a := .next _) (supplyFault_wf rail h) trivial
  case keeperSupplyLow | keeperPowerUp => exact canonical_ite (a := .next _) (b := .next _) h h
  case railsBackInRange env => exact wf_state_ite (startUp_keepsWf env _ h) h
  case sysclkInRestored env => exact canonical_ite (a := .next _) (b := .next s) (startUp_keepsWf env _ h) h
  case system force env =>
    exact canonical_ite (a := .next s) h (canonical_ite (a := .next _) (b := .next _) (startUp_keepsWf env _ (deviceReset_wf _)) h)

end Sys2Proof.Machine
end

-- The commands that reach any block, and every step, keep the canonical form of DRAM (16 R424–R452).
section
/-! PROOFS. What command words, the bus, objects, requests and network frames run keeps the canonical form of DRAM; so does every step. -/

namespace Sys2Proof.Machine

open Sys2Proof

/-! ## Command words -/

/-- A command, run on any state, keeps the canonical form. -/
def Preserves (f : State → Out) : Prop := ∀ s : State, s.mem.wf = true → Canonical (f s)

theorem preserves_exec {c : Instr} (hw : c.wide = false) : Preserves (exec c) := fun _ => canonical_exec_of_not_wide c hw

theorem preserves_of_mem_execs (cs : List Instr) (hc : cs.all (fun c => !c.wide) = true) : ∀ f ∈ cs.map exec, Preserves f := by
  intro f hf
  obtain ⟨c, hcs, rfl⟩ := List.mem_map.1 hf
  exact preserves_exec (by simpa using List.all_eq_true.1 hc c hcs)

theorem after_keepsWf {f : State → Out} (hf : Preserves f) : KeepsWf (after f) := by
  intro s h
  have hs := hf s h
  unfold after
  split
  next ht => rwa [ht] at hs
  next => exact h

theorem runBits_keepsWf (v : Nat) {l : List (State → Out)} (hl : ∀ f ∈ l, Preserves f) : KeepsWf (runBits v l) := by
  intro s h
  refine List.foldlRecOn (motive := fun s : State => s.mem.wf = true) _ _ h fun s hs e he => ?_
  split
  · exact after_keepsWf (hl e.1 (List.fst_mem_of_mem_zipIdx he)) s hs
  · exact hs

theorem runOp_keepsWf (op : Nat) {l : List (State → Out)} (hl : ∀ f ∈ l, Preserves f) : KeepsWf (runOp op l) := by
  intro s h
  unfold runOp
  split
  · exact h
  · split
    next hf => exact after_keepsWf (hl _ (List.mem_of_mem_drop (List.mem_of_mem_head? hf))) s h
    next => exact h

theorem jobWord_keepsWf (op : Nat) : KeepsWf (jobWord op) := fun _ h =>
  runOp_keepsWf op (preserves_of_mem_execs [.wellDefine _ _ _ _, .wellOpen _, .wellSeal _, .wellRelease _, .enqueue _ _ _ _ _ _, .abort _,
    .swap _ _ _ _, .swapCancel, .resume _] rfl) _ h

theorem timWord_keepsWf (op : Nat) : KeepsWf (timWord op) := fun _ h =>
  runOp_keepsWf op (preserves_of_mem_execs [.set _ _ _, .step _ _] rfl) _ h

theorem resetWord_keepsWf (v : Nat) : KeepsWf (resetWord' v) := by
  intro s h
  have hmgmt := after_keepsWf (preserves_exec (c := .mgmt) rfl) s h
  have hsystem : (systemReset s).mem.wf = true := deviceReset_wf _
  exact wf_state_ite h (wf_state_ite hmgmt (wf_state_ite (wf_state_ite hsystem h) h))

theorem mdioWord_keepsWf (v : Nat) : KeepsWf (mdioWord v) := fun _ h =>
  after_keepsWf (preserves_exec (c := .netMdioAccess _ _) rfl) _ h

theorem dmaWord_keepsWf (n op : Nat) : KeepsWf (dmaWord n op) := by
  intro s h
  unfold dmaWord
  split
  · exact h
  · exact runOp_keepsWf op (preserves_of_mem_execs [.dmaStart n false, .dmaPause n, .dmaResume n, .dmaStop n] rfl) s h

theorem crcWord_keepsWf (u v : Nat) : KeepsWf (crcWord u v) := by
  intro s h
  unfold crcWord
  split
  · exact after_keepsWf (preserves_exec (c := .crcLoad u) rfl) s h
  · exact h

theorem flashWord_keepsWf {f : Bool → State → Out} (hf : ∀ b, Preserves (f b)) : KeepsWf (flashWord f) := fun _ h =>
  after_keepsWf (hf _) _ h

theorem updWord_keepsWf (op : Nat) : KeepsWf (updWord op) := by
  intro s h
  unfold updWord
  split
  · exact after_keepsWf (preserves_exec (c := .updBegin) rfl) s h
  · exact flashWord_keepsWf (fun b => preserves_exec (c := .updBlock b) rfl) s h
  · exact after_keepsWf (preserves_exec (c := .updVerify) rfl) s h
  · exact flashWord_keepsWf (fun b => preserves_exec (c := .updActivate b) rfl) s h
  · exact flashWord_keepsWf (fun b => preserves_exec (c := .updCancel b) rfl) s h
  · exact h

theorem storeWord_keepsWf (op : Nat) : KeepsWf (storeWord op) := by
  intro s h
  unfold storeWord
  split
  · exact after_keepsWf (preserves_exec (c := .save) rfl) s h
  · exact after_keepsWf (preserves_exec (c := .storeLoad) rfl) s h
  · exact flashWord_keepsWf (fun b => preserves_exec (c := .erase b) rfl) s h
  · exact h

theorem preserves_mergeByWrite (port : Nat) : Preserves (mergeByWrite port) := fun _ h =>
  preserves_exec (c := .fabCmdMerge port _) rfl _ h

theorem cmdFixed_keepsWf {a v : Nat} {f : State → State} (hf : cmdFixed a v = some f) : KeepsWf f := by
  unfold cmdFixed at hf
  split at hf <;> cases hf
  · exact runOp_keepsWf _ (preserves_of_mem_execs [.arm, .run, .disarm, .stop] rfl)
  · exact runBits_keepsWf _ (preserves_of_mem_execs [.revert] rfl)
  · exact storeWord_keepsWf _
  · exact fun _ h => h
  · exact runOp_keepsWf _ (preserves_of_mem_execs [.pwrDomOn _, .pwrDomOff _] rfl)
  · exact resetWord_keepsWf v
  · exact after_keepsWf (preserves_exec (c := .pwrWdtKick) rfl)
  · exact fun _ h => h
  · exact fun _ h => h
  · exact runOp_keepsWf _ (preserves_of_mem_execs [.clear, .restore] rfl)
  · exact runBits_keepsWf _ (preserves_of_mem_execs [.load, .restoreKeep, .restoreLoad] rfl)
  · exact jobWord_keepsWf _
  · exact runBits_keepsWf _ (preserves_of_mem_execs [.cmpValidate, .flush, .glyphCommit, .cntLoad] rfl)
  · exact after_keepsWf (preserves_exec (c := .recPush _) rfl)
  · exact runBits_keepsWf _ (preserves_of_mem_execs [.dosValidate] rfl)
  · exact runBits_keepsWf _ (preserves_of_mem_execs [.inject] rfl)
  · exact runBits_keepsWf _ (preserves_of_mem_execs [.lasValidate, .plan, .fillIdentity] rfl)
  · exact fun _ h => runBits_keepsWf _ (preserves_of_mem_execs [.lasHoldClr] rfl) _ h
  · exact runOp_keepsWf _ (List.forall_mem_cons.2 ⟨preserves_mergeByWrite _, preserves_of_mem_execs [.fabCmdAnchor _] rfl⟩)
  · exact runOp_keepsWf _ (preserves_of_mem_execs [.scrub, .fill, .eccAbort, .testWrite, .testRead, .testGen] rfl)
  · exact timWord_keepsWf _
  · exact mdioWord_keepsWf v
  · exact runOp_keepsWf _ (preserves_of_mem_execs [.calAdc, .bist, .calAbort] rfl)
  · exact updWord_keepsWf _

/-- A chain of command words, one place at a time: the effect found there, or the rest of the chain. -/
theorem keepsWf_of_ite_some {p : Prop} [Decidable p] {f g : State → State} {o : Option (State → State)} (hg : KeepsWf g)
    (ho : o = some f → KeepsWf f) (hf : (if p then some g else o) = some f) : KeepsWf f := by
  split at hf
  · exact Option.some.inj hf ▸ hg
  · exact ho hf

theorem cmdArray_keepsWf {a v : Nat} {f : State → State} (hf : cmdArray a v = some f) : KeepsWf f := by
  revert hf
  unfold cmdArray
  dsimp only
  refine keepsWf_of_ite_some (runBits_keepsWf _ (preserves_of_mem_execs [.cmprStart _, .cmprAbort _] rfl)) ?_
  refine keepsWf_of_ite_some (runBits_keepsWf _ (preserves_of_mem_execs [.train _, .eiEnter _, .eiExit _, .loopStart _, .loopStop _] rfl)) ?_
  refine keepsWf_of_ite_some (runOp_keepsWf _ (preserves_of_mem_execs [.ping _, .statusReq _, .elemCheck _, .setParam _, .getParam _,
    .clearFault _, .elemCancel _] rfl)) ?_
  refine keepsWf_of_ite_some (runOp_keepsWf _ (preserves_of_mem_execs [.fpTrain _, .fpLoopStart _, .fpLoopStop _] rfl)) ?_
  refine keepsWf_of_ite_some (runOp_keepsWf _ (preserves_of_mem_execs [.retrain _ _, .freq _ _] rfl)) ?_
  refine keepsWf_of_ite_some (dmaWord_keepsWf _ _) ?_
  refine keepsWf_of_ite_some (after_keepsWf (preserves_exec (c := .crcData _ _) rfl)) ?_
  refine keepsWf_of_ite_some (after_keepsWf (preserves_exec (c := .crcData8 _ _) rfl)) ?_
  exact keepsWf_of_ite_some (crcWord_keepsWf _ _) (fun hnone => nomatch hnone)

theorem cmdWord_keepsWf {a v : Nat} {f : State → State} (hf : cmdWord a v = some f) : KeepsWf f := by
  rcases Option.or_eq_some_iff.1 hf with hf | ⟨-, hf⟩
  · exact cmdFixed_keepsWf hf
  · exact cmdArray_keepsWf hf

/-! ## Accesses of the bus -/

theorem busWrite_keepsWf (a v : Nat) : KeepsWf (busWrite a v) := by
  intro s h
  unfold busWrite
  split
  · exact h
  · split
    · exact h
    · split
      next hf =>
        split
        · exact cmdWord_keepsWf hf s h
        · exact h
      next => exact h

@[simp] theorem busRead_mem (a : Nat) (s : State) : (busRead a s).2.mem = s.mem := by
  unfold busRead
  split <;> rfl

theorem bar0Put_keepsWf (v : Nat) : KeepsWf (bar0Put v) := fun s h => wf_state_ite (busWrite_keepsWf _ v s h) h

@[simp] theorem bar0Get_mem (s : State) : (bar0Get s).2.mem = s.mem := by
  unfold bar0Get
  dsimp only
  split
  · exact busRead_mem _ s
  · rfl

theorem bar4Put_keepsWf (v : Nat) : KeepsWf (bar4Put v) := fun _ h => wf_state_ite h h

@[simp] theorem bar4Get_mem (s : State) : (bar4Get s).2.mem = s.mem := by
  unfold bar4Get
  dsimp only
  split
  · split <;> rfl
  · rfl

/-! ## Objects -/

theorem cmdRun_keepsWf (k : ObjCmd) (i : Nat) (l : List Byte) : KeepsWf (cmdRun k i l) := by
  intro s h
  unfold cmdRun
  split
  · exact flashWord_keepsWf (fun _ _ h => canonical_onDevNv h _) s h
  · exact h
  · dsimp only
    split
    next hf => exact cmdWord_keepsWf hf _ h
    next => exact h

theorem itemPut_wf (r : ObjRow) (i : Nat) (w : IopItem) {s : State} (h : s.mem.wf = true) : (itemPut r i w s).2.mem.wf = true := by
  unfold itemPut
  dsimp only
  split
  · exact cmdRun_keepsWf _ i w.val s h
  · split <;> exact h
  · exact bar0Put_keepsWf _ s h
  · exact bar4Put_keepsWf _ s h
  · exact mdioWord_keepsWf _ s h
  · exact h

@[simp] theorem itemGet_mem (r : ObjRow) (i : Nat) (w : IopItem) (n : Nat) (s : State) : (itemGet r i w n s).2.mem = s.mem := by
  unfold itemGet
  split
  · rfl
  · split <;> rfl
  · exact bar0Get_mem s
  · exact bar4Get_mem s
  · rfl

@[simp] theorem readOne_mem (expert : Bool) (room : Nat) (w : IopItem) (s : State) : (readOne expert room w s).2.mem = s.mem := by
  unfold readOne
  dsimp only
  split
  next r i _ =>
    split
    · rfl
    · have hg := itemGet_mem r i w (min w.len (room / 4 * 4)) s
      split <;> rename_i he <;> rwa [he] at hg
  next => rfl

@[simp] theorem readAll_mem (expert : Bool) (left : Nat) (l : List IopItem) (s : State) : (readAll expert left l s).2.mem = s.mem := by
  induction l generalizing left s with
  | nil => rfl
  | cons w r ih =>
    have hw := readOne_mem expert (left - (r.map readNeeds).foldl (· + ·) 0 - 12) w s
    unfold readAll
    dsimp only
    split
    next he => rwa [he] at hw
    next a s1 he =>
      rw [he] at hw
      have hr := ih (left - a.length) s1
      split <;> rename_i hr' <;> rw [hr'] at hr <;> exact hr.trans hw

theorem writeOne_wf (src : IopSrc) (id : Nat) (expert : Bool) (w : IopItem) {s : State} (h : s.mem.wf = true) :
    (writeOne src id expert w s).2.mem.wf = true := by
  unfold writeOne
  dsimp only
  split
  · split
    · exact h
    · exact itemPut_wf _ _ w h
  · exact h

theorem writeAll'_wf (src : IopSrc) (id : Nat) (expert : Bool) (l : List IopItem) {s : State} (h : s.mem.wf = true) :
    (writeAll' src id expert l s).2.mem.wf = true := by
  induction l generalizing s with
  | nil => exact h
  | cons w r ih => exact ih (writeOne_wf src id expert w h)

theorem writeAtomic_wf (src : IopSrc) (id : Nat) (expert : Bool) (l : List IopItem) {s : State} (h : s.mem.wf = true) :
    (writeAtomic src id expert l s).2.mem.wf = true := by
  unfold writeAtomic
  dsimp only
  split
  · exact h
  · split
    · exact h
    · exact writeAll'_wf src id expert l h

/-! ## Requests and what is served -/

theorem doRequest_wf (src : IopSrc) (x : Session) (m : IopMsg) (l : List IopItem) {s : State} (h : s.mem.wf = true) :
    (doRequest src x m l s).2.mem.wf = true := by
  unfold doRequest
  dsimp only
  split
  · exact h
  · exact h
  · exact h
  · have hr := readAll_mem x.expert (src.limit - 16) l s
    split <;> rename_i he <;> rw [he] at hr <;> exact hr ▸ h
  · split
    · exact writeAtomic_wf src x.id x.expert l h
    · exact writeAll'_wf src x.id x.expert l h
  · exact h

theorem sessionRequest_wf (src : IopSrc) (x : Session) (m : IopMsg) (l : List IopItem) {s : State} (h : s.mem.wf = true) :
    (sessionRequest src x m l s).2.mem.wf = true := by
  unfold sessionRequest
  split
  · have hr := doRequest_wf src x m l (s := { s with dev := s.dev.noteRequest src x.id m.seq [] }) h
    split
    next he =>
      rw [he] at hr
      split <;> exact hr
    next he =>
      rw [he] at hr
      exact hr
  · split <;> exact h

theorem iopHandle_wf (src : IopSrc) (m : IopMsg) {s : State} (h : s.mem.wf = true) : (iopHandle src m s).2.mem.wf = true := by
  unfold iopHandle
  split
  · exact h
  · split
    · exact h
    · split
      · exact h
      · exact sessionRequest_wf _ _ m _ h

theorem serveBell_keepsWf : KeepsWf serveBell := by
  intro s h
  unfold serveBell
  split
  · exact h
  · split
    · exact h
    · dsimp only
      split
      · exact h
      next m _ =>
        have hr := iopHandle_wf .mbx m (s := { s with dev := { s.dev with mgmt := { s.dev.mgmt with bell := none } } }) h
        split
        next he =>
          rw [he] at hr
          split <;> exact hr
        next he =>
          rw [he] at hr
          exact hr

theorem canonical_served {f : State → State} (hf : KeepsWf f) {s : State} (h : s.mem.wf = true) : Canonical (served f s) :=
  serveBell_keepsWf _ (hf s h)

theorem udpRequest_keepsWf (ip port : Nat) (m : IopMsg) : KeepsWf (udpRequest ip port m) := by
  intro s h
  unfold udpRequest
  split
  · have hr := iopHandle_wf (.udp ip port) m h
    split
    next he =>
      rw [he] at hr
      split <;> exact hr
    next he =>
      rw [he] at hr
      exact hr
  · exact h

theorem udpMessage_keepsWf (ip port : Nat) (l : List Byte) : KeepsWf (udpMessage ip port l) := by
  intro s h
  unfold udpMessage
  split
  · exact h
  · split
    · exact h
    · exact udpRequest_keepsWf ip port _ s h

theorem udpRequestErr_keepsWf (memErr : Option Nat) (ip port : Nat) (m : IopMsg) : KeepsWf (udpRequestErr memErr ip port m) := by
  intro s h
  cases memErr with
  | none => exact udpRequest_keepsWf ip port m s h
  | some n =>
    unfold udpRequestErr
    dsimp only
    split <;> exact h

/-! ## Frames of the management network -/

theorem udpIn_keepsWf (t src dst : Nat) (u : List Byte) : KeepsWf (udpIn t src dst u) := by
  intro s h
  unfold udpIn
  dsimp only
  exact wf_state_ite h (wf_state_ite h (wf_state_ite (udpMessage_keepsWf src _ _ s h) h))

theorem ipIn_keepsWf (t mac : Nat) (p : List Byte) : KeepsWf (ipIn t mac p) := by
  intro s h
  unfold ipIn
  dsimp only
  split
  · exact h
  · split
    · split <;> exact h
    · exact udpIn_keepsWf t _ _ _ _ h
    · exact h

theorem frameIn_keepsWf (t : Nat) (l : List Byte) : KeepsWf (frameIn t l) := by
  intro s h
  unfold frameIn
  dsimp only
  split
  · exact ipIn_keepsWf t _ _ s h
  · exact h
  · exact h
  · exact h

theorem drainRx_keepsWf : KeepsWf drainRx := by
  intro s h
  refine List.foldlRecOn (motive := fun s : State => s.mem.wf = true) _ _ h fun s hs e _ => ?_
  split
  · exact frameIn_keepsWf e.1 e.2 _ hs
  · exact hs

/-! ## Commands that reach any block -/

theorem hostAccess_keepsWf {f : State → State} (hf : KeepsWf f) : KeepsWf (hostAccess f) := fun s h =>
  wf_state_ite (hf s h) h

/-- A read by the bus, by the host or by an object. -/
theorem readInto_keepsWf {f : State → Nat × State} (hf : ∀ s, (f s).2.mem = s.mem) : KeepsWf (readInto f) := fun s h =>
  (congrArg Mem.wf (hf s)).trans h

theorem alignedWrite_keepsWf (a v : Nat) : KeepsWf (fun s => if a % 4 = 0 then busWrite a v s else s) := fun s h =>
  wf_state_ite (busWrite_keepsWf a v s h) h

theorem alignedRead_mem (a : Nat) (s : State) : (if a % 4 = 0 then busRead a s else (0, s)).2.mem = s.mem := by
  split
  · exact busRead_mem a s
  · rfl

theorem canonical_exec_of_wide (c : Instr) {s : State} (hw : c.wide = true) (h : s.mem.wf = true) : Canonical (exec c s) := by
  cases c
  case registerWrite addr val => simp only [exec]; exact canonical_landed (canonical_served (hostAccess_keepsWf (alignedWrite_keepsWf addr _)) h)
  case upperWordWrite addr val => simp only [exec]; exact canonical_served (hostAccess_keepsWf (alignedWrite_keepsWf addr _)) h
  case lowerWordRead addr => simp only [exec]; exact canonical_served (hostAccess_keepsWf (readInto_keepsWf (alignedRead_mem addr))) h
  case rocRead addr => simp only [exec]; exact canonical_served (hostAccess_keepsWf (readInto_keepsWf (alignedRead_mem addr))) h
  case devMbxDoorbell len =>
    exact canonical_served (hostAccess_keepsWf (f := fun s => { s with dev := s.dev.ring (len % 4096) }) fun _ h => h) h
  case bar0ValueAccess write val =>
    simp only [exec]
    exact canonical_served (fun _ h => wf_state_ite (wf_state_ite (bar0Put_keepsWf _ _ h) (readInto_keepsWf bar0Get_mem _ h)) h) h
  case bar4ValueAccess write val =>
    simp only [exec]
    exact canonical_served (fun _ h => wf_state_ite (wf_state_ite (bar4Put_keepsWf _ _ h) (readInto_keepsWf bar4Get_mem _ h)) h) h
  case sessionOpen | sessionClose | elevate | keepalive | info => simp only [exec]; exact canonical_served (udpRequest_keepsWf _ _ _) h
  case read | write => simp only [exec]; exact canonical_served (udpRequestErr_keepsWf _ _ _ _) h
  case netFrameReceived frame taken =>
    simp only [exec]
    exact canonical_ite (b := .next s) (canonical_served (fun _ h => wf_state_ite (drainRx_keepsWf _ h) h) h) h
  all_goals exact Bool.noConfusion hw

/-- Every command keeps the canonical form of DRAM. -/
theorem canonical_exec (c : Instr) {s : State} (h : s.mem.wf = true) : Canonical (exec c s) := by
  cases hw : c.wide with
  | false => exact canonical_exec_of_not_wide c hw h
  | true => exact canonical_exec_of_wide c hw h

@[simp] theorem keepCommit_mem (s : State) : (keepCommit s).mem = s.mem := rfl

theorem idleClock_keepsWf : KeepsWf State.idleClock := by
  intro s h
  unfold State.idleClock
  dsimp only
  split
  · rwa [keepCommit_mem]
  · exact h

theorem canonical_step {s : State} (h : s.mem.wf = true) : Canonical (step s) := by
  cases hp : s.pending with
  | nil =>
    rw [step_of_idle hp]
    exact idleClock_keepsWf s h
  | cons c l =>
    rw [step_of_pending hp]
    exact canonical_exec c h

end Sys2Proof.Machine

open Sys2Proof Sys2Proof.Machine

/-- Settles O6: every write goes through the operations on DRAM, which keep the canonical form; a reset empties it. -/
theorem dramCanonical : Obligations.DramCanonical := by
  unfold Obligations.DramCanonical
  intro s t h hst
  have hc := canonical_step h
  rwa [hst] at hc

end

-- DRAM channels: training and frequency (10 R301–R309).
section
/-! PROOFS. What the commands of a DRAM channel and their completions do, in the branch their conditions choose. -/

namespace Sys2Proof.Machine

open Sys2Proof

/-! ## RETRAIN (10 R301, R304) -/

section
variable {d : Dev} {c l : Nat}

theorem Dev.retrain_busy (hb : d.is (R.DRC_RESULT_BUSY c) = true) : d.retrain c l = d.setB (R.DRC_RESULT_OVR c) true := if_pos hb

variable (hb : d.is (R.DRC_RESULT_BUSY c) = false)
include hb

theorem Dev.retrain_disabled (hon : d.chOn c = false) : d.retrain c l = d.set (R.DRC_RESULT_CODE c) 2 := by
  simp [Dev.retrain, hb, hon, Dev.drcResult]

/-- An enabled channel trains, one in service in IDLE only. `e` is the device that has counted the command. -/
theorem Dev.retrain_accepted {e : Dev} (hon : d.chOn c = true) (hidle : d.chIn c = true → d.dstate = .idle)
    (he : e = ((d.wrap (R.DRC_RESULT_SEQ c) 1).setB (R.DRC_RESULT_BUSY c) true).updDrc c (fun y =>
      { y with train := some (l, d.get (R.DRC_STATUS_STATE c)) })) :
    d.retrain c l = ((if d.get (R.DRC_STATUS_STATE c) = 1 then e.loadPoint c (e.get (R.DRC_STATUS_POINT c))
      else if l = 0 then e.loadDelays c else e).set (R.DRC_STATUS_STATE c) 2).set (R.DRC_STATUS_STEP c) 0 := by
  have htaken : (!d.chOn c || (d.chIn c && d.dstate != .idle && d.dstate != .boot)) = false := by
    cases hin : d.chIn c with
    | false => simp [hon]
    | true => simp [hon, hidle hin]
  simp only [Dev.retrain, hb, htaken, ← he, Bool.false_eq_true, if_false]

end

theorem runs_retrain {s : State} {c l : Nat} {d : Dev} (hup : Up s) (hc : c < 2) (hl : l < 2) (hdom : s.dev.domOn (4 + c) = true)
    (h : s.dev.retrain c l = d) : Runs (.retrain c l) s d :=
  runs_of_onHostIf hup (by simp [hc, hl]) rfl ((Dev.inDomain_on _ hdom).trans h)

/-! ## FREQ (10 R305–R309) -/

section
variable {d : Dev} {c p : Nat} (hb : d.is (R.DRC_RESULT_BUSY c) = false)
include hb

theorem Dev.freqCmd_inUse (hp : p = d.get (R.DRC_STATUS_POINT c)) : d.freqCmd c p = d.set (R.DRC_RESULT_CODE c) 3 := by
  simp [Dev.freqCmd, hb, ← hp, Dev.drcResult]

variable (hp : p ≠ d.get (R.DRC_STATUS_POINT c))
include hp

theorem Dev.freqCmd_notValid (hv : d.is (R.PT_VALID c p) = false) : d.freqCmd c p = d.set (R.DRC_RESULT_CODE c) 4 := by
  simp [Dev.freqCmd, hb, hp, hv, Dev.drcResult]

/-- A valid point is taken while no training runs, in service in IDLE only. -/
theorem Dev.freqCmd_accepted (ht : (d.drc c).train = none) (hv : d.is (R.PT_VALID c p) = true)
    (hidle : d.get (R.DRC_STATUS_STATE c) = 3 → d.dstate = .idle) :
    d.freqCmd c p = (((if d.chIn c then d.set (R.DRC_STATUS_STATE c) 4 else d).wrap (R.DRC_RESULT_SEQ c) 1).setB
      (R.DRC_RESULT_BUSY c) true).updDrc c (fun y => { y with freq := some p }) := by
  have htaken : ¬ (d.get (R.DRC_STATUS_STATE c) = 3 ∧ (d.dstate = .armed ∨ d.dstate = .run)) := by
    rintro ⟨h3, hw⟩
    simp [hidle h3] at hw
  simp only [Dev.freqCmd, hb, ht, hv, if_neg hp, if_neg htaken, Bool.false_and, Bool.not_true, Bool.false_eq_true, if_false]

end

theorem runs_freq {s : State} {c p : Nat} {d : Dev} (hup : Up s) (hc : c < 2) (hp : p < 4) (hdom : s.dev.domOn (4 + c) = true)
    (h : s.dev.freqCmd c p = d) : Runs (.freq c p) s d :=
  runs_of_onHostIf hup (by simp [hc, hp]) rfl ((Dev.inDomain_on _ hdom).trans h)

/-! ## Effects after which host writes that waited land (10 R287) -/

theorem lands_of_onDevIf {c : Instr} {s : State} {ok : Bool} {f : Dev → Dev} {d : Dev} (hup : Up s) (hok : ok = true)
    (hc : exec c s = landed (onDevIf ok f s)) (h : f s.dev = d) : Lands c s d := by
  rw [Lands, Gives, hc, onDevIf_awake f hok hup.1, h]
  rfl

/-! ## TRAIN_DONE (10 R301–R303) -/

section
variable {d : Dev} {c st : Nat} {e : List (Nat × Nat)} (r : Bool)

theorem Dev.trainDone_none (ht : (d.drc c).train = none) : d.trainDone c e r = d := by simp [Dev.trainDone, ht]

section
variable (ht : (d.drc c).train = some (0, st))
include ht

theorem Dev.trainDone_check_passes (hk : d.checkBad c e = none) :
    d.trainDone c e r = (d.fresh 0x301 7).2.trainOk c 0 (d.fresh 0x301 7).1 r := by
  simp [Dev.trainDone, ht, hk]

theorem Dev.trainDone_check_fails {step : Nat} {w : Bool} (hk : d.checkBad c e = some (step, w)) :
    d.trainDone c e r = (d.fresh 0x301 7).2.drcFail c 0 step (d.fresh 0x301 7).1 w := by
  simp [Dev.trainDone, ht, hk, Dev.checkFails]

end

section
variable (ht : (d.drc c).train = some (1, st)) {x : Dev} (hx : x = (d.putEyes c e).set (R.DRC_STATUS_STEP c) (d.laneSteps c - 1))
include ht hx

/-- `x` is the device with the eyes of the sweep stored. -/
theorem Dev.trainDone_sweep_passes (hk : x.firstBad c e = none) :
    d.trainDone c e r = (x.applyEyes c e).trainOk c 1 (width7 0x301 (x.smallestEye c e)) r := by
  subst hx
  simp [Dev.trainDone, ht, hk]

theorem Dev.trainDone_sweep_fails {step n : Nat} {w : Bool} (hk : x.firstBad c e = some (step, w, n)) :
    d.trainDone c e r = x.drcFail c 1 step n w := by
  subst hx
  simp [Dev.trainDone, ht, hk]

end

end

theorem lands_trainDone {s : State} {c : Nat} {rd wr : List Nat} {r : Bool} {e : List (Nat × Nat)} {d : Dev} (hup : Up s) (hc : c < 2)
    (he : e = eyePairs rd wr) (h : s.dev.trainDone c e r = d) : Lands (.trainDone c rd wr r) s d :=
  lands_of_onDevIf hup (decide_eq_true hc) rfl (he ▸ h)

/-! ## FREQ_DONE (10 R306–R308) -/

section
variable {d : Dev} {c : Nat} (e : List (Nat × Nat))

theorem Dev.freqDone_none (hf : (d.drc c).freq = none) : d.freqDone c e = d := by simp [Dev.freqDone, hf]

/-- The change waits for the bursts in flight. -/
theorem Dev.freqDone_waits (hq : (d.drc c).bursts.any (·.queued) = true) : d.freqDone c e = d := by
  cases hf : (d.drc c).freq <;> simp [Dev.freqDone, hf, hq]

/-- `x` is the device with the point loaded. -/
theorem Dev.freqDone_passes {p : Nat} {x : Dev} (hf : (d.drc c).freq = some p) (hin : d.chIn c = true)
    (hq : (d.drc c).bursts.any (·.queued) = false)
    (hx : x = ((d.quiesceMemory c).loadPoint c p).updDrc c (fun y => { y with freq := none })) (hk : x.checkBad c e = none) :
    d.freqDone c e = (((x.set (R.DRC_STATUS_STATE c) 3).drcEnd c 0).raise Ev.FREQ_DONE
      (c + 2 * p + 65536 * x.get (R.DRC_MTS c))).reRate.admitAll c := by
  subst hx
  simp only [Dev.freqDone, hf, hq, hin, hk, Bool.not_true, Bool.false_eq_true, if_false]

end

theorem lands_freqDone {s : State} {c : Nat} {e : List (Nat × Nat)} {d : Dev} (hup : Up s) (hc : c < 2) (h : s.dev.freqDone c e = d) :
    Lands (.freqDone c e) s d :=
  lands_of_onDevIf hup (decide_eq_true hc) rfl h

/-! ## A failed check takes the channel out of service (10 R288, R303)

The level and the sustainable rate follow; of the registers they write only EVT_LOST and LAS_SIZE_RATE. -/

theorem Dev.get_of_regs {d e : Dev} (h : e.regs = d.regs) (f : Fld) : e.get f = d.get f := by simp only [Dev.get, Dev.reg, h]

theorem Dev.get_ite {p : Prop} [Decidable p] {d x y : Dev} {f : Fld} (hx : x.get f = d.get f) (hy : y.get f = d.get f) :
    (if p then x else y).get f = d.get f := by
  split
  · exact hx
  · exact hy

section
variable {f : Fld} (hl : f.addr ≠ R.EVT_LOST.addr)
include hl

theorem Dev.raise_get (d : Dev) (c x : Nat) : (d.raise c x).get f = d.get f :=
  Dev.get_ite rfl (d.get_set_of_addr_ne R.EVT_LOST f _ hl)

theorem Dev.raise_get_of_regs {d e : Dev} (h : e.regs = d.regs) (c x : Nat) : (e.raise c x).get f = d.get f :=
  (Dev.raise_get hl e c x).trans (Dev.get_of_regs h f)

theorem Dev.reRate_get (d : Dev) : d.reRate.get f = d.get f := Dev.get_ite (Dev.raise_get_of_regs hl rfl _ _) rfl

theorem Dev.markUnreadable_get (d : Dev) : d.markUnreadable.get f = d.get f := by
  refine List.foldlRecOn (motive := fun e : Dev => e.get f = d.get f) _ _ rfl fun e he w _ => ?_
  dsimp only
  split
  · exact (Dev.raise_get_of_regs hl rfl _ _).trans he
  · exact he

theorem Dev.enterBasic_get (d : Dev) : d.enterBasic.get f = d.get f :=
  (Dev.reRate_get hl _).trans (Dev.raise_get_of_regs hl rfl _ _)

variable (hs : f.addr ≠ R.LAS_SIZE_RATE.addr)
include hs

theorem Dev.reSize_get (d : Dev) : d.reSize.get f = d.get f := by
  have hset : (d.set R.LAS_SIZE_RATE d.sizeRate).get f = d.get f := d.get_set_of_addr_ne R.LAS_SIZE_RATE f _ hs
  exact Dev.get_ite ((Dev.raise_get hl _ _ _).trans hset) hset

theorem Dev.relocate_get (d : Dev) : d.relocate.get f = d.get f := by
  unfold Dev.relocate
  dsimp only
  exact Dev.get_ite rfl (Dev.get_ite (Dev.raise_get_of_regs hl rfl _ _) (Dev.get_ite (Dev.raise_get_of_regs hl rfl _ _)
    ((Dev.reSize_get hl hs _).trans (Dev.raise_get_of_regs hl rfl _ _))))

theorem Dev.reducedEffects_get (d : Dev) : d.reducedEffects.get f = d.get f := by
  have hmark := Dev.markUnreadable_get hl d
  unfold Dev.reducedEffects
  dsimp only
  exact Dev.get_ite hmark ((Dev.relocate_get hl hs _).trans hmark)

theorem Dev.enterReduced_get (d : Dev) : d.enterReduced.get f = d.get f := by
  unfold Dev.enterReduced
  rw [Dev.reRate_get hl, Dev.reducedEffects_get hl hs]
  exact Dev.raise_get_of_regs hl rfl _ _

theorem Dev.levelUp_get (d : Dev) : d.levelUp.get f = d.get f := by
  unfold Dev.levelUp
  split
  · exact Dev.enterReduced_get hl hs d
  · exact Dev.enterBasic_get hl d
  · exact Dev.enterBasic_get hl d
  · exact Dev.reducedEffects_get hl hs d
  · rfl

theorem Dev.causeOn_get (d : Dev) (b : Nat) : (d.causeOn b).get f = d.get f :=
  (Dev.get_ite rfl (Dev.levelUp_get hl hs _)).trans (Dev.get_of_regs rfl f)

end

theorem Dev.failBursts_regs (d : Dev) (c : Nat) : (d.failBursts c).regs = d.regs :=
  List.foldlRecOn (motive := fun e : Dev => e.regs = d.regs) (d.drc c).bursts _ rfl fun _ he _ _ => he

theorem Dev.drcFail_code (d : Dev) (c level step width : Nat) (w : Bool) :
    (d.drcFail c level step width w).get (R.DRC_RESULT_CODE c) = 5 :=
  Dev.get_set_self _ (R.DRC_RESULT_CODE c) 5 (by simp [R.DRC_RESULT_CODE])

theorem Dev.channelOut_insvc (d : Dev) {c : Nat} (st : Nat) (hc : c < 2) : (d.channelOut c st).is (R.DRC_STATUS_INSVC c) = false := by
  have hl : (R.DRC_STATUS_INSVC c).addr ≠ R.EVT_LOST.addr := by simp only [R.DRC_STATUS_INSVC, R.EVT_LOST]; omega
  have hs : (R.DRC_STATUS_INSVC c).addr ≠ R.LAS_SIZE_RATE.addr := by simp only [R.DRC_STATUS_INSVC, R.LAS_SIZE_RATE]; omega
  have hp : (R.DRC_STATUS_INSVC c).addr ≠ (R.DRC_PD_STATUS_IN_PD c).addr := by simp [R.DRC_STATUS_INSVC, R.DRC_PD_STATUS_IN_PD]
  -- the registers once the state is written and the waiting bursts have failed
  have hout : ∀ e : Dev, e.regs = (((d.set (R.DRC_STATUS_STATE c) st).setB (R.DRC_STATUS_INSVC c) false).set
      (R.DRC_PD_STATUS_IN_PD c) 0).regs → e.is (R.DRC_STATUS_INSVC c) = false := fun e he => by
    have hset := Dev.is_setB_false (d.set (R.DRC_STATUS_STATE c) st) (f := R.DRC_STATUS_INSVC c) (by simp [R.DRC_STATUS_INSVC])
    rw [Dev.is, Dev.get_of_regs he, ← Dev.is, Dev.is_set_of_addr_ne _ 0 hp, hset]
  unfold Dev.channelOut
  dsimp only
  split
  · rw [Dev.bistTouch_is, Dev.is, Dev.reRate_get hl, Dev.causeOn_get hl hs, Dev.raise_get hl]
    exact hout _ (Dev.failBursts_regs _ c)
  · exact hout _ (Dev.failBursts_regs _ c)

theorem Dev.drcFail_insvc (d : Dev) {c : Nat} (level step width : Nat) (w : Bool) (hc : c < 2) :
    (d.drcFail c level step width w).is (R.DRC_STATUS_INSVC c) = false := by
  have hr : (R.DRC_STATUS_INSVC c).addr ≠ (R.DRC_RESULT_CODE c).addr := by simp [R.DRC_STATUS_INSVC, R.DRC_RESULT_CODE]
  have hb : (R.DRC_STATUS_INSVC c).addr ≠ (R.DRC_RESULT_BUSY c).addr := by simp [R.DRC_STATUS_INSVC, R.DRC_RESULT_BUSY]
  unfold Dev.drcFail Dev.drcEnd
  rw [Dev.is_set_of_addr_ne _ 5 hr, Dev.is_setB_of_addr_ne _ false hb]
  exact Dev.channelOut_insvc _ 5 hc

end Sys2Proof.Machine

open Sys2Proof Sys2Proof.Machine

/-- Settles O28: a command by whether one runs, the channel is enabled and the point is valid; a completion by whether its command runs and
its check passes. -/
theorem channelStates : Obligations.ChannelStates := by
  unfold Obligations.ChannelStates
  refine ⟨fun s c hup hc hdom => ⟨fun hb l hl => ?busy, fun hb hon l hl => ?disabled, fun d l hb hon hidle hl hd => ?retrain,
      fun p hb ht hp hne hv hidle => ?freq, fun p hb hp heq => ?inUse, fun p hb hp hne hv => ?notValid⟩,
    fun s c st r rd wr e hup hc he ht => ⟨fun hk => ?checkPasses, fun step w hk => ?checkFails⟩,
    fun s c st r rd wr e d hup hc he ht hd => ⟨fun hk => ?sweepPasses, fun step w n hk => ?sweepFails⟩,
    fun s c rd wr e r hup hc => ⟨fun ht => ?noTraining, fun hf => ?noChange⟩,
    fun s c p e d hup hc hf hin hq hd _ hk => ?freqDone, fun s d hn => drainIntake_none s.mem hn,
    fun d c step width w hc => ⟨d.drcFail_insvc 0 step width w hc, d.drcFail_code c 0 step width w⟩⟩
  case busy => exact runs_retrain hup hc hl hdom (Dev.retrain_busy hb)
  case disabled => exact runs_retrain hup hc hl hdom (Dev.retrain_disabled hb hon)
  case retrain => exact runs_retrain hup hc hl hdom (Dev.retrain_accepted hb hon hidle hd)
  case freq => exact runs_freq hup hc hp hdom (Dev.freqCmd_accepted hb hne ht hv hidle)
  case inUse => exact runs_freq hup hc hp hdom (Dev.freqCmd_inUse hb heq)
  case notValid => exact runs_freq hup hc hp hdom (Dev.freqCmd_notValid hb hne hv)
  case checkPasses => exact lands_trainDone hup hc he (Dev.trainDone_check_passes r ht hk)
  case checkFails => exact lands_trainDone hup hc he (Dev.trainDone_check_fails r ht hk)
  case sweepPasses => exact lands_trainDone hup hc he (Dev.trainDone_sweep_passes r ht hd hk)
  case sweepFails => exact lands_trainDone hup hc he (Dev.trainDone_sweep_fails r ht hd hk)
  case noTraining => exact lands_trainDone hup hc rfl (Dev.trainDone_none r ht)
  case noChange => exact lands_freqDone hup hc (hf.elim (Dev.freqDone_none e) (Dev.freqDone_waits e))
  case freqDone => exact lands_freqDone hup hc (Dev.freqDone_passes e hf hin hq hd hk)

end

-- DRAM traffic: requests, bursts, refresh, pages, power-down (10 R284–R298, R310).
section
/-! PROOFS. What a request, the end of a burst and the timers of a channel do, in the branch their conditions choose. -/

namespace Sys2Proof.Machine

open Sys2Proof

/-! ## Requests (10 R284, R287, R290) -/

section
variable {d : Dev} {c p a n : Nat} {w : Bool} {l : List Byte}

theorem Dev.takeBurst_refused (h : d.chIn c = false ∨ d.usable c < a + n) : d.takeBurst c p a n w l = d.emit (.mem c p a w false []) := by
  have hbad : (!d.chIn c || decide (d.usable c < a + n)) = true := by simpa using h
  simp only [Dev.takeBurst, hbad, if_true, Dev.busError]

theorem Dev.takeBurst_waits (hin : d.chIn c = true) (hfit : a + n ≤ d.usable c) :
    d.takeBurst c p a n w l = (d.updDrc c (fun y => { y with nextId := y.nextId + 1, bursts := y.bursts ++
      [{ id := (d.drc c).nextId, port := p, addr := a, len := n, write := w, data := l, start := d.now, late := false,
         queued := false }] })).admitAll c := by
  have hok : (!d.chIn c || decide (d.usable c < a + n)) = false := by simp [hin, Nat.not_lt.mpr hfit]
  simp only [Dev.takeBurst, hok, Bool.false_eq_true, if_false]

end

/-- A request that ends in the 64 bytes it begins in is one burst. -/
theorem Dev.request_one_burst (d : Dev) (f p x n : Nat) (w : Bool) {l : List Byte} (hn : 0 < n) (hx : x % 64 + n ≤ 64)
    (hl : l.length ≤ n) : Dev.request (f + 2) d p 1 x w n l = d.takeBurst 0 p x n w l := by
  have hmin : min n (64 - x % 64) = n := Nat.min_eq_left (by omega)
  simp [Dev.request, Nat.ne_of_gt hn, hmin, mapAddr, List.take_of_length_le hl]

theorem runs_dramRequest {s : State} {p x n : Nat} {w : Bool} {l : List Byte} {d : Dev} (hup : Up s) (hp : p < 8) (hn : 0 < n)
    (hx : x % 64 + n ≤ 64) (hw : w = true → l.length = n) (hr : w = false → l = []) (h : s.dev.takeBurst 0 p x n w l = d) :
    Runs (.dramRequest p 1 x w n l) s d := by
  have hlen : (if w then l.length else n) = n ∧ l.length ≤ n := by
    cases w with
    | false => simp [hr rfl]
    | true => simp [hw rfl]
  refine runs_of_onDevIf hup (by simp [hp]) rfl ?_
  rw [hlen.1, Dev.request_one_burst _ _ _ _ _ _ hn hx hlen.2, h]

/-! ## The end of a burst (10 R291–R294) -/

section
variable {d : Dev} {c i : Nat} {b : Burst} (m : Mem) (hb : d.burst? c i = some b)
include hb

theorem burstDone_held (h : b.queued = false ∨ d.notNow c b = true) : burstDone c i d m = (d, m) := by
  rcases h with h | h <;> simp [burstDone, hb, h]

/-- `d1` is the device with the row opened, `d2` the one in which the burst has left its queue, `r` what its data side leaves. -/
theorem burstDone_issued {d1 d2 : Dev} {r : Dev × Mem} (hq : b.queued = true) (hst : d.get (R.DRC_STATUS_STATE c) = 3)
    (hnow : d.notNow c b = false)
    (h1 : d1 = (if d.get (R.DRC_TGT c b.port) ≤ d.now - b.start then (d.openRow c b.addr).markLate c b else d.openRow c b.addr))
    (h2 : d2 = (d1.keepMax (R.DRC_LAT_MAX c b.port) (d.now - b.start)).updDrc c (fun y =>
      { y with bursts := y.bursts.filter (fun x => x.id != i) }))
    (hr : r = burstData c b (if b.write then d2.batchStep c (subOf b.addr)
      else d2.updDrc c (fun y => { y with batch := y.batch.drop (subOf b.addr) })) m) :
    burstDone c i d m = ((r.1.refreshAll c).admitAll c, r.2) := by
  subst h1 h2 hr
  have hgo : (!b.queued || (d.get (R.DRC_STATUS_STATE c) != 3 && d.get (R.DRC_STATUS_STATE c) != 4) || d.notNow c b) = false := by
    simp [hq, hst, hnow]
  simp only [burstDone, hb, hgo, Bool.false_eq_true, if_false]

end

theorem burstDone_none {d : Dev} {c i : Nat} (m : Mem) (hb : d.burst? c i = none) : burstDone c i d m = (d, m) := by
  simp [burstDone, hb]

theorem gives_dramBurstComplete {s : State} {c i : Nat} {e : Dev} {m : Mem} (hup : Up s) (hc : c < 2)
    (h : burstDone c i s.dev s.mem = (e, m)) :
    Gives (.dramBurstComplete c i) s { s with dev := (drainIntake e m).1, mem := (drainIntake e m).2 } := by
  simp only [Gives, exec, execDramBurstComplete, onDevMemIf_awake _ (decide_eq_true hc) hup.1, h, landed]

theorem Dev.markLate_late {d : Dev} {b : Burst} (c : Nat) (h : b.late = true) : d.markLate c b = d := if_pos h

theorem Dev.markLate_first {d : Dev} {b : Burst} (c : Nat) (h : b.late = false) :
    d.markLate c b = ((d.updDrc c (fun y => { y with bursts := y.bursts.map (fun (x : Burst) =>
      if x.id = b.id then { x with late := true } else x) })).bump (R.DRC_LATE_CNT c b.port) 1).occur Ev.LATENCY_LATE
        (c + 2 * b.port) 1 := by
  simp [Dev.markLate, h]

theorem runs_burstLate {s : State} {c i : Nat} {o : Option Burst} {d : Dev} (hup : Up s) (hc : c < 2) (hb : s.dev.burst? c i = o)
    (h : o.elim s.dev (s.dev.markLate c) = d) : Runs (.burstLate c i) s d := by
  refine runs_of_event hup hc rfl ?_
  rw [hb, ← h]
  cases o <;> rfl

/-! ## Timers of a channel (10 R295–R298, R310) -/

section
variable {d : Dev} {c r : Nat}

theorem Dev.refreshInterval_out (u : Nat) (hin : d.chIn c = false) : d.refreshInterval c u r = d := by
  simp [Dev.refreshInterval, Dev.chUp, hin]

theorem Dev.mr4_out (b : Bool) (hin : d.chIn c = false) : d.mr4 c r b = d := by simp [Dev.mr4, Dev.chUp, hin]

section
variable (hin : d.chIn c = true) (hr : r < d.ranks c)
include hin hr

theorem Dev.refreshInterval_in (u : Nat) :
    d.refreshInterval c u r = (d.updDrc c (fun y => { y with
      debt := (List.range 4).foldl (fun (m : SMap Nat) i => m.upd 0 (u + 2 * r + 4 * i) (· + 1)) y.debt })).refreshAll c := by
  simp [Dev.refreshInterval, Dev.chUp, hin, Nat.not_le.mpr hr]

theorem Dev.mr4_changed {b : Bool} (hb : hasBit (d.get (R.DRC_STATUS_REF_2X c)) r ≠ b) :
    d.mr4 c r b = (d.set (R.DRC_STATUS_REF_2X c) (setMask (d.get (R.DRC_STATUS_REF_2X c)) r b)).raise Ev.REFRESH_RATE
      (c + 2 * r + 4 * (if b then 1 else 0)) := by
  simp [Dev.mr4, Dev.chUp, hin, Nat.not_le.mpr hr, hb]

end

end

section
variable {s : State} {c : Nat} {d : Dev} (hup : Up s) (hc : c < 2)
include hup hc

theorem runs_refreshInterval {u r : Nat} (hu : u < 2) (hr : r < 2) (h : s.dev.refreshInterval c u r = d) :
    Runs (.refreshInterval c u r) s d :=
  runs_of_onDevIf hup (by simp [hc, hu, hr]) rfl h

theorem runs_mr4Poll {r : Nat} {b : Bool} (hr : r < 2) (h : s.dev.mr4 c r b = d) : Runs (.mr4Poll c r b) s d :=
  runs_of_onDevIf hup (by simp [hc, hr]) rfl h

theorem runs_pageIdleExpiry_idle {k : Nat} (hk : k < 128) (hb : (s.dev.drc c).bursts = []) :
    Runs (.pageIdleExpiry c k) s (s.dev.precharge c k) :=
  runs_of_onDevIf hup (by simp [hc, hk]) rfl (by simp [hb])

theorem runs_powerDownTimer_cold {r : Nat} (hr : r < 2) (hb : (s.dev.drc c).bursts = []) (hin : s.dev.chIn c = true)
    (hcold : hasBit (s.dev.coldEffective c) r = true) :
    Runs (.powerDownTimer c r) s (s.dev.set (R.DRC_PD_STATUS_IN_PD c) (orBit (s.dev.get (R.DRC_PD_STATUS_IN_PD c)) r)) :=
  runs_of_onDevIf hup (by simp [hc, hr]) rfl (by simp [hb, Dev.chUp, hin, hcold])

theorem runs_powerDownTimer_not_cold {r : Nat} (hr : r < 2) (hcold : hasBit (s.dev.coldEffective c) r = false) :
    Runs (.powerDownTimer c r) s s.dev :=
  runs_of_onDevIf hup (by simp [hc, hr]) rfl (by simp [hcold])

end

end Sys2Proof.Machine

open Sys2Proof Sys2Proof.Machine

/-- Settles O29: a request by whether its channel takes it; the end of a burst by whether the scheduler issues it; a timer by whether its
channel is in service. -/
theorem dramTraffic : Obligations.DramTraffic := by
  unfold Obligations.DramTraffic
  refine ⟨fun s p x n w l hup hp hn hx hw hr => ⟨fun hbad => ?refused, fun hin hfit => ?waits⟩,
    fun s c i b hup hc hb => ⟨fun hheld => ?held, fun d1 d2 r hq hst hnow h1 h2 hr => ?issued, fun hl => ?lateAgain, fun hl => ?late⟩,
    fun s c i hup hc hb => ⟨?noBurst, ?noBurstLate⟩, fun s c u r hup hc hu hr hin hfit => ?refresh,
    fun s c u r b hup hc hu hr hin => ⟨?refreshOut, ?pollOut⟩, fun s c r b hup hc hr hin hfit hb => ?poll,
    fun s c k hup hc hk hb => ⟨runs_pageIdleExpiry_idle hup hc hk hb, fun r hr hin hcold => runs_powerDownTimer_cold hup hc hr hb hin hcold,
      fun r hr hcold => runs_powerDownTimer_not_cold hup hc hr hcold⟩⟩
  case refused => exact runs_dramRequest hup hp hn hx hw hr (Dev.takeBurst_refused hbad)
  case waits => exact runs_dramRequest hup hp hn hx hw hr (Dev.takeBurst_waits hin hfit)
  case held => exact gives_dramBurstComplete hup hc (burstDone_held s.mem hb hheld)
  case issued =>
    have hdone := burstDone_issued s.mem hb hq hst hnow h1 h2 hr
    have hgives := gives_dramBurstComplete hup hc hdone
    exact hgives
  case lateAgain => exact runs_burstLate hup hc hb (Dev.markLate_late c hl)
  case late => exact runs_burstLate hup hc hb (Dev.markLate_first c hl)
  case noBurst => exact gives_dramBurstComplete hup hc (burstDone_none s.mem hb)
  case noBurstLate => exact runs_burstLate hup hc hb rfl
  case refresh => exact runs_refreshInterval hup hc hu hr (Dev.refreshInterval_in hin hfit u)
  case refreshOut => exact runs_refreshInterval hup hc hu hr (Dev.refreshInterval_out u hin)
  case pollOut => exact runs_mr4Poll hup hc hr (Dev.mr4_out b hin)
  case poll => exact runs_mr4Poll hup hc hr (Dev.mr4_changed hin hfit hb)

end

-- What a command that reaches one block may touch (11 R317–R322, 17 R453, 19 R487, 20 R511).
section
/-! PROOFS. The shared shapes of a command's effect leave the queue, and each the parts of the state it is not given: test port, DRAM,
non-volatile memory. So does every command that reaches one block. -/

namespace Sys2Proof.Machine

open Sys2Proof

/-! ## Parts of the state -/

/-- From `s` to `t` the queue stays; the test port may change where `onTap` holds, DRAM where `onMem` holds, keeper, flash and fuses where
`onNv` holds. -/
structure Touches (onTap onMem onNv : Bool) (s t : State) : Prop where
  pending : t.pending = s.pending
  tap : onTap = false → t.tap = s.tap
  mem : onMem = false → t.mem = s.mem
  nv : onNv = false → t.nv = s.nv

/-- The state that an outcome answers, if any, differs from `s` in no other parts than those named. -/
def Confined (onTap onMem onNv : Bool) (s : State) : Out → Prop
  | .next t => Touches onTap onMem onNv s t
  | _ => True

section
variable {a b c : Bool} {s t u : State}

theorem Touches.refl : Touches a b c s s := ⟨rfl, fun _ => rfl, fun _ => rfl, fun _ => rfl⟩

theorem Touches.trans (h : Touches a b c s t) (k : Touches a b c t u) : Touches a b c s u :=
  ⟨k.pending.trans h.pending, fun x => (k.tap x).trans (h.tap x), fun x => (k.mem x).trans (h.mem x), fun x => (k.nv x).trans (h.nv x)⟩

/-- What may touch fewer parts may touch more. -/
theorem Touches.all_blocks (h : Touches a b c s t) : Touches a true true s t := ⟨h.pending, h.tap, nofun, nofun⟩

theorem Touches.dev (d : Dev) : Touches a b c s { s with dev := d } := ⟨rfl, fun _ => rfl, fun _ => rfl, fun _ => rfl⟩

theorem Touches.devMem (d : Dev) (m : Mem) : Touches a true c s { s with dev := d, mem := m } :=
  ⟨rfl, fun _ => rfl, nofun, fun _ => rfl⟩

theorem Touches.devNv (d : Dev) (v : NonVol) : Touches a b true s { s with dev := d, nv := v } :=
  ⟨rfl, fun _ => rfl, fun _ => rfl, nofun⟩

theorem Touches.devTap (d : Dev) (x : Tap) : Touches true b c s { s with dev := d, tap := x } :=
  ⟨rfl, nofun, fun _ => rfl, fun _ => rfl⟩

theorem Touches.devMemNv (d : Dev) (m : Mem) (v : NonVol) : Touches a true true s { s with dev := d, mem := m, nv := v } :=
  ⟨rfl, fun _ => rfl, nofun, nofun⟩

theorem Touches.ite {p : Prop} [Decidable p] (ht : Touches a b c s t) (hu : Touches a b c s u) : Touches a b c s (if p then t else u) := by
  split
  · exact ht
  · exact hu

theorem Confined.ite {p : Prop} [Decidable p] {x y : Out} (hx : Confined a b c s x) (hy : Confined a b c s y) :
    Confined a b c s (if p then x else y) := by
  split
  · exact hx
  · exact hy

/-- An outcome from `s` with another device. -/
theorem Confined.of_dev {d : Dev} {o : Out} (h : Confined a b c { s with dev := d } o) : Confined a b c s o := by
  cases o with
  | next t => exact (Touches.dev d).trans h
  | fault r => trivial
  | refused r => trivial

theorem Confined.next {o : Out} (h : Confined a b c s o) (ho : o = .next t) : Touches a b c s t := by rwa [ho] at h

/-! ## Shapes of a command's effect -/

theorem confined_onDev (f : Dev → Dev) : Confined a b c s (onDev f s) := Touches.dev _

theorem confined_onDevIf (ok : Bool) (f : Dev → Dev) : Confined a b c s (onDevIf ok f s) := .ite (.dev _) trivial

theorem confined_onPin (ok : Bool) (f : Dev → Dev) : Confined a b c s (onPin ok f s) := .ite (.dev _) trivial

theorem confined_onDevMemIf (ok : Bool) (f : Dev → Mem → Dev × Mem) : Confined a true c s (onDevMemIf ok f s) :=
  .ite (Touches.ite (.devMem _ _) .refl) trivial

/-- An effect that leaves DRAM as it was. -/
theorem confined_onDevMemIf_of_mem (ok : Bool) {f : Dev → Mem → Dev × Mem} (hf : ∀ d m, (f d m).2 = m) :
    Confined a b c s (onDevMemIf ok f s) :=
  .ite (Touches.ite ⟨rfl, fun _ => rfl, fun _ => hf _ _, fun _ => rfl⟩ .refl) trivial

theorem confined_onHostMemIf_of_mem (ok : Bool) {f : Dev → Mem → Dev × Mem} (hf : ∀ d m, (f d m).2 = m) :
    Confined a b c s (onHostMemIf ok f s) :=
  confined_onDevMemIf_of_mem ok fun d m => by
    split
    · rfl
    · exact hf d m

theorem confined_onDevNv (f : Dev → NonVol → Dev × NonVol) : Confined a b true s (onDevNv f s) := Touches.ite (.devNv _ _) .refl

/-- An effect that leaves keeper, flash and fuses as they were. -/
theorem confined_onDevNv_of_nv {f : Dev → NonVol → Dev × NonVol} (hf : ∀ d v, (f d v).2 = v) : Confined a b c s (onDevNv f s) :=
  Touches.ite ⟨rfl, fun _ => rfl, fun _ => rfl, fun _ => hf _ _⟩ .refl

theorem confined_onHostNv (f : Dev → NonVol → Dev × NonVol) : Confined a b true s (onHostNv f s) := confined_onDevNv _

theorem confined_onHostNv_of_nv {f : Dev → NonVol → Dev × NonVol} (hf : ∀ d v, (f d v).2 = v) : Confined a b c s (onHostNv f s) :=
  confined_onDevNv_of_nv fun d v => by
    split
    · rfl
    · exact hf d v

theorem confined_onDevKeep (ok : Bool) (f : Dev → Dev) : Confined a b true s (onDevKeep ok f s) :=
  .ite (Touches.ite (.devNv _ _) .refl) trivial

theorem confined_onHostKeep (ok : Bool) (f : Dev → Dev) : Confined a b true s (onHostKeep ok f s) := confined_onDevKeep ok _

theorem confined_onTap (f : Tap → Bool → Tap) : Confined true b c s (onTap f s) :=
  Touches.ite .refl ⟨rfl, nofun, fun _ => rfl, fun _ => rfl⟩

/-- Host writes that land write DRAM. -/
theorem confined_landed {o : Out} (h : Confined a true c s o) : Confined a true c s (landed o) := by
  cases o with
  | next t => exact Touches.trans h (.devMem _ _)
  | fault r => trivial
  | refused r => trivial

theorem hostState_touches {f : State → State} (hf : Touches a b c s (f s)) : Touches a b c s (hostState f s) :=
  .ite .refl (.ite (.dev _) hf)

/-- A test command touches what its effect touches. -/
theorem testCmd_touches {f : Nat → Nat → State → State} (hf : ∀ m w, Touches a b c s (f m w s)) : Touches a b c s (testCmd f s) :=
  .ite (.dev _) (.ite (.dev _) (.ite (.dev _) (.ite (.dev _) ((hf _ _).trans (.dev _)))))

/-! ## Resets, start-up, keeper -/

theorem startUp_touches (env : BootEnv) : Touches a b true s (startUp env s) := .ite (.devNv _ _) .refl

theorem deviceReset_touches : Touches a true true s (deviceReset s) := .devMemNv _ _ _

theorem supplyFault_touches (rail : Nat) : Touches a true true s (supplyFault rail s) := .ite .refl (.devMemNv _ _ _)

theorem systemReset_touches : Touches a true true s (systemReset s) := .devMemNv _ _ _

/-! ## The end of a scrub, a test write -/

theorem scrubDone_touches (handled : Nat) : Touches a true c s (scrubDone handled s) := by
  unfold scrubDone
  split
  · exact .refl
  · split
    · exact .refl
    · exact .devMem _ _

theorem testWrite_touches (m w : Nat) : Touches a true c s (testWrite m w s) := .ite ⟨rfl, fun _ => rfl, nofun, fun _ => rfl⟩ (.dev _)

end

/-! ## Commands that only read flash or start a task -/

/-- A SAVE reads the flash; what it writes, STORE_SAVED writes (16 R444). -/
theorem storeSave_nv (d : Dev) (v : NonVol) : (storeSave d v).2 = v := by
  unfold storeSave storeCmd
  dsimp only
  split
  · rfl
  · split
    · rfl
    · split <;> rfl

theorem storeLoad_nv (d : Dev) (v : NonVol) : (storeLoad d v).2 = v := by
  unfold storeLoad storeCmd
  dsimp only
  split
  · rfl
  · split
    · rfl
    · split
      · rfl
      · split <;> rfl

theorem updVerify_nv (d : Dev) (v : NonVol) : (updVerify d v).2 = v := by
  unfold updVerify updCmd
  split
  · rfl
  · split
    · rfl
    · split <;> rfl

/-! ## Commands that reach one block -/

section
variable (s : State)

theorem confined_set (servo : Bool) (sec ns : Nat) : Confined false false true s (exec (.set servo sec ns) s) :=
  .ite Touches.refl (.ite (Touches.dev _) (.ite (Touches.dev _) (.ite (Touches.devNv _ _) (Touches.dev _))))

theorem confined_eventLogWrite : Confined false false true s (exec .eventLogWrite s) := by
  change Confined false false true s (execEventLogWrite s)
  unfold execEventLogWrite
  split
  · exact Touches.refl
  · exact Touches.refl
  · exact Touches.devNv _ _

theorem confined_porstAssert : Confined true true true s (exec .porstAssert s) := by
  have hreset : Touches true true true s (if s.dev.dstate = .keep then s else deviceReset s) := .ite .refl deviceReset_touches
  exact hreset.trans (.devTap _ _)

theorem confined_porstRelease (env : BootEnv) : Confined true false true s (exec (.porstRelease env) s) := by
  have hcause : Touches true false true s (if s.dev.pwr.porst && s.dev.dstate != .keep then s.cause 0 else s) :=
    .ite (.devNv _ _) .refl
  have hrelease := fun d x => hcause.trans (.devTap d x)
  exact Touches.ite ((hrelease _ _).trans (startUp_touches env)) (hrelease _ _)

end

/-- A command that reaches one block touches the test port, DRAM and non-volatile memory only as its class says. -/
theorem confined_exec_of_not_wide (c : Instr) (s : State) (hw : c.wide = false) :
    Confined c.onTap c.onDram c.onKept s (exec c s) := by
  cases c
  case registerWrite | upperWordWrite | lowerWordRead | rocRead | devMbxDoorbell | bar0ValueAccess | bar4ValueAccess | sessionOpen
    | sessionClose | elevate | keepalive | read | write | info | netFrameReceived => exact Bool.noConfusion hw
  case posSrcChange | restoreKeep | plan | lasValidate | fillIdentity | lasHoldClr | inject | dosValidate | recPush | flush | cntLoad
    | cmpValidate | glyphCommit | wellDefine | wellOpen | wellRelease | wellSeal | enqueue | abort | swapCancel | resume | fabCmdMerge
    | fabCmdAnchor | swap | clear | restore | scrub | fill | eccAbort | netMdioAccess | calAdc | bist | calAbort
    | predictionWindowEnd | lasValidateDone | remapCopyDone | doseLineStart | dosValidateDone | correctionCopyDone | renderStart
    | cmpValidateDone | resumeReady | timNowRead | helloPeriod | formTimeout | interval1ms | posPeriod | posTimeout | timePeriod | bar4Write
    | sealComplete | dmaBurstIssue | stepRetry | announce | announceReceiptTimeout | sync | followUp | delayReq | delayResp | pdelayReq
    | pdelayResp | pdelayRespFollowUp | tsTxPop | phyPoll | arp | arpExpiry | icmpEcho | calDone | bistDone | bandgapCheck | dieTempChange
    | updEraseDone | updVerified | revert | pwrDomOn | pwrDomOff | pwrWdtKick | arm | run | disarm | stop | sessionTimeout =>
    exact confined_onDev _
  case encoderCheckFail | zRisingEdge | engineStagingFreed | doseBeat | renderCompareDone | lineFrameSend | credit | echo | status
    | statusTimeout | cmdRsp | cmdTimeout | hello | helloTimeout | lsa | assign | report | ready | merge | anchor | swapReq | swapPrep
    | swapVote | swapDecide | blockReceived | amReceived | trainBlockReceived | pllLocked | trainTimeout | laneLoss | eiEnterReceived
    | signalDetected | loopTimeExpiry | pulseEnd | triggerAccept | trigIssue | time | item | burstLate | refreshInterval | mr4Poll
    | pageIdleExpiry | powerDownTimer | refillDone | bandWalkDone | sliceLineDone | ptpMessageInterval | drainTimeout | domainOn
    | ping | statusReq | elemCheck | setParam | getParam | clearFault | elemCancel | train | eiEnter | eiExit | loopStart | loopStop
    | fpTrain | fpLoopStart | fpLoopStop | retrain | freq | crcLoad | crcData | crcData8 | dmaStart | dmaPause | dmaResume | dmaStop
    | dramRequest => exact confined_onDevIf _ _
  case triggerEdge | inhibitAsserted | inhibitReleased | perstAssert | perstRelease => simp only [exec]; exact confined_onPin _ _
  case itemDecided | pos | verdict => simp only [exec]; exact confined_onDevKeep _ _
  case load | restoreLoad => simp only [exec]; exact confined_onHostKeep _ _
  case extest | idcode | samplePreload | clamp | highz | bypass => simp only [exec]; exact confined_onTap _
  case storeSaved | erase | mgmt | watchdogExpiry => simp only [exec]; exact confined_onDevNv _
  case updBegin | updBlock | updActivate | updCancel => simp only [exec]; exact confined_onHostNv _
  case save => exact confined_onDevNv_of_nv storeSave_nv
  case storeLoad => exact confined_onDevNv_of_nv storeLoad_nv
  case updVerify => exact confined_onHostNv_of_nv updVerify_nv
  case cmprStart | cmprAbort => simp only [exec]; exact confined_onHostMemIf_of_mem _ fun _ _ => rfl
  case spillWriteDone | dmaBurstDone | compressorInput | compressorBlockDone => simp only [exec]; exact confined_onDevMemIf _ _
  case dramBurstComplete | vddqFault => exact confined_landed (confined_onDevMemIf _ _)
  case trainDone | freqDone | domainOff => exact confined_landed (confined_onDevIf _ _)
  case set servo sec ns => exact confined_set s servo sec ns
  case eventLogWrite => exact confined_eventLogWrite s
  case keeperWrite => exact Touches.devNv _ _
  case trst => exact ⟨rfl, nofun, fun _ => rfl, fun _ => rfl⟩
  case bar0UnalignedAccess write addr => cases write <;> exact Touches.ite (.dev _) .refl
  case step | timAdjWrite => exact .ite (confined_onDev _) (confined_onDev _)
  case positionUpdate => exact .ite (confined_onDevKeep _ _) (confined_onPin _ _)
  case bar2Write => exact .ite (Touches.devMem _ _) Touches.refl
  case scrubDone handled => exact Touches.ite (scrubDone_touches handled) .refl
  case testWrite => exact hostState_touches (testCmd_touches fun m w => testWrite_touches m w)
  case testRead => exact hostState_touches (testCmd_touches (f := testRead) fun _ _ => .dev _)
  case testGen => exact hostState_touches (testCmd_touches (f := testGen) fun _ _ => .dev _)
  case porstAssert => exact confined_porstAssert s
  case porstRelease env => exact confined_porstRelease s env
  case clockFailure => exact .ite Touches.refl (Touches.devMemNv _ _ _)
  case mainPowerLoss => exact Touches.devMemNv _ _ _
  case supplyFault rail => exact .ite (supplyFault_touches rail) trivial
  case keeperSupplyLow | keeperPowerUp => exact .ite (Touches.devNv _ _) Touches.refl
  case railsBackInRange env => exact Touches.ite (.trans (.devNv _ _) (startUp_touches env)) (.devNv _ _)
  case sysclkInRestored env => exact .ite (Touches.trans (.dev _) (startUp_touches env)) Touches.refl
  case system force env => exact .ite Touches.refl (.ite (systemReset_touches.trans (startUp_touches env)) (Touches.dev _))

end Sys2Proof.Machine
end

-- What any command may touch: the commands that reach any block as well (16 R424–R452), and the statement over all of them.
section
/-! PROOFS. What command words, the bus, objects, requests and network frames run leaves the queue of the commands that wait and the test port. -/

namespace Sys2Proof.Machine

open Sys2Proof

/-- The commands that wait, and the test port: what no command of the host or of the network reaches. -/
def State.queueTap (s : State) : List Instr × Tap := (s.pending, s.tap)

/-- An effect on the whole state leaves queue and test port. -/
def KeepsQueueTap (f : State → State) : Prop := ∀ s : State, (f s).queueTap = s.queueTap

theorem Touches.queueTap {b c : Bool} {s t : State} (h : Touches false b c s t) : t.queueTap = s.queueTap :=
  Prod.ext h.pending (h.tap rfl)

theorem touches_of_queueTap {s t : State} (h : t.queueTap = s.queueTap) : Touches false true true s t :=
  ⟨congrArg Prod.fst h, fun _ => congrArg Prod.snd h, nofun, nofun⟩

theorem queueTap_ite {p : Prop} [Decidable p] {s t u : State} (ht : t.queueTap = s.queueTap) (hu : u.queueTap = s.queueTap) :
    (if p then t else u).queueTap = s.queueTap := by
  split
  · exact ht
  · exact hu

/-- An effect on the device alone. -/
theorem keepsQueueTap_dev (f : Dev → Dev) : KeepsQueueTap (fun s => { s with dev := f s.dev }) := fun _ => rfl

/-! ## Command words -/

/-- A command, run on any state, leaves queue and test port. -/
def LeavesQueueTap (f : State → Out) : Prop := ∀ s : State, Confined false true true s (f s)

theorem Confined.all_blocks {a b c : Bool} {s : State} {o : Out} (h : Confined a b c s o) : Confined a true true s o := by
  cases o with
  | next t => exact Touches.all_blocks h
  | fault r => trivial
  | refused r => trivial

theorem leavesQueueTap_exec {c : Instr} (hw : c.wide = false) (ht : c.onTap = false) : LeavesQueueTap (exec c) := fun s => by
  have h := (confined_exec_of_not_wide c s hw).all_blocks
  rwa [ht] at h

theorem leavesQueueTap_of_mem_execs (cs : List Instr) (hc : cs.all (fun c => !c.wide && !c.onTap) = true) :
    ∀ f ∈ cs.map exec, LeavesQueueTap f := by
  intro f hf
  obtain ⟨c, hcs, rfl⟩ := List.mem_map.1 hf
  have hclass : c.wide = false ∧ c.onTap = false := by simpa using List.all_eq_true.1 hc c hcs
  exact leavesQueueTap_exec hclass.1 hclass.2

theorem after_keepsQueueTap {f : State → Out} (hf : LeavesQueueTap f) : KeepsQueueTap (after f) := by
  intro s
  unfold after
  split
  next ht => exact ((hf s).next ht).queueTap
  next => rfl

theorem runBits_keepsQueueTap (v : Nat) {l : List (State → Out)} (hl : ∀ f ∈ l, LeavesQueueTap f) : KeepsQueueTap (runBits v l) := by
  intro s
  refine List.foldlRecOn (motive := fun t : State => t.queueTap = s.queueTap) _ _ rfl fun t ht e he => ?_
  split
  · exact (after_keepsQueueTap (hl e.1 (List.fst_mem_of_mem_zipIdx he)) t).trans ht
  · exact ht

theorem runOp_keepsQueueTap (op : Nat) {l : List (State → Out)} (hl : ∀ f ∈ l, LeavesQueueTap f) : KeepsQueueTap (runOp op l) := by
  intro s
  unfold runOp
  split
  · rfl
  · split
    next hf => exact after_keepsQueueTap (hl _ (List.mem_of_mem_drop (List.mem_of_mem_head? hf))) s
    next => rfl

theorem jobWord_keepsQueueTap (op : Nat) : KeepsQueueTap (jobWord op) := fun s =>
  runOp_keepsQueueTap op (leavesQueueTap_of_mem_execs [.wellDefine _ _ _ _, .wellOpen _, .wellSeal _, .wellRelease _,
    .enqueue _ _ _ _ _ _, .abort _, .swap _ _ _ _, .swapCancel, .resume _] rfl) s

theorem timWord_keepsQueueTap (op : Nat) : KeepsQueueTap (timWord op) := fun s =>
  runOp_keepsQueueTap op (leavesQueueTap_of_mem_execs [.set _ _ _, .step _ _] rfl) s

theorem resetWord_keepsQueueTap (v : Nat) : KeepsQueueTap (resetWord' v) := fun s =>
  queueTap_ite rfl (queueTap_ite (after_keepsQueueTap (leavesQueueTap_exec (c := .mgmt) rfl rfl) s)
    (queueTap_ite (queueTap_ite (systemReset_touches (a := false)).queueTap rfl) rfl))

theorem mdioWord_keepsQueueTap (v : Nat) : KeepsQueueTap (mdioWord v) := fun _ =>
  after_keepsQueueTap (leavesQueueTap_exec (c := .netMdioAccess _ _) rfl rfl) _

theorem dmaWord_keepsQueueTap (n op : Nat) : KeepsQueueTap (dmaWord n op) := fun s =>
  queueTap_ite rfl (runOp_keepsQueueTap op (leavesQueueTap_of_mem_execs [.dmaStart n false, .dmaPause n, .dmaResume n, .dmaStop n] rfl) s)

theorem crcWord_keepsQueueTap (u v : Nat) : KeepsQueueTap (crcWord u v) := fun s =>
  queueTap_ite (after_keepsQueueTap (leavesQueueTap_exec (c := .crcLoad u) rfl rfl) s) rfl

theorem flashWord_keepsQueueTap {f : Bool → State → Out} (hf : ∀ b, LeavesQueueTap (f b)) : KeepsQueueTap (flashWord f) := fun _ =>
  after_keepsQueueTap (hf _) _

theorem updWord_keepsQueueTap (op : Nat) : KeepsQueueTap (updWord op) := by
  intro s
  unfold updWord
  split
  · exact after_keepsQueueTap (leavesQueueTap_exec (c := .updBegin) rfl rfl) s
  · exact flashWord_keepsQueueTap (fun b => leavesQueueTap_exec (c := .updBlock b) rfl rfl) s
  · exact after_keepsQueueTap (leavesQueueTap_exec (c := .updVerify) rfl rfl) s
  · exact flashWord_keepsQueueTap (fun b => leavesQueueTap_exec (c := .updActivate b) rfl rfl) s
  · exact flashWord_keepsQueueTap (fun b => leavesQueueTap_exec (c := .updCancel b) rfl rfl) s
  · rfl

theorem storeWord_keepsQueueTap (op : Nat) : KeepsQueueTap (storeWord op) := by
  intro s
  unfold storeWord
  split
  · exact after_keepsQueueTap (leavesQueueTap_exec (c := .save) rfl rfl) s
  · exact after_keepsQueueTap (leavesQueueTap_exec (c := .storeLoad) rfl rfl) s
  · exact flashWord_keepsQueueTap (fun b => leavesQueueTap_exec (c := .erase b) rfl rfl) s
  · rfl

theorem leavesQueueTap_mergeByWrite (port : Nat) : LeavesQueueTap (mergeByWrite port) := fun _ =>
  (leavesQueueTap_exec (c := .fabCmdMerge port _) rfl rfl _).of_dev

theorem cmdFixed_keepsQueueTap {a v : Nat} {f : State → State} (hf : cmdFixed a v = some f) : KeepsQueueTap f := by
  unfold cmdFixed at hf
  split at hf <;> cases hf
  · exact runOp_keepsQueueTap _ (leavesQueueTap_of_mem_execs [.arm, .run, .disarm, .stop] rfl)
  · exact runBits_keepsQueueTap _ (leavesQueueTap_of_mem_execs [.revert] rfl)
  · exact storeWord_keepsQueueTap _
  · exact fun _ => rfl
  · exact runOp_keepsQueueTap _ (leavesQueueTap_of_mem_execs [.pwrDomOn _, .pwrDomOff _] rfl)
  · exact resetWord_keepsQueueTap v
  · exact after_keepsQueueTap (leavesQueueTap_exec (c := .pwrWdtKick) rfl rfl)
  · exact fun _ => rfl
  · exact fun _ => rfl
  · exact runOp_keepsQueueTap _ (leavesQueueTap_of_mem_execs [.clear, .restore] rfl)
  · exact runBits_keepsQueueTap _ (leavesQueueTap_of_mem_execs [.load, .restoreKeep, .restoreLoad] rfl)
  · exact jobWord_keepsQueueTap _
  · exact runBits_keepsQueueTap _ (leavesQueueTap_of_mem_execs [.cmpValidate, .flush, .glyphCommit, .cntLoad] rfl)
  · exact after_keepsQueueTap (leavesQueueTap_exec (c := .recPush _) rfl rfl)
  · exact runBits_keepsQueueTap _ (leavesQueueTap_of_mem_execs [.dosValidate] rfl)
  · exact runBits_keepsQueueTap _ (leavesQueueTap_of_mem_execs [.inject] rfl)
  · exact runBits_keepsQueueTap _ (leavesQueueTap_of_mem_execs [.lasValidate, .plan, .fillIdentity] rfl)
  · exact fun _ => runBits_keepsQueueTap _ (leavesQueueTap_of_mem_execs [.lasHoldClr] rfl) _
  · exact runOp_keepsQueueTap _
      (List.forall_mem_cons.2 ⟨leavesQueueTap_mergeByWrite _, leavesQueueTap_of_mem_execs [.fabCmdAnchor _] rfl⟩)
  · exact runOp_keepsQueueTap _ (leavesQueueTap_of_mem_execs [.scrub, .fill, .eccAbort, .testWrite, .testRead, .testGen] rfl)
  · exact timWord_keepsQueueTap _
  · exact mdioWord_keepsQueueTap v
  · exact runOp_keepsQueueTap _ (leavesQueueTap_of_mem_execs [.calAdc, .bist, .calAbort] rfl)
  · exact updWord_keepsQueueTap _

/-- One place of a chain of command words: the effect found there, or the rest of the chain. -/
theorem keepsQueueTap_of_ite_some {p : Prop} [Decidable p] {f g : State → State} {o : Option (State → State)} (hg : KeepsQueueTap g)
    (ho : o = some f → KeepsQueueTap f) (hf : (if p then some g else o) = some f) : KeepsQueueTap f := by
  split at hf
  · exact Option.some.inj hf ▸ hg
  · exact ho hf

theorem cmdArray_keepsQueueTap {a v : Nat} {f : State → State} (hf : cmdArray a v = some f) : KeepsQueueTap f := by
  revert hf
  refine keepsQueueTap_of_ite_some (runBits_keepsQueueTap _ (leavesQueueTap_of_mem_execs [.cmprStart _, .cmprAbort _] rfl)) ?_
  refine keepsQueueTap_of_ite_some (runBits_keepsQueueTap _ (leavesQueueTap_of_mem_execs [.train _, .eiEnter _, .eiExit _, .loopStart _,
    .loopStop _] rfl)) ?_
  refine keepsQueueTap_of_ite_some (runOp_keepsQueueTap _ (leavesQueueTap_of_mem_execs [.ping _, .statusReq _, .elemCheck _, .setParam _,
    .getParam _, .clearFault _, .elemCancel _] rfl)) ?_
  refine keepsQueueTap_of_ite_some (runOp_keepsQueueTap _ (leavesQueueTap_of_mem_execs [.fpTrain _, .fpLoopStart _, .fpLoopStop _] rfl)) ?_
  refine keepsQueueTap_of_ite_some (runOp_keepsQueueTap _ (leavesQueueTap_of_mem_execs [.retrain _ _, .freq _ _] rfl)) ?_
  refine keepsQueueTap_of_ite_some (dmaWord_keepsQueueTap _ _) ?_
  refine keepsQueueTap_of_ite_some (after_keepsQueueTap (leavesQueueTap_exec (c := .crcData _ _) rfl rfl)) ?_
  refine keepsQueueTap_of_ite_some (after_keepsQueueTap (leavesQueueTap_exec (c := .crcData8 _ _) rfl rfl)) ?_
  exact keepsQueueTap_of_ite_some (crcWord_keepsQueueTap _ _) nofun

theorem cmdWord_keepsQueueTap {a v : Nat} {f : State → State} (hf : cmdWord a v = some f) : KeepsQueueTap f := by
  rcases Option.or_eq_some_iff.1 hf with hf | ⟨-, hf⟩
  · exact cmdFixed_keepsQueueTap hf
  · exact cmdArray_keepsQueueTap hf

/-! ## Accesses of the bus -/

theorem busWrite_keepsQueueTap (a v : Nat) : KeepsQueueTap (busWrite a v) := by
  intro s
  unfold busWrite
  refine queueTap_ite rfl ?_
  split
  · rfl
  · split
    next hf => exact queueTap_ite (cmdWord_keepsQueueTap hf s) rfl
    next => rfl

theorem busRead_queueTap (a : Nat) (s : State) : (busRead a s).2.queueTap = s.queueTap := by
  unfold busRead
  split <;> rfl

theorem bar0Put_keepsQueueTap (v : Nat) : KeepsQueueTap (bar0Put v) := fun s => queueTap_ite (busWrite_keepsQueueTap _ v s) rfl

theorem bar0Get_queueTap (s : State) : (bar0Get s).2.queueTap = s.queueTap := by
  unfold bar0Get
  dsimp only
  split
  · exact busRead_queueTap _ s
  · rfl

theorem bar4Put_keepsQueueTap (v : Nat) : KeepsQueueTap (bar4Put v) := fun _ => queueTap_ite rfl rfl

theorem bar4Get_queueTap (s : State) : (bar4Get s).2.queueTap = s.queueTap := by
  unfold bar4Get
  dsimp only
  split
  · split <;> rfl
  · rfl

/-! ## Objects -/

theorem cmdRun_keepsQueueTap (k : ObjCmd) (i : Nat) (l : List Byte) : KeepsQueueTap (cmdRun k i l) := by
  intro s
  unfold cmdRun
  split
  · exact flashWord_keepsQueueTap (fun _ _ => confined_onDevNv _) s |>.trans rfl
  · rfl
  · dsimp only
    split
    next hf => exact cmdWord_keepsQueueTap hf _
    next => rfl

theorem itemPut_queueTap (r : ObjRow) (i : Nat) (w : IopItem) (s : State) : (itemPut r i w s).2.queueTap = s.queueTap := by
  unfold itemPut
  dsimp only
  split
  · exact cmdRun_keepsQueueTap _ i w.val s
  · split <;> rfl
  · exact bar0Put_keepsQueueTap _ s
  · exact bar4Put_keepsQueueTap _ s
  · exact mdioWord_keepsQueueTap _ s
  · rfl

theorem itemGet_queueTap (r : ObjRow) (i : Nat) (w : IopItem) (n : Nat) (s : State) : (itemGet r i w n s).2.queueTap = s.queueTap := by
  unfold itemGet
  split
  · rfl
  · split <;> rfl
  · exact bar0Get_queueTap s
  · exact bar4Get_queueTap s
  · rfl

theorem readOne_queueTap (expert : Bool) (room : Nat) (w : IopItem) (s : State) : (readOne expert room w s).2.queueTap = s.queueTap := by
  unfold readOne
  dsimp only
  split
  next r i _ =>
    split
    · rfl
    · have hg := itemGet_queueTap r i w (min w.len (room / 4 * 4)) s
      split <;> rename_i he <;> rwa [he] at hg
  next => rfl

theorem readAll_queueTap (expert : Bool) (left : Nat) (l : List IopItem) (s : State) : (readAll expert left l s).2.queueTap = s.queueTap := by
  induction l generalizing left s with
  | nil => rfl
  | cons w r ih =>
    have hw := readOne_queueTap expert (left - (r.map readNeeds).foldl (· + ·) 0 - 12) w s
    unfold readAll
    dsimp only
    split
    next he => rwa [he] at hw
    next a s1 he =>
      rw [he] at hw
      have hr := (ih (left - a.length) s1).trans hw
      split <;> rename_i hr' <;> rwa [hr'] at hr

theorem writeOne_queueTap (src : IopSrc) (id : Nat) (expert : Bool) (w : IopItem) (s : State) :
    (writeOne src id expert w s).2.queueTap = s.queueTap := by
  unfold writeOne
  dsimp only
  split
  next r i _ =>
    split
    · rfl
    · exact itemPut_queueTap r i w s
  next => rfl

theorem writeAll'_queueTap (src : IopSrc) (id : Nat) (expert : Bool) (l : List IopItem) (s : State) :
    (writeAll' src id expert l s).2.queueTap = s.queueTap := by
  induction l generalizing s with
  | nil => rfl
  | cons w r ih => exact (ih _).trans (writeOne_queueTap src id expert w s)

theorem writeAtomic_queueTap (src : IopSrc) (id : Nat) (expert : Bool) (l : List IopItem) (s : State) :
    (writeAtomic src id expert l s).2.queueTap = s.queueTap := by
  unfold writeAtomic
  dsimp only
  split
  · rfl
  · split
    · rfl
    · exact writeAll'_queueTap src id expert l s

/-! ## Requests and what is served -/

theorem doRequest_queueTap (src : IopSrc) (x : Session) (m : IopMsg) (l : List IopItem) (s : State) :
    (doRequest src x m l s).2.queueTap = s.queueTap := by
  unfold doRequest
  dsimp only
  split
  · rfl
  · rfl
  · rfl
  · have hr := readAll_queueTap x.expert (src.limit - 16) l s
    split <;> rename_i he <;> rwa [he] at hr
  · split
    · exact writeAtomic_queueTap src x.id x.expert l s
    · exact writeAll'_queueTap src x.id x.expert l s
  · rfl

theorem sessionRequest_queueTap (src : IopSrc) (x : Session) (m : IopMsg) (l : List IopItem) (s : State) :
    (sessionRequest src x m l s).2.queueTap = s.queueTap := by
  unfold sessionRequest
  split
  · have hr := doRequest_queueTap src x m l { s with dev := s.dev.noteRequest src x.id m.seq [] }
    split
    next he =>
      rw [he] at hr
      split <;> exact hr
    next he =>
      rw [he] at hr
      exact hr
  · split <;> rfl

theorem iopHandle_queueTap (src : IopSrc) (m : IopMsg) (s : State) : (iopHandle src m s).2.queueTap = s.queueTap := by
  unfold iopHandle
  split
  · rfl
  · split
    · rfl
    · split
      · rfl
      · exact sessionRequest_queueTap _ _ m _ s

theorem serveBell_keepsQueueTap : KeepsQueueTap serveBell := by
  intro s
  unfold serveBell
  split
  · rfl
  · refine queueTap_ite rfl ?_
    dsimp only
    split
    · rfl
    next m _ =>
      have hr := iopHandle_queueTap .mbx m { s with dev := { s.dev with mgmt := { s.dev.mgmt with bell := none } } }
      split
      next he =>
        rw [he] at hr
        exact queueTap_ite hr hr
      next he =>
        rw [he] at hr
        exact hr

theorem udpRequest_keepsQueueTap (ip port : Nat) (m : IopMsg) : KeepsQueueTap (udpRequest ip port m) := by
  intro s
  have hr := iopHandle_queueTap (.udp ip port) m s
  refine queueTap_ite ?_ rfl
  split
  next he =>
    rw [he] at hr
    exact queueTap_ite hr hr
  next he => rwa [he] at hr

theorem udpMessage_keepsQueueTap (ip port : Nat) (l : List Byte) : KeepsQueueTap (udpMessage ip port l) := by
  intro s
  refine queueTap_ite rfl ?_
  split
  · rfl
  · exact udpRequest_keepsQueueTap ip port _ s

theorem udpRequestErr_keepsQueueTap (memErr : Option Nat) (ip port : Nat) (m : IopMsg) : KeepsQueueTap (udpRequestErr memErr ip port m) := by
  intro s
  cases memErr with
  | none => exact udpRequest_keepsQueueTap ip port m s
  | some n => exact queueTap_ite rfl rfl

/-! ## Frames of the management network -/

theorem udpIn_keepsQueueTap (t src dst : Nat) (u : List Byte) : KeepsQueueTap (udpIn t src dst u) := fun s =>
  queueTap_ite rfl (queueTap_ite rfl (queueTap_ite (udpMessage_keepsQueueTap src _ _ s) rfl))

theorem ipIn_keepsQueueTap (t mac : Nat) (p : List Byte) : KeepsQueueTap (ipIn t mac p) := by
  intro s
  refine queueTap_ite rfl ?_
  dsimp only
  split
  · exact queueTap_ite rfl rfl
  · exact udpIn_keepsQueueTap t _ _ _ _
  · rfl

theorem frameIn_keepsQueueTap (t : Nat) (l : List Byte) : KeepsQueueTap (frameIn t l) := by
  intro s
  unfold frameIn
  dsimp only
  split
  · exact ipIn_keepsQueueTap t _ _ s
  · rfl
  · rfl
  · rfl

theorem drainRx_keepsQueueTap : KeepsQueueTap drainRx := by
  intro s
  refine List.foldlRecOn (motive := fun t : State => t.queueTap = s.queueTap) _ _ rfl fun t ht e _ => ?_
  exact queueTap_ite ((frameIn_keepsQueueTap e.1 e.2 _).trans ht) ht

/-! ## Commands that reach any block -/

theorem hostAccess_keepsQueueTap {f : State → State} (hf : KeepsQueueTap f) : KeepsQueueTap (hostAccess f) := fun s =>
  queueTap_ite (hf s) rfl

/-- A read by the bus, by the host or by an object. -/
theorem readInto_keepsQueueTap {f : State → Nat × State} (hf : ∀ s, (f s).2.queueTap = s.queueTap) : KeepsQueueTap (readInto f) := hf

theorem alignedWrite_keepsQueueTap (a v : Nat) : KeepsQueueTap (fun s => if a % 4 = 0 then busWrite a v s else s) := fun s =>
  queueTap_ite (busWrite_keepsQueueTap a v s) rfl

theorem alignedRead_keepsQueueTap (a : Nat) : KeepsQueueTap (readInto (fun s => if a % 4 = 0 then busRead a s else (0, s))) := by
  refine readInto_keepsQueueTap fun s => ?_
  split
  · exact busRead_queueTap a s
  · rfl

theorem confined_served {f : State → State} (hf : KeepsQueueTap f) (s : State) : Confined false true true s (served f s) :=
  touches_of_queueTap ((serveBell_keepsQueueTap _).trans (hf s))

/-- A command that may reach any block leaves queue and test port. -/
theorem confined_exec_of_wide (c : Instr) (s : State) (hw : c.wide = true) : Confined false true true s (exec c s) := by
  cases c
  case registerWrite a v => exact confined_landed (confined_served (hostAccess_keepsQueueTap (alignedWrite_keepsQueueTap a _)) s)
  case upperWordWrite a v => exact confined_served (hostAccess_keepsQueueTap (alignedWrite_keepsQueueTap a _)) s
  case lowerWordRead a | rocRead a => exact confined_served (hostAccess_keepsQueueTap (alignedRead_keepsQueueTap a)) s
  case devMbxDoorbell len => exact confined_served (hostAccess_keepsQueueTap (keepsQueueTap_dev fun d => d.ring (len % 4096))) s
  case bar0ValueAccess write v =>
    simp only [exec, execBar0ValueAccess]
    exact confined_served (fun s => queueTap_ite (queueTap_ite (bar0Put_keepsQueueTap _ s) (readInto_keepsQueueTap bar0Get_queueTap s)) rfl) s
  case bar4ValueAccess write v =>
    simp only [exec, execBar4ValueAccess]
    exact confined_served (fun s => queueTap_ite (queueTap_ite (bar4Put_keepsQueueTap _ s) (readInto_keepsQueueTap bar4Get_queueTap s)) rfl) s
  case sessionOpen | sessionClose | elevate | keepalive | info => exact confined_served (udpRequest_keepsQueueTap _ _ _) s
  case read | write => exact confined_served (udpRequestErr_keepsQueueTap _ _ _ _) s
  case netFrameReceived frame taken =>
    refine .ite (confined_served ?_ s) Touches.refl
    exact fun s => queueTap_ite (drainRx_keepsQueueTap _) rfl
  all_goals exact Bool.noConfusion hw

end Sys2Proof.Machine

open Sys2Proof Sys2Proof.Machine

/-- Settles O4: a command that reaches one block touches the parts its class names; what the others run is made of such commands, of resets and
of effects on the device. -/
theorem ownState : Obligations.OwnState := by
  unfold Obligations.OwnState
  intro c s t hst
  cases hw : c.wide with
  | false =>
    obtain ⟨hpending, htap, hmem, hnv⟩ := (confined_exec_of_not_wide c s hw).next hst
    exact ⟨hpending, htap, fun _ => hmem, fun _ => hnv⟩
  | true =>
    obtain ⟨hpending, htap, -, -⟩ := (confined_exec_of_wide c s hw).next hst
    exact ⟨hpending, fun _ => htap rfl, nofun, nofun⟩

end

-- Stored data: scrub, fill, test mode (11 R324–R329).
section
/-! PROOFS. What the commands of stored data integrity and the end of a run do, in the branch their conditions choose. -/

namespace Sys2Proof.Machine

open Sys2Proof

theorem eccDram_sram {m : Nat} (hm : m < 16) : eccDram m = false := by
  simp only [eccDram, Bool.or_eq_false_iff, beq_eq_false_iff_ne]
  omega

/-! ## SCRUB, FILL and ABORT (11 R325, R327, R329) -/

section
variable {d : Dev}

theorem Dev.eccCmd_busy (f : Dev → Dev × Nat) (hb : d.is R.ECC_RESULT_BUSY = true) :
    d.eccCmd f = (d.setB R.ECC_RESULT_OVR true).set R.ECC_RESULT_CODE 1 := if_pos hb

theorem Dev.eccCmd_accepted {f : Dev → Dev × Nat} {e : Dev} (hb : d.is R.ECC_RESULT_BUSY = false) (hf : f d = (e, 0)) :
    d.eccCmd f = (e.set R.ECC_RESULT_CODE 0).wrap R.ECC_RESULT_SEQ 1 := by
  simp [Dev.eccCmd, hb, hf]

/-- A range that passes the checks of R325 starts a run, whose counts are 0. -/
theorem Dev.eccStart_taken {f : Bool} {m a n : Nat} (hm : m = d.get R.ECC_ARG_MEM) (ha : a = d.get64 R.ECC_ARG_START_LO)
    (hn : n = d.get64 R.ECC_ARG_COUNT_LO) (hex : eccExists m = true) (hfit : a + n ≤ d.eccWords m) (hopen : d.eccShut m = false)
    (hfree : f = true → d.rangeInUse m a n = false) :
    d.eccStart f = (((({ d with ecc := { d.ecc with
      run := some { fill := f, mem := m, start := a, count := n, abort := false, since := d.now } } }.setB R.ECC_RESULT_BUSY true).set64
        R.ECC_SCRUB_POS_LO a).set R.ECC_SCRUB_FIXED 0).set R.ECC_SCRUB_UE 0, 0) := by
  subst hm ha hn
  have hrange : (!eccExists (d.get R.ECC_ARG_MEM) ||
      decide (d.eccWords (d.get R.ECC_ARG_MEM) < d.get64 R.ECC_ARG_START_LO + d.get64 R.ECC_ARG_COUNT_LO)) = false := by
    simp [hex, Nat.not_lt.mpr hfit]
  have huse : (f && d.rangeInUse (d.get R.ECC_ARG_MEM) (d.get64 R.ECC_ARG_START_LO) (d.get64 R.ECC_ARG_COUNT_LO)) = false := by
    cases f with
    | false => rfl
    | true => exact hfree rfl
  simp only [Dev.eccStart, hrange, hopen, huse, Bool.false_eq_true, if_false]

theorem Dev.eccAbort_running {r : EccRun} {e : Dev} (hr : d.ecc.run = some r) (he : e = d.wrap R.ECC_RESULT_SEQ 1) :
    d.eccAbort = { e with ecc := { e.ecc with run := some { r with abort := true } } } := by
  simp only [Dev.eccAbort, hr, he]

theorem Dev.eccAbort_none (hr : d.ecc.run = none) : d.eccAbort = (d.wrap R.ECC_RESULT_SEQ 1).set R.ECC_RESULT_CODE 0 := by
  simp only [Dev.eccAbort, hr]

end

theorem runs_eccStart {s : State} {f : Bool} {d : Dev} (hup : Up s) (h : s.dev.eccCmd (fun d => d.eccStart f) = d) :
    Runs (if f then .fill else .scrub) s d := by
  cases f <;> exact runs_of_onHost hup rfl h

/-! ## The end of a run (11 R324, R326, R327) -/

/-- A run that has handled every word ends OK, whatever else would stop it. -/
theorem Dev.runResult_complete (d : Dev) {r : EccRun} {n : Nat} (h : r.count ≤ n) : d.runResult r n = some 0 := if_pos h

/-- A scrub of an SRAM memory of a device with no marked word changes nothing. -/
theorem runEffect_scrub_unmarked {r : EccRun} {d : Dev} (n : Nat) (m : Mem) (hf : r.fill = false) (hm : r.mem < 16)
    (hd : d.ecc.diffs = []) : runEffect r n d m = ((d, m), 0, 0) := by
  simp [runEffect, eccDram_sram hm, hf, hd, inRange]

/-- A scrub of an SRAM memory handles one word in four clocks. -/
theorem Dev.scrubMost_sram (d : Dev) {r : EccRun} (hf : r.fill = false) (hm : r.mem < 16) :
    d.scrubMost r = (d.now - r.since) / 4 + 1 := by
  simp [Dev.scrubMost, hf, eccDram_sram hm]

theorem gives_scrubDone {s t : State} {n : Nat} (hup : Up s) (h : scrubDone n s = t) : Gives (.scrubDone n) s t := by
  simp only [Gives, exec, execScrubDone, hup.1, if_true, h]

theorem scrubDone_none {s : State} (n : Nat) (hr : s.dev.ecc.run = none) : scrubDone n s = s := by simp only [scrubDone, hr]

/-- A run that ends: `k` is how many words it handled, `e` the device with the run gone and its position and counts written. -/
theorem scrubDone_ends {s : State} {r : EccRun} {n k c f u : Nat} {d e : Dev} {m : Mem} (hr : s.dev.ecc.run = some r)
    (hc : s.dev.runResult r (min n (s.dev.scrubMost r)) = some c) (hk : k = min n (min r.count (s.dev.scrubMost r)))
    (heff : runEffect r k s.dev s.mem = ((d, m), f, u))
    (he : e = ((({ d with ecc := { d.ecc with run := none } }.set64 R.ECC_SCRUB_POS_LO (r.start + k)).set R.ECC_SCRUB_FIXED f).set
      R.ECC_SCRUB_UE u)) :
    scrubDone n s = { s with
      dev := ((e.setB R.ECC_RESULT_BUSY false).set R.ECC_RESULT_CODE c).raise Ev.SCRUB_DONE
        (r.mem + 32 * c + 65536 * min f 65535 + 2 ^ 32 * min u 65535)
      mem := m } := by
  simp only [scrubDone, hr, hc, ← hk, heff, he]

/-! ## Test commands (11 R328) -/

theorem gives_of_testCmd {c : Instr} {s t : State} {f : Nat → Nat → State → State} (hup : Up s)
    (hc : exec c s = .next (hostState (testCmd f) s)) (h : testCmd f s = t) : Gives c s t := by
  obtain ⟨hawake, hboot⟩ := hup
  simp [Gives, hc, hostState, hawake, hboot, h]

section
variable {s : State} (f : Nat → Nat → State → State) (hb : s.dev.is R.ECC_RESULT_BUSY = false)
include hb

theorem testCmd_refused (h : s.dev.is R.ECC_TEST_EN = false ∨ s.dev.dstate ≠ .idle) :
    testCmd f s = { s with dev := s.dev.set R.ECC_RESULT_CODE 2 } := by
  have hshut : (!s.dev.is R.ECC_TEST_EN || s.dev.dstate != .idle) = true := by simpa using h
  simp only [testCmd, hb, hshut, Bool.false_eq_true, if_false, if_true]

theorem testCmd_taken {m w : Nat} (hen : s.dev.is R.ECC_TEST_EN = true) (hidle : s.dev.dstate = .idle) (hm : m = s.dev.get R.ECC_ARG_MEM)
    (hw : w = s.dev.get64 R.ECC_ARG_START_LO) (hex : eccExists m = true) (hfit : w < s.dev.eccWords m)
    (hopen : s.dev.eccShut m = false) :
    testCmd f s = { f m w s with dev := ((f m w s).dev.set R.ECC_RESULT_CODE 0).wrap R.ECC_RESULT_SEQ 1 } := by
  subst hm hw
  have htest : (!s.dev.is R.ECC_TEST_EN || s.dev.dstate != .idle) = false := by simp [hen, hidle]
  have hrange : (!eccExists (s.dev.get R.ECC_ARG_MEM) ||
      decide (s.dev.eccWords (s.dev.get R.ECC_ARG_MEM) ≤ s.dev.get64 R.ECC_ARG_START_LO)) = false := by
    simp [hex, Nat.not_le.mpr hfit]
  simp only [testCmd, hb, htest, hrange, hopen, Bool.false_eq_true, if_false]

end

/-- A test write to an SRAM memory reaches the device only. -/
theorem testWrite_sram_mem {m : Nat} (w : Nat) (s : State) (hm : m < 16) : (testWrite m w s).mem = s.mem := by
  simp only [testWrite, eccDram_sram hm, Bool.false_eq_true, if_false]

/-- A test read answers in registers: no word mark, no count, no event. -/
theorem testRead_rest {m : Nat} (w : Nat) (s : State) :
    (testRead m w s).dev.ecc = s.dev.ecc ∧ (testRead m w s).dev.evt = s.dev.evt := by
  unfold testRead
  dsimp only
  split <;> exact ⟨rfl, rfl⟩

end Sys2Proof.Machine

open Sys2Proof Sys2Proof.Machine

/-- Settles O30: a command by whether a run is in progress and its range is free; the end of a run by what it handled; a test command by
whether test mode is on in IDLE. -/
theorem eccRuns : Obligations.EccRuns := by
  unfold Obligations.EccRuns
  refine ⟨fun s m a n f hup hb hm ha hn hex hfit hopen hfree => ?start, fun s hup hb => ⟨?scrubBusy, ?fillBusy⟩,
    fun s r d hup hr hd => ?abort, fun s hup hr => ⟨?abortNone, fun n => ?doneNone⟩,
    fun s m a n t b d hup hm hclean hr hpace hd => ?scrubOk, fun s r n k c f u d e m hup hr hc hk heff he => ?ends,
    fun s m w hup hb hen hidle hm hw hex hfit hopen => ?test, fun s hup hb hshut => ?refused,
    fun m w s hm => ⟨testWrite_sram_mem w s hm, testRead_rest w s⟩⟩
  case start => exact runs_eccStart hup (Dev.eccCmd_accepted hb (Dev.eccStart_taken hm ha hn hex hfit hopen hfree))
  case scrubBusy => exact runs_eccStart (f := false) hup (Dev.eccCmd_busy _ hb)
  case fillBusy => exact runs_eccStart (f := true) hup (Dev.eccCmd_busy _ hb)
  case abort => exact runs_of_onHost hup rfl (Dev.eccAbort_running hr hd)
  case abortNone => exact runs_of_onHost hup rfl (Dev.eccAbort_none hr)
  case doneNone => exact gives_scrubDone hup (scrubDone_none n hr)
  case scrubOk =>
    have hmost := s.dev.scrubMost_sram (r := { fill := false, mem := m, start := a, count := n, abort := b, since := t }) rfl hm
    have hall := Nat.min_eq_left (hmost.symm ▸ hpace)
    have hends := scrubDone_ends (n := n) (k := n) hr (Dev.runResult_complete _ (Nat.le_of_eq hall.symm)) (by rw [hall, Nat.min_self])
      (runEffect_scrub_unmarked n s.mem rfl hm hclean) hd
    exact gives_scrubDone hup (by simpa using hends)
  case ends => exact gives_scrubDone hup (scrubDone_ends hr hc hk heff he)
  case test =>
    exact ⟨gives_of_testCmd hup rfl (testCmd_taken testWrite hb hen hidle hm hw hex hfit hopen),
      gives_of_testCmd hup rfl (testCmd_taken testRead hb hen hidle hm hw hex hfit hopen),
      gives_of_testCmd hup rfl (testCmd_taken testGen hb hen hidle hm hw hex hfit hopen)⟩
  case refused =>
    exact ⟨gives_of_testCmd hup rfl (testCmd_refused testWrite hb hshut), gives_of_testCmd hup rfl (testCmd_refused testRead hb hshut),
      gives_of_testCmd hup rfl (testCmd_refused testGen hb hshut)⟩

end

-- A device that is held takes part in nothing (17 R454, R465).
section
/-! PROOFS. Each shared shape of a command's effect leaves the state of a device that is held; so does every command but those of
pins, supplies and the test port. -/

namespace Sys2Proof.Machine

open Sys2Proof

/-- Where the outcome answers a state it is `s` itself. -/
def Rests (s : State) (o : Out) : Prop := ∀ t : State, o = .next t → t = s

section
variable {s : State}

theorem rests_next : Rests s (.next s) := fun _ h => (Host.Outcome.next.inj h).symm

theorem rests_of_eq {t : State} (h : t = s) : Rests s (.next t) := h ▸ rests_next

theorem rests_fault (f : Fault) : Rests s (.fault f) := fun _ h => nomatch h

theorem Rests.ite {p : Prop} [Decidable p] {a b : Out} (ha : Rests s a) (hb : Rests s b) : Rests s (if p then a else b) := by
  split
  · exact ha
  · exact hb

theorem drainIntake_rests (h : s.dev.awake = false) :
    { s with dev := (drainIntake s.dev s.mem).1, mem := (drainIntake s.dev s.mem).2 } = s := by
  rw [drainIntake_held s.mem h]

/-- Writes that wait do not land on a device that is held. -/
theorem rests_landed {o : Out} (h : s.dev.awake = false) (ho : Rests s o) : Rests s (landed o) := fun t ht => by
  obtain ⟨u, hu, rfl⟩ := landed_next o t ht
  rw [ho u hu]
  exact drainIntake_rests h

variable (h : s.dev.awake = false)
include h

theorem Dev.hostUp_of_held : s.dev.hostUp = false := by simp [Dev.hostUp, h]

theorem Dev.mgmtUp_of_held : s.dev.mgmtUp = false := by simp [Dev.mgmtUp, h]

/-- Management processors that do not run leave the mailbox message. -/
theorem serveBell_held : serveBell s = s := by
  unfold serveBell
  rw [Dev.mgmtUp_of_held h]
  split <;> rfl

theorem rests_onDev (f : Dev → Dev) : Rests s (onDev f s) := rests_of_eq (by rw [Dev.ifAwake_held f h])

theorem rests_onDevIf (ok : Bool) (f : Dev → Dev) : Rests s (onDevIf ok f s) :=
  Rests.ite (rests_of_eq (by rw [Dev.ifAwake_held f h])) (rests_fault _)

theorem rests_onDevMemIf (ok : Bool) (f : Dev → Mem → Dev × Mem) : Rests s (onDevMemIf ok f s) := by
  unfold onDevMemIf
  rw [h]
  exact Rests.ite rests_next (rests_fault _)

theorem rests_onDevNv (f : Dev → NonVol → Dev × NonVol) : Rests s (onDevNv f s) := by
  unfold onDevNv
  rw [h]
  exact rests_next

theorem rests_onDevKeep (ok : Bool) (f : Dev → Dev) : Rests s (onDevKeep ok f s) := by
  unfold onDevKeep
  rw [h]
  exact Rests.ite rests_next (rests_fault _)

theorem rests_onHostMemIf (ok : Bool) (f : Dev → Mem → Dev × Mem) : Rests s (onHostMemIf ok f s) := rests_onDevMemIf h ok _

theorem rests_onHostNv (f : Dev → NonVol → Dev × NonVol) : Rests s (onHostNv f s) := rests_onDevNv h _

theorem rests_onHostKeep (ok : Bool) (f : Dev → Dev) : Rests s (onHostKeep ok f s) := rests_onDevKeep h ok _

theorem hostState_held (f : State → State) : hostState f s = s := by simp [hostState, h]

theorem rests_served {f : State → State} (hf : f s = s) : Rests s (served f s) :=
  rests_of_eq (by rw [hf]; exact serveBell_held h)

theorem hostAccess_held (f : State → State) : hostAccess f s = s := by simp [hostAccess, Dev.hostUp_of_held h]

theorem udpRequest_held (ip port : Nat) (m : IopMsg) : udpRequest ip port m s = s := by
  simp [udpRequest, Dev.mgmtUp_of_held h]

theorem udpRequestErr_held (e : Option Nat) (ip port : Nat) (m : IopMsg) : udpRequestErr e ip port m s = s := by
  cases e with
  | none => exact udpRequest_held h ip port m
  | some n => simp [udpRequestErr, Dev.mgmtUp_of_held h]

theorem rests_set (servo : Bool) (sec ns : Nat) : Rests s (exec (.set servo sec ns) s) := by
  simp only [exec, execSet, h]
  exact rests_next

theorem rests_eventLogWrite : Rests s (exec .eventLogWrite s) := by
  simp only [exec, execEventLogWrite, h]
  exact rests_next

/-- A device that is held takes part in nothing but pin events, supply events and the test port. -/
theorem rests_exec (c : Instr) (hp : c.onPins = false) : Rests s (exec c s) := by
  cases c
  case positionUpdate | triggerEdge | inhibitAsserted | inhibitReleased | perstAssert | perstRelease | supplyFault | porstAssert
    | porstRelease | clockFailure | mainPowerLoss | railsBackInRange | sysclkInRestored | keeperSupplyLow | keeperPowerUp | trst
    | extest | idcode | samplePreload | clamp | highz | bypass => exact Bool.noConfusion hp
  case posSrcChange | restoreKeep | plan | lasValidate | fillIdentity | lasHoldClr | inject | dosValidate | recPush | flush | cntLoad
    | cmpValidate | glyphCommit | wellDefine | wellOpen | wellRelease | wellSeal | enqueue | abort | swapCancel | resume | fabCmdMerge
    | fabCmdAnchor | swap | clear | restore | scrub | fill | eccAbort | netMdioAccess | calAdc | bist | calAbort
    | predictionWindowEnd | lasValidateDone | remapCopyDone | doseLineStart | dosValidateDone | correctionCopyDone | renderStart
    | cmpValidateDone | resumeReady | timNowRead | helloPeriod | formTimeout | interval1ms | posPeriod | posTimeout | timePeriod | bar4Write
    | sealComplete | dmaBurstIssue | stepRetry | announce | announceReceiptTimeout | sync | followUp | delayReq | delayResp | pdelayReq
    | pdelayResp | pdelayRespFollowUp | tsTxPop | phyPoll | arp | arpExpiry | icmpEcho | calDone | bistDone | bandgapCheck | dieTempChange
    | updEraseDone | updVerified | revert | pwrDomOn | pwrDomOff | pwrWdtKick | arm | run | disarm | stop | sessionTimeout =>
    exact rests_onDev h _
  case encoderCheckFail | zRisingEdge | engineStagingFreed | doseBeat | renderCompareDone | lineFrameSend | credit | echo | status
    | statusTimeout | cmdRsp | cmdTimeout | hello | helloTimeout | lsa | assign | report | ready | merge | anchor | swapReq | swapPrep
    | swapVote | swapDecide | blockReceived | amReceived | trainBlockReceived | pllLocked | trainTimeout | laneLoss | eiEnterReceived
    | signalDetected | loopTimeExpiry | pulseEnd | triggerAccept | trigIssue | time | item | burstLate | refreshInterval | mr4Poll
    | pageIdleExpiry | powerDownTimer | refillDone | bandWalkDone | sliceLineDone | ptpMessageInterval | drainTimeout | domainOn
    | ping | statusReq | elemCheck | setParam | getParam | clearFault | elemCancel | train | eiEnter | eiExit | loopStart | loopStop
    | fpTrain | fpLoopStart | fpLoopStop | retrain | freq | crcLoad | crcData | crcData8 | dmaStart | dmaPause | dmaResume | dmaStop
    | dramRequest => exact rests_onDevIf h _ _
  case itemDecided | pos | verdict => simp only [exec]; exact rests_onDevKeep h _ _
  case load | restoreLoad => simp only [exec]; exact rests_onHostKeep h _ _
  case save | storeSaved | storeLoad | erase | mgmt | watchdogExpiry => simp only [exec]; exact rests_onDevNv h _
  case updBegin | updBlock | updVerify | updActivate | updCancel => simp only [exec]; exact rests_onHostNv h _
  case cmprStart | cmprAbort => simp only [exec]; exact rests_onHostMemIf h _ _
  case spillWriteDone | dmaBurstDone | compressorInput | compressorBlockDone => simp only [exec]; exact rests_onDevMemIf h _ _
  case dramBurstComplete | vddqFault => exact rests_landed h (rests_onDevMemIf h _ _)
  case trainDone | freqDone | domainOff => exact rests_landed h (rests_onDevIf h _ _)
  case registerWrite => exact rests_landed h (rests_served h (hostAccess_held h _))
  case upperWordWrite | lowerWordRead | rocRead | devMbxDoorbell => exact rests_served h (hostAccess_held h _)
  case sessionOpen | sessionClose | elevate | keepalive | info => exact rests_served h (udpRequest_held h _ _ _)
  case read | write => exact rests_served h (udpRequestErr_held h _ _ _ _)
  case bar0ValueAccess | bar4ValueAccess =>
    exact rests_served h (by rw [Dev.mgmtUp_of_held h]; rfl)
  case bar0UnalignedAccess => exact rests_of_eq (hostAccess_held h _)
  case testWrite | testRead | testGen => exact rests_of_eq (hostState_held h _)
  case step | timAdjWrite => exact Rests.ite (rests_onDev h _) (rests_onDev h _)
  case set servo sec ns => exact rests_set h servo sec ns
  case eventLogWrite => exact rests_eventLogWrite h
  case keeperWrite => exact rests_of_eq (by rw [h]; rfl)
  case scrubDone => exact rests_of_eq (by rw [h]; rfl)
  case system => simp only [exec, execSystem, h]; exact rests_next
  case bar2Write => simp only [exec, execBar2Write, Dev.hostOpen, h]; exact rests_next
  case netFrameReceived => simp only [exec, execNetFrameReceived, h]; exact rests_next

end

end Sys2Proof.Machine

open Sys2Proof Sys2Proof.Machine

/-- Settles O5: every shape of a command's effect asks first whether the device is awake. -/
theorem heldDevice : Obligations.HeldDevice := by
  unfold Obligations.HeldDevice
  exact fun c s t hheld hp ht => rests_exec hheld c hp t ht

end

-- Steps: the front command, the idle clock, reset; every command whose unit exists completes (00, 17 R454).
section
/-! PROOFS. Each shared shape of a command's effect answers a next state where its unit exists and a fault where it does not; a clock
without a command moves the clocks only. -/

namespace Sys2Proof.Machine

open Sys2Proof

/-! ## Commands complete -/

/-- The outcome is a next state where `ok` holds and the fault of a missing unit where it does not. -/
def Completes (ok : Bool) (o : Out) : Prop :=
  (ok = true → ∃ t : State, o = .next t) ∧ (ok = false → o = .fault .noSuchInstance)

theorem completes_next (t : State) : Completes true (.next t) := ⟨fun _ => ⟨t, rfl⟩, nofun⟩

/-- A next state where the unit exists, the fault where it does not. -/
theorem completes_guard (ok : Bool) (t : State) : Completes ok (if ok then .next t else .fault .noSuchInstance) := by
  cases ok
  · exact ⟨nofun, fun _ => rfl⟩
  · exact completes_next t

theorem Completes.ite {ok : Bool} {p : Prop} [Decidable p] {a b : Out} (ha : Completes ok a) (hb : Completes ok b) :
    Completes ok (if p then a else b) := by
  split
  · exact ha
  · exact hb

theorem Completes.landed {ok : Bool} {o : Out} (h : Completes ok o) : Completes ok (landed o) := by
  refine ⟨fun hok => ?_, fun hok => ?_⟩
  · obtain ⟨t, ht⟩ := h.1 hok
    exact ⟨_, by rw [ht]; rfl⟩
  · rw [h.2 hok]
    rfl

section
variable (s : State)

theorem completes_onDev (f : Dev → Dev) : Completes true (onDev f s) := completes_next _

theorem completes_onDevIf (ok : Bool) (f : Dev → Dev) : Completes ok (onDevIf ok f s) := completes_guard ok _

theorem completes_onHostIf (ok : Bool) (f : Dev → Dev) : Completes ok (onHostIf ok f s) := completes_guard ok _

theorem completes_onPin (ok : Bool) (f : Dev → Dev) : Completes ok (onPin ok f s) := completes_guard ok _

theorem completes_onDevMemIf (ok : Bool) (f : Dev → Mem → Dev × Mem) : Completes ok (onDevMemIf ok f s) := completes_guard ok _

theorem completes_onHostMemIf (ok : Bool) (f : Dev → Mem → Dev × Mem) : Completes ok (onHostMemIf ok f s) := completes_guard ok _

theorem completes_onDevKeep (ok : Bool) (f : Dev → Dev) : Completes ok (onDevKeep ok f s) := completes_guard ok _

theorem completes_eventLogWrite : Completes true (exec .eventLogWrite s) := by
  simp only [exec, execEventLogWrite]
  split <;> exact completes_next _

theorem completes_set (servo : Bool) (sec ns : Nat) : Completes true (exec (.set servo sec ns) s) := by
  simp only [exec, execSet]
  exact .ite (completes_next _) (.ite (completes_next _) (.ite (completes_next _) (.ite (completes_next _) (completes_next _))))

/-- Every command completes exactly where its unit exists. -/
theorem completes_exec (c : Instr) : Completes c.instanceOk (exec c s) := by
  cases c
  case positionUpdate => exact .ite (completes_onDevKeep s _ _) (completes_onPin s _ _)
  case triggerEdge => simp only [exec]; exact completes_onPin s _ _
  case encoderCheckFail | zRisingEdge | engineStagingFreed | doseBeat | renderCompareDone | lineFrameSend | credit | echo | status
    | statusTimeout | cmdRsp | cmdTimeout | hello | helloTimeout | lsa | assign | report | ready | merge | anchor | swapReq | swapPrep
    | swapVote | swapDecide | blockReceived | amReceived | trainBlockReceived | pllLocked | trainTimeout | laneLoss | eiEnterReceived
    | signalDetected | loopTimeExpiry | pulseEnd | triggerAccept | trigIssue | time | item | burstLate | refreshInterval | mr4Poll
    | pageIdleExpiry | powerDownTimer | refillDone | bandWalkDone | sliceLineDone | ptpMessageInterval | drainTimeout | domainOn
    | dramRequest => simp only [exec]; exact completes_onDevIf s _ _
  case ping | statusReq | elemCheck | setParam | getParam | clearFault | elemCancel | train | eiEnter | eiExit | loopStart | loopStop
    | fpTrain | fpLoopStart | fpLoopStop | retrain | freq | crcLoad | crcData | crcData8 | dmaStart | dmaPause | dmaResume | dmaStop =>
    simp only [exec]; exact completes_onHostIf s _ _
  case pos | verdict => simp only [exec]; exact completes_onDevKeep s _ _
  case spillWriteDone | dmaBurstDone | compressorInput | compressorBlockDone => simp only [exec]; exact completes_onDevMemIf s _ _
  case cmprStart | cmprAbort => simp only [exec]; exact completes_onHostMemIf s _ _
  case dramBurstComplete | vddqFault => simp only [exec]; exact (completes_onDevMemIf s _ _).landed
  case trainDone | freqDone | domainOff => simp only [exec]; exact (completes_onDevIf s _ _).landed
  case supplyFault => simp only [exec]; exact completes_guard _ _
  case eventLogWrite => exact completes_eventLogWrite s
  case set servo sec ns => exact completes_set s servo sec ns
  case step | timAdjWrite => exact .ite (completes_onDev s _) (completes_onDev s _)
  case bar2Write | netFrameReceived | clockFailure | keeperSupplyLow | keeperPowerUp | sysclkInRestored =>
    exact .ite (completes_next _) (completes_next _)
  case system => exact .ite (completes_next _) (.ite (completes_next _) (completes_next _))
  all_goals exact completes_next _

end

/-! ## A clock without a command (log entry 3) -/

section
variable {d : Dev}

theorem Dev.echoDeadlines_of_no_steps {p : Nat} (h : (d.port p).steps = []) : d.echoDeadlines p = d := by
  simp [Dev.echoDeadlines, h]

/-- An effect repeated over a list whose every element leaves `x` leaves it. -/
theorem forEach_id {α β : Type} {f : α → β → α} {x : α} {l : List β} (h : ∀ b ∈ l, f x b = x) : forEach l f x = x := by
  induction l with
  | nil => rfl
  | cons b l ih =>
    have hb := h b List.mem_cons_self
    simp only [forEach, List.foldl_cons, hb]
    exact ih fun c hc => h c (List.mem_cons_of_mem _ hc)

theorem Dev.echoesLapse_of_no_steps (h : ∀ p < 32, (d.port p).steps = []) : d.echoesLapse = d :=
  forEach_id fun p hp => Dev.echoDeadlines_of_no_steps (h p (List.mem_range.mp hp))

/-- Without a step whose ECHO is awaited and without a gate that is due nothing falls at the end of a clock. -/
theorem Dev.endClock_quiet (hs : ∀ p < 32, (d.port p).steps = []) (hi : ∀ i ∈ d.items, i.due = []) : d.endClock = d := by
  have hdue : d.items.flatMap (fun i => i.due.map (fun o => (i.num, o))) = [] :=
    List.flatMap_eq_nil_iff.mpr fun i h => by rw [hi i h, List.map_nil]
  unfold Dev.endClock
  rw [Dev.echoesLapse_of_no_steps hs]
  dsimp only
  rw [hdue]

end

/-- A clock at whose end nothing falls moves device time and the keeper's crystal only. -/
theorem idleClock_quiet {s : State} (h : s.dev.awake = false ∨ (∀ p < 32, (s.dev.port p).steps = []) ∧ (∀ i ∈ s.dev.items, i.due = []) ∧
    s.dev.evt.latched = []) :
    s.idleClock = { s with dev := { s.dev.ifAwake Dev.tickTime with now := s.dev.now + 1 }, nv := { s.nv with keep := s.nv.keep.tick } } := by
  have hend : (if s.dev.awake = true then keepCommit { s with dev := s.dev.endClock } else s) = s := by
    rcases h with h | ⟨hs, hi, hl⟩
    · rw [h]; rfl
    · rw [Dev.endClock_quiet hs hi, keepCommit_of_none_latched hl, ite_self]
  simp only [State.idleClock, hend]

end Sys2Proof.Machine

open Sys2Proof Sys2Proof.Machine

/-- Settles O1: a step is the front command's; on an empty queue it is the idle clock, at whose end nothing falls here. -/
theorem stepRunsFront : Obligations.StepRunsFront := by
  unfold Obligations.StepRunsFront
  exact ⟨fun c s l => step_front c s l, fun s hp h => (step_of_idle hp).trans (congrArg _ (idleClock_quiet h))⟩

/-- Settles O2: the reset state is plain data, and its registers hold the reset words of the tables. -/
theorem resetState : Obligations.ResetState := by
  unfold Obligations.ResetState
  decide

/-- Settles O3: a command is its shape's, which faults exactly where the unit is missing. -/
theorem commandsComplete : Obligations.CommandsComplete := by
  unfold Obligations.CommandsComplete
  exact ⟨fun c s => (completes_exec s c).1, fun c s => (completes_exec s c).2, fun c h => (Bool.and_eq_true_iff.mp h).1⟩

end

-- CRC units and the DMA engine (12 R330–R347).
section
/-! PROOFS. What the commands of a CRC unit and of a DMA channel do, how the engine issues a burst, how one completes, and what the end of a
chain leaves in the status word. -/

namespace Sys2Proof.Machine

open Sys2Proof

/-! ## CRC units (12 R344, R347) -/

section
variable {d : Dev} {u : Nat}

theorem Dev.crcHost_free (f : Dev → Dev) (h : d.crcOwner u = 0) : d.crcHost u f = f d := by simp [Dev.crcHost, h]

theorem Dev.crcHost_held (f : Dev → Dev) (h : d.crcOwner u ≠ 0) :
    d.crcHost u f = (d.bump (R.CRC_DISC_CNT u) 1).occur Ev.CRC_WRITE_DISCARDED u 1 := if_pos h

theorem length_bytesOf (n x : Nat) : (bytesOf n x).length = n := by
  induction n generalizing x with
  | zero => rfl
  | succ n ih => simp [bytesOf, ih]

end

section
variable {s : State} {u : Nat} {d : Dev} (hup : Up s) (hu : u < 36)
include hup hu

theorem runs_crcLoad (h : s.dev.crcHost u (fun d => d.crcLoad u) = d) : Runs (.crcLoad u) s d :=
  runs_of_onHostIf hup (decide_eq_true hu) rfl h

theorem runs_crcData {v : Word} (h : s.dev.crcHost u (fun d => d.crcFeed u (bytesOf 4 v.toNat)) = d) : Runs (.crcData u v) s d :=
  runs_of_onHostIf hup (decide_eq_true hu) rfl h

theorem runs_crcData8 {b : Byte} (h : s.dev.crcHost u (fun d => d.crcFeed u [b]) = d) : Runs (.crcData8 u b) s d :=
  runs_of_onHostIf hup (decide_eq_true hu) rfl h

end

/-! ## Commands of a DMA channel (12 R337–R339, R343) -/

section
variable {d e : Dev} {n : Nat} {f : Dev → Dev × Nat}

theorem Dev.dmaCmd_accepted (h : f d = (e, 0)) : d.dmaCmd n f = (e.set (R.DMA_CH_RESULT_CODE n) 0).wrap (R.DMA_CH_RESULT_SEQ n) 1 := by
  simp [Dev.dmaCmd, h]

/-- A command that is refused leaves its code and changes nothing else. -/
theorem Dev.dmaCmd_refused (h : f d = (d, 2)) : d.dmaCmd n f = d.set (R.DMA_CH_RESULT_CODE n) 2 := by simp [Dev.dmaCmd, h]

theorem Dev.dmaStart_idle (m : Bool) (h : d.dstat n = 0) :
    d.dmaStart n m = ((((d.set (R.DMA_CH_STATUS_END n) 0).setB (R.DMA_CH_STATUS_WITHDRAWN_LATE n) false).setB
      (R.DMA_CH_STATUS_DISCARDED n) false).loadDesc n (d.get (R.DMA_CH_CFG_FIRST n)) m, 0) := by simp [Dev.dmaStart, h]

theorem Dev.dmaStart_busy (m : Bool) (h : d.dstat n ≠ 0) : d.dmaStart n m = (d, 2) := if_pos h

theorem Dev.dmaPause_moving (h : d.dstat n = 1 ∨ d.dstat n = 2) :
    d.dmaPause n = ((d.setB (R.DMA_CH_STATUS_PAUSE_HOST n) true).startDrain n, 0) := if_pos h

theorem Dev.dmaPause_idle (h : d.dstat n = 0) : d.dmaPause n = (d, 2) := by simp [Dev.dmaPause, h]

theorem Dev.dmaResume_idle (h : d.dstat n = 0) : d.dmaResume n = (d, 2) := by simp [Dev.dmaResume, h]

theorem Dev.dmaStop_idle (h : d.dstat n = 0) : d.dmaStop n = (d, 2) := if_pos h

theorem Dev.dmaStop_at_once (h0 : d.dstat n ≠ 0) (h : d.dstat n = 2 ∨ d.dstat n = 4 ∨ (d.dch n).reads = []) :
    d.dmaStop n = (d.chainEnd n 2, 0) := by rw [Dev.dmaStop, if_neg h0, if_pos h]

/-- A STOP of a channel that runs waits for the reads outstanding. -/
theorem Dev.dmaStop_drains (h : d.dstat n = 1) (hr : (d.dch n).reads ≠ []) :
    d.dmaStop n = ((d.setDch n { d.dch n with
      stopAt := (d.dch n).stopAt.or (some d.now), drainAt := (d.dch n).drainAt.or (some d.now) }).dgo n 3, 0) := by
  simp [Dev.dmaStop, h, hr]

section
variable (he : e = ((d.setB (R.DMA_CH_STATUS_PAUSE_HOST n) false).setDch n { d.dch n with pauseFor := [] }).setB
  (R.DMA_CH_STATUS_PAUSE_DOMAIN n) false)
include he

theorem Dev.dmaResume_stopAt : (e.dch n).stopAt = (d.dch n).stopAt := by
  rw [he]
  simp [Dev.dch, Dev.setDch]

/-- RESUME of a channel without another reason to pause, which touches no domain. -/
theorem Dev.dmaResume_paused (h : d.dstat n = 3 ∨ d.dstat n = 4) (ht : d.touches (d.dch n) = []) :
    d.dmaResume n = (if (e.dch n).stopAt.isSome then e else e.unpause n, 0) := by
  have hst : ¬ (d.dstat n ≠ 3 ∧ d.dstat n ≠ 4) := by omega
  have hpd : e.is (R.DMA_CH_STATUS_PAUSE_DOMAIN n) = false := by
    rw [he]
    exact Dev.is_setB_false _ (by simp [R.DMA_CH_STATUS_PAUSE_DOMAIN])
  have hch : (d.setB (R.DMA_CH_STATUS_PAUSE_HOST n) false).dch n = d.dch n := rfl
  simp only [Dev.dmaResume, if_neg hst, ht, List.all_nil, List.any_nil, Bool.not_true, Bool.false_eq_true, if_false, hch, ← he, hpd]
  split <;> rfl

end

end

theorem runs_of_dmaCmd {c : Instr} {s : State} {n : Nat} {f : Dev → Dev × Nat} {d : Dev} (hup : Up s) (hn : n < 64)
    (hc : exec c s = onHostIf (decide (n < 64)) (fun d => d.dmaCmd n f) s) (h : s.dev.dmaCmd n f = d) : Runs c s d :=
  runs_of_onHostIf hup (decide_eq_true hn) hc h

/-! ## Bursts (12 R330, R334, R340) -/

theorem Dev.burstIssue_none {d : Dev} (h : d.nextChannel = none) : d.burstIssue = d := by simp only [Dev.burstIssue, h]

/-- A HOST burst of the length asked for is taken as it came. -/
theorem sourceRead_host {d : Dev} {x : DmaCh} {a k : Nat} {l : List Byte} (m : Mem) (hk : x.srcKind = 0) (hp : d.pwr.perst = false)
    (hl : l.length = k) : sourceRead d m x a k (some l) = (.inl l, d) := by
  subst hl
  simp [sourceRead, hk, hp]

theorem dmaBurstDone_no_reads {d : Dev} {n : Nat} (m : Mem) (h : Option (List Byte)) (e : Bool) (hr : (d.dch n).reads = []) :
    dmaBurstDone d m n h e = (d, m) := by
  unfold dmaBurstDone
  dsimp only
  split
  · rfl
  · rw [hr]

/-- The completion of a HOST read whose DRAM channels are ready writes its bytes. -/
theorem dmaBurstDone_host {d : Dev} {m : Mem} {n a k : Nat} {x : DmaCh} {rest : List (Nat × Nat)} {l : List Byte} (hx : x = d.dch n)
    (hr : x.reads = (a, k) :: rest) (he : x.readErr = none) (hk : x.srcKind = 0) (hm : (d.dmaPlaces x).any d.memHeld = false)
    (hp : d.pwr.perst = false) (hl : l.length = k) :
    dmaBurstDone d m n (some l) false = burstWrite (d.setDch n { x with reads := rest }) m n l false := by
  have hsrc := sourceRead_host (a := a) (d := d.setDch n { x with reads := rest }) m hk hp hl
  have hread : x.readErr.isSome = false := by rw [he]; rfl
  simp only [dmaBurstDone, ← hx, hm, hr, hread, hsrc, Bool.false_eq_true, if_false]

theorem gives_dmaBurstDone {s : State} {n : Nat} {h : Option (List Byte)} {e : Bool} {d : Dev} {m : Mem} (hup : Up s) (hn : n < 64)
    (hd : dmaBurstDone s.dev s.mem n h e = (d, m)) : Gives (.dmaBurstDone n h e) s { s with dev := d, mem := m } := by
  rw [Gives, exec, execDmaBurstDone, onDevMemIf_awake _ (decide_eq_true hn) hup.1, hd]

/-! ## The end of a chain that ends DONE (12 R339, R340) -/

section
variable {d : Dev} {n : Nat}

/-- The chain's last steps: the summary registers, the end code, the channel cleared. -/
theorem Dev.chainEnd_done :
    d.chainEnd n 1 = ((((((((d.drained n).releaseCrc n).set (R.DMA_LAST_TAG n) (((d.drained n).releaseCrc n).dch n).tag).dgo n 0).set
      (R.DMA_CH_STATUS_END n) 1).setDch n {}).setB (R.DMA_CH_STATUS_PAUSE_HOST n) false).setB (R.DMA_CH_STATUS_PAUSE_DOMAIN n) false) :=
  rfl

/-- A field of CH_STATUS outside the two reasons to pause. -/
theorem Dev.get_pauses_cleared (e : Dev) {f : Fld} (h : f.lo + f.w ≤ 3 ∨ 5 ≤ f.lo) :
    ((e.setB (R.DMA_CH_STATUS_PAUSE_HOST n) false).setB (R.DMA_CH_STATUS_PAUSE_DOMAIN n) false).get f = e.get f := by
  rw [Dev.setB, Dev.get_set_of_apart _ _ _ _ (by simp [R.DMA_CH_STATUS_PAUSE_DOMAIN]) (by simp only [R.DMA_CH_STATUS_PAUSE_DOMAIN]; omega),
    Dev.setB, Dev.get_set_of_apart _ _ _ _ (by simp [R.DMA_CH_STATUS_PAUSE_HOST]) (by simp only [R.DMA_CH_STATUS_PAUSE_HOST]; omega)]

theorem Dev.chainEnd_done_end : (d.chainEnd n 1).get (R.DMA_CH_STATUS_END n) = 1 := by
  rw [Dev.chainEnd_done, Dev.get_pauses_cleared _ (.inr (by simp [R.DMA_CH_STATUS_END]))]
  exact Dev.get_set_self _ _ _ (by simp [R.DMA_CH_STATUS_END])

section
variable (hn : n < 64)
include hn

/-- The summary registers of the engine are no channel's status word. -/
theorem Dev.get_setBit64_of_summary (e : Dev) {f g : Fld} (b : Bool) (hf : f.addr < 0x191000 - 4) (hg : g.addr = 0x19100C + 0x100 * n) :
    (e.setBit64 f n b).get g = e.get g := by
  rw [Dev.setBit64, Dev.set64, Dev.get_set_of_addr_ne _ _ _ _ (by simp only [Fld.hi, hg]; omega),
    Dev.get_set_of_addr_ne _ _ _ _ (by omega)]

/-- A change of state leaves the other fields of the status word. -/
theorem Dev.get_dgo (e : Dev) (st : Nat) {g : Fld} (hg : g.addr = 0x19100C + 0x100 * n) (hlo : 3 ≤ g.lo) : (e.dgo n st).get g = e.get g := by
  rw [Dev.dgo, Dev.get_setBit64_of_summary hn _ _ (by simp [R.DMA_PAUSED_LO]) hg,
    Dev.get_setBit64_of_summary hn _ _ (by simp [R.DMA_ACTIVE_LO]) hg,
    Dev.get_set_of_apart _ _ _ _ (by simp [R.DMA_CH_STATUS_STATE]) (by simp only [R.DMA_CH_STATUS_STATE]; omega)]

theorem Dev.dstat_dgo (e : Dev) {st : Nat} (hst : st < 8) : (e.dgo n st).dstat n = st := by
  rw [Dev.dstat, Dev.dgo, Dev.get_setBit64_of_summary hn _ _ (by simp [R.DMA_PAUSED_LO]) rfl,
    Dev.get_setBit64_of_summary hn _ _ (by simp [R.DMA_ACTIVE_LO]) rfl, Dev.get_set_self _ _ _ (by simp [R.DMA_CH_STATUS_STATE])]
  exact Nat.mod_eq_of_lt hst

/-- The end of a drain and of the hold of a CRC unit write no status word. -/
theorem Dev.get_drained_released {g : Fld} (hg : g.addr = 0x19100C + 0x100 * n) : ((d.drained n).releaseCrc n).get g = d.get g := by
  have hrel : ∀ e : Dev, (e.releaseCrc n).get g = e.get g := fun e =>
    Dev.get_ite (Dev.get_set_of_addr_ne _ _ _ _ (by simp only [R.CRC_STATUS_OWNER, hg]; omega)) rfl
  have hmax : ∀ v, (d.keepMax R.DMA_DRAIN_MAX v).get g = d.get g := fun v =>
    Dev.get_ite (Dev.get_set_of_addr_ne _ _ _ _ (by simp only [R.DMA_DRAIN_MAX, hg]; omega)) rfl
  rw [hrel]
  unfold Dev.drained
  split
  · exact hmax _
  · rfl

theorem Dev.chainEnd_done_dstat : (d.chainEnd n 1).dstat n = 0 := by
  rw [Dev.chainEnd_done, Dev.dstat, Dev.get_pauses_cleared _ (.inl (by simp [R.DMA_CH_STATUS_STATE]))]
  refine (Dev.get_set_of_apart _ (R.DMA_CH_STATUS_END n) (R.DMA_CH_STATUS_STATE n) 1 (by simp [R.DMA_CH_STATUS_END])
    (.inr (.inl (by simp [R.DMA_CH_STATUS_END, R.DMA_CH_STATUS_STATE])))).trans ?_
  exact Dev.dstat_dgo hn _ (by decide)

theorem Dev.chainEnd_done_irq : (d.chainEnd n 1).is (R.DMA_CH_STATUS_IRQ n) = d.is (R.DMA_CH_STATUS_IRQ n) := by
  have h : (d.chainEnd n 1).get (R.DMA_CH_STATUS_IRQ n) = d.get (R.DMA_CH_STATUS_IRQ n) := by
    rw [Dev.chainEnd_done, Dev.get_pauses_cleared _ (.inr (by simp [R.DMA_CH_STATUS_IRQ]))]
    refine (Dev.get_set_of_apart _ (R.DMA_CH_STATUS_END n) (R.DMA_CH_STATUS_IRQ n) 1 (by simp [R.DMA_CH_STATUS_END])
      (.inr (.inr (by simp [R.DMA_CH_STATUS_END, R.DMA_CH_STATUS_IRQ])))).trans ?_
    rw [Dev.get_dgo hn _ _ rfl (by simp [R.DMA_CH_STATUS_IRQ]),
      Dev.get_set_of_addr_ne _ _ _ _ (by simp [R.DMA_CH_STATUS_IRQ, R.DMA_LAST_TAG]), Dev.get_drained_released hn rfl]
  rw [Dev.is, Dev.is, h]

end

end

end Sys2Proof.Machine

open Sys2Proof Sys2Proof.Machine

/-- Settles O31: a command of a CRC unit by whether the unit is held. -/
theorem crcUnits : Obligations.CrcUnits := by
  unfold Obligations.CrcUnits
  refine ⟨fun s u v b hup hu ho => ⟨runs_crcLoad hup hu (Dev.crcHost_free _ ho), ?data, ?data8⟩, fun s d u v b hup hu ho hd =>
    ⟨runs_crcLoad hup hu ((Dev.crcHost_held _ ho).trans hd.symm), runs_crcData hup hu ((Dev.crcHost_held _ ho).trans hd.symm),
      runs_crcData8 hup hu ((Dev.crcHost_held _ ho).trans hd.symm)⟩⟩
  case data =>
    refine runs_crcData hup hu ((Dev.crcHost_free _ ho).trans ?_)
    rw [Dev.crcFeed, length_bytesOf]
  case data8 => exact runs_crcData8 hup hu (Dev.crcHost_free _ ho)

/-- Settles O32: a command by the channel's state; a burst by whether a channel is ready; a completion by whether a read is outstanding; the
end of a chain by what it writes of the status word. -/
theorem dmaRuns : Obligations.DmaRuns := by
  unfold Obligations.DmaRuns
  refine ⟨fun s n e hup hn h => ⟨?_, ?_, ?_, ?_⟩, fun s n e hup hn h => ⟨?_, fun hp => ?_, fun hs => ?_, fun hs hr => ?_⟩,
    fun s n d hup hn h ht hd => ⟨fun hs => ?resumed, fun hs => ?stopping⟩, fun s n x d hup hnext hx hd => ?issue,
    fun s hup hnext => runs_of_onDev hup rfl (Dev.burstIssue_none hnext),
    fun s n a k x rest l d m hup hn hx hr he hk hm hp hl hw => gives_dmaBurstDone hup hn ((dmaBurstDone_host hx hr he hk hm hp hl).trans hw),
    fun s n h e hup hn hr => gives_dmaBurstDone hup hn (dmaBurstDone_no_reads s.mem h e hr),
    fun d n b hn hb => ⟨Dev.chainEnd_done_dstat hn, Dev.chainEnd_done_end, (Dev.chainEnd_done_irq hn).trans hb.symm⟩⟩
  · exact runs_of_dmaCmd hup hn rfl (Dev.dmaCmd_accepted (Dev.dmaStart_idle e h))
  · exact runs_of_dmaCmd hup hn rfl (Dev.dmaCmd_refused (Dev.dmaPause_idle h))
  · exact runs_of_dmaCmd hup hn rfl (Dev.dmaCmd_refused (Dev.dmaResume_idle h))
  · exact runs_of_dmaCmd hup hn rfl (Dev.dmaCmd_refused (Dev.dmaStop_idle h))
  · exact runs_of_dmaCmd hup hn rfl (Dev.dmaCmd_refused (Dev.dmaStart_busy e h))
  · exact runs_of_dmaCmd hup hn rfl (Dev.dmaCmd_accepted (Dev.dmaPause_moving hp))
  · exact runs_of_dmaCmd hup hn rfl (Dev.dmaCmd_accepted (Dev.dmaStop_at_once h hs))
  · exact runs_of_dmaCmd hup hn rfl (Dev.dmaCmd_accepted (Dev.dmaStop_drains hs hr))
  case resumed =>
    refine runs_of_dmaCmd hup hn rfl (Dev.dmaCmd_accepted ?_)
    rw [Dev.dmaResume_paused hd h ht, Dev.dmaResume_stopAt hd, hs]
    rfl
  case stopping =>
    refine runs_of_dmaCmd hup hn rfl (Dev.dmaCmd_accepted ?_)
    rw [Dev.dmaResume_paused hd h ht, Dev.dmaResume_stopAt hd, if_pos hs]
  case issue =>
    subst hx hd
    refine runs_of_onDev hup rfl ?_
    simp only [Dev.burstIssue, hnext]

end

-- The fabric: reception, neighbours and LSAs, formation, merges, items and swaps (14 R374–R399, 13 R357).
section
/-! PROOFS. What a message of the fabric does that this device takes or drops, and what the periods and commands of the fabric do. -/

namespace Sys2Proof.Machine

open Sys2Proof

/-! ## Reception (14 R374–R376) -/

section
variable {d : Dev} {n t : Nat} {f : HFrame} {pass : Dev → List Byte → List Byte} (act : Dev → FabHdr → List Byte → Dev)

theorem Dev.fabIn_quiet (h : d.fabOn = false ∨ d.fabUp n = false) : d.fabIn n f t pass act = d := by
  have hq : (!d.fabOn || !d.fabUp n) = true := by simpa using h
  rw [Dev.fabIn, if_pos hq]

section
variable (hon : d.fabOn = true) (hup : d.fabUp n = true)
include hon hup

theorem Dev.fabIn_broken (h : frameOk f = false ∨ leAt f.start 0 1 ≠ 0xA0) : d.fabIn n f t pass act = d.fabFrameErr n := by
  have hq : (!frameOk f || leAt f.start 0 1 != 0xA0) = true := by simpa using h
  simp only [Dev.fabIn, hon, hup, hq, Bool.not_true, Bool.or_self, Bool.false_eq_true, if_false, if_true]

variable (hok : frameOk f = true) (hst : leAt f.start 0 1 = 0xA0)
include hok hst

/-- A message of another type, or on a port that is no MEMBER, is dropped. -/
theorem Dev.fabIn_other (h : (parseFab f.body).type ≠ t ∨ (d.fmember n = false ∧ t ≠ 1 ∧ t ≠ 14)) : d.fabIn n f t pass act = d := by
  simp only [Dev.fabIn, hon, hup, hok, hst, bne_self_eq_false, Bool.not_true, Bool.or_self, Bool.false_eq_true, if_false, if_pos h]

variable (hdest : (parseFab f.body).dest = 0xFF)
include hdest

/-- A flood already seen is neither taken nor passed on. -/
theorem Dev.fabIn_seen (hnew : d.floodNew (parseFab f.body) = false) : d.fabIn n f t pass act = d := by
  have hne : ¬ (parseFab f.body).dest = 0xFE := by rw [hdest]; decide
  simp only [Dev.fabIn, hon, hup, hok, hst, bne_self_eq_false, Bool.not_true, Bool.or_self, Bool.false_eq_true, if_false, hnew, if_neg hne,
    if_pos hdest, ite_self]

end

end

/-- A message this device takes, of any type but TIME, which alone is changed on its way, has its own effect. -/
theorem runs_of_message {c : Instr} {s : State} {n t : Nat} {f : HFrame} {h : FabHdr} {pl : List Byte} {d e : Dev}
    {act : Dev → FabHdr → List Byte → Dev} (hup : Up s) (hn : n < 8) (hf : ForMe s.dev n f t h pl e) (ht : t ≠ 7)
    (hc : exec c s = onDevIf (decide (n < 8)) (fun d => d.fabIn n f t asIs act) s) (hd : act e h pl = d) : Runs c s d :=
  runs_of_event hup hn hc ((Dev.fabIn_forMe act hf (fun q => by rw [if_neg ht]; rfl)).trans hd)

/-- A message that is not taken leaves the device as it was. -/
theorem runs_of_dropped {c : Instr} {s : State} {n t : Nat} {f : HFrame} {d : Dev} {act : Dev → FabHdr → List Byte → Dev} (hup : Up s)
    (hn : n < 8) (hc : exec c s = onDevIf (decide (n < 8)) (fun d => d.fabIn n f t asIs act) s) (hd : s.dev.fabIn n f t asIs act = d) :
    Runs c s d := runs_of_event hup hn hc hd

/-! ### Who may command this device (00_scope R1) -/

section
variable {d : Dev} {h : FabHdr} {pl : List Byte} (act : Dev → FabHdr → List Byte → Dev)

theorem fromRoot_root (hr : d.isRootId h.id = true) : fromRoot act d h pl = act d h pl := if_pos hr

theorem fromRoot_other (hr : d.isRootId h.id = false) : fromRoot act d h pl = d := by simp [fromRoot, hr]

theorem fromMember_member (hid : h.id ≠ 0) (hr : d.rosterAt h.src = h.id) : fromMember act d h pl = act d h pl := if_pos ⟨hid, hr⟩

theorem fromMember_other (hr : d.rosterAt h.src ≠ h.id) : fromMember act d h pl = d := by simp [fromMember, hr]

/-- What leaves the device as it is has no effect, whoever sent the message. -/
theorem fromMember_of_id (ha : act d h pl = d) : fromMember act d h pl = d := by rw [fromMember, ha, ite_self]

end

/-! ### What taking a message leaves of the device -/

section
variable {d e : Dev} {n t : Nat} {f : HFrame} {h : FabHdr} {pl : List Byte} (hf : ForMe d n f t h pl e)
include hf

theorem forMe_isRootId (x : Nat) : e.isRootId x = d.isRootId x := by
  obtain ⟨q, l, rfl⟩ := forMe_device hf
  rfl

theorem forMe_rosterAt (x : Nat) : e.rosterAt x = d.rosterAt x := by
  obtain ⟨q, l, rfl⟩ := forMe_device hf
  rfl

theorem forMe_get (x : Fld) : e.get x = d.get x := by
  obtain ⟨q, l, rfl⟩ := forMe_device hf
  rfl

theorem forMe_is (x : Fld) : e.is x = d.is x := by rw [Dev.is, forMe_get hf, ← Dev.is]

theorem forMe_lsa (x : Nat) : e.lsa x = d.lsa x := by
  obtain ⟨q, l, rfl⟩ := forMe_device hf
  rfl

theorem forMe_fmember (x : Nat) : e.fmember x = d.fmember x := by rw [Dev.fmember, forMe_get hf, ← Dev.fmember]

theorem forMe_unite (far : List (Nat × Nat)) : e.unite far = d.unite far := by
  obtain ⟨q, l, rfl⟩ := forMe_device hf
  rfl

theorem forMe_tracking : e.tracking = d.tracking := by
  obtain ⟨q, l, rfl⟩ := forMe_device hf
  rfl

theorem forMe_items : e.items = d.items := by
  obtain ⟨q, l, rfl⟩ := forMe_device hf
  rfl

theorem forMe_item? (x : Nat) : e.item? x = d.item? x := by rw [Dev.item?, forMe_items hf, ← Dev.item?]

theorem forMe_evt : e.evt = d.evt := by
  obtain ⟨q, l, rfl⟩ := forMe_device hf
  rfl

theorem forMe_swap : e.fab.swap = d.fab.swap := by
  obtain ⟨q, l, rfl⟩ := forMe_device hf
  rfl

theorem forMe_decided : e.fab.decided = d.fab.decided := by
  obtain ⟨q, l, rfl⟩ := forMe_device hf
  rfl

theorem forMe_memberAddrs : e.memberAddrs = d.memberAddrs := by
  obtain ⟨q, l, rfl⟩ := forMe_device hf
  rfl

end

/-! ### Messages by who sent them -/

section
variable {c : Instr} {s : State} {n t : Nat} {f : HFrame} {h : FabHdr} {pl : List Byte} {d e : Dev} {act : Dev → FabHdr → List Byte → Dev}
  (hup : Up s) (hn : n < 8) (hf : ForMe s.dev n f t h pl e) (ht : t ≠ 7)
include hup hn hf ht

theorem runs_of_rootMessage (hc : exec c s = onDevIf (decide (n < 8)) (fun d => d.fabIn n f t asIs (fromRoot act)) s)
    (hr : s.dev.isRootId h.id = true) (hd : act e h pl = d) : Runs c s d :=
  runs_of_message hup hn hf ht hc ((fromRoot_root act ((forMe_isRootId hf h.id).trans hr)).trans hd)

theorem runs_of_not_rootMessage (hc : exec c s = onDevIf (decide (n < 8)) (fun d => d.fabIn n f t asIs (fromRoot act)) s)
    (hr : s.dev.isRootId h.id = false) : Runs c s e :=
  runs_of_message hup hn hf ht hc (fromRoot_other act ((forMe_isRootId hf h.id).trans hr))

theorem runs_of_memberMessage (hc : exec c s = onDevIf (decide (n < 8)) (fun d => d.fabIn n f t asIs (fromMember act)) s)
    (hid : h.id ≠ 0) (hm : s.dev.rosterAt h.src = h.id) (hd : act e h pl = d) : Runs c s d :=
  runs_of_message hup hn hf ht hc ((fromMember_member act hid ((forMe_rosterAt hf h.src).trans hm)).trans hd)

theorem runs_of_not_memberMessage (hc : exec c s = onDevIf (decide (n < 8)) (fun d => d.fabIn n f t asIs (fromMember act)) s)
    (hm : s.dev.rosterAt h.src ≠ h.id) : Runs c s e :=
  runs_of_message hup hn hf ht hc (fromMember_other act (by rwa [forMe_rosterAt hf]))

end

/-! ## HELLO and LSA (14 R375, R377–R383) -/

theorem Dev.helloPeriod_on {d e : Dev} (hon : d.fabOn = true) (he : e = forEach ((List.range 8).filter d.fabUp) Dev.helloSend d) :
    d.helloPeriod = e.flood 2 e.ownLsa.payload := by
  subst he
  exact if_pos hon

theorem Dev.helloPeriod_off {d : Dev} (h : d.fabOn = false) : d.helloPeriod = d := by simp [Dev.helloPeriod, h]

theorem Dev.helloSend_eq (d : Dev) (n : Nat) :
    d.helloSend n = (((if (d.fport n).gotNow then d else d.bump (R.FP_HELLO_MISS_CNT n) 1).setFport n
      { d.fport n with gotNow := false, sentAt := d.timeNs :: (d.fport n).sentAt.take 7 }).sendNbr n 1 (d.helloPayload n)) := by
  cases hg : (d.fport n).gotNow <;> simp [Dev.helloSend, Machine.when, hg]

theorem runs_helloTimeout_up {s : State} {n : Nat} (hup : Up s) (hn : n < 8) (hon : s.dev.fabOn = true) (hl : s.dev.fabUp n = true) :
    Runs (.helloTimeout n) s (s.dev.fabTakeDown n 11) :=
  runs_of_event hup hn rfl (if_pos (by rw [hon, hl]; rfl))

theorem runs_formTimeout {s : State} {b : Bool} (hup : Up s) (hb : (s.dev.fabOn && s.dev.is R.FAB_STATUS_ROOT) = b) :
    Runs .formTimeout s (if b then { s.dev with fab := { s.dev.fab with formTmo := true } }.fabRefresh else s.dev) := by
  subst hb
  exact runs_of_onDev hup rfl rfl

/-! ## MERGE and ANCHOR (14 R392, R399) -/

theorem runs_of_fabCmd {c : Instr} {s : State} {f : Dev → Dev} {d : Dev} (hup : Up s) (h3 : s.dev.domOn 3 = true)
    (hc : exec c s = onHost (fun d => d.inDomain 3 f) s) (h : f s.dev = d) : Runs c s d :=
  runs_of_onHost hup hc ((Dev.inDomain_on f h3).trans h)

section
variable {d : Dev} {n : Nat} {far : List (Nat × Nat)}

theorem Dev.fabMerge_no_port (h : 7 < n) : d.fabMerge n far = d.set R.FAB_RESULT_CODE 3 := if_pos h

theorem Dev.fabMerge_not_adjacent (h : n ≤ 7) (ha : d.is (R.FP_STATUS_ADJ n) = false) : d.fabMerge n far = d.set R.FAB_RESULT_CODE 2 := by
  rw [Dev.fabMerge, if_neg (Nat.not_lt.mpr h), if_pos (by simp [ha])]
  rfl

section
variable (h : n ≤ 7) (hon : d.fabOn = true) (ha : d.is (R.FP_STATUS_ADJ n) = true) (hm : d.fmember n = false)
include h hon ha hm

theorem Dev.fabMerge_clash (hu : d.unite far = none) : d.fabMerge n far = d.set R.FAB_RESULT_CODE 4 := by
  simp only [Dev.fabMerge, if_neg (Nat.not_lt.mpr h), hon, ha, hm, hu]
  rfl

theorem Dev.fabMerge_unites {u : SMap Nat} (hu : d.unite far = some u) :
    d.fabMerge n far = (((d.sendNbr n 14 (bytesOf 4 (d.get R.FAB_FORMATION) ++ bytesOf 4 d.fab.roster.length)).set
      R.FAB_RESULT_CODE 0).wrap R.FAB_RESULT_SEQ 1).mergeDone n u := by
  simp only [Dev.fabMerge, if_neg (Nat.not_lt.mpr h), hon, ha, hm, hu]
  rfl

end

end

section
variable {d : Dev} (hon : d.fabOn = true)
include hon

theorem Dev.fabAnchor_not_root (a : Nat) (h : d.is R.FAB_STATUS_ROOT = false) : d.fabAnchor a = d.set R.FAB_RESULT_CODE 2 := by
  simp only [Dev.fabAnchor, hon, h]
  rfl

/-- The anchor moves where this device is IDLE and every other member of the component has reported IDLE. -/
theorem Dev.fabAnchor_root {a : Nat} (h : d.is R.FAB_STATUS_ROOT = true) (hidle : d.dstate = .idle)
    (hall : ∀ x ∈ d.fab.roster, d.fab.comp.contains x.2 = true → x.2 ≠ ownId →
      ∃ r, d.fab.reports.find? x.1 = some r ∧ r.2.2 / 4 % 8 = 2) (ha : d.rosterAt a ≠ 0) :
    d.fabAnchor a = (((((d.set R.FAB_ANCHOR_ADDR a).disowned).flood 15 (bytesOf 1 a ++ bytesOf 7 0)).set
      R.FAB_RESULT_CODE 0).wrap R.FAB_RESULT_SEQ 1).fabRefresh := by
  have hreports : ((d.fab.roster.filter (fun e => d.fab.comp.contains e.2)).all (fun e =>
      if e.2 = ownId then d.dstate == .idle else ((d.fab.reports.find? e.1).map (fun r => r.2.2 / 4 % 8 == 2)).getD false)) = true := by
    refine List.all_eq_true.mpr fun x hx => ?_
    obtain ⟨hmem, hcomp⟩ := List.mem_filter.mp hx
    by_cases hown : x.2 = ownId
    · simp [hown, hidle]
    · obtain ⟨r, hr, hst⟩ := hall x hmem hcomp hown
      simp [hown, hr, hst]
  simp only [Dev.fabAnchor, hreports, hon, h, if_neg ha]
  rfl

end

/-! ## Items and verdicts (14 R393, R394) -/

section
variable {d : Dev} {h : FabHdr} {pl : List Byte}

section
variable (ht : d.tracking = true)
include ht

theorem Dev.itemMessage_clash (hi : (d.item? (leAt pl 0 4)).isSome = true) :
    d.itemMessage h pl = d.raiseItem Ev.ITEM_NUMBER_CLASH (h.src % 64) (leAt pl 0 4) := by
  simp only [Dev.itemMessage, ht, hi, Bool.not_true, Bool.false_eq_true, if_false, if_true]

theorem Dev.itemMessage_new (hi : d.item? (leAt pl 0 4) = none) (hl : d.items.length < 4096) :
    d.itemMessage h pl = d.acceptItem (d.newItem (leAt pl 0 4) (8 + leAt pl 4 1 % 8) (hasBit (leAt pl 5 1) 0) (hasBit (leAt pl 5 1) 1)
      (leAt pl 8 8) (leAt pl 0x10 8) (leAt pl 0x18 4) h.src none) := by
  simp only [Dev.itemMessage, ht, hi, Bool.not_true, Option.isSome_none, Bool.false_eq_true, if_false, if_neg (Nat.not_le.mpr hl)]

end

theorem Dev.verdictMessage_none (hi : d.item? (leAt pl 0 4) = none) : d.verdictMessage h pl = d := by simp only [Dev.verdictMessage, hi]

/-- A verdict the origin awaits, while its own checks have not all reported. -/
theorem Dev.verdictMessage_awaited {i : Item} (hi : d.item? (leAt pl 0 4) = some i) (hd : i.dist = true) (hdec : i.decidedAt = none)
    (hw : i.awaiting.contains h.src = true) (hown : i.ownAt = none) :
    d.verdictMessage h pl = d.updItem (leAt pl 0 4) (fun x => { x with
      causes := x.causes ||| leAt pl 8 4, attempted := x.attempted || hasBit (leAt pl 4 1) 0
      awaiting := i.awaiting.filter (· != h.src) }) := by
  simp only [Dev.verdictMessage, hi, hd, hdec, hw, hown]
  rfl

end

/-- A verdict that this device takes, after which no item record waits for the keeper. -/
theorem runs_verdict {s : State} {n : Nat} {f : HFrame} {h : FabHdr} {pl : List Byte} {d e : Dev} (hup : Up s) (hn : n < 8)
    (hf : ForMe s.dev n f 9 h pl e) (hd : fromMember (fun d h pl => d.verdictMessage h pl) e h pl = d) (hl : d.evt.latched = []) :
    Runs (.verdict n f) s d := by
  have hin := (Dev.fabIn_forMe (pass := asIs) (fromMember (fun d h pl => d.verdictMessage h pl)) hf (fun _ => rfl)).trans hd
  refine runs_of_gives_keepCommit ?_ hl
  rw [Gives, exec, execVerdict, onDevKeep_awake _ (decide_eq_true hn) hup.1, hin]

/-! ## Swaps over the fabric (14 R396, R397) -/

section
variable {d : Dev} {id a c : Nat}

theorem Dev.countVote_unknown (h : ∀ w, d.fab.swap = some w → w.id ≠ id) : d.countVote id a c = d := by
  unfold Dev.countVote
  split
  · rfl
  · next w hw => exact if_pos (h w hw)

theorem Dev.countVote_refusing {w : FabSwap} (hw : d.fab.swap = some w) (hid : w.id = id) (hc : c ≠ 0) :
    d.countVote id a c = d.rootDecide w c a := by simp only [Dev.countVote, hw, hid, ne_eq, not_true_eq_false, hc, not_false_eq_true, if_false, if_true]

theorem Dev.countVote_kept {w : FabSwap} (hw : d.fab.swap = some w) (hid : w.id = id) (hc : c = 0)
    (hall : d.memberAddrs.all (fun x => (a :: w.votes).contains x) = false) :
    d.countVote id a c = { d with fab := { d.fab with swap := some { w with votes := a :: w.votes } } } := by
  simp only [Dev.countVote, hw, hid, hc, hall, ne_eq, not_true_eq_false, Bool.false_eq_true, if_false]

theorem Dev.takeDecision_first (n : Nat) (h : d.fab.decided.find? (fun x => x.1 == id) = none) : d.takeDecision id c n = d.decideNew id c n := by
  simp only [Dev.takeDecision, h]

section
variable {b : Nat} (h : d.fab.decided.find? (fun x => x.1 == id) = some (id, b))
include h

theorem Dev.takeDecision_again (n : Nat) (hb : b = 0 ↔ c = 0) : d.takeDecision id c n = d := by
  have heq : ((b == 0) == (c == 0)) = true := by
    rwa [beq_iff_eq, Bool.eq_iff_iff, beq_iff_eq, beq_iff_eq]
  simp only [Dev.takeDecision, h, heq, if_true]

theorem Dev.takeDecision_contradicts (n : Nat) (hb : ¬ (b = 0 ↔ c = 0)) : d.takeDecision id c n = d.isolate id := by
  have heq : ((b == 0) == (c == 0)) = false := by
    rwa [Bool.eq_false_iff, ne_eq, beq_iff_eq, Bool.eq_iff_iff, beq_iff_eq, beq_iff_eq]
  simp only [Dev.takeDecision, h, heq, Bool.false_eq_true, if_false]

end

end

end Sys2Proof.Machine

open Sys2Proof Sys2Proof.Machine

/-- Settles O35: a frame by whether its port is UP, whether it is intact, of the type named and new; a message that is taken by its own
effect. -/
theorem fabricKnows : Obligations.FabricKnows := by
  unfold Obligations.FabricKnows
  refine ⟨fun s n f hup hn hon hl hbad => runs_of_dropped hup hn rfl (Dev.fabIn_broken _ hon hl hbad),
    fun s n f hup hn h => runs_of_dropped hup hn rfl (Dev.fabIn_quiet _ h), fun s n f hup hn hon hl hok hst h => ?other,
    fun s n f hup hn hon hl hok hst hdest hnew => runs_of_dropped hup hn rfl (Dev.fabIn_seen _ hon hl hok hst hdest hnew),
    fun s n f h d hup hn hon hl hok hst hh ht hm hdest hnew hform hd => ?passed,
    fun s d hup hon hd => runs_of_onDev hup rfl (Dev.helloPeriod_on hon hd), fun d n x hx => hx ▸ d.helloSend_eq n,
    fun s hup hoff => runs_of_onDev hup rfl (Dev.helloPeriod_off hoff),
    fun s n f h pl e hup hn hf => runs_of_message hup hn hf (by decide) rfl rfl,
    fun s n hup hn hon hl => runs_helloTimeout_up hup hn hon hl, fun s n f h pl d e hup hn hf hd => ⟨fun hsame => ?known, fun hnew => ?new⟩,
    fun s hup => ⟨fun hon hr => runs_formTimeout hup (b := true) (by rw [hon, hr]; rfl),
      fun hr => runs_formTimeout hup (b := false) (by rw [hr, Bool.and_false])⟩⟩
  case other => exact runs_of_dropped hup hn rfl (Dev.fabIn_other _ hon hl hok hst (h.imp_right fun h => ⟨h, by decide, by decide⟩))
  case passed =>
    have hf : ForMe s.dev n f 5 h ((f.body.take (f.body.length - 4)).drop 16) (d.forward n f.body) :=
      ⟨hon, hl, hok, hst, hh, rfl, ht, .inl hm, .inr ⟨hdest, hnew, by rw [hd]; rfl⟩⟩
    refine runs_of_message hup hn hf (by decide) rfl ?_
    rw [← forMe_get hf] at hform
    simp only [fromRoot, if_neg hform, ite_self]
  case known =>
    refine runs_of_message hup hn hf (by decide) rfl ?_
    rw [← forMe_lsa hf] at hsame
    exact (if_pos hsame).trans hd.symm
  case new =>
    refine runs_of_message hup hn hf (by decide) rfl ?_
    rw [← forMe_lsa hf] at hnew
    rw [hd]
    exact if_neg hnew

/-- Settles O36: each message by whether its source is the root or a member; each command by the conditions of its codes. -/
theorem fabricFormed : Obligations.FabricFormed := by
  unfold Obligations.FabricFormed
  refine ⟨fun s n t f h pl e hup hn hf => ⟨fun hr => ⟨?assign, ?ready, ?readyOther⟩, fun hid hm => ?report,
      fun hr => ⟨?assignDropped, ?readyDropped⟩, fun hm => ?reportDropped⟩,
    fun s n far hup h3 => ⟨fun h => runs_of_fabCmd hup h3 rfl (Dev.fabMerge_no_port h),
      fun h ha => runs_of_fabCmd hup h3 rfl (Dev.fabMerge_not_adjacent h ha), fun h hon ha hm =>
      ⟨fun hu => runs_of_fabCmd hup h3 rfl (Dev.fabMerge_clash h hon ha hm hu),
        fun u hu => runs_of_fabCmd hup h3 rfl (Dev.fabMerge_unites h hon ha hm hu)⟩⟩,
    fun s a hup h3 hon => ⟨fun hr => runs_of_fabCmd hup h3 rfl (Dev.fabAnchor_not_root hon a hr),
      fun hr hidle hall ha => runs_of_fabCmd hup h3 rfl (Dev.fabAnchor_root hon hr hidle hall ha)⟩,
    fun s n f h pl far e hup hn hf ha hm => ⟨fun u hu => ?merge, fun hu => ?mergeRefused⟩,
    fun s n f h pl e hup hn hf => ⟨fun hr => ?anchor, fun hr => ?anchorDropped⟩⟩
  case assign =>
    rintro rfl
    exact runs_of_message hup hn hf (by decide) rfl (fromRoot_root _ ((forMe_isRootId hf h.id).trans hr))
  case ready =>
    rintro rfl hform
    rw [← forMe_get hf] at hform
    exact runs_of_rootMessage hup hn hf (by decide) rfl hr (if_pos hform)
  case readyOther =>
    rintro rfl hform
    rw [← forMe_get hf] at hform
    exact runs_of_rootMessage hup hn hf (by decide) rfl hr (if_neg hform)
  case report =>
    rintro rfl
    exact runs_of_memberMessage hup hn hf (by decide) rfl hid hm rfl
  case assignDropped =>
    rintro rfl
    exact runs_of_message hup hn hf (by decide) rfl (fromRoot_other _ ((forMe_isRootId hf h.id).trans hr))
  case readyDropped =>
    rintro rfl
    exact runs_of_not_rootMessage hup hn hf (by decide) rfl hr
  case reportDropped =>
    rintro rfl
    exact runs_of_not_memberMessage hup hn hf (by decide) rfl hm
  case merge =>
    refine runs_of_message hup hn hf (by decide) rfl ?_
    simp only [forMe_is hf, forMe_fmember hf, forMe_unite hf, ha, hm, hu]
    rfl
  case mergeRefused =>
    refine runs_of_message hup hn hf (by decide) rfl ?_
    simp only [forMe_is hf, forMe_fmember hf, forMe_unite hf, ha, hm, hu]
    rfl
  case anchor => exact runs_of_rootMessage hup hn hf (by decide) rfl hr rfl
  case anchorDropped => exact runs_of_not_rootMessage hup hn hf (by decide) rfl hr

/-- Settles O38: each message by whether its source is a member or the root, then by the item, the swap or the decision it names. -/
theorem fabricAgrees : Obligations.FabricAgrees := by
  unfold Obligations.FabricAgrees
  refine ⟨fun s n f h pl e hup hn hf hid hm ht => ⟨fun hi => ?clash, fun hi hl => ?newItem⟩,
    fun s n f h pl i e hup hn hf hid hm hl hi hdist hdec hw hown => ?verdict, fun s n f h pl e hup hn hf hl hi => ?verdictNone,
    fun s n t f h pl e hup hn hf hm => ⟨?itemDropped, ?verdictDropped⟩,
    fun s n t f h pl e hup hn hf => ⟨fun hid hm => ⟨?request, ?requestElsewhere, ?vote, ?voteOther⟩, fun hr => ⟨?prep, ?again, ?contradicts, ?first⟩,
      fun hr => ⟨?prepDropped, ?decideDropped⟩⟩⟩
  case clash =>
    rw [← forMe_item? hf] at hi
    exact runs_of_memberMessage hup hn hf (by decide) rfl hid hm (Dev.itemMessage_clash ((forMe_tracking hf).trans ht) hi)
  case newItem =>
    rw [← forMe_item? hf] at hi
    rw [← forMe_items hf] at hl
    exact runs_of_memberMessage hup hn hf (by decide) rfl hid hm (Dev.itemMessage_new ((forMe_tracking hf).trans ht) hi hl)
  case verdict =>
    rw [← forMe_item? hf] at hi
    rw [← forMe_evt hf] at hl
    exact runs_verdict hup hn hf ((fromMember_member _ hid ((forMe_rosterAt hf h.src).trans hm)).trans
      (Dev.verdictMessage_awaited hi hdist hdec hw hown)) hl
  case verdictNone =>
    rw [← forMe_item? hf] at hi
    rw [← forMe_evt hf] at hl
    exact runs_verdict hup hn hf (fromMember_of_id _ (Dev.verdictMessage_none hi)) hl
  case itemDropped =>
    rintro rfl
    exact runs_of_not_memberMessage hup hn hf (by decide) rfl hm
  case verdictDropped =>
    rintro rfl hl
    rw [← forMe_evt hf] at hl
    exact runs_verdict hup hn hf (fromMember_other _ (by rwa [forMe_rosterAt hf])) hl
  case request =>
    rintro rfl hr
    rw [← forMe_is hf] at hr
    exact runs_of_memberMessage hup hn hf (by decide) rfl hid hm (if_pos hr)
  case requestElsewhere =>
    rintro rfl hr
    rw [← forMe_is hf] at hr
    exact runs_of_memberMessage hup hn hf (by decide) rfl hid hm (if_neg (by rw [hr]; decide))
  case vote =>
    rintro rfl w hw hwid
    rw [← forMe_swap hf] at hw
    refine ⟨fun hc => ?_, fun hc hall => ?_⟩
    · exact runs_of_memberMessage hup hn hf (by decide) rfl hid hm (Dev.countVote_refusing hw hwid hc)
    · rw [← forMe_memberAddrs hf] at hall
      exact runs_of_memberMessage hup hn hf (by decide) rfl hid hm (Dev.countVote_kept hw hwid hc hall)
  case voteOther =>
    rintro rfl hw
    rw [← forMe_swap hf] at hw
    exact runs_of_memberMessage hup hn hf (by decide) rfl hid hm (Dev.countVote_unknown hw)
  case prep =>
    rintro rfl d c hp
    exact runs_of_rootMessage hup hn hf (by decide) rfl hr (by simp only [hp])
  case again =>
    rintro rfl c hc hb
    rw [← forMe_decided hf] at hc
    exact runs_of_rootMessage hup hn hf (by decide) rfl hr (Dev.takeDecision_again hc _ hb)
  case contradicts =>
    rintro rfl c hc hb
    rw [← forMe_decided hf] at hc
    exact runs_of_rootMessage hup hn hf (by decide) rfl hr (Dev.takeDecision_contradicts hc _ hb)
  case first =>
    rintro rfl hc
    rw [← forMe_decided hf] at hc
    exact runs_of_rootMessage hup hn hf (by decide) rfl hr (Dev.takeDecision_first _ hc)
  case prepDropped =>
    rintro rfl
    exact runs_of_not_rootMessage hup hn hf (by decide) rfl hr
  case decideDropped =>
    rintro rfl
    exact runs_of_not_rootMessage hup hn hf (by decide) rfl hr

end

-- Device time: SET, STEP, TIM_ADJ, the latched read, the keeper counters, the clock (15 R401–R411).
section
/-! PROOFS. What the commands of device time do, by the code each answers; what one clock adds. -/

namespace Sys2Proof.Machine

open Sys2Proof

/-! ## Owner and codes (15 Table 15.1, R405, R406) -/

section
variable {d : Dev} {v : Bool}

theorem Dev.owns_owner (hf : d.fabOwns = false) (h : d.is R.TIM_CTRL_OWNER = !v) : d.owns v = true := by simp [Dev.owns, hf, h]

theorem Dev.owns_other (h : d.fabOwns = true ∨ d.is R.TIM_CTRL_OWNER = v) : d.owns v = false := by
  rcases h with h | h <;> simp [Dev.owns, h]

theorem Dev.setCode_fabric (ns : Nat) (hf : d.fabOwns = true) : d.setCode v ns = .fabric := if_pos hf

theorem Dev.stepCode_fabric (o : Int) (hf : d.fabOwns = true) : d.stepCode v o = .fabric := if_pos hf

section
variable (hf : d.fabOwns = false)
include hf

theorem Dev.setCode_owner (ns : Nat) (ho : d.is R.TIM_CTRL_OWNER = v) (hv : v = true ∨ d.is R.TIM_STATUS_VALID = true) :
    d.setCode v ns = .owner := by
  have hown := Dev.owns_other (.inr ho)
  have hsrc : (v || d.is R.TIM_STATUS_VALID) = true := by simpa using hv
  simp [Dev.setCode, hf, hown, hsrc]

/-- A SET that the source may give, or the host's first one, fails by its value or the device state only. -/
theorem Dev.setCode_admitted (ns : Nat) (ho : d.is R.TIM_CTRL_OWNER = !v ∨ v = false ∧ d.is R.TIM_STATUS_VALID = false) :
    d.setCode v ns = if 1000000000 ≤ ns then .badArg else if d.is R.TIM_STATUS_VALID ∧ d.dstate ≠ .idle then .state else .ok := by
  have hown : (!d.owns v && (v || d.is R.TIM_STATUS_VALID)) = false := by
    rcases ho with ho | ⟨hv, hval⟩
    · simp [Dev.owns_owner hf ho]
    · simp [hv, hval]
  simp only [Dev.setCode, hf, hown, Bool.false_eq_true, if_false]
  rfl

theorem Dev.stepCode_owner (o : Int) (ho : d.is R.TIM_CTRL_OWNER = v) : d.stepCode v o = .owner := by
  simp [Dev.stepCode, hf, Dev.owns_other (.inr ho)]

/-- A STEP of the owner fails before VALID, beyond the limit, or on the anchor of a ready fabric that prints. -/
theorem Dev.stepCode_admitted (o : Int) (ho : d.is R.TIM_CTRL_OWNER = !v) :
    d.stepCode v o = if d.is R.TIM_STATUS_VALID = false then .badArg else if d.get R.TIM_STEP_LIM < o.natAbs then .limit
      else if (d.isAnchor && d.is R.FAB_CFG_EN && d.fab.st == .ready && d.printing) = true then .fabric else .ok := by
  simp [Dev.stepCode, hf, Dev.owns_owner hf ho]

end

end

theorem Dev.timeBusy_of_idle {d : Dev} {v : Bool} (h : v = true ∨ d.is R.TIM_RESULT_BUSY = false) : d.timeBusy v = false := by
  rcases h with h | h <;> simp [Dev.timeBusy, h]

theorem Dev.timeResult_ok (d : Dev) (v : Bool) :
    d.timeResult v .ok = if v then d else (d.set R.TIM_RESULT_CODE 0).wrap R.TIM_RESULT_SEQ 1 := by cases v <;> rfl

theorem Dev.timeResult_refused (d : Dev) (v : Bool) {c : TimeCode} (hc : c ≠ .ok) :
    d.timeResult v c = if v then d else d.set R.TIM_RESULT_CODE c.num := by cases v <;> simp [Dev.timeResult, hc]

/-! ## SET (15 R405, R410, R411) -/

section
variable {s : State} {v : Bool} {sec ns : Nat} (hup : Up s)
include hup

theorem runs_set_busy (hb : s.dev.is R.TIM_RESULT_BUSY = true) : Runs (.set false sec ns) s (s.dev.setB R.TIM_RESULT_OVR true) := by
  simp [Runs, exec, execSet, hup.1, hup.2, Dev.timeBusy, hb]

variable (hb : s.dev.timeBusy v = false)
include hb

theorem gives_set_accepted (hc : s.dev.setCode v ns = .ok) :
    Gives (.set v sec ns) s { s with
      dev := (s.dev.setDone sec ns).timeResult v .ok, nv := { s.nv with keep := s.nv.keep.onSet sec ns } } := by
  simp [Gives, exec, execSet, hup.1, hup.2, hb, hc]

theorem runs_set_refused {c : TimeCode} (hc : s.dev.setCode v ns = c) (hne : c ≠ .ok) :
    Runs (.set v sec ns) s (if v then s.dev else s.dev.set R.TIM_RESULT_CODE c.num) := by
  rw [← Dev.timeResult_refused s.dev v hne]
  simp [Runs, exec, execSet, hup.1, hup.2, hb, hc, hne]

end

/-! ## STEP (15 R406) -/

section
variable {s : State} {o : Int} (hup : Up s)
include hup

theorem runs_step_busy (hb : s.dev.is R.TIM_RESULT_BUSY = true) : Runs (.step false o) s (s.dev.setB R.TIM_RESULT_OVR true) :=
  runs_of_onHost hup rfl (if_pos hb)

theorem runs_step {v : Bool} {d : Dev} (hb : s.dev.timeBusy v = false) (h : s.dev.stepTime v o = d) : Runs (.step v o) s d := by
  cases v with
  | true => exact runs_of_onDev hup rfl h
  | false => exact runs_of_onHost hup rfl ((if_neg (by rw [hb]; decide)).trans h)

end

section
variable {d : Dev} {v : Bool} {o : Int}

/-- An accepted STEP. -/
theorem Dev.stepTime_accepted {e : Dev} (hc : d.stepCode v o = .ok)
    (he : e = (((d.setTime ((d.tim.sec * 1000000000 + d.tim.ns : Nat) + o).toNat).set64 R.TIM_LAST_STEP_LO (ofSigned 64 o)).bump
      R.TIM_STEP_CNT 1).setB R.TIM_STATUS_KEEPER false) :
    d.stepTime v o = (e.leaveRefused.raise Ev.TIME_STEPPED (ofSigned 64 o)).timeResult v .ok := by
  subst he
  simp only [Dev.stepTime, hc, if_true]
  rfl

theorem Dev.stepTime_refused {c : TimeCode} (hc : d.stepCode v o = c) (hne : c ≠ .ok) :
    d.stepTime v o = ((d.bump R.TIM_REFUSE_CNT 1).raise Ev.TIME_STEP_REFUSED (c.num + 65536 * sat48 o)).timeResult v c := by
  simp only [Dev.stepTime, hc, if_neg hne]

end

/-! ## TIM_ADJ and the keeper counters (15 R404, R409) -/

theorem runs_timAdjWrite {s : State} {v : Bool} {w : Word} {d : Dev} (hup : Up s) (h : s.dev.writeAdj v w.toInt = d) :
    Runs (.timAdjWrite v w) s d := by
  cases v with
  | true => exact runs_of_onDev hup rfl h
  | false => exact runs_of_onHost hup rfl h

section
variable {d : Dev} {x : Int}

theorem Dev.putAdj_within (hlo : -549755814 ≤ x) (hhi : x ≤ 549755814) : d.putAdj x = d.set R.TIM_ADJ (ofSigned 32 x) :=
  (if_neg (Int.not_lt.mpr hhi)).trans (if_neg (Int.not_lt.mpr hlo))

theorem Dev.putAdj_above (h : 549755814 < x) : d.putAdj x = (d.set R.TIM_ADJ 549755814).setB R.TIM_STATUS_CLAMP true := if_pos h

theorem Dev.putAdj_below (h : x < -549755814) : d.putAdj x = (d.set R.TIM_ADJ (2 ^ 32 - 549755814)).setB R.TIM_STATUS_CLAMP true := by
  have hne : ¬ adjLimit < x := by unfold adjLimit; omega
  exact (if_neg hne).trans (if_pos h)

end

theorem gives_keeperWrite {s : State} {b : Bool} (hup : Up s) (h : s.dev.is R.TIM_STATUS_VALID = b) :
    Gives .keeperWrite s { s with nv := if b then { s.nv with keep := s.nv.keep.load s.dev.tim.sec s.dev.tim.ns } else s.nv } := by
  rw [Gives, exec, execKeeperWrite, hup.1, h, Bool.true_and]

/-! ## The clock (15 R401) -/

/-- A 32-bit signed value. -/
theorem toSigned32_bounds (x : Nat) : -(2 ^ 31 : Int) ≤ toSigned 32 x ∧ toSigned 32 x < 2 ^ 31 := by
  have h := Nat.mod_lt x (show 0 < 2 ^ 32 by decide)
  unfold toSigned
  split <;> omega

/-- Time in units of 2^-40 ns: the fraction, the nanoseconds and the seconds carry over exactly. -/
theorem timeCarry {acc ns sec : Nat} {a : Int} (hacc : acc < 2 ^ 40) (hns : ns < 1000000000) (hsec : sec + 1 < 2 ^ 64)
    (hlo : -(2 ^ 31 : Int) ≤ a) (hhi : a < 2 ^ 31) {t n : Nat} (ht : t = ((acc : Int) + 2 ^ 40 + a).toNat) (hn : n = ns + t / 2 ^ 40) :
    (((((sec + n / 1000000000) % 2 ^ 64) * 1000000000 + n % 1000000000) * 2 ^ 40 + t % 2 ^ 40 : Nat) : Int) =
      (((sec * 1000000000 + ns) * 2 ^ 40 + acc : Nat) : Int) + 2 ^ 40 + a := by
  have hwrap : (sec + n / 1000000000) % 2 ^ 64 = sec + n / 1000000000 := Nat.mod_eq_of_lt (by omega)
  rw [hwrap]
  omega

end Sys2Proof.Machine

open Sys2Proof Sys2Proof.Machine

/-- Settles O39: SET and STEP by the code each answers. -/
theorem timeSet : Obligations.TimeSet := by
  unfold Obligations.TimeSet
  refine ⟨fun s v sec ns d e hup hf hns ho hidle hb hd he => ?set, fun s sec ns hup hb => runs_set_busy hup hb,
    fun s v sec ns c hup hb hc => ?setRefused, fun s v o d e hup hf ho hv hlim hb ha hd he => ?step,
    fun s v o c e hup hb hc he => ?stepRefused, fun s o hup hb => runs_step_busy hup hb⟩
  case set =>
    have hstate : ¬ (s.dev.is R.TIM_STATUS_VALID = true ∧ s.dev.dstate ≠ .idle) := by
      rintro ⟨hv, hd⟩
      rcases hidle with h | h
      · rw [hv] at h; cases h
      · exact hd h
    have hcode : s.dev.setCode v ns = .ok := by
      rw [Dev.setCode_admitted hf ns ho, if_neg (Nat.not_le.mpr hns), if_neg hstate]
    have hdone : s.dev.setDone sec ns = e := by rw [he, hd]; rfl
    rw [← hdone, ← Dev.timeResult_ok]
    exact gives_set_accepted hup (Dev.timeBusy_of_idle hb) hcode
  case setRefused =>
    rcases hc with ⟨hf, rfl⟩ | ⟨hf, ho, hv, rfl⟩ | ⟨hf, ho, hns, rfl⟩ | ⟨hf, ho, hns, hv, hd, rfl⟩
    · exact runs_set_refused hup (Dev.timeBusy_of_idle hb) (Dev.setCode_fabric ns hf) (by decide)
    · exact runs_set_refused hup (Dev.timeBusy_of_idle hb) (Dev.setCode_owner hf ns ho hv) (by decide)
    · exact runs_set_refused hup (Dev.timeBusy_of_idle hb) ((Dev.setCode_admitted hf ns (.inl ho)).trans (if_pos hns)) (by decide)
    · exact runs_set_refused hup (Dev.timeBusy_of_idle hb) ((Dev.setCode_admitted hf ns (.inl ho)).trans
        ((if_neg (Nat.not_le.mpr hns)).trans (if_pos ⟨hv, hd⟩))) (by decide)
  case step =>
    have hready : (s.dev.isAnchor && s.dev.is R.FAB_CFG_EN && s.dev.fab.st == .ready && s.dev.printing) = false := by
      rcases ha with h | h | h | h <;> simp [h]
    have hcode : s.dev.stepCode v o = .ok := by
      rw [Dev.stepCode_admitted hf o ho, hv, hready, if_neg (Nat.not_lt.mpr hlim)]
      rfl
    refine runs_step hup (Dev.timeBusy_of_idle hb) ?_
    rw [Dev.stepTime_accepted hcode hd, Dev.timeResult_ok, he]
    rfl
  case stepRefused =>
    have hrefused : ∀ x : TimeCode, s.dev.stepCode v o = x → x ≠ .ok → c = x.num →
        Runs (.step v o) s (if v then e else e.set R.TIM_RESULT_CODE c) := fun x hx hne hnum => by
      subst hnum he
      exact runs_step hup (Dev.timeBusy_of_idle hb) ((Dev.stepTime_refused hx hne).trans (Dev.timeResult_refused _ v hne))
    rcases hc with ⟨hf, rfl⟩ | ⟨hf, ho, rfl⟩ | ⟨hf, ho, hv, rfl⟩ | ⟨hf, ho, hv, hlim, rfl⟩ | ⟨hf, ho, hv, hlim, hanchor, hen, hst, hprint, rfl⟩
    · exact hrefused .fabric (Dev.stepCode_fabric o hf) (by decide) rfl
    · exact hrefused .owner (Dev.stepCode_owner hf o ho) (by decide) rfl
    · exact hrefused .badArg ((Dev.stepCode_admitted hf o ho).trans (if_pos hv)) (by decide) rfl
    · exact hrefused .limit (by rw [Dev.stepCode_admitted hf o ho, hv, if_pos hlim]; rfl) (by decide) rfl
    · refine hrefused .fabric ?_ (by decide) rfl
      rw [Dev.stepCode_admitted hf o ho, hv, if_neg (Nat.not_lt.mpr hlim), hanchor, hen, hst, hprint]
      rfl

/-- Settles O40: TIM_ADJ by who writes it and whether the value is within ±500 ppm; the keeper by whether time is valid. -/
theorem timeAccesses : Obligations.TimeAccesses := by
  unfold Obligations.TimeAccesses
  refine ⟨fun s v w hup hf ho => ?owner, fun s v w hup h => ?other, fun s hup => runs_of_onDev hup rfl (if_neg hup.2),
    fun s hup hv => gives_keeperWrite hup hv, fun s hup hv => gives_keeperWrite hup hv⟩
  case owner =>
    have hwrite : s.dev.writeAdj v w.toInt = s.dev.putAdj w.toInt := if_pos (Dev.owns_owner hf ho)
    exact ⟨fun hlo hhi => runs_timAdjWrite hup (hwrite.trans (Dev.putAdj_within hlo hhi)),
      fun h => runs_timAdjWrite hup (hwrite.trans (Dev.putAdj_above h)), fun h => runs_timAdjWrite hup (hwrite.trans (Dev.putAdj_below h))⟩
  case other => exact runs_timAdjWrite hup (if_neg (by rw [Dev.owns_other h]; decide))

/-- Settles O41: the carries from fraction to nanoseconds and from nanoseconds to seconds are exact. -/
theorem timeAdvances : Obligations.TimeAdvances := by
  unfold Obligations.TimeAdvances
  intro d hacc hns hsec
  obtain ⟨hlo, hhi⟩ := toSigned32_bounds (d.get R.TIM_ADJ)
  exact ⟨timeCarry hacc hns hsec hlo hhi rfl rfl, Nat.mod_lt _ (by decide), Nat.mod_lt _ (by decide)⟩

end

-- PTP: masters and parent, offsets, path delays, the messages the device sends (15 R412–R416).
section
/-! PROOFS. What the messages of PTP do to the device that takes them, one branch of each; then what the servo makes of an offset. -/

namespace Sys2Proof.Machine

open Sys2Proof

/-! ## PTP takes a message (15 R412) -/

section
variable {d : Dev}

theorem Dev.ptpTakes_own (hon : d.ptpOn = true) : d.ptpTakes (d.obj 0x1210 2 0) = true := by simp [Dev.ptpTakes, hon]

theorem Dev.ptpTakes_other {dom : Nat} (h : d.ptpOn = false ∨ dom ≠ d.obj 0x1210 2 0) : d.ptpTakes dom = false := by
  rcases h with h | h <;> simp [Dev.ptpTakes, h]

theorem Dev.servoOn_eq (hon : d.ptpOn = true) : d.servoOn = d.owns true := by simp [Dev.servoOn, hon]

/-! ## Announce and the parent (15 R412, Table 15.3) -/

theorem Dev.announce_off {dom : Nat} {ts : Bool} {m : Master} (hon : d.ptpOn = false) : d.announce dom ts m = d := by
  simp [Dev.announce, hon]

section
variable (hon : d.ptpOn = true)
include hon

theorem Dev.announce_discarded {dom : Nat} {ts : Bool} {m : Master}
    (h : dom ≠ d.obj 0x1210 2 0 ∨ ts = false ∨ 255 ≤ m.steps) :
    d.announce dom ts m = if d.ptp.foreign.contains m.src then d
      else { d with ptp := { d.ptp with foreign := m.src :: d.ptp.foreign } }.raise Ev.PTP_FOREIGN
        (dom % 256 + 256 * (if ts then 1 else 0)) := by
  have hno : (dom == d.obj 0x1210 2 0 && ts && decide (m.steps < 255)) = false := by
    rcases h with h | h | h
    · simp [h]
    · simp [h]
    · simp [Nat.not_lt.mpr h]
  simp only [Dev.announce, hon, hno, Bool.not_true, Bool.false_eq_true, if_false]

theorem Dev.announce_known {dom : Nat} {ts : Bool} {m : Master}
    (h : dom ≠ d.obj 0x1210 2 0 ∨ ts = false ∨ 255 ≤ m.steps) (hf : m.src ∈ d.ptp.foreign) : d.announce dom ts m = d :=
  (Dev.announce_discarded hon h).trans (if_pos (List.contains_iff_mem.mpr hf))

theorem Dev.announce_foreign {dom : Nat} {ts : Bool} {m : Master}
    (h : dom ≠ d.obj 0x1210 2 0 ∨ ts = false ∨ 255 ≤ m.steps) (hf : m.src ∉ d.ptp.foreign) :
    d.announce dom ts m = { d with ptp := { d.ptp with foreign := m.src :: d.ptp.foreign } }.raise Ev.PTP_FOREIGN
      (dom % 256 + if ts then 256 else 0) := by
  have hdet : 256 * (if ts then 1 else 0) = if ts then 256 else 0 := by cases ts <;> rfl
  rw [← hdet]
  exact (Dev.announce_discarded hon h).trans (if_neg (fun hc => hf (List.contains_iff_mem.mp hc)))

theorem Dev.announce_accepted {m : Master} (hst : m.steps < 255) :
    d.announce (d.obj 0x1210 2 0) true m =
      { d with ptp := { d.ptp with masters := d.ptp.masters.filter (fun (x : Master) => x.src != m.src) ++ [m] } }.choose := by
  simp [Dev.announce, hon, hst]

end

theorem Dev.choose_none (hb : d.bestMaster = none) : d.choose = { d with ptp := { d.ptp with parent := none } } := by
  simp only [Dev.choose, hb, Option.map_none]

section
variable {m : Master} (hb : d.bestMaster = some m)
include hb

theorem Dev.choose_same (hp : d.ptp.parent = some m.src) :
    d.choose = { d with ptp := { d.ptp with parent := some m.src, utc := m.utc, leap := m.leap } } := by
  simp only [Dev.choose, hb, Option.map_some]
  exact if_pos hp

theorem Dev.choose_new {e : Dev} (hp : d.ptp.parent ≠ some m.src)
    (he : e = { d with ptp := { d.ptp with
      parent := some m.src, utc := m.utc, leap := m.leap, within := 0, sync := none, delayReq := none } }) :
    d.choose = (if d.servoOn then e.set R.TIM_STATUS_SYNC 1 else e).raise Ev.PTP_PARENT (m.src % 2 ^ 64) := by
  subst he
  simp only [Dev.choose, hb, Option.map_some]
  exact if_neg hp

end

/-- A device that is slave only follows the one master there is. -/
theorem Dev.bestMaster_single {m : Master} (hs : d.slaveOnly = true) (hm : d.ptp.masters = [m]) : d.bestMaster = some m := by
  simp [Dev.bestMaster, hm, hs]

theorem Dev.announceTimeout_off (hon : d.ptpOn = false) : d.announceTimeout = d := by simp [Dev.announceTimeout, hon]

section
variable {e : Dev} (hon : d.ptpOn = true)
  (he : e = { d with ptp := { d.ptp with
      parent := none, masters := d.ptp.masters.filter (fun (m : Master) => some m.src != d.ptp.parent) } })
include hon he

theorem Dev.announceTimeout_unlocked (h : d.owns true = false ∨ d.get R.TIM_STATUS_SYNC ≠ 2) : d.announceTimeout = e.choose := by
  have hno : (d.servoOn && d.get R.TIM_STATUS_SYNC == 2) = false := by
    rcases h with h | h <;> simp [Dev.servoOn, h]
  simp only [Dev.announceTimeout, hon, hno, Bool.not_true, Bool.false_eq_true, if_false, he]

theorem Dev.announceTimeout_locked (hown : d.owns true = true) (hsync : d.get R.TIM_STATUS_SYNC = 2) {f : Dev}
    (hf : f = (e.set R.TIM_STATUS_SYNC 3).writeAdj true d.ptp.lockedAdj) :
    d.announceTimeout = (f.raise Ev.PTP_HOLDOVER (f.get R.TIM_ADJ)).choose := by
  have hyes : (d.servoOn && d.get R.TIM_STATUS_SYNC == 2) = true := by simp [Dev.servoOn_eq hon, hown, hsync]
  simp only [Dev.announceTimeout, hon, hyes, Bool.not_true, Bool.false_eq_true, if_false, if_true, hf, he]

end

/-! ## Sync and Follow_Up (15 R413, R415) -/

theorem Dev.syncIn_other {t dom src seq o : Nat} {two : Bool} {c : Int}
    (h : d.ptpOn = false ∨ dom ≠ d.obj 0x1210 2 0 ∨ d.ptp.parent ≠ some src) : d.syncIn t dom src seq two o c = d := by
  have hno : (d.ptpTakes dom && d.ptp.parent == some src) = false := by
    rcases h with h | h | h <;> simp [Dev.ptpTakes, h]
  simp [Dev.syncIn, hno]

theorem Dev.followUpIn_other {dom src seq o : Nat} {c : Int}
    (h : d.ptpOn = false ∨ dom ≠ d.obj 0x1210 2 0 ∨ d.ptp.parent ≠ some src) : d.followUpIn dom src seq o c = d := by
  have hno : (d.ptpTakes dom && d.ptp.parent == some src) = false := by
    rcases h with h | h | h <;> simp [Dev.ptpTakes, h]
  unfold Dev.followUpIn
  split
  · simp [hno]
  · rfl

section
variable {src seq o : Nat} {c : Int} (hon : d.ptpOn = true) (hp : d.ptp.parent = some src)
include hon hp

theorem Dev.syncIn_twoStep (t : Nat) : d.syncIn t (d.obj 0x1210 2 0) src seq true o c =
    { d with ptp := { d.ptp with sync := some (seq, (t : Int), c) } } := by
  simp [Dev.syncIn, Dev.ptpTakes_own hon, hp]

theorem Dev.syncIn_oneStep (t : Nat) : d.syncIn t (d.obj 0x1210 2 0) src seq false o c = d.syncFound t o c := by
  simp [Dev.syncIn, Dev.ptpTakes_own hon, hp]

theorem Dev.followUpIn_awaited {t2 c2 : Int} (hs : d.ptp.sync = some (seq, t2, c2)) :
    d.followUpIn (d.obj 0x1210 2 0) src seq o c = d.syncFound t2 o (c2 + c) := by
  simp [Dev.followUpIn, hs, Dev.ptpTakes_own hon, hp]

end

theorem Dev.syncFound_eq {t2 t c : Int} {o : Nat} (ht : t = t2 - o - c.fdiv 65536) :
    d.syncFound t2 o c = { d with ptp := { d.ptp with t12 := t, sync := none } }.offsetFound (t - d.ptp.pathDelay) := by
  subst ht
  rfl

/-! ## The servo (15 Table 15.3, R415, R416) -/

section
variable {e : Dev} {ofs : Int} (hon : d.ptpOn = true) (he : e = { d with ptp := { d.ptp with offset := ofs } })
include hon he

theorem Dev.offsetFound_idle (hown : d.owns true = false) : d.offsetFound ofs = { e with ptp := { e.ptp with within := 0 } } := by
  subst he
  exact if_pos (by rw [Dev.servoOn_eq hon, hown]; rfl)

section
variable (hown : d.owns true = true)
include hown

/-- FREE and HOLDOVER are left first; then the offset's size decides. -/
theorem Dev.offsetFound_acts {f : Dev}
    (hf : f = if d.get R.TIM_STATUS_SYNC = 0 ∨ d.get R.TIM_STATUS_SYNC = 3 then e.set R.TIM_STATUS_SYNC 1 else e) :
    d.offsetFound ofs = if ofs.natAbs ≤ d.get R.TIM_STEP_THR then f.servoTrack ofs
      else if f.get R.TIM_STATUS_SYNC = 4 then { f with ptp := { f.ptp with within := 0 } }
      else ({ f with ptp := { f.ptp with within := 0 } }.set R.TIM_STATUS_SYNC 1).servoStep ofs := by
  subst hf he
  exact if_neg (by rw [Dev.servoOn_eq hon, hown]; decide)

theorem Dev.offsetFound_near {f : Dev}
    (hf : f = if d.get R.TIM_STATUS_SYNC = 0 ∨ d.get R.TIM_STATUS_SYNC = 3 then e.set R.TIM_STATUS_SYNC 1 else e)
    (hn : ofs.natAbs ≤ d.get R.TIM_STEP_THR) : d.offsetFound ofs = f.servoTrack ofs :=
  (Dev.offsetFound_acts hon he hown hf).trans (if_pos hn)

section
variable (hfar : d.get R.TIM_STEP_THR < ofs.natAbs)
include hfar

theorem Dev.offsetFound_refused (hs : d.get R.TIM_STATUS_SYNC = 4) :
    d.offsetFound ofs = { e with ptp := { e.ptp with within := 0 } } := by
  have hf : e = if d.get R.TIM_STATUS_SYNC = 0 ∨ d.get R.TIM_STATUS_SYNC = 3 then e.set R.TIM_STATUS_SYNC 1 else e := by simp [hs]
  have hse : e.get R.TIM_STATUS_SYNC = 4 := by rw [he]; exact hs
  exact (Dev.offsetFound_acts hon he hown hf).trans ((if_neg (Nat.not_le.mpr hfar)).trans (if_pos hse))

theorem Dev.offsetFound_steps (hs : d.get R.TIM_STATUS_SYNC = 1 ∨ d.get R.TIM_STATUS_SYNC = 2) :
    d.offsetFound ofs = ({ e with ptp := { e.ptp with within := 0 } }.set R.TIM_STATUS_SYNC 1).servoStep ofs := by
  have hf : e = if d.get R.TIM_STATUS_SYNC = 0 ∨ d.get R.TIM_STATUS_SYNC = 3 then e.set R.TIM_STATUS_SYNC 1 else e := by
    rcases hs with hs | hs <;> simp [hs]
  have hse : ¬ e.get R.TIM_STATUS_SYNC = 4 := by
    have heq : e.get R.TIM_STATUS_SYNC = d.get R.TIM_STATUS_SYNC := by rw [he]; rfl
    rw [heq]; omega
  exact (Dev.offsetFound_acts hon he hown hf).trans ((if_neg (Nat.not_le.mpr hfar)).trans (if_neg hse))

end

end

end

theorem Dev.servoStep_accepted {ofs : Int} {e : Dev} (hc : d.stepCode true (-ofs) = .ok)
    (he : e = (d.stepTime true (-ofs)).set R.TIM_STATUS_SYNC 1) : d.servoStep ofs = { e with ptp := { e.ptp with within := 0 } } := by
  subst he
  exact if_pos hc

theorem Dev.servoStep_refused {ofs : Int} (hc : d.stepCode true (-ofs) ≠ .ok) :
    d.servoStep ofs = ((d.stepTime true (-ofs)).set R.TIM_STATUS_SYNC 4).writeAdj true d.ptp.lockedAdj := if_neg hc

end

section
variable {s : State} (hup : Up s)
include hup

theorem runs_stepRetry_quiet (h : s.dev.get R.TIM_STATUS_SYNC ≠ 4 ∨ s.dev.ptpOn = false ∨ s.dev.owns true = false) :
    Runs .stepRetry s s.dev := by
  have hno : ¬ (s.dev.servoOn && s.dev.get R.TIM_STATUS_SYNC == 4) = true := by
    rcases h with h | h | h <;> simp [Dev.servoOn, h]
  exact runs_of_onDev hup rfl (if_neg hno)

theorem runs_stepRetry {d : Dev} (hon : s.dev.ptpOn = true) (hown : s.dev.owns true = true) (hs : s.dev.get R.TIM_STATUS_SYNC = 4)
    (h : s.dev.servoStep s.dev.ptp.offset = d) : Runs .stepRetry s d := by
  have hyes : (s.dev.servoOn && s.dev.get R.TIM_STATUS_SYNC == 4) = true := by simp [Dev.servoOn_eq hon, hown, hs]
  exact runs_of_onDev hup rfl ((if_pos hyes).trans h)

end

end Sys2Proof.Machine

open Sys2Proof Sys2Proof.Machine

/-- Settles O42: an Announce enters the masters or not, the choice of the parent by the best of them, and the timeout. -/
theorem mastersChosen : Obligations.MastersChosen := by
  unfold Obligations.MastersChosen
  refine ⟨fun s dom src gm p1 q p2 st leap ts utc hup hon h => ⟨fun hf => ?known, fun hf => ?foreign⟩,
    fun s src gm p1 q p2 st leap utc hup hon hst => ?accepted,
    fun d => ⟨Dev.choose_none, fun m hb => ⟨Dev.choose_same hb, fun hp e he => Dev.choose_new hb hp he⟩,
      fun m => Dev.bestMaster_single⟩,
    fun s d hup hon hd => ⟨fun h => ?unlocked, fun hown hsync e he => ?locked⟩,
    fun s dom src gm p1 q p2 st leap ts utc hup hon => ⟨?off, ?offTimeout⟩⟩
  case known => exact runs_of_onDev hup rfl (Dev.announce_known hon h hf)
  case foreign => exact runs_of_onDev hup rfl (Dev.announce_foreign hon h hf)
  case accepted => exact runs_of_onDev hup rfl (Dev.announce_accepted hon hst)
  case unlocked => exact runs_of_onDev hup rfl (Dev.announceTimeout_unlocked hon hd h)
  case locked => exact runs_of_onDev hup rfl (Dev.announceTimeout_locked hon hd hown hsync he)
  case off => exact runs_of_onDev hup rfl (Dev.announce_off hon)
  case offTimeout => exact runs_of_onDev hup rfl (Dev.announceTimeout_off hon)

/-- Settles O43: Sync and Follow_Up by source and steps, the servo by its owner, state and the offset's size, STEP_RETRY by the code
its step gets. -/
theorem offsetsMeasured : Obligations.OffsetsMeasured := by
  unfold Obligations.OffsetsMeasured
  refine ⟨fun s dom src seq o two c hup h => ⟨runs_of_onDev hup rfl (Dev.syncIn_other h), runs_of_onDev hup rfl (Dev.followUpIn_other h)⟩,
    fun s src seq o c hup hon hp => ⟨?twoStep, fun t ht => ?oneStep, fun c2 t2 t hs ht => ?followUp⟩,
    fun d e f ofs hon he hf => ⟨Dev.offsetFound_idle hon he, fun hown => Dev.offsetFound_near hon he hown hf,
      fun hown hfar => ⟨Dev.offsetFound_refused hon he hown hfar, Dev.offsetFound_steps hon he hown hfar⟩⟩,
    fun s hup h => runs_stepRetry_quiet hup h,
    fun s d hup hon hown hs hc hd => ?retryRefused, fun s d hup hon hown hs hc hd => ?retryAccepted⟩
  case twoStep => exact runs_of_onDev hup rfl (Dev.syncIn_twoStep hon hp _)
  case oneStep => exact runs_of_onDev hup rfl ((Dev.syncIn_oneStep hon hp _).trans (Dev.syncFound_eq ht))
  case followUp => exact runs_of_onDev hup rfl ((Dev.followUpIn_awaited hon hp hs).trans (Dev.syncFound_eq ht))
  case retryRefused =>
    subst hd
    exact runs_stepRetry hup hon hown hs (Dev.servoStep_refused hc)
  case retryAccepted => exact runs_stepRetry hup hon hown hs (Dev.servoStep_accepted hc hd)

end

-- PTP: path delays, the messages the device sends, the transmit stamps (15 R413–R415).
section
/-! PROOFS. What the delay messages measure or answer, what each interval sends, by the branch its condition selects. -/

namespace Sys2Proof.Machine

open Sys2Proof

/-! ## Delay messages (15 R413, R415) -/

section
variable {d : Dev} {src port seq : Nat}

theorem Dev.ptpMaster_on (h : d.ptpMaster = true) : d.ptpOn = true := by
  simp only [Dev.ptpMaster, Bool.and_eq_true] at h
  exact h.1.1

theorem Dev.delayReqIn_master (t : Nat) (hm : d.ptpMaster = true) (hp : d.p2p = false) :
    d.delayReqIn t (d.obj 0x1210 2 0) src port seq = d.ptpSend 9 seq t 0 (portId src port) := by
  simp [Dev.delayReqIn, Dev.ptpTakes_own (Dev.ptpMaster_on hm), hm, hp]

theorem Dev.delayReqIn_not_master {dom : Nat} (t : Nat) (h : d.ptpMaster = false ∨ d.p2p = true) :
    d.delayReqIn t dom src port seq = d := by
  rcases h with h | h <;> simp [Dev.delayReqIn, h]

theorem Dev.delayReqIn_other {dom : Nat} (t : Nat) (h : d.ptpTakes dom = false) : d.delayReqIn t dom src port seq = d := by
  simp [Dev.delayReqIn, h]

theorem Dev.delayRespIn_own {recv : Nat} {c t3 : Int} (hon : d.ptpOn = true) (hp : d.ptp.parent = some src)
    (hq : d.ptp.delayReq = some (seq, t3)) :
    d.delayRespIn (d.obj 0x1210 2 0) src seq recv c Config.clockIdentity = { d with ptp := { d.ptp with
      delayReq := none, pathDelay := (d.ptp.t12 + (recv - t3 - c.fdiv 65536)).fdiv 2 } } := by
  simp [Dev.delayRespIn, hq, Dev.ptpTakes_own hon, hp, corrNs]

theorem Dev.delayRespIn_other {dom recv req : Nat} {c : Int} (h : d.ptpTakes dom = false) :
    d.delayRespIn dom src seq recv c req = d := by
  unfold Dev.delayRespIn
  split
  · simp [h]
  · rfl

theorem Dev.pdelayReqIn_oneStep (t : Nat) (hon : d.ptpOn = true) (h1 : d.obj 0x1210 5 0 = 1) :
    d.pdelayReqIn t (d.obj 0x1210 2 0) src port seq =
      d.ptpSend 3 seq 0 (((d.egress : Int) - t) * 65536) (portId src port) :=
  (if_pos (Dev.ptpTakes_own hon)).trans (if_pos h1)

theorem Dev.pdelayReqIn_twoStep (t : Nat) (hon : d.ptpOn = true) (h1 : d.obj 0x1210 5 0 ≠ 1) :
    d.pdelayReqIn t (d.obj 0x1210 2 0) src port seq =
      ((d.ptpSend 3 seq t 0 (portId src port)).txStamp 3 seq d.egress).ptpSend 0xA seq d.egress 0 (portId src port) :=
  (if_pos (Dev.ptpTakes_own hon)).trans (if_neg h1)

theorem Dev.pdelayReqIn_other {dom : Nat} (t : Nat) (h : d.ptpTakes dom = false) : d.pdelayReqIn t dom src port seq = d := by
  simp [Dev.pdelayReqIn, h]

section
variable {recv t : Nat} {c t1 rt : Int} (hon : d.ptpOn = true) (hq : d.ptp.pdelay = some (seq, t1)) (hr : rt = (t : Int) - t1)
include hon hq hr

theorem Dev.pdelayRespIn_oneStep :
    d.pdelayRespIn t (d.obj 0x1210 2 0) src seq false recv c Config.clockIdentity =
      { d with ptp := { d.ptp with pdelay := none, pathDelay := (rt - c.fdiv 65536).fdiv 2 } } := by
  simp [Dev.pdelayRespIn, hq, Dev.ptpTakes_own hon, corrNs, hr]

theorem Dev.pdelayRespIn_twoStep :
    d.pdelayRespIn t (d.obj 0x1210 2 0) src seq true recv c Config.clockIdentity =
      { d with ptp := { d.ptp with pdelay := none, pdResp := some (seq, src, rt, (recv : Int), c) } } := by
  simp [Dev.pdelayRespIn, hq, Dev.ptpTakes_own hon, hr]

end

theorem Dev.pdelayRespIn_other {dom t recv req : Nat} {two : Bool} {c : Int} (h : d.ptpTakes dom = false) :
    d.pdelayRespIn t dom src seq two recv c req = d := by
  unfold Dev.pdelayRespIn
  split
  · simp [h]
  · rfl

theorem Dev.pdelayFollowIn_own {resp : Nat} {c c2 rt recv : Int} (hon : d.ptpOn = true)
    (hq : d.ptp.pdResp = some (seq, src, rt, recv, c2)) :
    d.pdelayFollowIn (d.obj 0x1210 2 0) src seq resp c Config.clockIdentity = { d with ptp := { d.ptp with
      pdResp := none, pathDelay := (rt - (resp - recv) - (c2 + c).fdiv 65536).fdiv 2 } } := by
  simp [Dev.pdelayFollowIn, hq, Dev.ptpTakes_own hon, corrNs]

theorem Dev.pdelayFollowIn_other {dom resp req : Nat} {c : Int} (h : d.ptpTakes dom = false) :
    d.pdelayFollowIn dom src seq resp c req = d := by
  unfold Dev.pdelayFollowIn
  split
  · simp [h]
  · rfl

/-! ## The own messages of an interval (15 R414) -/

theorem Dev.ptpInterval_off (k : Nat) (hon : d.ptpOn = false) : d.ptpInterval k = d := by simp [Dev.ptpInterval, hon]

section
variable {q : Nat}

section
variable {e : Dev} (hm : d.ptpMaster = true) (hq : q = d.ptp.seqSync)
  (he : e = { d with ptp := { d.ptp with seqSync := (q + 1) % 65536 } })
include hm hq he

theorem Dev.ptpInterval_sync_oneStep (h1 : d.obj 0x1210 5 0 = 1) : d.ptpInterval 0 = e.ptpSend 0 q d.egress 0 := by
  subst he hq
  simp only [Dev.ptpInterval, Dev.ptpMaster_on hm, hm, h1, Bool.not_true, Bool.false_eq_true, if_false, and_self, if_true]

theorem Dev.ptpInterval_sync_twoStep (h1 : d.obj 0x1210 5 0 ≠ 1) :
    d.ptpInterval 0 = ((e.ptpSend 0 q 0 0).txStamp 0 q d.egress).ptpSend 8 q d.egress 0 := by
  subst he hq
  simp only [Dev.ptpInterval, Dev.ptpMaster_on hm, hm, h1, Bool.not_true, Bool.false_eq_true, if_false, and_self, if_true]

end

theorem Dev.ptpInterval_delayReq (hon : d.ptpOn = true) (hp : d.ptp.parent.isSome = true) (h2 : d.p2p = false)
    (hq : q = d.ptp.seqDelay) :
    d.ptpInterval 1 = { d with ptp := { d.ptp with
      seqDelay := (q + 1) % 65536, delayReq := some (q, (d.egress : Int)) } }.ptpSend 1 q 0 0 := by
  subst hq
  simp [Dev.ptpInterval, hon, hp, h2]

theorem Dev.ptpInterval_pdelayReq (hon : d.ptpOn = true) (h2 : d.p2p = true) (hq : q = d.ptp.seqPdelay) :
    d.ptpInterval 2 = { d with ptp := { d.ptp with
      seqPdelay := (q + 1) % 65536, pdResp := none, pdelay := some (q, (d.egress : Int)) } }.ptpSend 2 q 0 0
        (List.replicate 10 0) := by
  subst hq
  simp [Dev.ptpInterval, hon, h2]

theorem Dev.ptpInterval_announce (hm : d.ptpMaster = true) (hq : q = d.ptp.seqAnn) :
    d.ptpInterval 3 = { d with ptp := { d.ptp with seqAnn := (q + 1) % 65536 } }.ptpSend 0xB q 0 0
      (beBytes 2 (ofSigned 16 d.ptp.utc) ++ [0x00#8] ++ beBytes 1 d.ownMaster.prio1 ++ beBytes 4 d.ownMaster.quality ++
        beBytes 1 d.ownMaster.prio2 ++ beBytes 8 d.ownMaster.gm ++ beBytes 2 d.ownMaster.steps ++ [0xA0#8]) := by
  subst hq
  simp only [Dev.ptpInterval, Dev.ptpMaster_on hm, hm, Bool.not_true, Bool.false_eq_true, if_false, and_self, if_true,
    false_and, Nat.reduceEqDiff]

end

theorem Dev.txPop_cons {ty q t : Nat} {rest : List (Nat × Nat × Nat)} (h : d.ptp.txq = (ty, q, t) :: rest) :
    d.txPop = (({ d with
      ptp := { d.ptp with txq := rest }
      resp := [BitVec.ofNat 32 (ty % 16 + 65536 * (q % 65536))] }.set R.TS_TX_NS (t % 1000000000)).set64 R.TS_TX_SEC_LO
        (t / 1000000000)) := by
  simp only [Dev.txPop, h]
  rfl

end

section
variable {s : State} (hup : Up s)
include hup

theorem runs_delayReq {dom src seq : Nat} {d : Dev}
    (h : s.dev.portOf.2.delayReqIn s.dev.ingress dom src s.dev.portOf.1 seq = d) : Runs (.delayReq dom src seq) s d :=
  runs_of_onDev hup rfl h

theorem runs_pdelayReq {dom src seq : Nat} {d : Dev}
    (h : s.dev.portOf.2.pdelayReqIn s.dev.ingress dom src s.dev.portOf.1 seq = d) : Runs (.pdelayReq dom src seq) s d :=
  runs_of_onDev hup rfl h

theorem runs_ptpMessageInterval {k : Nat} {d : Dev} (hk : k < 4) (h : s.dev.ptpInterval k = d) : Runs (.ptpMessageInterval k) s d :=
  runs_of_event hup hk rfl h

theorem runs_tsTxPop {d : Dev} (h : s.dev.txPop = d) : Runs .tsTxPop s d := runs_of_onDev hup rfl ((if_neg hup.2).trans h)

end

end Sys2Proof.Machine

open Sys2Proof Sys2Proof.Machine

/-- Settles O44: the delay messages by domain, role and steps, the own messages of each interval, the stamp queue. -/
theorem delaysMeasured : Obligations.DelaysMeasured := by
  unfold Obligations.DelaysMeasured
  refine ⟨fun s src seq q hup hq hm hp => ?delayReq, fun s dom src seq hup h => ?delayReqIgnored,
    fun s src seq recv c t3 hup hon hp hq => ?delayResp,
    fun s src seq recv c t1 rt hup hon hq hr => ⟨?pdelayOne, ?pdelayTwo⟩,
    fun s src seq resp c c2 rt recv hup hon hq => ?pdelayFollow,
    fun s src seq t u q hup hon hq ht hu => ⟨fun h1 => ?answerOne, fun h1 => ?answerTwo⟩,
    fun s dom src seq n c two hup h => ?otherDomain,
    fun s t q d hup hm ht hq hd => ⟨fun h1 => ?syncOne, fun h1 => ?syncTwo⟩,
    fun s q hup hon hp h2 hq => ?ownDelayReq, fun s q hup hon h2 hq => ?ownPdelayReq, fun s q hup hm hq => ?ownAnnounce,
    fun d => ⟨rfl, rfl, rfl, rfl⟩,
    fun s k hup hk hon => runs_ptpMessageInterval hup hk (Dev.ptpInterval_off k hon),
    fun d ty q t => ⟨fun h => if_pos h, fun h => if_neg (Nat.not_lt.mpr h)⟩,
    fun s ty q t rest hup h => runs_tsTxPop hup (Dev.txPop_cons h)⟩
  case delayReq =>
    subst hq
    exact runs_delayReq hup (Dev.delayReqIn_master (d := s.dev.portOf.2) _ hm hp)
  case delayReqIgnored => exact runs_delayReq hup (Dev.delayReqIn_not_master (d := s.dev.portOf.2) _ h)
  case delayResp => exact runs_of_onDev hup rfl (Dev.delayRespIn_own hon hp hq)
  case pdelayOne => exact runs_of_onDev hup rfl (Dev.pdelayRespIn_oneStep hon hq hr)
  case pdelayTwo => exact runs_of_onDev hup rfl (Dev.pdelayRespIn_twoStep hon hq hr)
  case pdelayFollow => exact runs_of_onDev hup rfl (Dev.pdelayFollowIn_own hon hq)
  case answerOne =>
    subst hq ht hu
    exact runs_pdelayReq hup (Dev.pdelayReqIn_oneStep (d := s.dev.portOf.2) _ hon h1)
  case answerTwo =>
    subst hq ht hu
    exact runs_pdelayReq hup (Dev.pdelayReqIn_twoStep (d := s.dev.portOf.2) _ hon h1)
  case otherDomain =>
    have hno : s.dev.ptpTakes dom = false := Dev.ptpTakes_other h
    exact ⟨runs_delayReq hup (Dev.delayReqIn_other (d := s.dev.portOf.2) _ hno), runs_of_onDev hup rfl (Dev.delayRespIn_other hno),
      runs_pdelayReq hup (Dev.pdelayReqIn_other (d := s.dev.portOf.2) _ hno), runs_of_onDev hup rfl (Dev.pdelayRespIn_other hno),
      runs_of_onDev hup rfl (Dev.pdelayFollowIn_other hno)⟩
  case syncOne =>
    subst ht
    exact runs_ptpMessageInterval hup (by decide) (Dev.ptpInterval_sync_oneStep hm hq hd h1)
  case syncTwo =>
    subst ht
    exact runs_ptpMessageInterval hup (by decide) (Dev.ptpInterval_sync_twoStep hm hq hd h1)
  case ownDelayReq => exact runs_ptpMessageInterval hup (by decide) (Dev.ptpInterval_delayReq hon hp h2 hq)
  case ownPdelayReq => exact runs_ptpMessageInterval hup (by decide) (Dev.ptpInterval_pdelayReq hon h2 hq)
  case ownAnnounce => exact runs_ptpMessageInterval hup (by decide) (Dev.ptpInterval_announce hm hq)

end

-- The management port: PHY, ARP, ICMP, received frames (15 R418–R421).
section
/-! PROOFS. What a poll of the PHY, an ARP or ICMP message and a received frame do, by branch. -/

namespace Sys2Proof.Machine

open Sys2Proof

/-! ## PHY (15 R418) -/

section
variable {d : Dev} {r0 r1 r5 r10 sp : Nat} {up : Bool} (hup : up = r1.testBit 2)
  (hsp : d.get R.NET_CTRL_FORCE = 0 ∧ sp = phySpeed r0 r5 r10 ∨ d.get R.NET_CTRL_FORCE = sp + 1)
include hup hsp

/-- The link is as the PHY shows it, the speed as forced or as the PHY shows it. -/
theorem Dev.phyPoll_eq : d.phyPoll r0 r1 r5 r10 =
    if up = d.is R.NET_STATUS_LINK ∧ sp = d.get R.NET_STATUS_SPEED then d
    else if up && !d.is R.NET_STATUS_LINK then
      (((d.setB R.NET_STATUS_LINK up).set R.NET_STATUS_SPEED sp).raise Ev.NET_LINK ((if up then 1 else 0) + 2 * sp)).gratuitous
    else ((d.setB R.NET_STATUS_LINK up).set R.NET_STATUS_SPEED sp).raise Ev.NET_LINK ((if up then 1 else 0) + 2 * sp) := by
  have hs : (if d.get R.NET_CTRL_FORCE = 0 then phySpeed r0 r5 r10 else d.get R.NET_CTRL_FORCE - 1) = sp := by
    rcases hsp with ⟨h, hv⟩ | h
    · rw [if_pos h, hv]
    · simp [h]
  subst hup
  simp only [Dev.phyPoll, hs, hasBit]
  rfl

theorem Dev.phyPoll_same (hl : up = d.is R.NET_STATUS_LINK) (hs : sp = d.get R.NET_STATUS_SPEED) : d.phyPoll r0 r1 r5 r10 = d :=
  (Dev.phyPoll_eq hup hsp).trans (if_pos ⟨hl, hs⟩)

section
variable (hne : up ≠ d.is R.NET_STATUS_LINK ∨ sp ≠ d.get R.NET_STATUS_SPEED) {e : Dev}
  (he : e = ((d.setB R.NET_STATUS_LINK up).set R.NET_STATUS_SPEED sp).raise Ev.NET_LINK ((if up then 1 else 0) + 2 * sp))
include hne he

theorem Dev.phyPoll_changed : d.phyPoll r0 r1 r5 r10 = if up && !d.is R.NET_STATUS_LINK then e.gratuitous else e := by
  have hno : ¬(up = d.is R.NET_STATUS_LINK ∧ sp = d.get R.NET_STATUS_SPEED) := fun h => hne.elim (· h.1) (· h.2)
  rw [he]
  exact (Dev.phyPoll_eq hup hsp).trans (if_neg hno)

theorem Dev.phyPoll_changed_quiet (h : up = false ∨ d.is R.NET_STATUS_LINK = true ∨ e.get R.NET_IP = 0) :
    d.phyPoll r0 r1 r5 r10 = e := by
  rw [Dev.phyPoll_changed hup hsp hne he]
  rcases h with h | h | h
  · simp only [h, Bool.false_and, Bool.false_eq_true, if_false]
  · simp only [h, Bool.not_true, Bool.and_false, Bool.false_eq_true, if_false]
  · have hg : e.gratuitous = e := if_pos h
    rw [hg, ite_self]

theorem Dev.phyPoll_link_up (hu : up = true) (hl : d.is R.NET_STATUS_LINK = false) (hip : e.get R.NET_IP ≠ 0) :
    d.phyPoll r0 r1 r5 r10 = e.arpSend 1 0 (e.get R.NET_IP) := by
  have hyes : (up && !d.is R.NET_STATUS_LINK) = true := by simp [hu, hl]
  exact (Dev.phyPoll_changed hup hsp hne he).trans ((if_pos hyes).trans (if_neg hip))

end

end

/-! ## A raw access (15 R418) -/

theorem testBit_mod_22 (v : Nat) : (v % 2 ^ 22).testBit 21 = v.testBit 21 := by
  rw [Nat.testBit_mod_two_pow]
  rfl

theorem Dev.mdio_write {d : Dev} {w : Word} (a : Nat) (h : w.toNat.testBit 21 = true) :
    d.mdio w a = (d.set R.NET_MDIO (w.toNat % 2 ^ 22)).emit (.mdio (bytesOf 3 (w.toNat % 2 ^ 22))) :=
  if_pos ((testBit_mod_22 w.toNat).trans h)

theorem Dev.mdio_read {d : Dev} {w : Word} (a : Nat) (h : w.toNat.testBit 21 = false) :
    d.mdio w a = d.set R.NET_MDIO (putBits (w.toNat % 2 ^ 22) 0 16 a) :=
  if_neg (Bool.eq_false_iff.mp ((testBit_mod_22 w.toNat).trans h))

/-! ## ARP and ICMP (15 R420, R421) -/

section
variable {d : Dev} {op sha spa tpa : Nat}

theorem Dev.arpIn_no_address (h : d.get R.NET_IP = 0) : d.arpIn op sha spa tpa = d := if_pos h

section
variable (hip : d.get R.NET_IP ≠ 0)
include hip

theorem Dev.arpIn_claim : d.arpIn op sha (d.get R.NET_IP) tpa =
    if sha ≠ d.mac then d.raise Ev.IP_CONFLICT (sha % 2 ^ 48) else d := (if_neg hip).trans (if_pos rfl)

variable (hsp : spa ≠ d.get R.NET_IP)
include hsp

theorem Dev.arpIn_request {r : List (Nat × Nat)} (hr : r = d.mgmt.arp.filter (fun e => e.1 != spa) ++ [(spa, sha)]) :
    d.arpIn 1 sha spa (d.get R.NET_IP) =
      ({ d with mgmt := { d.mgmt with arp := r.drop (r.length - 16) } }.arpFound spa sha).arpSend 2 sha spa := by
  subst hr
  refine (if_neg hip).trans ((if_neg hsp).trans ((if_pos ⟨rfl, rfl⟩).trans ?_))
  exact congrArg (fun e : Dev => e.arpSend 2 sha spa) (if_pos (Or.inr rfl))

theorem Dev.arpIn_unknown (htp : tpa ≠ d.get R.NET_IP) (hk : d.mgmt.arp.any (fun e => e.1 == spa) = false) :
    d.arpIn op sha spa tpa = d := by
  refine (if_neg hip).trans ((if_neg hsp).trans ((if_neg (fun h => htp h.2)).trans (if_neg ?_)))
  simp only [hk, Bool.false_eq_true, false_or]
  exact htp

end

theorem Dev.arpFound_none {ip mac : Nat} (h : d.mgmt.arpWait.find? (fun e => e.1 == ip) = none) : d.arpFound ip mac = d := by
  simp only [Dev.arpFound, h]

theorem Dev.arpFound_some {ip mac : Nat} {p : List Byte} (h : d.mgmt.arpWait.find? (fun e => e.1 == ip) = some (ip, p)) :
    d.arpFound ip mac =
      { d with mgmt := { d.mgmt with arpWait := d.mgmt.arpWait.filter (fun e => e.1 != ip) } }.frameSend mac 0x800 p := by
  simp only [Dev.arpFound, h]

theorem Dev.icmpIn_ignored {src dst : Nat} {l : List Byte}
    (h : d.get R.NET_IP = 0 ∨ dst ≠ d.get R.NET_IP ∨ l.length < 4 ∨ 1472 < l.length - 4) : d.icmpIn src dst l = d := by
  refine if_neg (fun ⟨hip, hd, h4, hmax⟩ => ?_)
  rcases h with h | h | h | h
  · exact hip h
  · exact h hd
  · omega
  · omega

theorem Dev.icmpIn_answered {src dst : Nat} {l : List Byte} {m : Nat → List Byte}
    (hm : m = fun sum => [0x00#8, 0x00#8] ++ beBytes 2 sum ++ l) (hip : d.get R.NET_IP ≠ 0) (hd : dst = d.get R.NET_IP)
    (h4 : 4 ≤ l.length) (hmax : l.length - 4 ≤ 1472) :
    d.icmpIn src dst l = d.ipSend 1 src (m (65535 - onesSum (m 0) 0)) := by
  subst hm
  exact if_pos ⟨hip, hd, h4, hmax⟩

end

/-! ## The receive queue (15 R419) -/

section
variable {d : Dev} {l : List Byte}

theorem Dev.macTakes_false (h : l.length < 64 ∨ 1518 < l.length ∨ fcsOk l = false ∨ beAt l 12 2 = 0x8100 ∨ beAt l 12 2 = 0x88A8 ∨
    beAt l 0 6 ≠ d.mac ∧ beAt l 0 6 ≠ 0xFFFFFFFFFFFF ∧ beAt l 0 6 ∉ ptpMacs) : d.macTakes l = false := by
  rcases h with h | h | h | h | h | ⟨h1, h2, h3⟩
  · simp [Dev.macTakes, Nat.not_le.mpr h]
  · simp [Dev.macTakes, Nat.not_le.mpr h]
  · simp [Dev.macTakes, h]
  · simp [Dev.macTakes, h]
  · simp [Dev.macTakes, h]
  · simp [Dev.macTakes, h1, h2, h3]

theorem Dev.macTakes_true (hmin : 64 ≤ l.length) (hmax : l.length ≤ 1518) (hf : fcsOk l = true) (hv : beAt l 12 2 ≠ 0x8100)
    (hs : beAt l 12 2 ≠ 0x88A8) (ha : beAt l 0 6 = d.mac ∨ beAt l 0 6 = 0xFFFFFFFFFFFF ∨ beAt l 0 6 ∈ ptpMacs) :
    d.macTakes l = true := by
  simp [Dev.macTakes, hmin, hmax, hf, hv, hs, or_assoc, ha]

theorem Dev.macIn_discarded (h : d.macTakes l = false) : d.macIn l = d.bump R.NET_RX_DISC_CNT 1 := if_pos (by rw [h]; rfl)

section
variable (h : d.macTakes l = true)
include h

theorem Dev.macIn_queued (hq : d.mgmt.rxq.length < 64) :
    d.macIn l = { d with mgmt := { d.mgmt with rxq := d.mgmt.rxq ++ [(d.ingress, l)] } } :=
  (if_neg (by rw [h]; decide)).trans (if_pos hq)

theorem Dev.macIn_full (hq : 64 ≤ d.mgmt.rxq.length) :
    d.macIn l = (d.bump R.NET_RX_OVF_CNT 1).occur Ev.NET_RX_OVF 0 1 :=
  (if_neg (by rw [h]; decide)).trans (if_neg (Nat.not_lt.mpr hq))

end

end

/-- The only frame that waits leaves the queue and is handled. -/
theorem drainRx_single {s : State} {t : Nat} {l : List Byte} (hq : s.dev.mgmt.rxq = []) (hm : s.dev.mgmtUp = true) :
    drainRx { s with dev := { s.dev with mgmt := { s.dev.mgmt with rxq := [(t, l)] } } } = frameIn t l s := by
  have hback : { s.dev with mgmt := { s.dev.mgmt with rxq := [] } } = s.dev := by rw [← hq]
  have hstep : drainRx { s with dev := { s.dev with mgmt := { s.dev.mgmt with rxq := [(t, l)] } } } =
      if s.dev.mgmtUp then frameIn t l { s with dev := { s.dev with mgmt := { s.dev.mgmt with rxq := [] } } }
      else { s with dev := { s.dev with mgmt := { s.dev.mgmt with rxq := [(t, l)] } } } := rfl
  rw [hstep, if_pos hm, hback]

section
variable {s : State} {l : List Byte} (hup : Up s)
include hup

theorem gives_netFrameReceived_waits {d : Dev} (h : s.dev.macIn l = d) :
    Gives (.netFrameReceived l false) s (serveBell { s with dev := d }) := by
  subst h
  simp [Gives, exec, execNetFrameReceived, hup.1, hup.2, served]

theorem gives_netFrameReceived_taken {d : Dev} (h : s.dev.macIn l = d) :
    Gives (.netFrameReceived l true) s (serveBell (drainRx { s with dev := d })) := by
  subst h
  simp [Gives, exec, execNetFrameReceived, hup.1, hup.2, served]

end

end Sys2Proof.Machine

open Sys2Proof Sys2Proof.Machine

/-- Settles O45: the PHY's poll by what changed, a raw access by its direction, ARP and ICMP by addresses, a frame by the MAC's filter and
queue. -/
theorem portServed : Obligations.PortServed := by
  unfold Obligations.PortServed
  refine ⟨fun s r0 r1 r5 r10 sp up hup hl hsp => ⟨fun hsame hspeed => ?phySame, fun hne d hd => ⟨fun hq => ?phyQuiet, fun hu hwas hip => ?phyUp⟩⟩,
    fun s w a hup => ⟨fun hw => runs_of_onHost hup rfl (Dev.mdio_write a hw), fun hw => runs_of_onHost hup rfl (Dev.mdio_read a hw)⟩,
    fun s op sha spa tpa l hup hip =>
      ⟨runs_of_onDev hup rfl (Dev.arpIn_no_address hip), runs_of_onDev hup rfl (Dev.icmpIn_ignored (.inl hip))⟩,
    fun s op sha tpa hup hip => runs_of_onDev hup rfl (Dev.arpIn_claim hip),
    fun s sha spa r hup hip hsp hr => runs_of_onDev hup rfl (Dev.arpIn_request hip hsp hr),
    fun d ip mac => Dev.arpFound_none, fun d ip mac p => Dev.arpFound_some,
    fun s op sha spa tpa hup hip hsp htp hk => runs_of_onDev hup rfl (Dev.arpIn_unknown hip hsp htp hk),
    fun s ip hup => runs_of_onDev hup rfl rfl,
    fun s src dst l m hup hip hm => ⟨fun hd h4 hmax => runs_of_onDev hup rfl (Dev.icmpIn_answered hm hip hd h4 hmax),
      fun h => runs_of_onDev hup rfl (Dev.icmpIn_ignored (.inr h))⟩,
    fun s l hup h => gives_netFrameReceived_waits hup (Dev.macIn_discarded (Dev.macTakes_false h)),
    fun s l hup hmin hmax hf hv hs ha => ?taken, fun s h => serveBell_none h⟩
  case phySame => exact runs_of_onDev hup rfl (Dev.phyPoll_same hl hsp hsame hspeed)
  case phyQuiet => exact runs_of_onDev hup rfl (Dev.phyPoll_changed_quiet hl hsp hne hd hq)
  case phyUp => exact runs_of_onDev hup rfl (Dev.phyPoll_link_up hl hsp hne hd hu hwas hip)
  case taken =>
    have htake := Dev.macTakes_true hmin hmax hf hv hs ha
    refine ⟨fun hq => gives_netFrameReceived_waits hup (Dev.macIn_queued htake hq),
      fun hq => gives_netFrameReceived_waits hup (Dev.macIn_full htake hq), fun hq hm => ?_⟩
    have hin : s.dev.macIn l = { s.dev with mgmt := { s.dev.mgmt with rxq := [(s.dev.ingress, l)] } } := by
      rw [Dev.macIn_queued htake (by rw [hq]; decide), hq]; rfl
    rw [← drainRx_single hq hm]
    exact gives_netFrameReceived_taken hup hin

end

-- Sessions of the object protocol: opening, closing, sequence, ELEVATE (16 R429–R435).
section
/-! PROOFS. What a request over UDP does: its form, its session, its sequence, and then the request itself. -/

namespace Sys2Proof.Machine

open Sys2Proof

/-! ## A device whose management processors serve the network -/

/-- The management processors run, and no mailbox message waits. -/
def Dev.Ready (d : Dev) : Prop := d.mgmtUp = true ∧ d.mgmt.bell = none

theorem managed_ready {s : State} (h : Managed s) : s.dev.Ready := by
  obtain ⟨⟨ha, hb⟩, hm, hbell⟩ := h
  exact ⟨by simp [Dev.mgmtUp, ha, hb, hm], hbell⟩

section
variable {d : Dev}

/-- Only power, device state and the supplies decide whether the management processors run. -/
theorem Dev.mgmtUp_congr {e : Dev} (hp : e.pwr = d.pwr) (hs : e.dstate = d.dstate)
    (hr : e.get R.PWR_SUPPLY_STATUS = d.get R.PWR_SUPPLY_STATUS) : e.mgmtUp = d.mgmtUp := by
  simp only [Dev.mgmtUp, Dev.awake, Dev.mainRails, hp, hs, hr]

@[simp] theorem Dev.mgmtUp_raise (c x : Nat) : (d.raise c x).mgmtUp = d.mgmtUp :=
  Dev.mgmtUp_congr (by simp) (by simp) (Dev.raise_get (by decide) d c x)

@[simp] theorem Dev.mgmtUp_putSession (src : IopSrc) (x : Session) : (d.putSession src x).mgmtUp = d.mgmtUp := by
  cases src <;> exact Dev.mgmtUp_congr rfl rfl rfl

@[simp] theorem Dev.mgmtUp_endSession (id : Nat) : (d.endSession id).mgmtUp = d.mgmtUp := rfl

@[simp] theorem Dev.mgmtUp_noteRequest (src : IopSrc) (id seq : Nat) (r : List Byte) :
    (d.noteRequest src id seq r).mgmtUp = d.mgmtUp := by
  unfold Dev.noteRequest
  split
  · exact Dev.mgmtUp_putSession src _
  · rfl

theorem Dev.Ready.raise (h : d.Ready) (c x : Nat) : (d.raise c x).Ready := ⟨by simpa using h.1, by simpa using h.2⟩

theorem Dev.Ready.putSession (h : d.Ready) (src : IopSrc) (x : Session) : (d.putSession src x).Ready :=
  ⟨(Dev.mgmtUp_putSession src x).trans h.1, by cases src <;> exact h.2⟩

theorem Dev.Ready.endSession (h : d.Ready) (id : Nat) : (d.endSession id).Ready := h

theorem Dev.Ready.noteRequest (h : d.Ready) (src : IopSrc) (id seq : Nat) (r : List Byte) : (d.noteRequest src id seq r).Ready := by
  unfold Dev.noteRequest
  split
  · exact h.putSession src _
  · exact h

end

/-! ## Sessions -/

section
variable {d : Dev} {ip port id : Nat} {x y z : Session}

theorem Dev.session_keys (h : d.session (.udp ip port) id = some x) : x.id = id ∧ x.ip = ip ∧ x.port = port := by
  have hp := List.find?_some h
  simpa [and_assoc] using hp

/-- A session is found again after it was stored. -/
theorem Dev.session_putSession (h : d.session (.udp ip port) id = some x) (hid : y.id = x.id) (hip : y.ip = x.ip)
    (hport : y.port = x.port) : (d.putSession (.udp ip port) y).session (.udp ip port) id = some y := by
  obtain ⟨kid, kip, kport⟩ := Dev.session_keys h
  simp only [Dev.session, Dev.putSession] at h ⊢
  generalize d.mgmt.sessions = l at h ⊢
  induction l with
  | nil => simp at h
  | cons a l ih =>
    rw [List.map_cons]
    by_cases ha : a.id = y.id
    · rw [if_pos ha, List.find?_cons_of_pos (by simp [hid, hip, hport, kid, kip, kport])]
    · have hne : a.id ≠ id := fun e => ha (by rw [e, hid, kid])
      rw [if_neg ha, List.find?_cons_of_neg (by simp [hne])]
      exact ih (by rwa [List.find?_cons_of_neg (by simp [hne])] at h)

theorem Dev.putSession_putSession (src : IopSrc) (hid : y.id = z.id) : (d.putSession src y).putSession src z = d.putSession src z := by
  cases src with
  | mbx => rfl
  | udp a b =>
    have hmap : ∀ w : Session, (if (if w.id = y.id then y else w).id = z.id then z else if w.id = y.id then y else w) =
        if w.id = z.id then z else w := by
      intro w
      rw [hid]
      by_cases hw : w.id = z.id
      · rw [if_pos hw, if_pos hw, if_pos hid]
      · simp only [if_neg hw]
    simp only [Dev.putSession, List.map_map, Function.comp_def, hmap]

/-- A session that ends leaves nothing of what was stored in it. -/
theorem Dev.endSession_putSession (src : IopSrc) (hs : src ≠ .mbx) (hid : y.id = id) :
    (d.putSession src y).endSession id = d.endSession id := by
  cases src with
  | mbx => exact absurd rfl hs
  | udp a b =>
    have hl : (d.mgmt.sessions.map (fun w => if w.id = y.id then y else w)).filter (fun w => w.id != id) =
        d.mgmt.sessions.filter (fun w => w.id != id) := by
      induction d.mgmt.sessions with
      | nil => rfl
      | cons a l ih =>
        rw [List.map_cons, List.filter_cons, List.filter_cons, ih]
        by_cases ha : a.id = y.id
        · have hz : (y.id != id) = false := by simp [hid]
          rw [if_pos ha, ha, hz]
          rfl
        · rw [if_neg ha]
    simp only [Dev.putSession, Dev.endSession, hl]

theorem Dev.session_endSession (d : Dev) (ip port id : Nat) : (d.endSession id).session (.udp ip port) id = none := by
  simp only [Dev.session, Dev.endSession, List.find?_eq_none, List.mem_filter]
  rintro w ⟨-, hw⟩
  have hne : w.id ≠ id := by simpa using hw
  simp [hne]

theorem Dev.noteRequest_of_none {src : IopSrc} (seq : Nat) (r : List Byte) (h : d.session src id = none) :
    d.noteRequest src id seq r = d := by simp only [Dev.noteRequest, h]

theorem Dev.noteRequest_of_session {src : IopSrc} (seq : Nat) (r : List Byte) (h : d.session src id = some x) :
    d.noteRequest src id seq r = d.putSession src { x with seq := seq, resp := r, untouched := false, at_ := d.now } := by
  simp only [Dev.noteRequest, h]

/-- A session that noted a request before it was carried out notes it after. -/
theorem Dev.noteRequest_putSession {seq : Nat} {r : List Byte} (h : d.session (.udp ip port) id = some x) :
    (d.putSession (.udp ip port) { x with seq := seq, resp := [], untouched := false, at_ := d.now }).noteRequest (.udp ip port) id seq r =
      d.putSession (.udp ip port) { x with seq := seq, resp := r, untouched := false, at_ := d.now } :=
  (Dev.noteRequest_of_session seq r (Dev.session_putSession
    (y := { x with seq := seq, resp := [], untouched := false, at_ := d.now }) h rfl rfl rfl)).trans (Dev.putSession_putSession _ rfl)

end

/-! ## Requests -/

section
variable {s t : State} {src : IopSrc} {m : IopMsg} {l : List IopItem} {x : Session} {r : List Byte}

theorem iopHandle_malformed {c : Nat} (hf : m.form = .inl c) : iopHandle src m s = (some (m.result c), s) := by
  simp only [iopHandle, hf]

section
variable (hf : m.form = .inr l) (hop : m.op ≠ 1)
include hf hop

theorem iopHandle_no_session (hs : s.dev.session src m.session = none) : iopHandle src m s = (some (m.result 0x80), s) := by
  simp only [iopHandle, hf]
  split
  · exact absurd ‹m.op = 1› hop
  · simp only [hs]

theorem iopHandle_session (hs : s.dev.session src m.session = some x) : iopHandle src m s = sessionRequest src x m l s := by
  simp only [iopHandle, hf]
  split
  · exact absurd ‹m.op = 1› hop
  · simp only [hs]

end

/-- The next request is carried out; a READ or WRITE whose session it ended stays unanswered. -/
theorem sessionRequest_next (hseq : m.seq = (x.seq + 1) % 65536)
    (hd : doRequest src x m l { s with dev := s.dev.noteRequest src x.id m.seq [] } = (.inl r, t))
    (hses : m.op = 0x10 ∨ m.op = 0x11 → (t.dev.session src x.id).isSome = true) :
    sessionRequest src x m l s = (some r, { t with dev := t.dev.noteRequest src x.id m.seq r }) := by
  have hno : ((m.op == 0x10 || m.op == 0x11) && (t.dev.session src x.id).isNone) = false := by
    by_cases hop : m.op = 0x10 ∨ m.op = 0x11
    · rw [← Option.not_isSome, hses hop, Bool.not_true, Bool.and_false]
    · obtain ⟨h1, h2⟩ := not_or.mp hop
      simp [h1, h2]
  simp only [sessionRequest, if_pos hseq, hd, hno, Bool.false_eq_true, if_false]

theorem sessionRequest_again (hseq : m.seq = x.seq) (hlt : m.seq < 65536) :
    sessionRequest src x m l s = (some (replayOf x.resp), { s with dev := s.dev.noteRequest src x.id x.seq x.resp }) := by
  have hne : ¬ m.seq = (x.seq + 1) % 65536 := by
    have hx : x.seq < 65536 := hseq ▸ hlt
    omega
  exact (if_neg hne).trans (if_pos hseq)

theorem sessionRequest_out_of_order (h1 : m.seq ≠ x.seq) (h2 : m.seq ≠ (x.seq + 1) % 65536) :
    sessionRequest src x m l s = (some (m.result 0x81), { s with dev := s.dev.putSession src { x with untouched := false } }) :=
  (if_neg h2).trans (if_neg h1)

end

/-! ## Requests over UDP -/

section
variable {s t : State} {ip port : Nat} {m : IopMsg} {l : List IopItem} {x : Session} {r : List Byte}
  (hf : m.form = .inr l) (hop : m.op ≠ 1) (hs : s.dev.session (.udp ip port) m.session = some x)
include hf hop hs

theorem handled_again (hseq : m.seq = x.seq) (hlt : m.seq < 65536) :
    iopHandle (.udp ip port) m s = (some (replayOf x.resp),
      { s with dev := s.dev.putSession (.udp ip port) { x with untouched := false, at_ := s.dev.now } }) := by
  have hnote : s.dev.noteRequest (.udp ip port) x.id x.seq x.resp =
      s.dev.putSession (.udp ip port) { x with untouched := false, at_ := s.dev.now } :=
    (congrArg (fun i => s.dev.noteRequest (.udp ip port) i x.seq x.resp) (Dev.session_keys hs).1).trans
      (Dev.noteRequest_of_session _ _ hs)
  rw [iopHandle_session hf hop hs, sessionRequest_again hseq hlt, hnote]

theorem handled_out_of_order (h1 : m.seq ≠ x.seq) (h2 : m.seq ≠ (x.seq + 1) % 65536) :
    iopHandle (.udp ip port) m s =
      (some (m.result 0x81), { s with dev := s.dev.putSession (.udp ip port) { x with untouched := false } }) :=
  (iopHandle_session hf hop hs).trans (sessionRequest_out_of_order h1 h2)

/-- The next request: the session notes it before it is carried out and after. -/
theorem handled_next {d : Dev} (hseq : m.seq = (x.seq + 1) % 65536)
    (hd : d = s.dev.putSession (.udp ip port) { x with seq := m.seq, resp := [], untouched := false, at_ := s.dev.now })
    (hr : doRequest (.udp ip port) x m l { s with dev := d } = (.inl r, t))
    (hses : m.op = 0x10 ∨ m.op = 0x11 → (t.dev.session (.udp ip port) m.session).isSome = true) :
    iopHandle (.udp ip port) m s = (some r, { t with dev := t.dev.noteRequest (.udp ip port) m.session m.seq r }) := by
  have hid := (Dev.session_keys hs).1
  have hnote : s.dev.noteRequest (.udp ip port) x.id m.seq [] = d := by
    rw [hid, Dev.noteRequest_of_session _ _ hs, hd]
  rw [iopHandle_session hf hop hs, ← hid]
  exact sessionRequest_next hseq (hnote ▸ hr) (hid ▸ hses)

end

section
variable {c : Instr} {s t : State} {ip port : Nat} {m : IopMsg} {r : List Byte}
  (hm : Managed s) (hc : exec c s = served (udpRequest ip port m) s)
include hm hc

theorem gives_of_handled (hh : iopHandle (.udp ip port) m s = (some r, t)) (hup : t.dev.mgmtUp = true) :
    Gives c s (serveBell { t with dev := t.dev.iopSend ip port r }) := by
  rw [Gives, hc, served_next]
  simp only [udpRequest, (managed_ready hm).1, hh, hup, if_true]

theorem answers_of_handled {d : Dev} (hh : iopHandle (.udp ip port) m s = (some r, { s with dev := d })) (hd : d.Ready) :
    Answers c s ip port d r := by
  have hg := gives_of_handled hm hc hh hd.1
  rwa [serveBell_none ((d.iopSend_bell ip port r).trans hd.2)] at hg

theorem answers_malformed {k : Nat} (hf : m.form = .inl k) : Answers c s ip port s.dev (m.result k) :=
  answers_of_handled hm hc (iopHandle_malformed hf) (managed_ready hm)

theorem answers_no_session {l : List IopItem} (hf : m.form = .inr l) (hop : m.op ≠ 1)
    (hs : s.dev.session (.udp ip port) m.session = none) : Answers c s ip port s.dev (m.result 0x80) :=
  answers_of_handled hm hc (iopHandle_no_session hf hop hs) (managed_ready hm)

end

/-- A request without items has the form of one. -/
theorem form_bare {id seq op : Nat} (h : op = 1 ∨ op = 2 ∨ op = 4) :
    ({ session := id, seq := seq, op := op } : IopMsg).form = .inr [] := by
  rcases h with rfl | rfl | rfl <;> simp [IopMsg.form, hasBit]

/-! ## Opening a session (16 R430) -/

/-- Among nine values one is free where fewer than nine sessions stand. -/
theorem newId_free (l : List Session) (r : Nat) (hl : l.length < 9) :
    1 ≤ newId l r ∧ newId l r ≤ 65534 ∧ ∀ x ∈ l, x.id ≠ newId l r := by
  have hsome : (((List.range 9).map (fun k => (r + k) % 65534 + 1)).find? (fun n => !l.any (fun x => x.id == n))).isSome = true := by
    refine Classical.byContradiction fun hnone => ?_
    rw [Bool.not_eq_true, Option.isSome_eq_false_iff, Option.isNone_iff_eq_none, List.find?_eq_none] at hnone
    have hsub : (List.range 9).map (fun k => (r + k) % 65534 + 1) ⊆ l.map (·.id) := by
      intro n hn
      have hused := hnone n hn
      simp only [Bool.not_eq_true, Bool.not_eq_false', List.any_eq_true, beq_iff_eq] at hused
      exact List.mem_map.mpr hused
    have hnd : ((List.range 9).map (fun k => (r + k) % 65534 + 1)).Nodup := by
      refine List.pairwise_map.mpr (List.Pairwise.imp_of_mem (fun {a b} ha hb hab => ?_) List.nodup_range)
      rw [List.mem_range] at ha hb
      omega
    have hlen := hnd.length_le_of_subset hsub
    simp only [List.length_map, List.length_range] at hlen
    omega
  obtain ⟨n, hn⟩ := Option.isSome_iff_exists.mp hsome
  have hid : newId l r = n := by simp only [newId, hn]
  obtain ⟨k, -, hk⟩ := List.mem_map.mp (List.mem_of_find?_eq_some hn)
  have hfree : l.any (fun x => x.id == n) = false := by simpa using List.find?_some hn
  refine ⟨by omega, by omega, fun x hx he => ?_⟩
  have hany : l.any (fun x => x.id == n) = true := List.any_eq_true.mpr ⟨x, hx, by rw [he, hid]; exact beq_self_eq_true n⟩
  rw [hfree] at hany
  exact absurd hany (by decide)

section
variable {d : Dev} {ip port : Nat} {m : IopMsg}

theorem Dev.sessionOpen_again {x : Session} (h : d.mgmt.sessions.find? (fun x => x.ip == ip && x.port == port) = some x)
    (hseq : m.seq = x.openSeq) (hu : x.untouched = true) : d.sessionOpen ip port m = (replayOf x.resp, d) := by
  simp only [Dev.sessionOpen, h]
  exact if_pos ⟨hseq.symm, hu⟩

theorem Dev.sessionOpen_full (h : d.mgmt.sessions.find? (fun x => x.ip == ip && x.port == port) = none)
    (hl : 8 ≤ d.mgmt.sessions.length) : d.sessionOpen ip port m = (m.result 0x88, d) := by
  simp only [Dev.sessionOpen, h]
  exact if_pos hl

theorem Dev.sessionOpen_new (h : d.mgmt.sessions.find? (fun x => x.ip == ip && x.port == port) = none)
    (hl : d.mgmt.sessions.length < 8) : d.sessionOpen ip port m = d.openSession ip port m.seq m := by
  simp only [Dev.sessionOpen, h]
  exact if_neg (Nat.not_le.mpr hl)

end

theorem answers_sessionOpen {s : State} {ip port seq : Nat} {d : Dev} {r : List Byte} (hm : Managed s)
    (h : s.dev.sessionOpen ip port { session := 0, seq := seq, op := 1 } = (r, d)) (hd : d.Ready) :
    Answers (.sessionOpen ip port seq) s ip port d r := by
  have hh : iopHandle (.udp ip port) { session := 0, seq := seq, op := 1 } s = (some r, { s with dev := d }) := by
    simp only [iopHandle, form_bare (.inl rfl), h]
  exact answers_of_handled hm rfl hh hd

section
variable {s : State} {ip port id : Nat} {x : Session}

theorem handled_close (hx : s.dev.session (.udp ip port) x.id = some x) :
    iopHandle (.udp ip port) { session := x.id, seq := (x.seq + 1) % 65536, op := 2 } s =
      (some (({ session := x.id, seq := (x.seq + 1) % 65536, op := 2 } : IopMsg).answer 0 []),
        { s with dev := s.dev.endSession x.id }) := by
  rw [handled_next (form_bare (by simp)) (by simp) hx rfl rfl rfl (fun h => absurd h (by simp))]
  simp only [reduceCtorEq, if_false, Dev.endSession_putSession, ne_eq, not_false_eq_true,
    Dev.noteRequest_of_none _ _ (Dev.session_endSession ..)]

theorem handled_keepalive (hx : s.dev.session (.udp ip port) id = some x) {m : IopMsg} {r : List Byte}
    (hm : m = { session := id, seq := (x.seq + 1) % 65536, op := 4 })
    (hr : r = m.answer 0 (bytesOf 1 s.dev.dstate.code ++ bytesOf 1 s.dev.level.code)) :
    iopHandle (.udp ip port) m s = (some r, { s with
      dev := s.dev.putSession (.udp ip port) { x with seq := m.seq, resp := r, untouched := false, at_ := s.dev.now } }) := by
  subst hm hr
  rw [← Dev.noteRequest_putSession hx]
  exact handled_next (m := { session := id, seq := (x.seq + 1) % 65536, op := 4 }) (form_bare (by simp)) (by simp) hx rfl rfl rfl
    (fun h => absurd h (by simp))

end

theorem runs_sessionTimeout {s : State} (id : Nat) (hm : Managed s) : Runs (.sessionTimeout id) s (s.dev.endSession id) :=
  runs_of_onDev hm.1 rfl (if_pos (managed_ready hm).1)

end Sys2Proof.Machine

open Sys2Proof Sys2Proof.Machine

/-- Settles O46: a session opens with an ID that none has, ends, and answers its requests by their sequence. -/
theorem sessionsKept : Obligations.SessionsKept := by
  unfold Obligations.SessionsKept
  refine ⟨fun s ip port seq hm hnone => ⟨fun hl => ?opened, fun hl => ?full⟩, fun s ip port x hm hx hu => ?again,
    fun s ip port id x hm hx => ?close, fun s id hm => runs_sessionTimeout id hm,
    fun s ip port id seq hm hx => ⟨?noneKeepalive, ?noneClose⟩,
    fun s ip port id seq x hm hx => ⟨fun h hlt => ?same, fun h1 h2 => ?outOfOrder, fun r hseq hr => ?next⟩⟩
  case opened =>
    obtain ⟨hmin, hmax, hnew⟩ := newId_free s.dev.mgmt.sessions (s.dev.fresh 0x429 16).1 (by omega)
    exact ⟨_, bytesOf 16 ((s.dev.fresh 0x429 16).2.fresh 0x431 128).1, _, _, hmin, hmax, hnew, length_bytesOf 16 _, rfl, rfl,
      answers_sessionOpen hm (Dev.sessionOpen_new hnone hl) (managed_ready hm)⟩
  case full => exact answers_sessionOpen hm (Dev.sessionOpen_full hnone hl) (managed_ready hm)
  case again => exact answers_sessionOpen hm (Dev.sessionOpen_again hx rfl hu) (managed_ready hm)
  case close =>
    obtain ⟨rfl, -, -⟩ := Dev.session_keys hx
    exact answers_of_handled hm rfl (handled_close hx) ((managed_ready hm).endSession x.id)
  case noneKeepalive => exact answers_no_session hm rfl (form_bare (by simp)) (by simp) hx
  case noneClose => exact answers_no_session hm rfl (form_bare (by simp)) (by simp) hx
  case same =>
    exact answers_of_handled hm rfl (handled_again (form_bare (by simp)) (by simp) hx h hlt) ((managed_ready hm).putSession _ _)
  case outOfOrder =>
    exact answers_of_handled hm rfl (handled_out_of_order (form_bare (by simp)) (by simp) hx h1 h2) ((managed_ready hm).putSession _ _)
  case next =>
    subst hseq hr
    exact answers_of_handled hm rfl (handled_keepalive hx rfl rfl) ((managed_ready hm).putSession _ _)

end

-- ELEVATE, READ, WRITE and INFO (16 R431–R441, 11 R319).
section
/-! PROOFS. ELEVATE by the session, the credential, the time of the last failure and the proof; the items of a request by its form and by the
first check that fails. -/

namespace Sys2Proof.Machine

open Sys2Proof

/-! ## ELEVATE (16 R431) -/

theorem Dev.Ready.noteFailure {d : Dev} (h : d.Ready) (n : Nat) (t : Option Nat) :
    ({ d with mgmt := { d.mgmt with failed := n, failAt := t } } : Dev).Ready := h

theorem form_elevate {id seq : Nat} {proof : List Byte} (h : proof.length = 16) :
    ({ session := id, seq := seq, op := 3, body := proof } : IopMsg).form = .inr [] := by simp [IopMsg.form, hasBit, h]

theorem answers_elevate {s : State} {ip port id seq k : Nat} {proof : List Byte} {x : Session} {d e : Dev} {m : IopMsg} (hman : Managed s)
    (hx : s.dev.session (.udp ip port) id = some x) (hseq : seq = (x.seq + 1) % 65536) (hlen : proof.length = 16)
    (hd : d = s.dev.putSession (.udp ip port) { x with seq := seq, resp := [], untouched := false, at_ := s.dev.now })
    (hm : m = { session := id, seq := seq, op := 3, body := proof }) (he : d.elevate x proof = (k, e)) (hr : e.Ready) :
    Answers (.elevate ip port id seq proof) s ip port (e.noteRequest (.udp ip port) id seq (m.result k)) (m.result k) := by
  subst hm
  have hdo : doRequest (.udp ip port) x { session := id, seq := seq, op := 3, body := proof } [] { s with dev := d } =
      (.inl (({ session := id, seq := seq, op := 3, body := proof } : IopMsg).result k), { s with dev := e }) := by
    simp only [doRequest, he]
  exact answers_of_handled hman rfl
    (handled_next (m := { session := id, seq := seq, op := 3, body := proof }) (form_elevate hlen) (by simp) hx hseq hd hdo
      (fun h => absurd h (by simp)))
    (hr.noteRequest _ _ _ _)

section
variable {d : Dev} {x : Session} {proof c : List Byte}

theorem Dev.elevate_expert (hx : x.expert = true) : d.elevate x proof = (0x89, d) := if_pos hx

section
variable (hx : x.expert = false)
include hx

theorem Dev.elevate_no_credential (hc : d.mgmt.cred = none) :
    d.elevate x proof = (0x87, d.raise Ev.ELEVATE_REFUSED (x.ip + 2 ^ 32 * 0x87)) := by
  simp only [Dev.elevate, hx, hc, Bool.false_eq_true, if_false]
  rfl

section
variable (hc : d.mgmt.cred = some c)
include hc

theorem Dev.elevate_lockout {t : Nat} (ht : d.mgmt.failAt = some t) (hlt : d.now < t + 1000000000) :
    d.elevate x proof = (0x86, d.raise Ev.ELEVATE_REFUSED (x.ip + 2 ^ 32 * 0x86)) := by
  simp only [Dev.elevate, hx, hc, ht, Bool.false_eq_true, if_false]
  exact if_pos (decide_eq_true hlt)

section
variable (hold : ∀ t : Nat, d.mgmt.failAt = some t → t + 1000000000 ≤ d.now)
include hold

/-- More than a second after the last failure the proof decides. -/
theorem Dev.elevate_admitted : d.elevate x proof =
    if proof = proofOf c x.nonce x.id then
      (0, (d.putSession (.udp x.ip x.port) { x with expert := true }).raise Ev.SESSION_EXPERT x.id)
    else (0x85, { d.endSession x.id with mgmt := { (d.endSession x.id).mgmt with
        failed := d.mgmt.failed + 1, failAt := some d.now } }.raise Ev.ELEVATE_REFUSED (x.ip + 2 ^ 32 * 0x85)) := by
  have hno : (match d.mgmt.failAt with
      | some t => decide (d.now < t + nsPerSec)
      | none => false) = false := by
    cases hf : d.mgmt.failAt with
    | none => rfl
    | some t => exact decide_eq_false (Nat.not_lt.mpr (hold t hf))
  simp only [Dev.elevate, hx, hc, Bool.false_eq_true, if_false]
  exact if_neg (Bool.eq_false_iff.mp hno)

theorem Dev.elevate_right (hp : proof = (sha256 (c ++ x.nonce ++ bytesOf 2 x.id)).take 16) :
    d.elevate x proof = (0, (d.putSession (.udp x.ip x.port) { x with expert := true }).raise Ev.SESSION_EXPERT x.id) :=
  (Dev.elevate_admitted hx hc hold).trans (if_pos hp)

theorem Dev.elevate_wrong {e : Dev} (hp : proof ≠ (sha256 (c ++ x.nonce ++ bytesOf 2 x.id)).take 16) (he : e = d.endSession x.id) :
    d.elevate x proof = (0x85, { e with mgmt := { e.mgmt with
      failed := d.mgmt.failed + 1, failAt := some d.now } }.raise Ev.ELEVATE_REFUSED (x.ip + 2 ^ 32 * 0x85)) := by
  subst he
  exact (Dev.elevate_admitted hx hc hold).trans (if_neg hp)

end

end

end

end

/-! ## The form of a request with items (16 R433) -/

section
variable {id seq n : Nat} {b : List Byte} {l : List IopItem} {write : Bool}

theorem form_items_eq {op fl : Nat} (hop : op = 0x10 ∨ op = 0x11 ∨ op = 0x12) :
    ({ flags := fl, session := id, seq := seq, op := op, count := n, body := b } : IopMsg).form =
      if n < 1 ∨ 32 < n then .inl 0x83
      else match parseItems (op == 0x11) n b with
        | none => .inl 0x83
        | some l => if hasBit fl 1 && (op != 0x11 || !l.all IopItem.plain) then .inl 0x83 else .inr l := by
  rcases hop with rfl | rfl | rfl <;> rfl

theorem form_items_bad {op fl : Nat} (hop : op = 0x10 ∨ op = 0x11 ∨ op = 0x12)
    (h : n = 0 ∨ 32 < n ∨ parseItems (op == 0x11) n b = none) :
    ({ flags := fl, session := id, seq := seq, op := op, count := n, body := b } : IopMsg).form = .inl 0x83 := by
  rw [form_items_eq hop]
  rcases h with h | h | h
  · exact if_pos (.inl (by omega))
  · exact if_pos (.inr h)
  · rw [h, ite_self]

theorem form_items {op fl : Nat} (hop : op = 0x10 ∨ op = 0x11 ∨ op = 0x12) (h1 : 1 ≤ n) (h2 : n ≤ 32)
    (hl : parseItems (op == 0x11) n b = some l) (hfl : hasBit fl 1 = true → op = 0x11 ∧ l.all IopItem.plain = true) :
    ({ flags := fl, session := id, seq := seq, op := op, count := n, body := b } : IopMsg).form = .inr l := by
  have hno : (hasBit fl 1 && (op != 0x11 || !l.all IopItem.plain)) = false := by
    by_cases hb : hasBit fl 1 = true
    · obtain ⟨ho, ha⟩ := hfl hb
      simp [ho, ha]
    · simp [hb]
  rw [form_items_eq hop, if_neg (by omega), hl]
  exact if_neg (Bool.eq_false_iff.mp hno)

end

/-! ## Requests with items (16 R434, R439, 11 R319) -/

section
variable {c : Instr} {s t : State} {ip port : Nat} {m : IopMsg} {l : List IopItem} {x : Session} {d : Dev} {r : List Byte}
  (hman : Managed s) (hc : exec c s = served (udpRequest ip port m) s) (hf : m.form = .inr l) (hop : m.op ≠ 1)
  (hx : s.dev.session (.udp ip port) m.session = some x) (hseq : m.seq = (x.seq + 1) % 65536)
  (hd : d = s.dev.putSession (.udp ip port) { x with seq := m.seq, resp := [], untouched := false, at_ := s.dev.now })
include hman hc hf hop hx hseq hd

theorem gives_items (hup : t.dev.mgmtUp = true) (hses : (t.dev.session (.udp ip port) m.session).isSome = true)
    (hdo : doRequest (.udp ip port) x m l { s with dev := d } = (.inl r, t)) :
    Gives c s (serveBell { t with dev := (t.dev.noteRequest (.udp ip port) m.session m.seq r).iopSend ip port r }) :=
  gives_of_handled (t := { t with dev := t.dev.noteRequest (.udp ip port) m.session m.seq r }) hman hc
    (handled_next hf hop hx hseq hd hdo (fun _ => hses)) ((Dev.mgmtUp_noteRequest ..).trans hup)

theorem answers_items (hdo : doRequest (.udp ip port) x m l { s with dev := d } = (.inl r, { s with dev := d })) :
    Answers c s ip port (d.noteRequest (.udp ip port) m.session m.seq r) r := by
  have hses : (d.session (.udp ip port) m.session).isSome = true := by
    rw [hd, Dev.session_putSession (y := { x with seq := m.seq, resp := [], untouched := false, at_ := s.dev.now }) hx rfl rfl rfl]
    rfl
  have hr : d.Ready := hd ▸ (managed_ready hman).putSession _ _
  exact answers_of_handled hman hc (handled_next hf hop hx hseq hd hdo (fun _ => hses)) (hr.noteRequest _ _ _ _)

end

section
variable {src : IopSrc} {x : Session} {l : List IopItem} {s t : State} {id seq n : Nat} {b v : List Byte}

theorem doRequest_read (h : readAll x.expert 1456 l s = (.inl v, t)) (ip port : Nat) :
    doRequest (.udp ip port) x { session := id, seq := seq, op := 0x10, count := n, body := b } l s =
      (.inl (({ session := id, seq := seq, op := 0x10, count := n, body := b } : IopMsg).answer n v), t) := by
  simp only [doRequest, show (IopSrc.udp ip port).limit - 16 = 1456 from rfl, h]

theorem doRequest_write {a : Bool} (hid : x.id = id)
    (h : (if a then writeAtomic src id x.expert l s else writeAll' src id x.expert l s) = (v, t)) :
    doRequest src x { flags := if a then 2 else 0, session := id, seq := seq, op := 0x11, count := n, body := b } l s =
      (.inl (({ session := id, seq := seq, op := 0x11, count := n, body := b } : IopMsg).answer n v), t) := by
  have hb : hasBit (if a then 2 else 0) 1 = a := by cases a <;> rfl
  simp only [doRequest, hb, hid, h]
  rfl

theorem runs_memoryError {c : Instr} {ip port k : Nat} {m : IopMsg} {d : Dev} (hman : Managed s)
    (hc : exec c s = served (udpRequestErr (some k) ip port m) s) (hd : d = s.dev.mgmtFault k) (hb : d.mgmt.bell = none) :
    Runs c s d := by
  subst hd
  rw [Runs, hc, served_next]
  simp only [udpRequestErr, (managed_ready hman).1, if_true]
  exact (serveBell_none hb).symm

end

/-! ## Items (16 R436, R439) -/

section
variable {s : State} {src : IopSrc} {id k : Nat} {e : Bool} {w : IopItem}

theorem readOne_refused (h : s.dev.readCode e w ≠ 0) : readOne e k w s = (.inl (readResult w (s.dev.readCode e w) 0 []), s) := by
  unfold readOne
  split
  · exact if_pos h
  · rfl

theorem writeOne_refused {r : ObjRow} {i : Nat} (hr : findObj w.idx w.sub = .found r i) (h : s.dev.writeCode e w ≠ 0) :
    writeOne src id e w s =
      (writeResult w (s.dev.writeCode e w) 0, { s with dev := s.dev.refusedItem r (s.dev.writeCode e w) }) := by
  simp only [writeOne, hr]
  exact if_pos h

theorem Dev.writeCode_noObject {d : Dev} (h : findObj w.idx w.sub = .noObject) : d.writeCode e w = 1 := by
  simp only [Dev.writeCode, h]

theorem Dev.writeCode_noSub {d : Dev} (h : findObj w.idx w.sub = .noSub) : d.writeCode e w = 2 := by simp only [Dev.writeCode, h]

theorem writeOne_noObject (h : findObj w.idx w.sub = .noObject) : writeOne src id e w s = (writeResult w 1 0, s) := by
  simp only [writeOne, h, Dev.writeCode_noObject h]

theorem writeOne_noSub (h : findObj w.idx w.sub = .noSub) : writeOne src id e w s = (writeResult w 2 0, s) := by
  simp only [writeOne, h, Dev.writeCode_noSub h]

theorem Dev.refusedItem_not_busy {d : Dev} {c : Nat} (r : ObjRow) (h : c ≠ 10) : d.refusedItem r c = d := by
  unfold Dev.refusedItem
  split
  · split
    · exact if_neg h
    · rfl
  · rfl

theorem Dev.refusedItem_busy {d : Dev} {r : ObjRow} {k : ObjCmd} {f : Fld} (hr : r.back = .cmd k) (hf : k.ovr = some f) :
    d.refusedItem r 10 = d.setB f true := by
  simp only [Dev.refusedItem, hr, hf, if_true]

/-- An ATOMIC request with an item that fails changes nothing. -/
theorem writeAtomic_refused {l : List IopItem} (hw : w ∈ l) (h : s.dev.writeCode e w ≠ 0) : (writeAtomic src id e l s).2 = s := by
  have hany : (l.map (s.dev.writeCode e)).any (· != 0) = true :=
    List.any_eq_true.mpr ⟨_, List.mem_map.mpr ⟨w, hw, rfl⟩, by simpa using h⟩
  simp only [writeAtomic, hany, if_true]

end

end Sys2Proof.Machine

open Sys2Proof Sys2Proof.Machine

/-- Settles O47: ELEVATE of an Expert session, without a credential, during lockout, with the right and with a wrong proof. -/
theorem sessionsElevated : Obligations.SessionsElevated := by
  unfold Obligations.SessionsElevated
  intro s ip port id seq proof x y d m hman hx hseq hlen hy hd hm
  obtain ⟨rfl, rfl, rfl⟩ := Dev.session_keys hx
  have hdr : d.Ready := hd ▸ (managed_ready hman).putSession _ _
  rw [hy] at hd
  refine ⟨fun he => ?expert, fun he hc => ?noCredential, fun c he hc => ⟨fun t ht hlt => ?lockout, fun hold =>
    ⟨fun hp => ?right, fun hp e hend => ?wrong⟩⟩⟩
  case expert => exact answers_elevate hman hx hseq hlen hd hm (Dev.elevate_expert he) hdr
  all_goals
    have hcred : d.mgmt.cred = s.dev.mgmt.cred := by rw [hd]; rfl
    have hfail : d.mgmt.failAt = s.dev.mgmt.failAt := by rw [hd]; rfl
    have hcount : d.mgmt.failed = s.dev.mgmt.failed := by rw [hd]; rfl
    have hnow : d.now = s.dev.now := by rw [hd]; rfl
  case noCredential =>
    exact answers_elevate hman hx hseq hlen hd hm (Dev.elevate_no_credential he (hcred.trans hc)) (hdr.raise _ _)
  case lockout =>
    exact answers_elevate hman hx hseq hlen hd hm (Dev.elevate_lockout he (hcred.trans hc) (hfail.trans ht) (hnow ▸ hlt)) (hdr.raise _ _)
  case right =>
    exact answers_elevate hman hx hseq hlen hd hm (Dev.elevate_right he (hcred.trans hc) (by rwa [hfail, hnow]) hp)
      ((hdr.putSession _ _).raise _ _)
  case wrong =>
    rw [← hcount, ← hnow]
    have her : e.Ready := hend ▸ hdr.endSession _
    have hfr := her.noteFailure (d.mgmt.failed + 1) (some d.now)
    exact answers_elevate hman hx hseq hlen hd hm (Dev.elevate_wrong he (hcred.trans hc) (by rwa [hfail, hnow]) hp hend)
      (hfr.raise _ _)

/-- Settles O48: a request by its form, its items in order, an item by the first check that fails, an unreadable word of memory. -/
theorem itemsAnswered : Obligations.ItemsAnswered := by
  unfold Obligations.ItemsAnswered
  refine ⟨fun s ip port id seq n b hm => ⟨fun h m hmsg => ⟨?badRead, ?badInfo⟩, fun h => ?badWrite⟩,
    fun s t ip port id seq n b v r l x d f hm hx hseq h1 h2 hd hup hses =>
      ⟨fun hl hall hr hf => ?read, fun a hl ha hall hr hf => ?write, fun hl hr => ?info⟩,
    fun s src id k e w => ⟨readOne_refused, fun r i hr h => writeOne_refused hr h, fun r h => Dev.refusedItem_not_busy r h,
      fun r h => ?busyUpdate, fun r h => ?busyTime, writeOne_noObject, writeOne_noSub, fun l hw h => writeAtomic_refused hw h⟩,
    fun s ip port id seq n k b a d hm hd hb => ⟨?memoryRead, ?memoryWrite⟩⟩
  case badRead =>
    subst hmsg
    exact answers_malformed (m := { session := id, seq := seq, op := 0x10, count := n, body := b }) hm rfl (form_items_bad (.inl rfl) h)
  case badInfo =>
    subst hmsg
    exact answers_malformed (m := { session := id, seq := seq, op := 0x12, count := n, body := b }) hm rfl
      (form_items_bad (.inr (.inr rfl)) h)
  case badWrite =>
    exact answers_malformed (m := { session := id, seq := seq, op := 0x11, count := n, body := b }) hm rfl
      (form_items_bad (.inr (.inl rfl)) h)
  case read =>
    subst hf hr
    exact gives_items (m := { session := id, seq := seq, op := 0x10, count := n, body := b }) hm rfl (form_items (.inl rfl) h1 h2 hl (fun h => absurd h (by decide))) (by simp) hx hseq hd hup hses
      (doRequest_read hall ip port)
  case write =>
    subst hf hr
    have hbit : hasBit (if a then 2 else 0) 1 = true → 0x11 = 0x11 ∧ l.all IopItem.plain = true := by
      cases a with
      | true => exact fun _ => ⟨rfl, ha rfl⟩
      | false => exact fun h => absurd h (by decide)
    exact gives_items (m := { flags := if a then 2 else 0, session := id, seq := seq, op := 0x11, count := n, body := b }) hm rfl
      (form_items (.inr (.inl rfl)) h1 h2 hl hbit) (by simp) hx hseq hd hup hses
      (doRequest_write (Dev.session_keys hx).1 hall)
  case info =>
    subst hr
    exact answers_items (m := { session := id, seq := seq, op := 0x12, count := n, body := b }) hm rfl (form_items (.inr (.inr rfl)) h1 h2 hl (fun h => absurd h (by decide))) (by simp) hx hseq hd rfl
  case memoryRead => exact runs_memoryError (m := { session := id, seq := seq, op := 0x10, count := n, body := b }) hm rfl hd hb
  case memoryWrite =>
    exact runs_memoryError (m := { flags := if a then 2 else 0, session := id, seq := seq, op := 0x11, count := n, body := b }) hm rfl hd hb
  case busyUpdate => rcases h with h | h <;> exact Dev.refusedItem_busy h rfl
  case busyTime => rcases h with h | h <;> exact Dev.refusedItem_busy h rfl

end

-- The mailbox and the value objects (16 R442, R452).
section
/-! PROOFS. A ring of the doorbell, the message that waits, host accesses by the value objects. -/

namespace Sys2Proof.Machine

open Sys2Proof

/-! ## The doorbell (16 R442, 17 R463) -/

section
variable {s : State}

theorem Dev.hostUp_of_perst {d : Dev} {b : Bool} (ha : d.awake = true) (hp : d.pwr.perst = b) : d.hostUp = !b := by
  simp [Dev.hostUp, ha, hp]

theorem runs_doorbell_no_host {len : Nat} (hm : Managed s) (hp : s.dev.pwr.perst = true) : Runs (.devMbxDoorbell len) s s.dev := by
  have hh : s.dev.hostUp = false := Dev.hostUp_of_perst hm.1.1 hp
  rw [Runs, exec, execDevMbxDoorbell, served_next]
  simp only [hostAccess, hh, Bool.false_eq_true, if_false]
  exact (serveBell_none (managed_ready hm).2).symm

theorem gives_doorbell {len : Nat} {d : Dev} (hm : Managed s) (hp : s.dev.pwr.perst = false) (hlen : len < 4096)
    (h : s.dev.ring len = d) : Gives (.devMbxDoorbell len) s (serveBell { s with dev := d }) := by
  have hh : s.dev.hostUp = true := Dev.hostUp_of_perst hm.1.1 hp
  rw [Gives, exec, execDevMbxDoorbell, served_next]
  simp only [hostAccess, hh, if_true, Nat.mod_eq_of_lt hlen, h]

theorem Dev.ring_busy {d : Dev} (len : Nat) (hb : d.is R.DEV_MBX_STATUS_BUSY = true) : d.ring len = d.setB R.DEV_MBX_STATUS_OVR true :=
  if_pos hb

theorem Dev.ring_free {d : Dev} (len : Nat) (hb : d.is R.DEV_MBX_STATUS_BUSY = false) : d.ring len =
    ({ d with mgmt := { d.mgmt with bell := some len } }.setB R.DEV_MBX_STATUS_BUSY true).setB R.DEV_MBX_STATUS_DONE false :=
  if_neg (Bool.eq_false_iff.mp hb)

/-! ## The message that waits (16 R433, R442) -/

section
variable {len : Nat} {d : Dev} (hb : s.dev.mgmt.bell = some len) (hup : s.dev.mgmtUp = true)
  (hd : d = { s.dev with mgmt := { s.dev.mgmt with bell := none } })
include hb hup hd

theorem serveBell_eq : serveBell s = match (if 2048 < len then none else parseMsg (s.dev.mbxReq len)) with
    | none => { s with dev := d.iopDiscard.setB R.DEV_MBX_STATUS_BUSY false }
    | some m => match iopHandle .mbx m { s with dev := d } with
      | (some r, s1) => if s1.dev.mgmtUp && s1.dev.is R.DEV_MBX_STATUS_BUSY then { s1 with dev := s1.dev.mbxAnswer r } else s1
      | (none, s1) => s1 := by
  subst hd
  simp only [serveBell, hb, hup, Bool.not_true, Bool.false_eq_true, if_false] <;> rfl

theorem serveBell_discarded (h : 2048 < len ∨ parseMsg (s.dev.mbxReq len) = none) :
    serveBell s = { s with dev := d.iopDiscard.setB R.DEV_MBX_STATUS_BUSY false } := by
  have hnone : (if 2048 < len then none else parseMsg (s.dev.mbxReq len)) = none := by
    rcases h with h | h
    · exact if_pos h
    · rw [h, ite_self]
  rw [serveBell_eq hb hup hd, hnone]

theorem serveBell_answered {m : IopMsg} {r : List Byte} {t : State} (hlen : len ≤ 2048) (hp : parseMsg (s.dev.mbxReq len) = some m)
    (hh : iopHandle .mbx m { s with dev := d } = (some r, t)) (ht : t.dev.mgmtUp = true)
    (hbusy : t.dev.is R.DEV_MBX_STATUS_BUSY = true) : serveBell s = { t with dev := t.dev.mbxAnswer r } := by
  rw [serveBell_eq hb hup hd, if_neg (Nat.not_lt.mpr hlen), hp]
  simp only [hh, ht, hbusy, Bool.and_self, if_true]

end

/-! ## Value objects (16 R452) -/

section
variable {w : Word} {a : Nat} (hm : Managed s)
include hm

theorem gives_bar0ValueWrite (ha : a = s.dev.obj 0x6000 1 0) (h4 : a % 4 = 0) :
    Gives (.bar0ValueAccess true w) s (serveBell (busWrite a w.toNat s)) := by
  rw [Gives, exec, execBar0ValueAccess, served_next]
  simp only [(managed_ready hm).1, if_true, bar0Put, Dev.barAddr, ← ha, h4]

theorem gives_bar0ValueRead {t : State} (ha : a = s.dev.obj 0x6000 1 0) (h4 : a % 4 = 0) (ht : t = (busRead a s).2) :
    Gives (.bar0ValueAccess false w) s (serveBell { t with dev := { t.dev with resp := [BitVec.ofNat 32 (busRead a s).1] } }) := by
  subst ht
  rw [Gives, exec, execBar0ValueAccess, served_next]
  simp only [(managed_ready hm).1, if_true, Bool.false_eq_true, if_false, readInto, bar0Get, Dev.barAddr, ← ha, h4]

theorem gives_bar4ValueWrite (ha : a = s.dev.obj 0x6000 3 0) (h4 : a % 4 = 0) :
    Gives (.bar4ValueAccess true w) s (serveBell { s with dev := (s.dev.bar4Write a w 14).2 }) := by
  rw [Gives, exec, execBar4ValueAccess, served_next]
  simp only [(managed_ready hm).1, if_true, bar4Put, Dev.barAddr, ← ha, h4, BitVec.ofNat_toNat, BitVec.setWidth_eq]

theorem gives_bar4ValueRead {v : Word} {d : Dev} (ha : a = s.dev.obj 0x6000 3 0) (h4 : a % 4 = 0)
    (hr : s.dev.bar4Read a 14 = (some v, d)) :
    Gives (.bar4ValueAccess false w) s (serveBell { s with dev := { d with resp := [v] } }) := by
  rw [Gives, exec, execBar4ValueAccess, served_next]
  simp only [(managed_ready hm).1, if_true, Bool.false_eq_true, if_false, readInto, bar4Get, Dev.barAddr, ← ha, h4, hr,
    BitVec.ofNat_toNat, BitVec.setWidth_eq]

theorem gives_bar4ValueRead_poisoned {d e : Dev} (ha : a = s.dev.obj 0x6000 3 0) (h4 : a % 4 = 0)
    (hr : s.dev.bar4Read a 14 = (none, d)) (he : e = d.emit (.poisoned 4 a)) :
    Gives (.bar4ValueAccess false w) s (serveBell { s with dev := { e with resp := [0xFFFFFFFF] } }) := by
  subst he
  rw [Gives, exec, execBar4ValueAccess, served_next]
  simp only [(managed_ready hm).1, if_true, Bool.false_eq_true, if_false, readInto, bar4Get, Dev.barAddr, ← ha, h4, hr]
  rfl

end

end

end Sys2Proof.Machine

open Sys2Proof Sys2Proof.Machine

/-- Settles O49: the doorbell by PERST_N and BUSY, the waiting message by its form, the value objects by direction. -/
theorem mailboxAndValues : Obligations.MailboxAndValues := by
  unfold Obligations.MailboxAndValues
  refine ⟨fun s len hm => ⟨runs_doorbell_no_host hm, fun hp hlen => ⟨fun hb => ?busy, fun hb => ?free⟩⟩,
    fun s len d hb hup hd => ⟨serveBell_discarded hb hup hd, fun m r t hlen hp hh ht hbusy => ?answered⟩,
    fun s h => serveBell_none h,
    fun s w a hm ha h4 => ⟨gives_bar0ValueWrite hm ha h4, fun t ht => gives_bar0ValueRead hm ha h4 ht⟩,
    fun s w a hm ha h4 => ⟨gives_bar4ValueWrite hm ha h4, fun v d hr => gives_bar4ValueRead hm ha h4 hr,
      fun d e hr he => gives_bar4ValueRead_poisoned hm ha h4 hr he⟩⟩
  case busy => exact gives_doorbell hm hp hlen (Dev.ring_busy len hb)
  case free => exact gives_doorbell hm hp hlen (Dev.ring_free len hb)
  case answered => exact serveBell_answered hb hup hd hlen hp hh ht hbusy

end

-- The settings store and PROFILE REVERT (16 R445–R449).
section
/-! PROOFS. What a slot written by a SAVE reads as; what the store commands and REVERT do, by branch. -/

namespace Sys2Proof.Machine

open Sys2Proof

/-! ## CRC-32C has 32 bits -/

theorem crcBitR_lt {x : Nat} (h : x < 2 ^ 32) : crcBitR 0x82F63B78 x < 2 ^ 32 := by
  have hs : x >>> 1 < 2 ^ 32 := by rw [Nat.shiftRight_eq_div_pow]; omega
  unfold crcBitR
  split
  · exact Nat.xor_lt_two_pow hs (by decide)
  · exact hs

theorem crcByteR_lt {c : Nat} (b : Byte) (h : c < 2 ^ 32) : crcByteR 0x82F63B78 c b < 2 ^ 32 :=
  List.foldlRecOn (motive := fun x => x < 2 ^ 32) _ _ (Nat.xor_lt_two_pow h (Nat.lt_of_lt_of_le b.isLt (by decide)))
    (fun _ hx _ _ => crcBitR_lt hx)

theorem crc32c_lt (l : List Byte) : crc32c l < 2 ^ 32 :=
  Nat.xor_lt_two_pow
    (List.foldlRecOn (motive := fun x => x < 2 ^ 32) l _ (by decide) (fun _ hc b _ => crcByteR_lt b hc)) (by decide)

/-! ## Fields of a byte string -/

theorem leOf_bytesOf (n x : Nat) : leOf (bytesOf n x) = x % 256 ^ n := by
  induction n generalizing x with
  | zero => simp [bytesOf, leOf, Nat.mod_one]
  | succ n ih =>
    have hb : (BitVec.ofNat 8 x).toNat = x % 256 := BitVec.toNat_ofNat x 8
    rw [bytesOf, leOf, ih, hb, Nat.pow_succ', Nat.mod_mul]

theorem sliceOf_middle (a b c : List Byte) : sliceOf (a ++ (b ++ c)) a.length b.length = b := by
  rw [sliceOf, List.drop_left, List.take_left]

/-- A field of a byte string that was put together from parts. -/
theorem leAt_field {l a c : List Byte} {o n v : Nat} (hl : l = a ++ (bytesOf n v ++ c)) (ho : a.length = o) (hv : v < 256 ^ n) :
    leAt l o n = v := by
  subst hl ho
  have hs := sliceOf_middle a (bytesOf n v) c
  rw [length_bytesOf] at hs
  rw [leAt, hs, leOf_bytesOf, Nat.mod_eq_of_lt hv]

/-! ## A slot that was saved (16 R447, R448) -/

/-- The header of a slot up to its CRC. -/
def storeFields (schema seq len tables : Nat) : List Byte :=
  bytesOf 4 0x54535844 ++ bytesOf 4 schema ++ bytesOf 4 seq ++ bytesOf 4 len ++ bytesOf 1 tables ++ List.replicate 43 0

theorem storeHeader_eq (schema seq len tables crc : Nat) :
    storeHeader schema seq len tables crc = storeFields schema seq len tables ++ bytesOf 4 crc := rfl

theorem length_storeFields (schema seq len tables : Nat) : (storeFields schema seq len tables).length = 60 := by
  simp [storeFields, length_bytesOf]

section
variable {schema seq tables : Nat} {l : List Byte}

theorem storeSlot_eq : storeSlot schema seq tables l = storeFields schema seq l.length tables ++
    (bytesOf 4 (crc32c (storeFields schema seq l.length tables ++ bytesOf 4 0 ++ l)) ++ l) := by
  rw [storeSlot, storeHeader_eq, storeHeader_eq, List.append_assoc]

theorem length_storeSlot : (storeSlot schema seq tables l).length = 64 + l.length := by
  simp only [storeSlot_eq, List.length_append, length_storeFields, length_bytesOf]
  omega

/-- The first four words of a slot. -/
theorem storeSlot_words : ∃ r, storeSlot schema seq tables l =
    bytesOf 4 0x54535844 ++ (bytesOf 4 schema ++ (bytesOf 4 seq ++ (bytesOf 4 l.length ++ r))) := by
  refine ⟨bytesOf 1 tables ++ (List.replicate 43 0 ++ (bytesOf 4
    (crc32c (storeFields schema seq l.length tables ++ bytesOf 4 0 ++ l)) ++ l)), ?_⟩
  rw [storeSlot_eq]
  conv => lhs; arg 1; rw [storeFields]
  simp only [List.append_assoc]

theorem leAt_storeSlot_magic : leAt (storeSlot schema seq tables l) 0 4 = 0x54535844 := by
  obtain ⟨r, hr⟩ := storeSlot_words (schema := schema) (seq := seq) (tables := tables) (l := l)
  exact leAt_field (hr.trans (List.nil_append _).symm) rfl (by decide)

theorem leAt_storeSlot_schema (h : schema < 2 ^ 32) : leAt (storeSlot schema seq tables l) 4 4 = schema := by
  obtain ⟨r, hr⟩ := storeSlot_words (schema := schema) (seq := seq) (tables := tables) (l := l)
  exact leAt_field (a := bytesOf 4 0x54535844) hr (length_bytesOf _ _) h

theorem slotSeq_storeSlot (h : seq < 2 ^ 32) : slotSeq (storeSlot schema seq tables l) = seq := by
  obtain ⟨r, hr⟩ := storeSlot_words (schema := schema) (seq := seq) (tables := tables) (l := l)
  rw [← List.append_assoc] at hr
  exact leAt_field hr (by simp [length_bytesOf]) h

theorem leAt_storeSlot_length (h : l.length < 2 ^ 32) : leAt (storeSlot schema seq tables l) 0xC 4 = l.length := by
  obtain ⟨r, hr⟩ := storeSlot_words (schema := schema) (seq := seq) (tables := tables) (l := l)
  rw [← List.append_assoc, ← List.append_assoc] at hr
  exact leAt_field hr (by simp [length_bytesOf]) h

theorem leAt_storeSlot_crc : leAt (storeSlot schema seq tables l) 0x3C 4 =
    crc32c (storeFields schema seq l.length tables ++ bytesOf 4 0 ++ l) :=
  leAt_field storeSlot_eq (length_storeFields ..) (crc32c_lt _)

theorem take_storeSlot : (storeSlot schema seq tables l).take 0x3C = storeFields schema seq l.length tables := by
  rw [storeSlot_eq, ← length_storeFields schema seq l.length tables, List.take_left]

theorem slotContent_storeSlot (h : l.length < 2 ^ 32) : slotContent (storeSlot schema seq tables l) = l := by
  rw [slotContent, leAt_storeSlot_length h, sliceOf, storeSlot, List.drop_left' (by simp [storeHeader_eq, length_storeFields, length_bytesOf]),
    List.take_length]

theorem slotSound_storeSlot (h : l.length < 2 ^ 32) : slotSound (storeSlot schema seq tables l) = true := by
  simp only [slotSound, leAt_storeSlot_magic, leAt_storeSlot_length h, length_storeSlot, take_storeSlot, slotContent_storeSlot h,
    leAt_storeSlot_crc, Nat.le_refl, decide_true, beq_self_eq_true, Bool.and_true, Bool.true_and, beq_iff_eq]
  rfl

end

end Sys2Proof.Machine

open Sys2Proof Sys2Proof.Machine

/-- Settles O51: the fields of a slot stand where the slot is read, and its CRC is over what is read. -/
theorem storeFound : Obligations.StoreFound := by
  unfold Obligations.StoreFound
  intro schema seq tables l hschema hseq hl
  have hvalid : slotValid schema (storeSlot schema seq tables l) = true := by
    simp only [slotValid, slotSound_storeSlot hl, leAt_storeSlot_schema hschema, beq_self_eq_true, Bool.and_self]
  exact ⟨hvalid, slotSeq_storeSlot hseq, slotContent_storeSlot hl⟩

end

-- Commands of the settings store and PROFILE REVERT (16 R445, R447, R449; 11 R315, R319–R321).
section
/-! PROOFS. REVERT by the lock and the copies, a store command by who holds the flash, then SAVE, LOAD and ERASE themselves. -/

namespace Sys2Proof.Machine

open Sys2Proof

/-! ## Effects on the device and what it keeps -/

section
variable {c : Instr} {s : State} {f : Dev → NonVol → Dev × NonVol} {d : Dev}

theorem gives_of_onDevNv {v : NonVol} (hup : Up s) (hc : exec c s = onDevNv f s) (h : f s.dev s.nv = (d, v)) :
    Gives c s { s with dev := d, nv := v } := by
  simp only [Gives, hc, onDevNv, hup.1, if_true, h]

theorem runs_of_onDevNv (hup : Up s) (hc : exec c s = onDevNv f s) (h : f s.dev s.nv = (d, s.nv)) : Runs c s d :=
  gives_of_onDevNv hup hc h

end

/-! ## REVERT (16 R445) -/

section
variable {d : Dev}

theorem Dev.revert_locked (h : d.shadowLocked = true) : d.revert = d.set R.DEV_PROF_RESULT 9 := if_pos h

section
variable (hl : d.shadowLocked = false)
include hl

theorem Dev.revert_copying (hc : d.profileCopying = true) : d.revert = d.set R.DEV_PROF_RESULT 10 :=
  (if_neg (Bool.eq_false_iff.mp hl)).trans (if_pos hc)

theorem Dev.revert_done {e f : Dev} {h : Nat} (hc : d.profileCopying = false) (he : e = d.shadowFrom d.active)
    (hf : f = { e with
      las := { e.las with remapS := e.remapRead true }
      cmp := { e.cmp with tplS := e.readTable 6 tplActiveWord tplActiveWord 2 e.cmp.tplA } }) (hh : h = e.remapHalf false) :
    d.revert = (((((f.copyMarks 3 (131072 * f.remapHalf true) (131072 * h) 131072 9).freshWords 8 (scatterWord h 0)
      (scatterWord (h + 1) 0)).copyMarks 6 tplActiveWord 0 tplActiveWord 11).corrLoad 0 (eccSramWords 4) 8
        (fun d => d.dos.corrA)).revertFlags).set R.DEV_PROF_RESULT 0 := by
  subst hh hf he
  exact (if_neg (Bool.eq_false_iff.mp hl)).trans (if_neg (Bool.eq_false_iff.mp hc))

end

theorem Dev.corrLoad_copy_unmarked (h : d.ecc.diffs = []) :
    (d.corrLoad 0 (eccSramWords 4) 8 (fun d => d.dos.corrA)).dos.corrS = d.dos.corrA := by rw [Dev.corrLoad_unmarked h]

end

/-! ## Acceptance of a store command (16 R447, 19 R488) -/

section
variable {f : Dev → NonVol → Dev × NonVol} {d : Dev} {v : NonVol}

theorem storeCmd_busy (h : d.storeBusy = true) :
    storeCmd f d v = ((d.set R.DEV_STORE_RESULT_CODE 1).setB R.DEV_STORE_RESULT_OVR true, v) := if_pos h

theorem storeCmd_admitted (h : d.storeBusy = false) (hu : d.is R.UPD_RESULT_BUSY = false) : storeCmd f d v = f d v :=
  (if_neg (Bool.eq_false_iff.mp h)).trans (if_neg (Bool.eq_false_iff.mp hu))

end

section
variable {d : Dev} {v : NonVol} (hb : d.storeBusy = false) (hu : d.is R.UPD_RESULT_BUSY = false)
include hb hu

/-! ## SAVE (16 R447) -/

section
variable {l : List Byte} {e : Dev} (hl : l = d.storeContent v)
  (he : e = (d.set R.DEV_STORE_RESULT_CODE 0).wrap R.DEV_STORE_RESULT_SEQ 1)
include hl he

theorem storeSave_too_long (h : d.get R.DEV_STORE_SLOT < 64 + l.length) :
    storeSave d v = ((e.set R.DEV_STORE_RESULT_CODE 3).raise Ev.STORE_FAILED 3, v) := by
  subst hl he
  exact (storeCmd_admitted hb hu).trans (if_pos h)

section
variable {g : Dev} (h : 64 + l.length ≤ d.get R.DEV_STORE_SLOT) (hg : g = (e.setB R.DEV_STORE_RESULT_BUSY true).saveReads)
include h hg

theorem storeSave_begins {q : Nat} (hq : q = ((v.flash.newest.map (fun e => slotSeq e.2)).getD 0 + 1) % 2 ^ 32)
    (hs : g.pwr.mgmtStop = false) :
    storeSave d v = ({ g with mgmt := { g.mgmt with
      saving := some (storeSlot v.flash.schema q (d.get R.DEV_STORE_CFG_TABLES) l) } }, v) := by
  subst hl he hg hq
  refine (storeCmd_admitted hb hu).trans ((if_neg (Nat.not_lt.mpr h)).trans (congrArg (·, v) (if_neg ?_)))
  exact Bool.eq_false_iff.mp hs

theorem storeSave_stops (hs : g.pwr.mgmtStop = true) : storeSave d v = (g, v) := by
  subst hl he hg
  exact (storeCmd_admitted hb hu).trans ((if_neg (Nat.not_lt.mpr h)).trans (congrArg (·, v) (if_pos hs)))

end

end

/-! ## LOAD and ERASE (16 R449) -/

theorem storeLoad_state (hd : d.dstate ≠ .idle) : storeLoad d v = (d.set R.DEV_STORE_RESULT_CODE 2, v) :=
  (storeCmd_admitted hb hu).trans (if_pos (.inl hd))

theorem storeErase_state (err : Bool) (hd : d.dstate ≠ .idle) : storeErase err d v = (d.set R.DEV_STORE_RESULT_CODE 2, v) :=
  (storeCmd_admitted hb hu).trans (if_pos hd)

section
variable {e : Dev} (hd : d.dstate = .idle) (he : e = (d.set R.DEV_STORE_RESULT_CODE 0).wrap R.DEV_STORE_RESULT_SEQ 1)
include hd he

theorem storeErase_good :
    storeErase false d v = (e, { v with flash := { v.flash with slotA := [], slotB := [] } }) := by
  subst he
  exact (storeCmd_admitted hb hu).trans ((if_neg (not_not_intro hd)).trans (if_neg Bool.false_ne_true))

theorem storeErase_flashError : storeErase true d v = (e.set R.DEV_STORE_RESULT_CODE 4, v) := by
  subst he
  exact (storeCmd_admitted hb hu).trans ((if_neg (not_not_intro hd)).trans (if_pos rfl))

theorem storeLoad_newest {n : Nat} {l : List Byte} (hs : d.job.swap = none) (hn : v.flash.newest = some (n, l)) :
    storeLoad d v = ((e.storeIn n l).raise Ev.STORE_LOADED (n + 2 ^ 32 * slotSeq l), v) := by
  subst he
  have hno : ¬(d.dstate ≠ .idle ∨ d.job.swap.isSome = true) := by simp [hd, hs]
  refine (storeCmd_admitted hb hu).trans ((if_neg hno).trans ?_)
  simp only [hn]
  rfl

end

end

/-! ## Reading the tables, and the end of a SAVE -/

theorem Dev.saveReads_unmarked {d : Dev} (h : d.ecc.diffs = []) : d.saveReads = d := by
  refine List.foldlRecOn (motive := (· = d)) _ _ rfl (fun e he k _ => ?_)
  subst he
  simp only [Dev.badIn_unmarked h, Dev.sramReads_unmarked h, List.head?_nil, ite_self]

section
variable {d e : Dev} {v : NonVol} {l : List Byte} {n : Nat}

theorem Flash.saveSlot_eq {f : Flash}
    (h : f.newest.map (·.1) = some 1 ∧ n = 2 ∨ f.newest.map (·.1) ≠ some 1 ∧ n = 1) : f.saveSlot = n := by
  rcases h with ⟨h, rfl⟩ | ⟨h, rfl⟩
  · exact if_pos h
  · exact if_neg h

section
variable (hl : d.mgmt.saving = some l) (hn : v.flash.saveSlot = n)
  (he : e = { d with mgmt := { d.mgmt with saving := none } }.setB R.DEV_STORE_RESULT_BUSY false)
include hl hn he

theorem storeSaved_flashError :
    storeSaved true d v = ((e.set R.DEV_STORE_RESULT_CODE 4).raise Ev.STORE_FAILED 4,
      { v with flash := v.flash.putSlot n [] }) := by
  subst he hn
  simp only [storeSaved, hl]
  rfl

theorem storeSaved_good :
    storeSaved false d v =
      ((((((e.set R.DEV_STORE_RESULT_CODE 0).set R.DEV_STORE_STATUS_SLOT n).set R.DEV_STORE_SEQ (slotSeq l)).set R.DEV_STORE_USED
        (leAt l 0xC 4))).raise Ev.STORE_SAVED (n + 2 ^ 32 * slotSeq l), { v with flash := v.flash.putSlot n l }) := by
  subst he hn
  simp only [storeSaved, hl]
  rfl

end

end

end Sys2Proof.Machine

open Sys2Proof Sys2Proof.Machine

/-- Settles O50: REVERT by the lock and the copies, a store command by what holds the flash, SAVE by the content's length and what its
reads meet, LOAD and ERASE by the device state. -/
theorem storeCommands : Obligations.StoreCommands := by
  unfold Obligations.StoreCommands
  refine ⟨fun s hup => ⟨fun hl => ?locked, fun hl hc => ?copying, fun hl hc d e h hd he hh => ?reverted⟩,
    fun d h => ⟨Dev.remapRead_active_unmarked h, Dev.readTable_unmarked h .., Dev.corrLoad_copy_unmarked h⟩,
    fun s e hup => ⟨fun hb d hd => ?busy, fun hb hu hs => ?state⟩,
    fun s l d hup hb hu hl hd => ⟨fun h => ?tooLong, fun h q e hq he => ⟨fun hs => ?begins, fun hs => ?stops⟩⟩,
    fun d => Dev.saveReads_unmarked, fun s n l d hup hl hn hd => ?saved, fun s d hup hb hu hi hd => ?idle⟩
  case locked => exact runs_of_onDev hup rfl (Dev.revert_locked hl)
  case copying => exact runs_of_onDev hup rfl (Dev.revert_copying hl hc)
  case reverted => exact runs_of_onDev hup rfl (Dev.revert_done hl hc hd he hh)
  case busy =>
    subst hd
    exact ⟨runs_of_onDevNv hup rfl (storeCmd_busy hb), runs_of_onDevNv hup rfl (storeCmd_busy hb),
      runs_of_onDevNv hup rfl (storeCmd_busy hb)⟩
  case state => exact ⟨runs_of_onDevNv hup rfl (storeLoad_state hb hu hs), runs_of_onDevNv hup rfl (storeErase_state hb hu e hs)⟩
  case tooLong => exact runs_of_onDevNv hup rfl (storeSave_too_long hb hu hl hd h)
  case begins => exact runs_of_onDevNv hup rfl (storeSave_begins hb hu hl hd h he hq hs)
  case stops => exact runs_of_onDevNv hup rfl (storeSave_stops hb hu hl hd h he hs)
  case saved =>
    have hslot := Flash.saveSlot_eq hn
    exact ⟨gives_of_onDevNv hup rfl (storeSaved_flashError hl hslot hd), gives_of_onDevNv hup rfl (storeSaved_good hl hslot hd)⟩
  case idle =>
    exact ⟨gives_of_onDevNv hup rfl (storeErase_good hb hu hi hd), runs_of_onDevNv hup rfl (storeErase_flashError hb hu hi hd),
      fun hs n l hn => runs_of_onDevNv hup rfl (storeLoad_newest hb hu hi hd hs hn)⟩

end

-- Writes of the BAR4 tables and the BAR2 job window (16 R451, 03 R94).
section
/-! PROOFS. Which table an address of BAR4 names and what its write does; where the bytes of a BAR2 write land. -/

namespace Sys2Proof.Machine

open Sys2Proof

/-! ## BAR4 (16 R451, Table 16.12) -/

theorem Dev.awake_of_hostOpen {d : Dev} (h : d.hostOpen = true) : d.awake = true := by
  simp only [Dev.hostOpen, Bool.and_eq_true] at h
  exact h.1.1

/-- A request of one aligned word. -/
theorem runs_bar4Write {s : State} {a : Nat} {v : Word} {d : Dev} (ho : s.dev.hostOpen = true) (ha : a % 4 = 0)
    (h : (s.dev.bar4Write a v 14).2 = d) : Runs (.bar4Write a [v]) s d := by
  have hone : (forEach [v].zipIdx (fun (d : Dev) e => (d.bar4Write (a + 4 * e.2) e.1 14).2) s.dev) = (s.dev.bar4Write a v 14).2 := rfl
  rw [Runs, exec, execBar4Write, onDev_awake _ (Dev.awake_of_hostOpen ho)]
  simp only [ho, ha, beq_self_eq_true, List.length_cons, List.length_nil, Bool.true_and, hone, h]
  rfl

section
variable {d : Dev} {i req : Nat} {v : Word}

theorem Dev.bar4Write_remap (hi : i < 0x20000) : (d.bar4Write (4 * i) v req).2 = d.remapWrite i v := by
  have hw : 4 * i / 4 = i := by omega
  simp only [Dev.bar4Write, hw, if_pos (show 4 * i < 0x80000 by omega)]

theorem Dev.bar4Write_remap_active (hi : i < 0x20000) : (d.bar4Write (0x80000 + 4 * i) v req).2 = d.bump R.LAS_DISC_CNT 1 := by
  simp only [Dev.bar4Write, if_neg (show ¬ 0x80000 + 4 * i < 0x80000 by omega), if_pos (show 0x80000 + 4 * i < 0x100000 by omega)]

theorem Dev.bar4Write_correction (hi : i < 0x20000) : (d.bar4Write (0x100000 + 4 * i) v req).2 = (d.corrWrite i v req).2 := by
  have hw : (0x100000 + 4 * i) / 4 - 0x40000 = i := by omega
  simp only [Dev.bar4Write, if_neg (show ¬ 0x100000 + 4 * i < 0x80000 by omega), if_neg (show ¬ 0x100000 + 4 * i < 0x100000 by omega),
    if_pos (show 0x100000 + 4 * i < 0x180000 by omega), hw]

theorem Dev.bar4Write_templates (hi : i < 0x8000) : (d.bar4Write (0x500000 + 4 * i) v req).2 = (d.tplWrite i v req).2 := by
  have hw : (0x500000 + 4 * i) / 4 - 0x140000 = i := by omega
  simp only [Dev.bar4Write, if_neg (show ¬ 0x500000 + 4 * i < 0x80000 by omega), if_neg (show ¬ 0x500000 + 4 * i < 0x100000 by omega),
    if_neg (show ¬ 0x500000 + 4 * i < 0x180000 by omega), if_neg (show ¬ 0x500000 + 4 * i < 0x200000 by omega),
    if_neg (show ¬ 0x500000 + 4 * i < 0x300000 by omega), if_neg (show ¬ 0x500000 + 4 * i < 0x500000 by omega),
    if_pos (show 0x500000 + 4 * i < 0x520000 by omega), hw]

theorem Dev.remapWrite_writable (h : d.remapWritable = true) : d.remapWrite i v =
    ({ d with las := { d.las with remapS := d.las.remapS.put i v } }.freshWords 3 (131072 * d.remapHalf false + i)
      (131072 * d.remapHalf false + i + 1)).setB R.LAS_STATUS_REMAP_VALID false := if_pos h

theorem Dev.corrWrite_clean (h : d.corrShut = false) (h0 : d.sramKind 4 (2 * i) = .clean) (h1 : d.sramKind 4 (2 * i + 1) = .clean) :
    d.corrWrite i v req = (true, { d with dos := { d.dos with corrS := d.dos.corrS.put i v } }) :=
  (if_neg (Bool.eq_false_iff.mp h)).trans (if_pos ⟨h0, h1⟩)

theorem Dev.tplWrite_clean (h : d.job.swap = none) (h0 : d.sramKind 6 (i / 2) = .clean) :
    d.tplWrite i v req = (true, { d with cmp := { d.cmp with tplS := d.cmp.tplS.put i v } }.setB R.CMP_STATUS_TPL_VALID false) := by
  have hl : ¬ d.shadowLocked = true := by simp [Dev.shadowLocked, h]
  exact (if_neg hl).trans (if_pos h0)

end

/-! ## BAR2 (03 R94, R95) -/

section
variable {s : State} {o : Nat} {l : List Byte} (ho : s.dev.hostOpen = true)
include ho

theorem gives_bar2Write {d : Dev} {m : Mem} (h : bar2Write o l s.dev s.mem = (d, m)) :
    Gives (.bar2Write o l) s { s with dev := d, mem := m } := by
  simp only [Gives, exec, execBar2Write, ho, if_true, h]

theorem runs_bar2Write_discarded
    (h : s.dev.wellTakes (s.dev.get R.INTAKE_WIN_WELL) (s.dev.get R.INTAKE_WIN_OFS * 2 ^ 20 + o) l.length = false) :
    Runs (.bar2Write o l) s ((s.dev.bump R.INTAKE_DISC_CNT 1).occur Ev.INTAKE_DISCARD 0 1) :=
  gives_bar2Write ho (if_neg (Bool.eq_false_iff.mp h))

end

theorem drainIntake_no_header {d : Dev} (m : Mem) (ha : d.awake = true) (h0 : (d.cmpr 0).hdrDue = false) (h1 : (d.cmpr 1).hdrDue = false) :
    drainIntake d m = landIntake d.job.intake.length d m := by
  simp only [drainIntake, ha, h0, h1, Bool.or_self, Bool.false_eq_true, if_false, if_true]

/-- The only write that waits lands unless its placement holds intake. -/
theorem landIntake_single (d : Dev) (m : Mem) (place x : Nat) (l : List Byte) (hin : d.job.intake = []) :
    landIntake 1 { d with job := { d.job with intake := [(place, x, l)] } } m =
      if d.intakeStop place then ({ d with job := { d.job with intake := [(place, x, l)] } }, m)
      else ((regionWrite d m 3 place x l).2.1, (regionWrite d m 3 place x l).2.2) := by
  have hback : { d with job := { d.job with intake := [] } } = d := by rw [← hin]
  have hland : landIntake 1 { d with job := { d.job with intake := [(place, x, l)] } } m =
      if d.intakeStop place then ({ d with job := { d.job with intake := [(place, x, l)] } }, m)
      else ((regionWrite { d with job := { d.job with intake := [] } } m 3 place x l).2.1,
        (regionWrite { d with job := { d.job with intake := [] } } m 3 place x l).2.2) := rfl
  rw [hland, hback]

/-- Bytes that a well takes are written, or wait while its placement holds intake. -/
theorem bar2Write_taken {d : Dev} {o p x : Nat} {l : List Byte} (m : Mem) (ha : d.awake = true) (hn : d.noneWait = true)
    (ht : d.wellTakes (d.get R.INTAKE_WIN_WELL) (d.get R.INTAKE_WIN_OFS * 2 ^ 20 + o) l.length = true)
    (hp : p = (d.well (d.get R.INTAKE_WIN_WELL)).place)
    (hx : x = (d.well (d.get R.INTAKE_WIN_WELL)).base + (d.get R.INTAKE_WIN_OFS * 2 ^ 20 + o)) :
    bar2Write o l d m = if d.intakeStop p then ({ d with job := { d.job with intake := [(p, x, l)] } }, m)
      else ((regionWrite d m 3 p x l).2.1, (regionWrite d m 3 p x l).2.2) := by
  subst hp hx
  simp only [Dev.noneWait, Bool.and_eq_true, Bool.not_eq_true', List.isEmpty_iff] at hn
  obtain ⟨⟨hin, h0⟩, h1⟩ := hn
  rw [← landIntake_single _ _ _ _ _ hin, bar2Write, if_pos ht, hin, List.nil_append]
  exact drainIntake_no_header m ha h0 h1

end Sys2Proof.Machine

open Sys2Proof Sys2Proof.Machine

/-- Settles O8: a BAR4 word by the table its address names, BAR2 bytes by the state of their well. -/
theorem tableWrites : Obligations.TableWrites := by
  unfold Obligations.TableWrites
  refine ⟨fun s i v ho hi hw => ?remap, fun s i v ho hi => ?remapActive, fun s i v ho hi hs h0 h1 => ?correction,
    fun s i v ho hi hs h0 => ?templates, fun s o l ho hn ht => ?taken, fun s o l ho ht => runs_bar2Write_discarded ho ht⟩
  case remap => exact runs_bar4Write ho (by omega) ((Dev.bar4Write_remap hi).trans (Dev.remapWrite_writable hw))
  case remapActive => exact runs_bar4Write ho (by omega) (Dev.bar4Write_remap_active hi)
  case correction =>
    exact runs_bar4Write ho (by omega) ((Dev.bar4Write_correction hi).trans (congrArg Prod.snd (Dev.corrWrite_clean hs h0 h1)))
  case templates =>
    exact runs_bar4Write ho (by omega) ((Dev.bar4Write_templates hi).trans (congrArg Prod.snd (Dev.tplWrite_clean hs h0)))
  case taken =>
    have hw := bar2Write_taken s.mem (Dev.awake_of_hostOpen ho) hn ht rfl rfl
    cases hstop : s.dev.intakeStop (s.dev.well (s.dev.get R.INTAKE_WIN_WELL)).place with
    | true =>
      rw [hstop, if_pos rfl] at hw
      simpa only [hstop, if_true] using gives_bar2Write ho hw
    | false =>
      rw [hstop, if_neg Bool.false_ne_true] at hw
      simpa only [hstop, if_neg Bool.false_ne_true] using gives_bar2Write ho hw

end

-- Power domains (17 R455–R458).
section
/-! PROOFS. A domain command by what runs and how the domain stands; the end of a switch-off or switch-on. -/

namespace Sys2Proof.Machine

open Sys2Proof

section
variable {d : Dev} {c : Nat}

/-! ## Domain commands (17 R456, R457) -/

theorem Dev.domCmd_busy (f : Dev → Dev) (h : d.is R.PWR_DOM_RESULT_BUSY = true) : d.domCmd f = d.setB R.PWR_DOM_RESULT_OVR true :=
  if_pos h

section
variable (hb : d.is R.PWR_DOM_RESULT_BUSY = false)
include hb

theorem Dev.domCmd_idle (f : Dev → Dev) : d.domCmd f = f d := if_neg (Bool.eq_false_iff.mp hb)

theorem Dev.pwrDomOn_none (hc : 9 < c) : d.pwrDomOn c = d.set R.PWR_DOM_RESULT_CODE 3 := (Dev.domCmd_idle hb _).trans (if_pos hc)

theorem Dev.pwrDomOff_none (hc : c = 0 ∨ 9 ≤ c) : d.pwrDomOff c = d.set R.PWR_DOM_RESULT_CODE 3 :=
  (Dev.domCmd_idle hb _).trans (if_pos hc)

variable {e : Dev} (he : e = (d.set R.PWR_DOM_RESULT_CODE 0).wrap R.PWR_DOM_RESULT_SEQ 1)

section
include he

theorem Dev.pwrDomOn_on (hc : c ≤ 9) (hd : d.domOn c = true) : d.pwrDomOn c = e := by
  subst he
  exact (Dev.domCmd_idle hb _).trans ((if_neg (Nat.not_lt.mpr hc)).trans (if_pos hd))

theorem Dev.pwrDomOn_off {f : Dev} (hc : c ≤ 9) (hd : d.domOn c = false) (hf : f = e.setB R.PWR_DOM_RESULT_BUSY true) :
    d.pwrDomOn c = { f with pwr := { d.pwr with ons := c :: d.pwr.ons } } := by
  subst hf he
  exact (Dev.domCmd_idle hb _).trans ((if_neg (Nat.not_lt.mpr hc)).trans (if_neg (Bool.eq_false_iff.mp hd)))

end

section
variable (h1 : 1 ≤ c) (h8 : c ≤ 8)
include h1 h8

theorem Dev.pwrDomOff_eq : d.pwrDomOff c =
    if !d.domOn c then d.domTake
    else match d.offRefused c with
      | some code => d.domResult code
      | none => ({ d.domTake.domBusy true with pwr := { d.pwr with offs := (c, d.now) :: d.pwr.offs } }.set R.PWR_DOM_PENDING
          (setMask (d.get R.PWR_DOM_PENDING) c true)).drainDomain c := by
  have hno : ¬(c = 0 ∨ 9 ≤ c) := by omega
  exact (Dev.domCmd_idle hb _).trans (if_neg hno)

theorem Dev.pwrDomOff_off (hd : d.domOn c = false) (he : e = (d.set R.PWR_DOM_RESULT_CODE 0).wrap R.PWR_DOM_RESULT_SEQ 1) :
    d.pwrDomOff c = e := by
  subst he
  exact (Dev.pwrDomOff_eq hb h1 h8).trans (if_pos (by rw [hd]; rfl))

variable (hd : d.domOn c = true)
include hd

theorem Dev.pwrDomOff_refused {code : Nat} (hr : d.offRefused c = some code) :
    d.pwrDomOff c = d.set R.PWR_DOM_RESULT_CODE code := by
  rw [Dev.pwrDomOff_eq hb h1 h8, hd, hr]
  rfl

theorem Dev.pwrDomOff_drains {f : Dev} (hr : d.offRefused c = none)
    (hf : f = ((d.set R.PWR_DOM_RESULT_CODE 0).wrap R.PWR_DOM_RESULT_SEQ 1).setB R.PWR_DOM_RESULT_BUSY true) :
    d.pwrDomOff c = ({ f with pwr := { d.pwr with offs := (c, d.now) :: d.pwr.offs } }.set R.PWR_DOM_PENDING
      (setMask (d.get R.PWR_DOM_PENDING) c true)).drainDomain c := by
  subst hf
  rw [Dev.pwrDomOff_eq hb h1 h8, hd, hr]
  rfl

end

end

/-- A condition that answers `n` where it holds. -/
theorem ite_some_none_iff {p : Prop} [Decidable p] {n : Nat} : (if p then some n else none) = some n ↔ p := by simp

/-! ## The end of a switch-off (17 R457, 12 R342) -/

theorem Dev.domainOff_drained (hr : d.offRuns c = true) (hu : d.undrained c = []) :
    d.domainOff c = ((d.switchOff c false).setB R.PWR_DOM_RESULT_BUSY false).set R.PWR_DOM_RESULT_CODE 0 :=
  if_pos (by rw [hr, hu]; rfl)

theorem Dev.domainOff_waits (h : d.offRuns c = false ∨ d.undrained c ≠ []) : d.domainOff c = d := by
  refine if_neg (fun hy => ?_)
  obtain ⟨hr, hu⟩ := Bool.and_eq_true_iff.mp hy
  rcases h with h | h
  · rw [h] at hr
    exact absurd hr (by decide)
  · exact h (List.isEmpty_iff.mp hu)

theorem Dev.drainTimeout_undrained (hr : d.offRuns c = true) (hu : d.undrained c ≠ []) :
    d.drainTimeout c = (((d.drainRefused c).domForget c).setB R.PWR_DOM_RESULT_BUSY false).set R.PWR_DOM_RESULT_CODE 4 := by
  have hyes : (d.offRuns c && !(d.undrained c).isEmpty) = true := by simp [hr, hu]
  exact if_pos hyes

theorem Dev.drainTimeout_none (h : d.offRuns c = false ∨ d.undrained c = []) : d.drainTimeout c = d := by
  have hno : (d.offRuns c && !(d.undrained c).isEmpty) = false := by rcases h with h | h <;> simp [h]
  exact if_neg (Bool.eq_false_iff.mp hno)

/-! ## The end of a switch-on (17 R455, R458) -/

theorem Dev.railIn_eq_true_iff : d.railIn c = true ↔ c ≠ 4 ∧ c ≠ 5 ∨ (d.get R.PWR_SUPPLY_STATUS).testBit (c - 1) = true := by
  simp [Dev.railIn, hasBit]

theorem Dev.domainOn_not (h : c ∉ d.pwr.ons ∨ (c = 4 ∨ c = 5) ∧ (d.get R.PWR_SUPPLY_STATUS).testBit (c - 1) = false) :
    d.domainOn c = d := by
  refine if_neg (fun hy => ?_)
  obtain ⟨hon, hrail⟩ := Bool.and_eq_true_iff.mp hy
  rcases h with h | ⟨hc, ht⟩
  · exact h (List.contains_iff_mem.mp hon)
  · rcases Dev.railIn_eq_true_iff.mp hrail with ⟨h4, h5⟩ | hr
    · exact hc.elim h4 h5
    · rw [ht] at hr
      exact absurd hr (by decide)

theorem Dev.domainOn_starts {e : Dev} (hon : c ∈ d.pwr.ons)
    (hrail : c ≠ 4 ∧ c ≠ 5 ∨ (d.get R.PWR_SUPPLY_STATUS).testBit (c - 1) = true) (he : e = (d.startBlocks c).domForget c) :
    d.domainOn c = (((e.set R.PWR_DOM_STATUS_ON (setMask (e.get R.PWR_DOM_STATUS_ON) c true)).setB R.PWR_DOM_RESULT_BUSY false).set
      R.PWR_DOM_RESULT_CODE 0).raise Ev.DOMAIN_ON c := by
  subst he
  exact if_pos (Bool.and_eq_true_iff.mpr ⟨List.contains_iff_mem.mpr hon, Dev.railIn_eq_true_iff.mpr hrail⟩)

end

theorem isDomain_of_le {c : Nat} (h1 : 1 ≤ c) (h8 : c ≤ 8) : (decide (1 ≤ c) && decide (c ≤ 8)) = true := by simp [h1, h8]

section
variable {s : State} {c : Nat} {d : Dev} (hup : Up s) (h1 : 1 ≤ c) (h8 : c ≤ 8)
include hup h1 h8

theorem lands_domainOff (h : s.dev.domainOff c = d) : Lands (.domainOff c) s d :=
  lands_of_onDevIf hup (isDomain_of_le h1 h8) rfl h

theorem runs_drainTimeout (h : s.dev.drainTimeout c = d) : Runs (.drainTimeout c) s d :=
  runs_of_onDevIf hup (isDomain_of_le h1 h8) rfl h

theorem runs_domainOn (h : s.dev.domainOn c = d) : Runs (.domainOn c) s d :=
  runs_of_onDevIf hup (isDomain_of_le h1 h8) rfl h

end

end Sys2Proof.Machine

open Sys2Proof Sys2Proof.Machine

/-- Settles O52: a domain command by what runs, the domain's state and its condition; the ends of a switch-off and a switch-on by drain and rail. -/
theorem domainsSwitched : Obligations.DomainsSwitched := by
  unfold Obligations.DomainsSwitched
  refine ⟨fun s c hup hb => ⟨runs_of_onDev hup rfl (Dev.domCmd_busy _ hb), runs_of_onDev hup rfl (Dev.domCmd_busy _ hb)⟩,
    fun s c d hup hb hd => ⟨fun hc => ?onNone, fun hc => ?offNone, fun hc hon => ?onStands, fun hc hoff e he => ?onTaken,
      fun h1 h8 hoff => ?offStands, fun h1 h8 hon => ⟨fun code hr => ?offRefused, fun hr e he => ?offTaken⟩⟩,
    fun d => ⟨ite_some_none_iff, ite_some_none_iff, ite_some_none_iff, ite_some_none_iff, ?compressors, fun c hc => ?channels⟩,
    fun s c hup h1 h8 hr => ⟨fun hu => ⟨?offDrained, ?timeoutDrained⟩, fun hu => ⟨?offWaits, ?timeoutUndrained⟩⟩,
    fun s c hup h1 h8 => ⟨fun hr => ⟨?offNotRunning, ?timeoutNotRunning⟩, fun h => ?onNot, fun hon hrail d hd => ?onStarts⟩⟩
  case onNone => exact runs_of_onDev hup rfl (Dev.pwrDomOn_none hb hc)
  case offNone => exact runs_of_onDev hup rfl (Dev.pwrDomOff_none hb hc)
  case onStands => exact runs_of_onDev hup rfl (Dev.pwrDomOn_on hb hd hc hon)
  case onTaken => exact runs_of_onDev hup rfl (Dev.pwrDomOn_off hb hd hc hoff he)
  case offStands => exact runs_of_onDev hup rfl (Dev.pwrDomOff_off hb h1 h8 hoff hd)
  case offRefused => exact runs_of_onDev hup rfl (Dev.pwrDomOff_refused hb h1 h8 hon hr)
  case offTaken => exact runs_of_onDev hup rfl (Dev.pwrDomOff_drains hb h1 h8 hon hr (hd ▸ he))
  case compressors => exact ite_some_none_iff.trans Bool.or_eq_true_iff
  case channels =>
    have hcase : c = 0 ∨ c = 1 := by omega
    rcases hcase with rfl | rfl <;> exact ite_some_none_iff
  case offDrained => exact lands_domainOff hup h1 h8 (Dev.domainOff_drained hr hu)
  case timeoutDrained => exact runs_drainTimeout hup h1 h8 (Dev.drainTimeout_none (.inr hu))
  case offWaits => exact lands_domainOff hup h1 h8 (Dev.domainOff_waits (.inr hu))
  case timeoutUndrained => exact runs_drainTimeout hup h1 h8 (Dev.drainTimeout_undrained hr hu)
  case offNotRunning => exact lands_domainOff hup h1 h8 (Dev.domainOff_waits (.inl hr))
  case timeoutNotRunning => exact runs_drainTimeout hup h1 h8 (Dev.drainTimeout_none (.inl hr))
  case onNot => exact runs_domainOn hup h1 h8 (Dev.domainOn_not h)
  case onStarts => exact runs_domainOn hup h1 h8 (Dev.domainOn_starts hon hrail hd)

end

-- Resets of parts of the device, the watchdog, the device states (17 R455, R463, R464, R471, R472).
section
/-! PROOFS. A VDDQ fault by the domain it meets, PERST_N, the management processors' reset, the state commands in the order of their checks. -/

namespace Sys2Proof.Machine

open Sys2Proof

/-! ## VDDQ faults (17 R455) -/

section
variable {d e : Dev} {ch : Nat} (he : e = (d.rail (3 + ch) false).raise Ev.VDDQ_FAULT ch)
include he

theorem Dev.vddqFault_off (h : e.domOn (4 + ch) = false) : d.vddqFault ch = e := by
  subst he
  exact if_neg (Bool.eq_false_iff.mp h)

section
variable (h : e.domOn (4 + ch) = true)
include h

theorem Dev.vddqFault_on (hr : e.offRuns (4 + ch) = false) : d.vddqFault ch = e.switchOff (4 + ch) true := by
  subst he
  exact (if_pos h).trans (if_neg (Bool.eq_false_iff.mp hr))

theorem Dev.vddqFault_switching_off (hr : e.offRuns (4 + ch) = true) :
    d.vddqFault ch = ((e.switchOff (4 + ch) true).setB R.PWR_DOM_RESULT_BUSY false).set R.PWR_DOM_RESULT_CODE 0 := by
  subst he
  exact (if_pos h).trans (if_pos hr)

end

end

theorem gives_vddqFault {s : State} {ch : Nat} {d : Dev} (hup : Up s) (hch : ch < 2) (h : s.dev.vddqFault ch = d) :
    Gives (.vddqFault ch) s { s with dev := (drainIntake d (s.mem.lose ch)).1, mem := (drainIntake d (s.mem.lose ch)).2 } := by
  subst h
  simp only [Gives, exec, execVddqFault, onDevMemIf_awake _ (decide_eq_true hch) hup.1]
  rfl

/-! ## PERST_N (17 R463) -/

theorem Dev.perstAssert_again {d : Dev} (h : d.pwr.perst = true) : d.perstAssert = d := if_pos h

theorem Dev.perstAssert_held {d : Dev} (ha : d.awake = false) :
    d.perstAssert = { d with pwr := { d.pwr with perst := true } } := by
  cases hp : d.pwr.perst with
  | true =>
    have hsame : { d with pwr := { d.pwr with perst := true } } = d := by rw [← hp]
    rw [hsame, Dev.perstAssert_again hp]
  | false => exact (if_neg (by rw [hp]; decide)).trans (if_neg (by rw [ha]; decide))

theorem Dev.perstAssert_awake {d e : Dev} (ha : d.awake = true) (hp : d.pwr.perst = false)
    (he : e = { d with pwr := { d.pwr with perst := true } }) :
    d.perstAssert = forEach (d.dma.chs.map (·.1)) Dev.hostGone ((e.bump R.PWR_PERST_CNT 1).raise Ev.PCIE_RESET 0) := by
  subst he
  exact (if_neg (by rw [hp]; decide)).trans (if_pos ha)

theorem runs_perstAssert {s : State} {d : Dev} (h : s.dev.perstAssert = d) : Runs .perstAssert s d := by
  subst h
  rfl

/-! ## The management processors (17 R464) -/

theorem Dev.watchdogDue_false {d : Dev}
    (h : d.get R.PWR_WDT = 0 ∨ ∃ k : Nat, d.pwr.kickAt = some k ∧ d.now < k + d.get R.PWR_WDT * 1000000) : d.watchdogDue = false := by
  rcases h with h | ⟨k, hk, hlt⟩
  · simp [Dev.watchdogDue, h]
  · simp [Dev.watchdogDue, hk, Nat.not_le.mpr hlt]

theorem Dev.watchdogDue_true {d : Dev} {k : Nat} (h : d.get R.PWR_WDT ≠ 0) (hk : d.pwr.kickAt = some k)
    (hle : k + d.get R.PWR_WDT * 1000000 ≤ d.now) : d.watchdogDue = true := by simp [Dev.watchdogDue, h, hk, hle]

section
variable {s : State} (hup : Up s)
include hup

theorem runs_watchdogExpiry_early (h : s.dev.watchdogDue = false) : Runs .watchdogExpiry s s.dev :=
  runs_of_onDevNv (f := fun d v => if d.watchdogDue then mgmtReset true d v else (d, v)) hup rfl (if_neg (Bool.eq_false_iff.mp h))

theorem gives_watchdogExpiry {d : Dev} {v : NonVol} (h : s.dev.watchdogDue = true) (hr : mgmtReset true s.dev s.nv = (d, v)) :
    Gives .watchdogExpiry s { s with dev := d, nv := v } :=
  gives_of_onDevNv (f := fun d v => if d.watchdogDue then mgmtReset true d v else (d, v)) hup rfl ((if_pos h).trans hr)

end

/-! ## Device states (17 R471, R472) -/

section
variable {d : Dev}

theorem Dev.not_fabric_refused (hf : d.fabOn = false ∨ d.fab.st = .ready) : ¬(d.fabOn = true ∧ d.fab.st ≠ .ready) := by
  rintro ⟨ho, hr⟩
  rcases hf with hf | hf
  · rw [ho] at hf
    exact absurd hf (by decide)
  · exact hr hf

theorem Dev.armCmd_state (h : d.dstate ≠ .idle) : d.arm = d.set R.DEV_STATE_RESULT_CODE 2 := if_pos h

theorem Dev.toRun_state (h : d.dstate ≠ .armed) : d.toRun = d.set R.DEV_STATE_RESULT_CODE 2 := if_pos h

theorem Dev.disarm_state (h : d.dstate ≠ .armed) : d.disarm = d.set R.DEV_STATE_RESULT_CODE 2 := if_pos h

theorem Dev.stop_state (h : d.dstate ≠ .run) : d.stop = d.set R.DEV_STATE_RESULT_CODE 2 := if_pos h

section
variable (hs : d.dstate = .idle)
include hs

theorem Dev.armCmd_basic (hl : d.level = .basic) : d.arm = d.set R.DEV_STATE_RESULT_CODE 3 :=
  (if_neg (not_not_intro hs)).trans (if_pos hl)

section
variable (hl : d.level ≠ .basic)
include hl

theorem Dev.armCmd_fabric (hf : d.fabOn = true) (hr : d.fab.st ≠ .ready) :
    d.arm = (d.raise Ev.ARM_REFUSED_FABRIC d.fab.st.code).set R.DEV_STATE_RESULT_CODE 4 :=
  (if_neg (not_not_intro hs)).trans ((if_neg hl).trans (if_pos ⟨hf, hr⟩))

section
variable (hf : d.fabOn = false ∨ d.fab.st = .ready)
include hf

theorem Dev.armCmd_no_expander (h6 : d.domOn 6 = false) : d.arm = d.set R.DEV_STATE_RESULT_CODE 8 :=
  (if_neg (not_not_intro hs)).trans ((if_neg hl).trans ((if_neg (Dev.not_fabric_refused hf)).trans (if_pos (by rw [h6]; rfl))))

section
variable (h6 : d.domOn 6 = true)
include h6

theorem Dev.armCmd_plans {e : Dev} {b : Bool} (hp : d.plan d.active = (e, b)) :
    d.arm = if !b then e.set R.DEV_STATE_RESULT_CODE 5
      else match e.shortInput e.active with
        | some i => (e.raise Ev.ITEM_OFFSET_SHORT i).set R.DEV_STATE_RESULT_CODE 6
        | none =>
          if e.job.swap.isSome && e.swapChangesClasses then e.stateResult 9
          else (((e.toState .armed).set R.DEV_STATE_RESULT_CODE 0).wrap R.DEV_STATE_RESULT_SEQ 1).prime.bistTouch := by
  simp only [Dev.arm, if_neg (not_not_intro hs), if_neg hl, if_neg (Dev.not_fabric_refused hf), h6, hp, Bool.not_true, Bool.false_eq_true,
    if_false]
  rfl

theorem Dev.armCmd_bad_plan {e : Dev} (hp : d.plan d.active = (e, false)) : d.arm = e.set R.DEV_STATE_RESULT_CODE 5 :=
  (Dev.armCmd_plans hs hl hf h6 hp).trans (if_pos rfl)

theorem Dev.armCmd_short {e : Dev} {i : Nat} (hp : d.plan d.active = (e, true)) (hi : e.shortInput e.active = some i) :
    d.arm = (e.raise Ev.ITEM_OFFSET_SHORT i).set R.DEV_STATE_RESULT_CODE 6 := by
  rw [Dev.armCmd_plans hs hl hf h6 hp, hi]
  rfl

theorem Dev.armCmd_good {e : Dev} (hp : d.plan d.active = (e, true)) (hi : e.shortInput e.active = none) (hw : e.job.swap = none) :
    d.arm = (((e.toState .armed).set R.DEV_STATE_RESULT_CODE 0).wrap R.DEV_STATE_RESULT_SEQ 1).prime.bistTouch := by
  have hno : (e.job.swap.isSome && e.swapChangesClasses) = false := by rw [hw]; rfl
  rw [Dev.armCmd_plans hs hl hf h6 hp, hi]
  exact if_neg (Bool.eq_false_iff.mp hno)

end

end

end

end

section
variable (hs : d.dstate = .armed)
include hs

theorem Dev.toRun_basic (hl : d.level = .basic) : d.toRun = d.set R.DEV_STATE_RESULT_CODE 3 :=
  (if_neg (not_not_intro hs)).trans (if_pos hl)

theorem Dev.toRun_armed (hl : d.level ≠ .basic) :
    d.toRun = (((d.toState .run).set R.DEV_STATE_RESULT_CODE 0).wrap R.DEV_STATE_RESULT_SEQ 1).jobsAtRun :=
  (if_neg (not_not_intro hs)).trans (if_neg hl)

theorem Dev.disarm_armed : d.disarm = (d.enterIdle.set R.DEV_STATE_RESULT_CODE 0).wrap R.DEV_STATE_RESULT_SEQ 1 :=
  if_neg (not_not_intro hs)

end

theorem Dev.stop_active (hs : d.dstate = .run) (h : ∃ q ∈ d.job.order, (d.slot q).st = .active) :
    d.stop = d.set R.DEV_STATE_RESULT_CODE 7 := by
  have hany : d.job.order.any (fun q => (d.slot q).st == .active) = true := by
    obtain ⟨q, hq, ha⟩ := h
    exact List.any_eq_true.mpr ⟨q, hq, beq_iff_eq.mpr ha⟩
  exact (if_neg (not_not_intro hs)).trans (if_pos hany)

theorem Dev.stop_run (hs : d.dstate = .run) (h : ∀ q ∈ d.job.order, (d.slot q).st ≠ .active) :
    d.stop = (d.enterIdle.set R.DEV_STATE_RESULT_CODE 0).wrap R.DEV_STATE_RESULT_SEQ 1 := by
  have hany : ¬ d.job.order.any (fun q => (d.slot q).st == .active) = true := by
    rw [List.any_eq_true]
    rintro ⟨q, hq, ha⟩
    exact h q hq (beq_iff_eq.mp ha)
  exact (if_neg (not_not_intro hs)).trans (if_neg hany)

end

end Sys2Proof.Machine

open Sys2Proof Sys2Proof.Machine

/-- Settles O53: a VDDQ fault by the state of its domain, PERST_N by its level, the resets of the management processors by the watchdog. -/
theorem resetsApart : Obligations.ResetsApart := by
  unfold Obligations.ResetsApart
  refine ⟨fun s ch d hup hch hd e z hz => ⟨fun hoff he => ?vddqOff, fun hon hr he => ?vddqOn, fun hon hr he => ?vddqSwitching⟩,
    fun m => ⟨rfl, rfl, rfl, rfl⟩,
    fun s => ⟨rfl, fun hp => runs_perstAssert (Dev.perstAssert_again hp), fun ha => runs_perstAssert (Dev.perstAssert_held ha),
      fun ha hp d hd => runs_perstAssert (Dev.perstAssert_awake ha hp hd)⟩,
    fun s d f hup hf hd => ?mgmt, fun s hup => runs_of_onDev hup rfl rfl,
    fun s hup h => runs_watchdogExpiry_early hup (Dev.watchdogDue_false h),
    fun s k hup hw hk hle d v hr => gives_watchdogExpiry hup (Dev.watchdogDue_true hw hk hle) hr⟩
  case vddqOff =>
    subst hz he
    exact gives_vddqFault hup hch (Dev.vddqFault_off hd hoff)
  case vddqOn =>
    subst hz he
    exact gives_vddqFault hup hch (Dev.vddqFault_on hd hon hr)
  case vddqSwitching =>
    subst hz he
    exact gives_vddqFault hup hch (Dev.vddqFault_switching_off hd hon hr)
  case mgmt =>
    subst hd hf
    exact gives_of_onDevNv (f := fun d v => mgmtReset false (d.set R.PWR_RST_RESULT 0) v) hup rfl rfl

/-- Settles O54: each state command by the first of its checks that fails, and where none does. -/
theorem stateCommands : Obligations.StateCommands := by
  unfold Obligations.StateCommands
  refine ⟨fun s hup => ⟨fun h => runs_of_onDev hup rfl (Dev.armCmd_state h),
      fun h => ⟨runs_of_onDev hup rfl (Dev.toRun_state h), runs_of_onDev hup rfl (Dev.disarm_state h)⟩,
      fun h => runs_of_onDev hup rfl (Dev.stop_state h), fun hs hl => runs_of_onDev hup rfl (Dev.armCmd_basic hs hl),
      fun hs hl => runs_of_onDev hup rfl (Dev.toRun_basic hs hl), fun hs h => runs_of_onDev hup rfl (Dev.stop_active hs h)⟩,
    fun s hup hs hl => ⟨fun hf hr => runs_of_onDev hup rfl (Dev.armCmd_fabric hs hl hf hr),
      fun hf h6 => runs_of_onDev hup rfl (Dev.armCmd_no_expander hs hl hf h6),
      fun hf h6 d => ⟨fun hp => ?badPlan, fun hp i hi => ?short, fun hp hi hw => ?armed⟩⟩,
    fun s hup hs => ⟨fun hl => runs_of_onDev hup rfl (Dev.toRun_armed hs hl), runs_of_onDev hup rfl (Dev.disarm_armed hs)⟩,
    fun s hup hs h => runs_of_onDev hup rfl (Dev.stop_run hs h)⟩
  case badPlan => exact runs_of_onDev hup rfl (Dev.armCmd_bad_plan hs hl hf h6 hp)
  case short => exact runs_of_onDev hup rfl (Dev.armCmd_short hs hl hf h6 hp hi)
  case armed => exact runs_of_onDev hup rfl (Dev.armCmd_good hs hl hf h6 hp hi hw)

end

-- Resets and the start, the levels of the pins, the test port (17 R454–R470, 20 R506, R511–R513).
section
/-! PROOFS. What a reset leaves and records, when a start runs, what drives VRDn and LINE_HOLD_REQ, who holds the pins. -/

namespace Sys2Proof.Machine

open Sys2Proof

/-! ## Masks -/

theorem hasBit_setMask_clear (m b : Nat) : hasBit (setMask m b false) b = false := by
  cases h : hasBit m b with
  | false => simp [setMask, h]
  | true =>
    have hbit : m / 2 ^ b % 2 = 1 := by simpa [hasBit, Nat.testBit_eq_decide_div_mod_eq] using h
    have hdiv : (m - 2 ^ b) / 2 ^ b = m / 2 ^ b - 1 := by simpa using Nat.sub_mul_div m (2 ^ b) 1
    simp only [setMask, Bool.false_eq_true, if_false, h, if_true]
    simp only [hasBit, Nat.testBit_eq_decide_div_mod_eq, hdiv, decide_eq_false_iff_not]
    omega

theorem hasBit_mod (x : Nat) {i w : Nat} (h : i < w) : hasBit (x % 2 ^ w) i = hasBit x i := by
  rw [hasBit, Nat.testBit_mod_two_pow, decide_eq_true h, Bool.true_and, hasBit]

/-- Clearing a bit leaves the lower ones. -/
theorem hasBit_setMask_clear_lower (m : Nat) {i b : Nat} (hi : i < b) : hasBit (setMask m b false) i = hasBit m i := by
  cases h : hasBit m b with
  | false => simp [setMask, h]
  | true =>
    have hle : 2 ^ b ≤ m := Nat.ge_two_pow_of_testBit h
    have hmod : (m - 2 ^ b) % 2 ^ b = m % 2 ^ b := (Nat.mod_eq_sub_mod hle).symm
    simp only [setMask, Bool.false_eq_true, if_false, h, if_true]
    rw [← hasBit_mod _ hi, hmod, hasBit_mod _ hi]

/-! ## What a reset leaves (17 R454, Table 17.4) -/

theorem SMap.find?_single {α : Type} (a : Nat) (v : α) : SMap.find? [(a, v)] a = some v := by simp [SMap.find?]

theorem SMap.find?_single_of_ne {α : Type} {a b : Nat} (v : α) (h : b ≠ a) : SMap.find? [(a, v)] b = none := by simp [SMap.find?, h]

section
variable (d : Dev)

theorem Dev.atReset_regs_eq : d.atReset.regs = if d.get R.PWR_SUPPLY_STATUS = 0x7F then []
    else [(R.PWR_SUPPLY_STATUS.addr, BitVec.ofNat 32 (d.get R.PWR_SUPPLY_STATUS))] := rfl

theorem Dev.atReset_find_of_ne {a : Nat} (ha : a ≠ R.PWR_SUPPLY_STATUS.addr) : d.atReset.regs.find? a = none := by
  rw [Dev.atReset_regs_eq]
  split
  · rfl
  · exact SMap.find?_single_of_ne _ ha

/-- A reset leaves the supplies as they stand. -/
theorem Dev.atReset_supplies : d.atReset.get R.PWR_SUPPLY_STATUS = d.get R.PWR_SUPPLY_STATUS := by
  have hlt : d.get R.PWR_SUPPLY_STATUS < 2 ^ 7 := bitsOf_lt _ _ _
  by_cases h : d.get R.PWR_SUPPLY_STATUS = 0x7F
  · rw [h, Dev.get, Dev.reg, Dev.atReset_regs_eq, if_pos h]
    decide
  · rw [Dev.get, Dev.reg, Dev.atReset_regs_eq, if_neg h, SMap.find?_single, Option.getD_some, BitVec.toNat_ofNat]
    generalize d.get R.PWR_SUPPLY_STATUS = x at hlt
    have hx : x % 2 ^ 32 = x := by omega
    rw [hx]
    exact (bitsOf_zero_lo x 7).trans (Nat.mod_eq_of_lt hlt)

end

/-! ## Resets and their causes (17 R460, R465) -/

section
variable {s : State}

theorem gives_porstAssert {t : State} (hs : s.dev.dstate ≠ .keep) (ht : t = deviceReset s) :
    Gives .porstAssert s { t with dev := { t.dev with pwr := { t.dev.pwr with porst := true } }, tap := t.tap.atPorst true } := by
  subst ht
  simp only [Gives, exec, execPorstAssert, if_neg hs]

theorem gives_clockFailure {t : State} {k : Keep} (hs : s.dev.dstate ≠ .keep) (ht : t = deviceReset s)
    (hk : k = { s.nv.keep with cause := orBit s.nv.keep.cause 3 }) :
    Gives .clockFailure s { t with dev := { t.dev with pwr := { t.dev.pwr with noClock := true } }, nv := { t.nv with keep := k } } := by
  subst ht hk
  simp only [Gives, exec, execClockFailure, if_neg hs]
  rfl

theorem gives_supplyFault {r : Nat} (hr : r ∈ [0, 1, 2, 5, 6]) : Gives (.supplyFault r) s (supplyFault r s) :=
  if_pos (List.contains_iff_mem.mpr hr)

theorem supplyFault_supplied {t : State} {r : Nat} {k : Keep} (hs : s.dev.dstate ≠ .keep) (ht : t = deviceReset s)
    (hk : k = { s.nv.keep with
      cause := orBit s.nv.keep.cause 1, rail := orBit s.nv.keep.rail r, supply := orBit s.nv.keep.supply r
      onVkeep := s.nv.keep.onVkeep || r == 5 }) :
    supplyFault r s = { t with dev := t.dev.rail r false, nv := { t.nv with keep := k } } := by
  subst ht hk
  exact if_neg hs

theorem supplyFault_in_keep {r : Nat} (hs : s.dev.dstate = .keep) : supplyFault r s = s := if_pos hs

theorem gives_clockFailure_in_keep (hs : s.dev.dstate = .keep) : Gives .clockFailure s s := by
  simp only [Gives, exec, execClockFailure, if_pos hs]

theorem gives_keeperSupplyLow (h : s.nv.keep.onVkeep = true) :
    Gives .keeperSupplyLow s { s with nv := { s.nv with keep := { s.nv.keep with pwrFail := true, low := true } } } := if_pos h

theorem gives_keeperSupplyLow_on_vaux (h : s.nv.keep.onVkeep = false) : Gives .keeperSupplyLow s s := if_neg (Bool.eq_false_iff.mp h)

theorem gives_keeperPowerUp (h : s.nv.keep.low = true) :
    Gives .keeperPowerUp s { s with nv := { s.nv with keep := { s.nv.keep with
      sec := 0, sub := 0, frac := 0, ret := [], low := false, lost := true, cause := orBit s.nv.keep.cause 4 } } } := if_pos h

theorem gives_keeperPowerUp_kept (h : s.nv.keep.low = false) : Gives .keeperPowerUp s s := if_neg (Bool.eq_false_iff.mp h)

/-! ## The start (17 R454, R462, R465–R467) -/

section
variable {e : BootEnv}

theorem gives_system {force : Bool} (ha : s.dev.awake = true) (hok : s.dev.systemOk force = true) :
    Gives (.system force e) s (startUp e (deviceReset (s.cause 2))) :=
  (if_neg (by rw [ha]; decide)).trans (if_pos hok)

theorem runs_system_refused (ha : s.dev.awake = true) (hs : s.dev.dstate = .armed ∨ s.dev.dstate = .run) :
    Runs (.system false e) s (s.dev.set R.PWR_RST_RESULT 2) := by
  have hno : ¬ s.dev.systemOk false = true := by rcases hs with hs | hs <;> simp [Dev.systemOk, hs]
  exact (if_neg (by rw [ha]; decide)).trans (if_neg hno)

theorem Dev.systemOk_idle {d : Dev} (hs : d.dstate = .boot ∨ d.dstate = .idle) : d.systemOk false = true := by
  rcases hs with hs | hs <;> simp [Dev.systemOk, hs]

theorem gives_porstRelease_from_boot (hs : s.dev.dstate = .boot) (hp : s.dev.pwr.porst = true) :
    Gives (.porstRelease e) s (startUp e { s with
      dev := { s.dev with pwr := { s.dev.pwr with porst := false } }, tap := s.tap.atPorst false
      nv := { s.nv with keep := { s.nv.keep with cause := orBit s.nv.keep.cause 0 } } }) := by
  simp [Gives, exec, execPorstRelease, hs, hp, State.cause]

theorem gives_porstRelease_again (hp : s.dev.pwr.porst = false) (hb : s.dev.dstate ≠ .boot) (hk : s.dev.dstate ≠ .keep) :
    Gives (.porstRelease e) s { s with tap := s.tap.atPorst false } := by
  have hsame : { s.dev with pwr := { s.dev.pwr with porst := false } } = s.dev := by rw [← hp]
  simp [Gives, exec, execPorstRelease, hp, hb, hk, hsame]

theorem gives_railsBackInRange {d : Dev} {v : NonVol} (hd : d = s.dev.set R.PWR_SUPPLY_STATUS 0x7F)
    (hv : v = { s.nv with keep := { s.nv.keep with onVkeep := false } }) (h : s.dev.dstate = .keep ∨ s.dev.mainRails = false) :
    Gives (.railsBackInRange e) s (startUp e { s with dev := { d with dstate := .boot }, nv := v }) := by
  subst hd hv
  have hheld : (s.dev.dstate == .keep || !s.dev.mainRails) = true := by rcases h with h | h <;> simp [h]
  simp only [Gives, exec, execRailsBackInRange, hheld, if_true]

theorem gives_railsBackInRange_running {d : Dev} {v : NonVol} (hd : d = s.dev.set R.PWR_SUPPLY_STATUS 0x7F)
    (hv : v = { s.nv with keep := { s.nv.keep with onVkeep := false } }) (hk : s.dev.dstate ≠ .keep) (hm : s.dev.mainRails = true) :
    Gives (.railsBackInRange e) s { s with dev := d, nv := v } := by
  subst hd hv
  have hheld : (s.dev.dstate == .keep || !s.dev.mainRails) = false := by simp [hk, hm]
  simp only [Gives, exec, execRailsBackInRange, hheld, Bool.false_eq_true, if_false]

theorem gives_sysclkInRestored (h : s.dev.pwr.noClock = true) :
    Gives (.sysclkInRestored e) s (startUp e { s with dev := { s.dev with pwr := { s.dev.pwr with noClock := false } } }) := if_pos h

theorem gives_sysclkInRestored_running (h : s.dev.pwr.noClock = false) : Gives (.sysclkInRestored e) s s :=
  if_neg (Bool.eq_false_iff.mp h)

section
variable {d : Dev} (hd : d = { s.dev.atReset with dstate := .boot })
include hd

theorem startUp_held (h : d.awake = false) : startUp e s = s := by
  subst hd
  exact if_neg (Bool.eq_false_iff.mp h)

/-- A flash of a size that is not supported halts the boot at its first step. -/
theorem startUp_flash_size {r : Dev} (hr : r = d.railDomains) (h : d.awake = true) (hf : e.flash < 8388608 ∨ 67108864 < e.flash) :
    startUp e s = { s with
      dev := ((r.set R.DEV_STATE_BOOT_STEP 1).set R.DEV_BOOT_ERR (1 + 256 * 0x10)).raise Ev.BOOT_HALT (1 + 256 * 0x10) } := by
  subst hr hd
  have hboot : bootRun e { s.dev.atReset with dstate := .boot } s.nv =
      (({ s.dev.atReset with dstate := .boot } : Dev).railDomains.bootHalt 1 0x10, s.nv) := if_pos hf
  simp only [startUp, h, if_true, hboot]
  rfl

end

theorem startUp_tap (e : BootEnv) (s : State) : (startUp e s).tap = s.tap := by
  unfold startUp
  dsimp only
  split <;> rfl

theorem startUp_ite_tap (e : BootEnv) (s : State) (p : Prop) [Decidable p] : (if p then startUp e s else s).tap = s.tap := by
  split
  · exact startUp_tap e s
  · rfl

end

end

/-! ### Domains whose rail is out of range -/

/-- The domain of a DRAM channel at the start: off without its rail. -/
def Dev.railDomain (d : Dev) (c : Nat) : Dev :=
  if d.railIn c then d else d.set R.PWR_DOM_STATUS_ON (setMask (d.get R.PWR_DOM_STATUS_ON) c false)

section
variable (d : Dev) {c i : Nat}

theorem Dev.railDomains_eq : d.railDomains = (d.railDomain 4).railDomain 5 := rfl

theorem Dev.railDomain_in (h : d.railIn c = true) : d.railDomain c = d := if_pos h

theorem Dev.domOn_set_on (v : Nat) (hc : c < 10) : (d.set R.PWR_DOM_STATUS_ON v).domOn c = hasBit v c := by
  rw [Dev.domOn, d.get_set_self _ _ (by decide)]
  exact hasBit_mod v hc

theorem Dev.railDomain_off (hc : c < 10) (h : d.railIn c = false) : (d.railDomain c).domOn c = false := by
  rw [Dev.railDomain, if_neg (Bool.eq_false_iff.mp h), d.domOn_set_on _ hc, hasBit_setMask_clear]

/-- What is done for a domain leaves the lower ones. -/
theorem Dev.railDomain_domOn (hi : i < c) (hc : c < 10) : (d.railDomain c).domOn i = d.domOn i := by
  unfold Dev.railDomain
  split
  · rfl
  · rw [d.domOn_set_on _ (Nat.lt_trans hi hc), hasBit_setMask_clear_lower _ hi, Dev.domOn]

theorem Dev.railDomain_railIn : (d.railDomain c).railIn i = d.railIn i := by
  unfold Dev.railDomain
  split
  · rfl
  · simp only [Dev.railIn, d.get_set_of_addr_ne R.PWR_DOM_STATUS_ON R.PWR_SUPPLY_STATUS _ (by decide)]

theorem Dev.railDomains_off (hc : c = 4 ∨ c = 5) (h : d.railIn c = false) : d.railDomains.domOn c = false := by
  rw [Dev.railDomains_eq]
  rcases hc with rfl | rfl
  · rw [Dev.railDomain_domOn _ (by decide) (by decide)]
    exact d.railDomain_off (by decide) h
  · exact Dev.railDomain_off _ (by decide) ((d.railDomain_railIn).trans h)

end

/-! ## The levels of the pins (17 R470, 20 R506) -/

section
variable {d : Dev} {o : Nat}

theorem Dev.vioUp_congr {e : Dev} (h : e.get R.PWR_SUPPLY_STATUS = d.get R.PWR_SUPPLY_STATUS) : e.vioUp = d.vioUp := by
  simp only [Dev.vioUp, h]

theorem Dev.drives_without_vio (h : d.vioUp = false) :
    d.vrdDrive o = none ∧ d.holdDrive = none ∧ d.vrdPin o = false ∧ d.holdPin = false := by
  simp [Dev.vrdDrive, Dev.holdDrive, Dev.vrdPin, Dev.holdPin, h]

section
variable (hv : d.vioUp = true)
include hv

theorem Dev.drives_held (h : d.pinsHeld = true) : d.vrdDrive o = some false ∧ d.holdDrive = some false := by
  simp [Dev.vrdDrive, Dev.holdDrive, hv, h]

section
variable (h : d.pinsHeld = false)
include h

theorem Dev.vrdDrive_boot (hs : d.dstate = .boot) : d.vrdDrive o = some (d.is (R.VRD_CFG_POL o)) := by
  simp [Dev.vrdDrive, hv, h, hs]

theorem Dev.drives_running (hs : d.dstate ≠ .boot) :
    d.holdDrive = some (d.is R.LAS_STATUS_HOLD) ∧ d.vrdDrive o = some (d.is (R.VRD_STATUS_ACTIVE o) != d.is (R.VRD_CFG_POL o)) := by
  simp [Dev.vrdDrive, Dev.holdDrive, hv, h, hs]

end

end

theorem Dev.pinsHeld_of_porst (h : d.pwr.porst = true) : d.pinsHeld = true := by simp [Dev.pinsHeld, Dev.awake, h]

end

/-- PORST_N low holds the device, whose supplies stay. -/
theorem porstAssert_holds {s t : State} (h : exec .porstAssert s = .next t) : t.dev.pwr.porst = true ∧ t.dev.vioUp = s.dev.vioUp := by
  simp only [exec, execPorstAssert, Host.Outcome.next.injEq] at h
  subst h
  refine ⟨rfl, Dev.vioUp_congr ?_⟩
  by_cases hs : s.dev.dstate = .keep
  · simp only [if_pos hs]
    rfl
  · simp only [if_neg hs]
    exact s.dev.atReset_supplies

theorem mainPowerLoss_without_vio {s t : State} (h : exec .mainPowerLoss s = .next t) : t.dev.vioUp = false := by
  simp only [exec, execMainPowerLoss, Host.Outcome.next.injEq] at h
  subst h
  simp only [Dev.vioUp, Dev.get, Dev.reg, SMap.find?_single]
  decide

theorem supplyFault_without_vio {s t : State} (hs : s.dev.dstate ≠ .keep) (h : exec (.supplyFault 6) s = .next t) :
    t.dev.vioUp = false := by
  have hg : exec (.supplyFault 6) s = .next (supplyFault 6 s) := gives_supplyFault (by decide)
  rw [hg, supplyFault_supplied hs rfl rfl, Host.Outcome.next.injEq] at h
  subst h
  rw [Dev.vioUp, Dev.rail, Dev.get_set_self _ R.PWR_SUPPLY_STATUS _ (by decide)]
  exact (hasBit_mod _ (by decide)).trans (hasBit_setMask_clear _ 6)

/-! ## The test port (20 R511–R513) -/

theorem pinHold_functional (ir : TapIr) : pinHold ir false = .functional := by cases ir <;> rfl

theorem onTap_held {s : State} (f : Tap → Bool → Tap) (h : s.tap.held = true) : onTap f s = .next s := by simp [onTap, h]

theorem onTap_free {s : State} (f : Tap → Bool → Tap) (h : s.tap.held = false) :
    onTap f s = .next { s with tap := f s.tap s.dev.pwr.porst } := by simp [onTap, h]

/-- The pins are in functional control once PORST_N has risen, whether the device starts or not. -/
theorem porstRelease_hold {s t : State} {e : BootEnv} (h : exec (.porstRelease e) s = .next t) : t.tap.hold = .functional := by
  simp only [exec, execPorstRelease, Host.Outcome.next.injEq] at h
  subst h
  rw [startUp_ite_tap]
  exact pinHold_functional _

end Sys2Proof.Machine

open Sys2Proof Sys2Proof.Machine

/-- Settles O55: each reset by its ground, the keeper by its supply, the start by what released the device and what still holds it. -/
theorem resetsRecorded : Obligations.ResetsRecorded := by
  unfold Obligations.ResetsRecorded
  refine ⟨fun s t hs ht => ⟨gives_porstAssert hs ht, fun k hk => gives_clockFailure hs ht hk, fun r k hr hk => ?supply, ?powerLoss⟩,
    fun s hs => ⟨gives_clockFailure_in_keep hs, fun r hr => ?supplyInKeep⟩,
    fun d => ⟨rfl, rfl, rfl, rfl, rfl, fun a ha => d.atReset_find_of_ne ha⟩,
    fun s => ⟨gives_keeperSupplyLow, gives_keeperSupplyLow_on_vaux, gives_keeperPowerUp, gives_keeperPowerUp_kept⟩,
    fun s e ha hs => runs_system_refused ha hs, fun s e ha hs => gives_system ha (Dev.systemOk_idle hs),
    fun s e ha => gives_system ha rfl, fun s e hs hp => gives_porstRelease_from_boot hs hp,
    fun s e hp hb hk => gives_porstRelease_again hp hb hk,
    fun s e d v hd hv => ⟨gives_railsBackInRange hd hv, gives_railsBackInRange_running hd hv⟩,
    fun s e => ⟨gives_sysclkInRestored, gives_sysclkInRestored_running⟩,
    fun s e d r hd hr => ⟨startUp_held hd, fun h hf => startUp_flash_size hd hr h hf⟩,
    fun d => ⟨fun h4 h5 => ?railsIn, fun c hc h => d.railDomains_off hc h⟩⟩
  case supply =>
    rw [← supplyFault_supplied hs ht hk]
    exact gives_supplyFault hr
  case powerLoss =>
    subst ht
    rfl
  case supplyInKeep =>
    have hg := gives_supplyFault (s := s) hr
    rwa [supplyFault_in_keep hs] at hg
  case railsIn => rw [Dev.railDomains_eq, d.railDomain_in h4, d.railDomain_in h5]

/-- Settles O56: without VIO nothing drives the pins; with it they are low while held, and then follow their registers. -/
theorem pinLevels : Obligations.PinLevels := by
  unfold Obligations.PinLevels
  refine ⟨fun s t o hv h => ?porst, fun s t o h => ?lost, fun d o hv ha => ⟨fun hs hb => ?early, fun hs hb => ?late, fun hs hk => ?running⟩⟩
  case porst =>
    obtain ⟨hp, hvio⟩ := porstAssert_holds h
    exact Dev.drives_held (hvio.trans hv) (Dev.pinsHeld_of_porst hp)
  case lost =>
    refine Dev.drives_without_vio ?_
    rcases h with h | ⟨hs, h⟩
    · exact mainPowerLoss_without_vio h
    · exact supplyFault_without_vio hs h
  case early => exact Dev.drives_held hv (by simp [Dev.pinsHeld, ha, hs, hb])
  case late => exact Dev.vrdDrive_boot hv (by simp [Dev.pinsHeld, ha, hs, hb]) hs
  case running => exact Dev.drives_running hv (by simp [Dev.pinsHeld, ha, hs, hk]) hs

/-- Settles O60: TRST_N by its level, an instruction by TRST_N and PORST_N, the pins after a rise of PORST_N. -/
theorem testPort : Obligations.TestPort := by
  unfold Obligations.TestPort
  refine ⟨fun s => ⟨rfl, rfl⟩,
    fun s p l h => ?held,
    fun s p l t h ht => ?free, by decide, fun s t e h => porstRelease_hold h⟩
  case held =>
    simp only [Gives, exec, execExtest, execIdcode, execSamplePreload, execClamp, execHighz, execBypass, onTap_held _ h, and_self]
  case free =>
    subst ht
    simp only [Gives, exec, execExtest, execIdcode, execSamplePreload, execClamp, execHighz, execBypass, onTap_free _ h]
    exact ⟨rfl, trivial, trivial, fun hp => by simp [hp, pinHold], fun hp => by simp [hp, pinHold]⟩

end

-- Calibration, references, die temperature, self-test (18 R474–R486, 20 R503).
section
/-! PROOFS. A calibration command and one converter's new trims, the band-gap check, the die temperature, a self-test from request to end. -/

namespace Sys2Proof.Machine

open Sys2Proof

/-! ## Calibration (18 R476, R477, R480) -/

section
variable {d : Dev}

theorem Dev.calAdc_busy (h : d.is R.CAL_RESULT_BUSY = true) :
    d.calAdc = (d.set R.CAL_RESULT_CODE 1).setB R.CAL_RESULT_OVR true := if_pos h

section
variable (hb : d.is R.CAL_RESULT_BUSY = false)
include hb

theorem Dev.calAdc_empty (hm : d.get R.CAL_ARG_ADC_MASK = 0) : d.calAdc = d.set R.CAL_RESULT_CODE 3 :=
  (if_neg (Bool.eq_false_iff.mp hb)).trans (if_pos hm)

section
variable (hm : d.get R.CAL_ARG_ADC_MASK ≠ 0)
include hm

theorem Dev.calAdc_domain (h8 : d.domOn 8 = false) : d.calAdc = d.set R.CAL_RESULT_CODE 4 :=
  (if_neg (Bool.eq_false_iff.mp hb)).trans ((if_neg hm).trans (if_pos (by rw [h8]; rfl)))

theorem Dev.calAdc_starts (h8 : d.domOn 8 = true) : d.calAdc =
    ({ d with cal := { d.cal with run := some (d.get R.CAL_ARG_ADC_MASK) } }.set R.CAL_RESULT_CODE 0).setB R.CAL_RESULT_BUSY true :=
  (if_neg (Bool.eq_false_iff.mp hb)).trans ((if_neg hm).trans (if_neg (by rw [h8]; decide)))

end

end

theorem Dev.calDone_none {l : List AdcMeas} (h : d.cal.run = none) : d.calDone l = d := by simp only [Dev.calDone, h]

/-- The end of a calibration that deferred no ENC_CFG word. -/
theorem Dev.calDone_run {l : List AdcMeas} {m v : Nat} {x : AdcRun} {e : Dev} (hr : d.cal.run = some m) (hx : x = d.calibrate m l)
    (hs : x.d.cal.shown = [])
    (hv : (({ x.d with cal := { x.d.cal with run := none, shown := [] } }.set R.CAL_RESULT_CODE x.code).setB R.CAL_RESULT_BUSY
      false).calDetail x.done x.code = (v, e)) : d.calDone l = (e.raise Ev.CAL_DONE v).encReview := by
  subst hx
  have hshown : forEach (d.calibrate m l).d.cal.shown (fun (d : Dev) e => d.setReg e.1 e.2) (d.calibrate m l).d = (d.calibrate m l).d := by
    rw [hs]
    rfl
  simp only [Dev.calDone, hr, hshown, hv]

/-- Division that cuts toward 0, as C divides. -/
theorem tdiv_eq_ite (a b : Int) : a.tdiv b = if 0 ≤ a then a / b else -(-a / b) := by
  split
  · exact Int.tdiv_eq_ediv_of_nonneg ‹_›
  · rw [← Int.tdiv_eq_ediv_of_nonneg (show 0 ≤ -a by omega), Int.neg_tdiv, Int.neg_neg]

theorem newGain_eq (old : Int) {m : AdcMeas} {e : Int} (he : e = (m.mp - m.mn - 81920) * 16384 + 40960) :
    newGain old m = old - (if 0 ≤ e then e / 81920 else -(-e / 81920)) := by rw [newGain, ← he, tdiv_eq_ite]

section
variable {k : Nat} {m : AdcMeas} {o g : Int} (ho : o = newOfs (d.getS (R.ADC_TRIM_OFS k)) m) (hg : g = newGain (d.getS (R.ADC_TRIM_GAIN k)) m)
include ho hg

/-- A converter's new trims stand where they fit and its residuals lie within their limits. -/
theorem Dev.adcTrim_eq {b : Bool} {e f : Dev}
    (hb : (trimFits o && trimFits g && decide (m.r0.natAbs ≤ d.get R.CAL_RES_LIM_OFS) &&
      decide ((m.rp - m.r0 - 40960).natAbs ≤ d.get R.CAL_RES_LIM_GAIN)) = b)
    (he : e = ((d.set (R.ADC_CAL_TEMP k) (d.get R.CAL_TEMP)).bump (R.ADC_CAL_CNT k) 1).set (R.ADC_CAL_LAST k) (if b then 0 else 6))
    (hf : f = { e with cal := { e.cal with due := e.cal.due.filter (fun x => x != k) } }) :
    d.adcTrim k m = (b, if b then (f.set (R.ADC_TRIM_OFS k) (ofSigned 10 o)).set (R.ADC_TRIM_GAIN k) (ofSigned 10 g)
      else f.raise Ev.CAL_RESIDUAL (k + 2 ^ 16 * ofSigned 16 m.r0 + 2 ^ 32 * ofSigned 16 (m.rp - m.r0 - 40960))) := by
  subst ho hg hb he hf
  rfl

theorem Dev.adcTrim_good {e : Dev}
    (h : -512 ≤ o ∧ o ≤ 511 ∧ -512 ≤ g ∧ g ≤ 511 ∧ m.r0.natAbs ≤ d.get R.CAL_RES_LIM_OFS ∧
      (m.rp - m.r0 - 40960).natAbs ≤ d.get R.CAL_RES_LIM_GAIN)
    (he : e = ((d.set (R.ADC_CAL_TEMP k) (d.get R.CAL_TEMP)).bump (R.ADC_CAL_CNT k) 1).set (R.ADC_CAL_LAST k) 0) :
    d.adcTrim k m = (true, ({ e with cal := { e.cal with due := e.cal.due.filter (fun x => x != k) } }.set (R.ADC_TRIM_OFS k)
      (ofSigned 10 o)).set (R.ADC_TRIM_GAIN k) (ofSigned 10 g)) := by
  obtain ⟨ho1, ho2, hg1, hg2, hr0, hrp⟩ := h
  exact Dev.adcTrim_eq ho hg (b := true) (by simp [trimFits, ho1, ho2, hg1, hg2, hr0, hrp]) he rfl

theorem Dev.adcTrim_bad {e : Dev}
    (h : o < -512 ∨ 511 < o ∨ g < -512 ∨ 511 < g ∨ d.get R.CAL_RES_LIM_OFS < m.r0.natAbs ∨
      d.get R.CAL_RES_LIM_GAIN < (m.rp - m.r0 - 40960).natAbs)
    (he : e = ((d.set (R.ADC_CAL_TEMP k) (d.get R.CAL_TEMP)).bump (R.ADC_CAL_CNT k) 1).set (R.ADC_CAL_LAST k) 6) :
    d.adcTrim k m = (false, { e with cal := { e.cal with due := e.cal.due.filter (fun x => x != k) } }.raise Ev.CAL_RESIDUAL
      (k + 2 ^ 16 * ofSigned 16 m.r0 + 2 ^ 32 * ofSigned 16 (m.rp - m.r0 - 40960))) := by
  refine Dev.adcTrim_eq ho hg (b := false) ?_ he rfl
  simp only [trimFits, Bool.and_eq_false_iff, decide_eq_false_iff_not]
  omega

end

/-! ## Band-gap and die temperature (18 R474, R481, 20 R503) -/

theorem Dev.dieTemp_high {t : Int} {e : Dev} (he : e = d.putSigned R.CAL_TEMP t) (ht : 1680 ≤ t) (hh : e.cal.hot = false) :
    d.dieTemp t = { e with cal := { e.cal with hot := true } }.raise Ev.DIE_TEMP_HIGH (e.get R.CAL_TEMP) := by
  subst he
  exact if_pos ⟨ht, hh⟩

theorem Dev.dieTemp_normal {t : Int} {e : Dev} (he : e = d.putSigned R.CAL_TEMP t) (ht : t < 1600) (hh : e.cal.hot = true) :
    d.dieTemp t = { e with cal := { e.cal with hot := false } }.raise Ev.DIE_TEMP_NORMAL (e.get R.CAL_TEMP) := by
  subst he
  exact (if_neg (by omega)).trans (if_pos ⟨ht, hh⟩)

theorem Dev.dieTemp_same {t : Int} {e : Dev} (he : e = d.putSigned R.CAL_TEMP t)
    (h : t < 1680 ∧ e.cal.hot = false ∨ 1600 ≤ t ∧ e.cal.hot = true) : d.dieTemp t = e := by
  subst he
  rcases h with ⟨ht, hh⟩ | ⟨ht, hh⟩
  · exact (if_neg (by omega)).trans (if_neg (by rw [hh]; simp))
  · exact (if_neg (by rw [hh]; simp)).trans (if_neg (by omega))

section
variable {k : Nat} {t : Int} (ht : t = d.getS R.CAL_TEMP - d.getS (R.ADC_CAL_TEMP k))
include ht

theorem Dev.calDue_raised (hs : d.adcServes k = true) (hk : k ∉ d.cal.due) (hd : 16 * d.get R.CAL_TEMP_DELTA < t.natAbs) :
    d.calDue k = { d with cal := { d.cal with due := k :: d.cal.due } }.raise Ev.CAL_DUE (k + 65536 * ofSigned 16 t) := by
  subst ht
  exact if_pos (by simp [hs, hk, hd])

theorem Dev.calDue_quiet (h : d.adcServes k = false ∨ k ∈ d.cal.due ∨ t.natAbs ≤ 16 * d.get R.CAL_TEMP_DELTA) : d.calDue k = d := by
  subst ht
  refine if_neg ?_
  rcases h with h | h | h
  · simp [h]
  · simp [h]
  · simp [Nat.not_lt.mpr h]

end

theorem Dev.adcServes_encoder {k : Nat} (hk : k < 8) : d.adcServes k = d.adcInUse k := by
  have h8 : (k == 8) = false := by simpa using Nat.ne_of_lt hk
  simp [Dev.adcServes, h8]

theorem Dev.adcServes_none {k : Nat} (hk : 8 < k) : d.adcServes k = false := by
  have h8 : (k == 8) = false := by simpa using Nat.ne_of_gt hk
  have hno : ¬ k < 8 := by omega
  simp [Dev.adcServes, Dev.adcInUse, h8, hno]

/-! ## Self-test (18 R485, R486) -/

section
variable {t g a n : Nat} (ht : t = d.get R.CAL_ARG_TEST) (hg : g = d.get R.CAL_ARG_TARGET) (hr : d.bistRange t g = (a, n))
include ht hg hr

theorem Dev.bistStart_eq : d.bistStart =
    if d.is R.BIST_RESULT_BUSY then (d.set R.BIST_RESULT_CODE 1).setB R.BIST_RESULT_OVR true
    else if !d.bistArgs t g a n then d.set R.BIST_RESULT_CODE 3
    else if !d.domOn (bistDomain t g) then d.set R.BIST_RESULT_CODE 4
    else if t = 2 ∧ d.get (R.DRC_STATUS_STATE g) ≠ 3 then d.set R.BIST_RESULT_CODE 2
    else if d.bistBusy t g then d.set R.BIST_RESULT_CODE 1
    else (({ d with cal := { d.cal with bist := some ⟨t, g, a, n, false⟩ } }.set R.BIST_RESULT_CODE 0).setB
      R.BIST_RESULT_BUSY true).set64 R.BIST_POS_LO a := by
  subst ht hg
  simp only [Dev.bistStart, hr]

theorem Dev.bistStart_busy (hb : d.is R.BIST_RESULT_BUSY = true) :
    d.bistStart = (d.set R.BIST_RESULT_CODE 1).setB R.BIST_RESULT_OVR true :=
  (Dev.bistStart_eq ht hg hr).trans (if_pos hb)

section
variable (hb : d.is R.BIST_RESULT_BUSY = false)
include hb

theorem Dev.bistStart_args (h : d.bistArgs t g a n = false) : d.bistStart = d.set R.BIST_RESULT_CODE 3 := by
  rw [Dev.bistStart_eq ht hg hr, hb, h]
  rfl

section
variable (ha : d.bistArgs t g a n = true)
include ha

theorem Dev.bistStart_domain (h : d.domOn (bistDomain t g) = false) : d.bistStart = d.set R.BIST_RESULT_CODE 4 := by
  rw [Dev.bistStart_eq ht hg hr, hb, ha, h]
  rfl

section
variable (hd : d.domOn (bistDomain t g) = true)
include hd

theorem Dev.bistStart_admitted : d.bistStart =
    if t = 2 ∧ d.get (R.DRC_STATUS_STATE g) ≠ 3 then d.set R.BIST_RESULT_CODE 2
    else if d.bistBusy t g then d.set R.BIST_RESULT_CODE 1
    else (({ d with cal := { d.cal with bist := some ⟨t, g, a, n, false⟩ } }.set R.BIST_RESULT_CODE 0).setB
      R.BIST_RESULT_BUSY true).set64 R.BIST_POS_LO a := by
  rw [Dev.bistStart_eq ht hg hr, hb, ha, hd]
  rfl

theorem Dev.bistStart_state (h2 : t = 2) (h : d.get (R.DRC_STATUS_STATE g) ≠ 3) : d.bistStart = d.set R.BIST_RESULT_CODE 2 :=
  (Dev.bistStart_admitted ht hg hr hb ha hd).trans (if_pos ⟨h2, h⟩)

section
variable (h2 : t ≠ 2 ∨ d.get (R.DRC_STATUS_STATE g) = 3)
include h2

theorem Dev.bistStart_live (h : d.bistBusy t g = true) : d.bistStart = d.set R.BIST_RESULT_CODE 1 := by
  have hno : ¬(t = 2 ∧ d.get (R.DRC_STATUS_STATE g) ≠ 3) := fun ⟨h, hs⟩ => h2.elim (· h) hs
  exact (Dev.bistStart_admitted ht hg hr hb ha hd).trans ((if_neg hno).trans (if_pos h))

theorem Dev.bistStart_runs (h : d.bistBusy t g = false) : d.bistStart =
    (({ d with cal := { d.cal with bist := some ⟨t, g, a, n, false⟩ } }.set R.BIST_RESULT_CODE 0).setB
      R.BIST_RESULT_BUSY true).set64 R.BIST_POS_LO a := by
  have hno : ¬(t = 2 ∧ d.get (R.DRC_STATUS_STATE g) ≠ 3) := fun ⟨h, hs⟩ => h2.elim (· h) hs
  exact (Dev.bistStart_admitted ht hg hr hb ha hd).trans ((if_neg hno).trans (if_neg (Bool.eq_false_iff.mp h)))

end

end

end

end

end

theorem Dev.bistEnd_complete {b : BistRun} {h f c : Nat} (hc : b.count ≤ h) (hf : f = 0 ∧ c = 0 ∨ 0 < f ∧ c = 8) :
    d.bistEnd b h f = some c := by
  rcases hf with ⟨rfl, rfl⟩ | ⟨hf, rfl⟩
  · simp [Dev.bistEnd, hc]
  · simp [Dev.bistEnd, hc, Nat.ne_of_gt hf]

theorem Dev.bistEnd_aborted {b : BistRun} {h f : Nat} (hc : h < b.count)
    (ha : b.abort = true ∨ d.bistLive b.test b.target = true ∨ b.test = 2 ∧ d.chIn b.target = false) : d.bistEnd b h f = some 7 := by
  have hany : (b.abort || d.bistLive b.test b.target || (b.test == 2 && !d.chIn b.target)) = true := by
    rcases ha with ha | ha | ⟨ha, hch⟩
    · simp [ha]
    · simp [ha]
    · simp [ha, hch]
  exact (if_neg (Nat.not_le.mpr hc)).trans (if_pos hany)

end

section
variable {s : State} {h f w : Nat} (hup : Up s)
include hup

theorem runs_bistDone_none (hb : s.dev.cal.bist = none) : Runs (.bistDone h f w) s s.dev := by
  simp only [Runs, exec, execBistDone, onDev_awake _ hup.1, hb]

variable {b : BistRun} (hb : s.dev.cal.bist = some b)
include hb

/-- The end of a run reports its words, or where it was cut off the failing ones it met. -/
theorem runs_bistDone {c : Nat} {d : Dev} (hc : s.dev.bistEnd b h f = some c)
    (hd : d = if c = 7 then
        (if 0 < f then ((s.dev.set64 R.BIST_FAIL_WORD_LO w).bump R.BIST_FAIL_CNT f).bistFail b.test b.target w else s.dev)
      else s.dev.bistReport b.test b.target f w) :
    Runs (.bistDone h f w) s ((((({ d with cal := { d.cal with bist := none } }.set R.BIST_RESULT_CODE c).setB R.BIST_RESULT_BUSY
      false).set64 R.BIST_POS_LO (b.start + min h b.count)).raise Ev.BIST_DONE (b.test + 256 * c + 65536 * (f % 2 ^ 32)))) := by
  subst hd
  simp only [Runs, exec, execBistDone, onDev_awake _ hup.1, hb, hc]

end

end Sys2Proof.Machine

open Sys2Proof Sys2Proof.Machine

/-- Settles O57: the calibration command by its checks, a converter by its trims and residuals, the references and the die temperature by
their thresholds. -/
theorem calibrates : Obligations.Calibrates := by
  unfold Obligations.Calibrates
  refine ⟨fun s hup => ⟨fun hb => ?busy, fun hb hm => ?empty, fun hb hm => ⟨fun h8 => ?domain, fun h8 => ?starts⟩⟩,
    fun s l hup hr => runs_of_onDev hup rfl (Dev.calDone_none hr),
    fun s l m x d v hup hr hx hs hv => runs_of_onDev hup rfl (Dev.calDone_run hr hx hs hv),
    fun d e k m o g e1 hk ho he1 hg => ⟨fun h he => ?good, fun h he => ?bad⟩,
    fun s x d hup hd => ⟨fun hx hb => ?drift, fun h => ?noDrift⟩,
    fun s t d e hup hd => ⟨fun ht hh he => ?high, fun ht hh he => ?normal, fun h => ?same⟩,
    fun d k t ht => ⟨Dev.calDue_raised ht, Dev.calDue_quiet ht⟩,
    fun d => ⟨fun k => Dev.adcServes_encoder, fun k => Dev.adcServes_none⟩⟩
  case busy => exact runs_of_onHost hup rfl (Dev.calAdc_busy hb)
  case empty => exact runs_of_onHost hup rfl (Dev.calAdc_empty hb hm)
  case domain => exact runs_of_onHost hup rfl (Dev.calAdc_domain hb hm h8)
  case starts => exact runs_of_onHost hup rfl (Dev.calAdc_starts hb hm h8)
  case good => exact Dev.adcTrim_good ho (hg.trans (newGain_eq _ he1).symm) h he
  case bad => exact Dev.adcTrim_bad ho (hg.trans (newGain_eq _ he1).symm) h he
  case drift =>
    subst hd
    exact runs_of_onDev hup rfl (if_pos ⟨hx, hb⟩)
  case noDrift =>
    subst hd
    refine runs_of_onDev hup rfl (if_neg (fun ⟨hx, hb⟩ => ?_))
    rcases h with h | h
    · omega
    · rw [hb] at h
      exact absurd h (by decide)
  case high => exact runs_of_onDev hup rfl (by rw [Dev.dieTemp_high hd ht hh, he]; rfl)
  case normal => exact runs_of_onDev hup rfl (by rw [Dev.dieTemp_normal hd ht hh, he]; rfl)
  case same => exact runs_of_onDev hup rfl (by rw [Dev.dieTemp_same hd h]; rfl)

/-- Settles O58: a request by the first of its checks that fails, the end of a run by what it handled and what cut it off. -/
theorem selfTests : Obligations.SelfTests := by
  unfold Obligations.SelfTests
  refine ⟨fun s t g a n hup ht hg hr => ⟨fun hb => ?busy, fun hb => ⟨fun ha => ?args, fun ha => ⟨fun hd => ?domain,
      fun hd => ⟨fun h2 h => ?state, fun h2 => ⟨fun h => ?live, fun h => ?runs⟩⟩⟩⟩⟩,
    fun s hup => ⟨fun hb => ?abortNone, fun b hb => ?abort⟩, fun s h f w hup hb => runs_bistDone_none hup hb,
    fun s h f w b c d hup hb hc hf hd => ?complete, fun s h b hup hb hc ha => ?cutOff⟩
  case busy => exact runs_of_onHost hup rfl (Dev.bistStart_busy ht hg hr hb)
  case args => exact runs_of_onHost hup rfl (Dev.bistStart_args ht hg hr hb ha)
  case domain => exact runs_of_onHost hup rfl (Dev.bistStart_domain ht hg hr hb ha hd)
  case state => exact runs_of_onHost hup rfl (Dev.bistStart_state ht hg hr hb ha hd h2 h)
  case live => exact runs_of_onHost hup rfl (Dev.bistStart_live ht hg hr hb ha hd h2 h)
  case runs => exact runs_of_onHost hup rfl (Dev.bistStart_runs ht hg hr hb ha hd h2 h)
  case abortNone => exact runs_of_onHost hup rfl (by rw [hb]; rfl)
  case abort => exact runs_of_onHost hup rfl (by rw [hb]; rfl)
  case complete =>
    have h7 : c ≠ 7 := by omega
    have hrun := runs_bistDone (w := w) hup hb (Dev.bistEnd_complete hc hf) (hd.trans (if_neg h7).symm)
    rwa [Nat.min_eq_right hc] at hrun
  case cutOff =>
    have hrun := runs_bistDone (f := 0) (w := 0) hup hb (Dev.bistEnd_aborted hc ha) rfl
    rwa [Nat.min_eq_left (Nat.le_of_lt hc)] at hrun

end

-- Firmware update (19 R488, R491–R495).
section
/-! PROOFS. An update command by what turns it away, then what each does once admitted; the checks of a bundle in their order. -/

namespace Sys2Proof.Machine

open Sys2Proof

/-! ## Acceptance of an update command (19 R488, R491) -/

theorem Dev.staging_of_code {d : Dev} {n : Nat} (h : d.get R.UPD_STATUS_STATE = n) (l : List Staging) :
    d.staging l = l.any (fun x => n == x.code) := by
  subst h
  rfl

theorem Dev.staging_single {d : Dev} {x : Staging} (h : d.get R.UPD_STATUS_STATE ≠ x.code) : d.staging [x] = false := by
  simp [Dev.staging, h]

theorem begin_outside : ∀ n ∈ [1, 3, 6], beginFrom.any (fun x => n == x.code) = false := by decide

theorem begin_within : ∀ n ∈ [0, 2, 4, 5, 7], beginFrom.any (fun x => n == x.code) = true := by decide

theorem cancel_outside : ∀ n ∈ [1, 3], cancelFrom.any (fun x => n == x.code) = false := by decide

section
variable {b : Bool} {l : List Staging} {f : Dev → NonVol → Dev × NonVol} {d : Dev} {v : NonVol}

theorem updCmd_busy (h : d.is R.UPD_RESULT_BUSY = true) : updCmd b l f d v = (d.setB R.UPD_RESULT_OVR true, v) := if_pos h

section
variable (hb : d.is R.UPD_RESULT_BUSY = false)
include hb

theorem updCmd_store (hs : d.is R.DEV_STORE_RESULT_BUSY = true) : updCmd true l f d v = (d.set R.UPD_RESULT_CODE 1, v) :=
  (if_neg (Bool.eq_false_iff.mp hb)).trans (if_pos hs)

variable (hs : d.is R.DEV_STORE_RESULT_BUSY = false)
include hs

theorem updCmd_state (hl : d.staging l = false) : updCmd b l f d v = (d.set R.UPD_RESULT_CODE 2, v) := by
  simp only [updCmd, hb, Bool.false_eq_true, if_false, show d.storeBusy = false from hs, Bool.and_false, hl, Bool.not_false, if_true,
    Dev.updResult]

theorem updCmd_admitted (hl : d.staging l = true) : updCmd b l f d v = f d v := by
  simp only [updCmd, hb, Bool.false_eq_true, if_false, show d.storeBusy = false from hs, Bool.and_false, hl, Bool.not_true]

end

end

section
variable {c : Instr} {s : State} {f : Dev → NonVol → Dev × NonVol} {d : Dev}

theorem gives_of_onHostNv {v : NonVol} (hup : Up s) (hc : exec c s = onHostNv f s) (h : f s.dev s.nv = (d, v)) :
    Gives c s { s with dev := d, nv := v } :=
  gives_of_onDevNv hup hc ((if_neg hup.2).trans h)

theorem runs_of_onHostNv (hup : Up s) (hc : exec c s = onHostNv f s) (h : f s.dev s.nv = (d, s.nv)) : Runs c s d :=
  gives_of_onHostNv hup hc h

end

/-! ## The commands that write a block -/

/-- A block over PCIe, with the offset and the bytes its registers hold. -/
def hostBlock (e : Bool) (d : Dev) (v : NonVol) : Dev × NonVol :=
  updBlock (d.get R.UPD_BLK_OFS) (d.updBuf (d.get R.UPD_BLK_LEN)) e d v

theorem hostBlock_of_refused {e : Bool} {d : Dev} {v : NonVol} {r : Dev × NonVol} (h : ∀ f, updCmd true [.loading] f d v = r) :
    hostBlock e d v = r := by
  unfold hostBlock updBlock
  exact h _

section
variable {s : State} {e : Bool} {d : Dev} (hup : Up s)
include hup

theorem gives_updBlock {v : NonVol} (h : hostBlock e s.dev s.nv = (d, v)) :
    Gives (.updBlock e) s { s with dev := d, nv := v } := gives_of_onHostNv (f := hostBlock e) hup rfl h

theorem gives_updActivate {v : NonVol} (h : updActivate e s.dev s.nv = (d, v)) :
    Gives (.updActivate e) s { s with dev := d, nv := v } := gives_of_onHostNv (f := updActivate e) hup rfl h

theorem gives_updCancel {v : NonVol} (h : updCancel e s.dev s.nv = (d, v)) :
    Gives (.updCancel e) s { s with dev := d, nv := v } := gives_of_onHostNv (f := updCancel e) hup rfl h

theorem runs_updBegin (h : updBegin s.dev s.nv = (d, s.nv)) : Runs .updBegin s d := runs_of_onHostNv (f := updBegin) hup rfl h

theorem runs_updVerify (h : updVerify s.dev s.nv = (d, s.nv)) : Runs .updVerify s d := runs_of_onHostNv (f := updVerify) hup rfl h

/-- While a command runs, and while a store command holds the flash, each command is turned away alike. -/
theorem update_commands_refused (hd : ∀ l f, updCmd true l f s.dev s.nv = (d, s.nv)) (e : Bool) :
    Runs .updBegin s d ∧ Runs (.updBlock e) s d ∧ Runs .updVerify s d ∧ Runs (.updActivate e) s d :=
  ⟨runs_updBegin hup (hd beginFrom _), gives_updBlock hup (hostBlock_of_refused (hd _)), runs_updVerify hup (hd [.loading] _),
    gives_updActivate hup (hd [.verified] _)⟩

end

section
variable {d e : Dev} {v : NonVol}

/-! ## Blocks (19 R493) -/

section
variable {o n : Nat}

theorem Dev.blockCode_elsewhere (h : o ≠ d.get R.UPD_NEXT) : d.blockCode o n = 4 := if_pos h

section
variable (ho : o = d.get R.UPD_NEXT)
include ho

theorem Dev.blockCode_length (h : n < 4 ∨ 4096 < n ∨ n % 4 ≠ 0 ∧ o + n ≠ d.get R.UPD_TOTAL) : d.blockCode o n = 3 :=
  (if_neg (not_not_intro ho)).trans (if_pos h)

section
variable (hn : ¬ (n < 4 ∨ 4096 < n ∨ n % 4 ≠ 0 ∧ o + n ≠ d.get R.UPD_TOTAL))
include hn

theorem Dev.blockCode_past_end (h : d.get R.UPD_TOTAL < o + n) : d.blockCode o n = 5 :=
  (if_neg (not_not_intro ho)).trans ((if_neg hn).trans (if_pos h))

theorem Dev.blockCode_ok (h : o + n ≤ d.get R.UPD_TOTAL) : d.blockCode o n = 0 :=
  (if_neg (not_not_intro ho)).trans ((if_neg hn).trans (if_neg (Nat.not_lt.mpr h)))

end

end

end

section
variable (hb : d.is R.UPD_RESULT_BUSY = false) (hs : d.is R.DEV_STORE_RESULT_BUSY = false)
include hb hs

section
variable {o c : Nat} {l : List Byte} {b : Bool} (hst : d.get R.UPD_STATUS_STATE = 2)
include hst

theorem updBlock_admitted : updBlock o l b d v =
    (let c := d.blockCode o l.length
    if c ≠ 0 then (d.updResult c, v)
    else if b then ((d.updTake.updResult 6).raise Ev.UPD_FLASH (0x310000 + o), v)
    else (d.updTake.set R.UPD_NEXT (o + l.length),
      { v with flash := { v.flash with staging := v.flash.staging ++ l } })) :=
  updCmd_admitted hb hs (Dev.staging_of_code hst _)

theorem updBlock_refused (hc : d.blockCode o l.length = c) (h0 : c ≠ 0) : updBlock o l b d v = (d.set R.UPD_RESULT_CODE c, v) := by
  subst hc
  exact (updBlock_admitted hb hs hst).trans (if_pos h0)

theorem updBlock_appended (hc : d.blockCode o l.length = 0) : updBlock o l false d v =
    (d.updTake.set R.UPD_NEXT (o + l.length), { v with flash := { v.flash with staging := v.flash.staging ++ l } }) :=
  (updBlock_admitted hb hs hst).trans ((if_neg (not_not_intro hc)).trans (if_neg Bool.false_ne_true))

theorem updBlock_flash_error (hc : d.blockCode o l.length = 0) : updBlock o l true d v =
    ((d.updTake.updResult 6).raise Ev.UPD_FLASH (0x310000 + o), v) :=
  (updBlock_admitted hb hs hst).trans ((if_neg (not_not_intro hc)).trans (if_pos rfl))

theorem updVerify_starts : updVerify d v = ((d.updTake.setB R.UPD_RESULT_BUSY true).set R.UPD_STATUS_STATE 3, v) :=
  updCmd_admitted hb hs (Dev.staging_of_code hst _)

end

/-! ## BEGIN (19 R492) -/

section
variable (hst : d.get R.UPD_STATUS_STATE ∈ [0, 2, 4, 5, 7])
include hst

theorem updBegin_admitted : updBegin d v =
    (let n := d.get R.UPD_TOTAL
    if n < 1024 ∨ 3145728 < n then (d.updResult 3, v)
    else (((d.updTake.setB R.UPD_RESULT_BUSY true).setStaging .erasing).set R.UPD_NEXT 0,
      { v with flash := { v.flash with staging := [] } })) :=
  updCmd_admitted hb hs ((Dev.staging_of_code rfl _).trans (begin_within _ hst))

theorem updBegin_bad_length (h : d.get R.UPD_TOTAL < 1024 ∨ 3145728 < d.get R.UPD_TOTAL) :
    updBegin d v = (d.set R.UPD_RESULT_CODE 3, v) := (updBegin_admitted hb hs hst).trans (if_pos h)

theorem updBegin_erases (h : 1024 ≤ d.get R.UPD_TOTAL) (h' : d.get R.UPD_TOTAL ≤ 3145728) : updBegin d v =
    (((d.updTake.setB R.UPD_RESULT_BUSY true).set R.UPD_STATUS_STATE 1).set R.UPD_NEXT 0,
      { v with flash := { v.flash with staging := [] } }) :=
  (updBegin_admitted hb hs hst).trans (if_neg (not_or.mpr ⟨Nat.not_lt.mpr h, Nat.not_lt.mpr h'⟩))

end

/-! ## ACTIVATE and CANCEL (19 R495) -/

theorem updActivate_pending {l : List Byte} (hl : l = v.flash.staging) (hst : d.get R.UPD_STATUS_STATE = 4) :
    updActivate false d v = (d.updTake.set R.UPD_STATUS_STATE 6,
      { v with flash := { v.flash with
          journal := { pending := some (leAt l 8 4, leAt l 0xC 4, sha256 (l.take (192 + 48 * leAt l 0x15 1))) } } }) := by
  subst hl
  exact (updCmd_admitted hb hs (Dev.staging_of_code hst _)).trans (if_neg Bool.false_ne_true)

theorem updCancel_pending {b : Bool} (hst : d.get R.UPD_STATUS_STATE = 6) : updCancel b d v =
    if b then (d.updTake.updResult 6, v)
    else (d.updTake.setStaging .verified, { v with flash := { v.flash with journal := {} } }) :=
  (updCmd_admitted hb hs (Dev.staging_of_code hst _)).trans (if_pos (Dev.staging_of_code hst _))

theorem updCancel_not_pending {b : Bool} {n : Nat} (hst : d.get R.UPD_STATUS_STATE = n)
    (hn : cancelFrom.any (fun x => n == x.code) = true) (h6 : (n == 6) = false) : updCancel b d v =
    if d.staging [.empty, .activated] then (d.updTake, v) else (d.updTake.setStaging .empty, v) := by
  have hp : d.staging [.pending] = false := (Dev.staging_of_code hst _).trans (by simp [Staging.code, h6])
  exact (updCmd_admitted hb hs ((Dev.staging_of_code hst _).trans hn)).trans (if_neg (Bool.eq_false_iff.mp hp))

theorem updCancel_empties {b : Bool} (hst : d.get R.UPD_STATUS_STATE ∈ [2, 4, 5]) :
    updCancel b d v = (d.updTake.set R.UPD_STATUS_STATE 0, v) := by
  have key : ∀ n ∈ [2, 4, 5], cancelFrom.any (fun x => n == x.code) = true ∧ (n == 6) = false ∧
      [Staging.empty, .activated].any (fun x => n == x.code) = false := by decide
  obtain ⟨hn, h6, h07⟩ := key _ hst
  exact (updCancel_not_pending hb hs rfl hn h6).trans (if_neg (Bool.eq_false_iff.mp ((Dev.staging_of_code rfl _).trans h07)))

theorem updCancel_without_effect {b : Bool} (hst : d.get R.UPD_STATUS_STATE ∈ [0, 7]) : updCancel b d v = (d.updTake, v) := by
  have key : ∀ n ∈ [0, 7], cancelFrom.any (fun x => n == x.code) = true ∧ (n == 6) = false ∧
      [Staging.empty, .activated].any (fun x => n == x.code) = true := by decide
  obtain ⟨hn, h6, h07⟩ := key _ hst
  exact (updCancel_not_pending hb hs rfl hn h6).trans (if_pos ((Dev.staging_of_code rfl _).trans h07))

end

end

/-! ## The checks of a bundle (19 R494, Table 19.4) -/

section
variable {l : List Byte} {c : Nat} {r : Option Nat}

theorem bundleCheck_header (h : headerOk l = false) : bundleCheck l r c = some (1, 0) := by
  simp only [bundleCheck, h, Bool.not_false, if_true]

theorem bundleCheck_received {n : Nat} (h : headerOk l = true) (hn : n ≠ leAt l 8 4) : bundleCheck l (some n) c = some (2, 0) := by
  simp only [bundleCheck, h, Bool.not_true, Bool.false_eq_true, if_false, Option.map_some, Option.getD_some,
    bne_iff_ne.mpr hn, if_true]

/-- A check that names what failed has passed where nothing is named, and so have those after it. -/
theorem of_ite_some_eq_none {α : Type} {p : Prop} [Decidable p] {x : α} {o : Option α} (h : (if p then some x else o) = none) :
    ¬ p ∧ o = none := by
  by_cases hp : p
  · rw [if_pos hp] at h
    cases h
  · exact ⟨hp, (if_neg hp).symm.trans h⟩

/-- A bundle that passes every check has a sound header, sound parts, a good signature and a security version that is not too low. -/
theorem of_bundleCheck_none (h : bundleCheck l r c = none) :
    headerOk l = true ∧ partsOk l = true ∧ signatureOk l = true ∧ c ≤ bundleSvn l := by
  unfold bundleCheck at h
  obtain ⟨hheader, h⟩ := of_ite_some_eq_none h
  obtain ⟨-, h⟩ := of_ite_some_eq_none h
  obtain ⟨hparts, h⟩ := of_ite_some_eq_none h
  obtain ⟨-, h⟩ := of_ite_some_eq_none h
  obtain ⟨hsig, h⟩ := of_ite_some_eq_none h
  obtain ⟨hsvn, -⟩ := of_ite_some_eq_none h
  exact ⟨by simpa using hheader, by simpa using hparts, by simpa using hsig, Nat.not_lt.mp hsvn⟩

theorem bundleCheck_ne_none (h : headerOk l = false ∨ partsOk l = false ∨ signatureOk l = false ∨ leAt l 0x14 1 < c) :
    bundleCheck l r c ≠ none := by
  intro hc
  obtain ⟨h1, h3, h5, h6⟩ := of_bundleCheck_none hc
  rcases h with h | h | h | h
  · exact Bool.false_ne_true (h.symm.trans h1)
  · exact Bool.false_ne_true (h.symm.trans h3)
  · exact Bool.false_ne_true (h.symm.trans h5)
  · exact absurd h (Nat.not_lt.mpr h6)

end

theorem Dev.verified_eq {d e : Dev} {v : NonVol} {l : List Byte} {o : Option (Nat × Nat)} (hl : l = v.flash.staging)
    (he : e = d.setB R.UPD_RESULT_BUSY false) (ho : bundleCheck l (some (d.get R.UPD_NEXT)) v.fuses = o) :
    d.verified v = match o with
      | some (c, p) => ((((e.set R.UPD_RESULT_CODE 7).set R.UPD_STATUS_STATE 5).set R.UPD_VERIFY_ERR_CHECK c).set R.UPD_VERIFY_ERR_PART
          p).raise Ev.UPD_VERIFY_FAIL (c + 256 * p)
      | none => ((((e.set R.UPD_RESULT_CODE 0).set R.UPD_STATUS_STATE 4).set R.UPD_STAGED_VER (leAt l 0xC 4)).set R.UPD_STAGED_SVN
          (leAt l 0x14 1)).raise Ev.UPD_VERIFIED (leAt l 0xC 4 + 2 ^ 32 * leAt l 0x14 1) := by
  subst hl he
  unfold Dev.verified
  simp only [ho]
  cases o <;> rfl

/-- The end of the staging erase, once it is expected. -/
theorem eraseDone_erasing {d : Dev} {b : Bool} (h : d.get R.UPD_STATUS_STATE = 1) : (if d.staging [.erasing] then
      ((d.setB R.UPD_RESULT_BUSY false).updResult (if b then 0 else 6)).setStaging (if b then .loading else .empty)
    else d) = ((d.setB R.UPD_RESULT_BUSY false).updResult (if b then 0 else 6)).setStaging (if b then .loading else .empty) :=
  if_pos (Dev.staging_of_code h _)

end Sys2Proof.Machine

open Sys2Proof Sys2Proof.Machine

/-- Settles O59: an update command by who holds the flash and the staging state, then each command's own effect, and the checks of a
bundle in the order of Table 19.4. -/
theorem bundleUpdates : Obligations.BundleUpdates := by
  unfold Obligations.BundleUpdates
  refine ⟨fun s e hup => ⟨?busy, ?store, ?state⟩, ?begin, fun s hup => ⟨fun h1 => ?erased, fun h1 b => ?noErase⟩, ?block, ?rest,
    fun s l d hup hl hd h3 o ho => ?verified, fun s hup h3 => ?noVerify, fun l c r h => bundleCheck_header h,
    fun l c n h hn => bundleCheck_received h hn, fun l c r h => bundleCheck_ne_none h⟩
  case busy =>
    rintro hb d rfl
    obtain ⟨h1, h2, h3, h4⟩ := update_commands_refused hup (fun _ _ => updCmd_busy hb) e
    exact ⟨h1, h2, h3, h4, gives_updCancel hup (updCmd_busy hb)⟩
  case store =>
    rintro hb hs d rfl
    exact update_commands_refused hup (fun _ _ => updCmd_store hb hs) e
  case state =>
    rintro hb hs d rfl
    exact ⟨fun h => runs_updBegin hup (updCmd_state hb hs ((Dev.staging_of_code rfl _).trans (begin_outside _ h))),
      fun h => ⟨gives_updBlock hup (hostBlock_of_refused fun _ => updCmd_state hb hs (Dev.staging_single (x := .loading) h)),
        runs_updVerify hup (updCmd_state hb hs (Dev.staging_single (x := .loading) h))⟩,
      fun h => gives_updActivate hup (updCmd_state hb hs (Dev.staging_single (x := .verified) h)),
      fun h => gives_updCancel hup (updCmd_state hb hs ((Dev.staging_of_code rfl _).trans (cancel_outside _ h)))⟩
  case begin =>
    rintro s n d hup hb hs hst rfl rfl
    exact ⟨fun h => runs_updBegin hup (updBegin_bad_length hb hs hst h),
      fun h h' => gives_of_onHostNv (f := updBegin) hup rfl (updBegin_erases hb hs hst h h')⟩
  case erased => exact ⟨runs_of_onDev hup rfl (eraseDone_erasing (b := true) h1), runs_of_onDev hup rfl (eraseDone_erasing (b := false) h1)⟩
  case noErase => exact runs_of_onDev hup rfl (if_neg (Bool.eq_false_iff.mp (Dev.staging_single h1)))
  case block =>
    rintro s o n l d hup hb hs hst rfl rfl rfl rfl
    refine ⟨fun ho e => gives_updBlock hup (updBlock_refused hb hs hst (Dev.blockCode_elsewhere ho) (by decide)),
      fun ho hn e => gives_updBlock hup (updBlock_refused hb hs hst (Dev.blockCode_length ho hn) (by decide)),
      fun ho h4 h5 hm ht e =>
        gives_updBlock hup (updBlock_refused hb hs hst (Dev.blockCode_past_end ho (by omega) ht) (by decide)),
      fun ho h4 h5 hm ht => ?_⟩
    have hc := Dev.blockCode_ok ho (by omega) ht
    exact ⟨gives_updBlock hup (updBlock_appended hb hs hst hc), gives_updBlock hup (updBlock_flash_error hb hs hst hc)⟩
  case rest =>
    rintro s d hup hb hs rfl
    exact ⟨fun h => runs_updVerify hup (updVerify_starts hb hs h),
      fun h l hl => gives_updActivate hup (updActivate_pending hb hs hl h),
      fun h => ⟨gives_updCancel hup (updCancel_pending hb hs h), gives_updCancel hup (updCancel_pending hb hs h)⟩,
      fun h e => gives_updCancel hup (updCancel_empties hb hs h),
      fun h e => gives_updCancel hup (updCancel_without_effect hb hs h)⟩
  case verified =>
    exact runs_of_onDev hup rfl ((if_pos (Dev.staging_of_code h3 _)).trans ((Dev.verified_eq hl hd ho).trans (by cases o <;> rfl)))
  case noVerify => exact runs_of_onDev hup rfl (if_neg (Bool.eq_false_iff.mp (Dev.staging_single h3)))

end
